-- ==== Sys2Proof/Word.lean ====
section
/-! DEFINITION. The word types of the KV96-M48 model and their plainest arithmetic. -/

namespace Sys2Proof

/-- One byte of memory or of a packet. -/
abbrev Byte := BitVec 8

/-- A control-space register: 64 bits (R5). -/
abbrev Reg := BitVec 64

/-- An entry: 1 KiB, the unit of every queue and of every memory space (R95, R162).
Byte `i` of the entry is bits `[8i + 7:8i]`, so every field is little-endian (R5). -/
abbrev Entry := BitVec 8192

/-- An instruction word of a press stream (R128). -/
abbrev PressWord := BitVec 128

/-- A SHA3-256 digest; byte `i` is bits `[8i + 7:8i]`. -/
abbrev Digest := BitVec 256

/-- A table indexed by a number, held as a list in strictly rising key order. -/
abbrev KMap (α : Type) := List (Nat × α)

end Sys2Proof
end

