-- ==== Sys2Proof/Syntax.lean ====
section
/-! DEFINITION. The commands of the block: `Instr`, one constructor per row of the opcode table, and
the operand types they carry (presses, streams, units, causes, descriptors, the parts of a forme). -/

namespace Sys2Proof

/-! ## Places and units -/

/-- A press, 0 to 95 (R15). -/
abbrev PressId := Fin 96
/-- A near-tier sequencer, S0 to S31 (R13). -/
abbrev SeqId := Fin 32
/-- A fabric port, P0 to P31 (R197). -/
abbrev PortId := Fin 32
/-- A link-layer port: 0 to 31 are P0 to P31, and 32 is the companion link KCL (R231, R501). -/
abbrev LinkId := Fin 33
/-- A CXL root port (R190). -/
abbrev FarId := Fin 2
/-- A signal box, SB0 to SB5 (R429). -/
abbrev BoxId := Fin 6

/-- The three streams of a press (R126). -/
inductive StreamId where
  | m | v | x
  deriving DecidableEq, Repr

/-- The causes of a hold (R35), in the order of their codes 0 to 8. -/
inductive Cause where
  | nearLate | farLate | linkLate | refresh | retrain | brake | envelope | debug | firmware
  deriving DecidableEq, Repr

/-- The units that follow marks and raise holds (R30, R31). -/
inductive UnitId where
  /-- a stream of a press -/
  | stream (p : PressId) (s : StreamId)
  /-- a near-tier sequencer -/
  | seq (s : SeqId)
  /-- a CXL root port's far stream -/
  | far (f : FarId)
  /-- the despatcher of a fabric port -/
  | despatcher (p : PortId)
  /-- the sampler -/
  | sampler
  /-- the refresh logic of the near tier -/
  | refresh
  /-- the retraining of a near channel -/
  | nearRetrain (s : SeqId)
  /-- the retraining of a link port -/
  | linkRetrain (p : LinkId)
  /-- the power controller -/
  | power
  /-- a signal box -/
  | box (b : BoxId)
  deriving DecidableEq, Repr

/-- What an error-correcting code found at one read (R167, R186). -/
inductive Ecc where
  /-- no error -/
  | clean
  /-- a corrected error -/
  | corrected
  /-- an uncorrectable error in item `i` of what was read -/
  | uncorrectable (i : Nat)
  deriving DecidableEq, Repr

/-- What the instruction memory's code found at the fetch of one instruction (R149). -/
inductive FetchEcc where
  /-- no error -/
  | clean
  /-- a corrected error -/
  | corrected
  /-- uncorrectable in the memory; fetched again from press store -/
  | refetched
  /-- uncorrectable in press store too: executed as a NOP -/
  | unreadable
  deriving DecidableEq, Repr

/-- What the codes found in what a command reads, item by item: an item stands in `corrected` once for each word corrected, and in
`uncorrectable` where a word was beyond correction (R92, R103, R167). -/
structure Reads where
  corrected : List Nat
  uncorrectable : List Nat
  deriving DecidableEq, Repr, Inhabited

/-- Reads that met no error. -/
abbrev Reads.clean : Reads := ⟨[], []⟩

/-- An entry that reaches its press, and what the code finds in the landing-list records that lie at byte addresses of press
store (R167, R173). -/
structure LandingCase where
  source : BitVec 8
  list : Reads
  deriving DecidableEq, Repr

/-- One instruction issued by a press stream: the press, the stream, the 128-bit word (R128) and what the
codes over the instruction memory and over the data it reads found. -/
structure Issue where
  press : PressId
  stream : StreamId
  word : PressWord
  fetch : FetchEcc
  read : Reads
  deriving DecidableEq, Repr

/-- The outcome of one near-tier access (R186): EDC mismatches met, and what the on-die ECC reported. -/
structure NearAccess where
  edc : Nat
  ecc : Ecc
  deriving DecidableEq, Repr

/-- A signal box whose services have come up, and the ledger slots that SB4 then finds uncorrectable (R189, R470). -/
structure BoxServices where
  box : BoxId
  unread : List (BitVec 16)
  deriving DecidableEq, Repr

/-- The outcome of one far-tier access (R194): link-level retries, and poison or an uncorrectable response. -/
structure FarAccess where
  retries : Nat
  poison : Bool
  deriving DecidableEq, Repr

/-- A command descriptor as it lies in a submission ring (R419), with the ring it was taken from.
`p` holds the inline parameters, bytes 24 to 63 of the descriptor. -/
structure Descriptor where
  ring : Fin 64
  opcode : BitVec 16
  flags : BitVec 8
  reserved : BitVec 8
  commandId : BitVec 32
  block : BitVec 64
  blockLength : BitVec 32
  reply : BitVec 32
  p : BitVec 320
  deriving DecidableEq, Repr

/-- A frame as the receive decoder hands it on (R204): head, packet bytes, and whether a FEC codeword that
holds part of it was uncorrectable (R205), and how many of its codewords had symbols corrected (LINK_FEC). -/
structure Frame where
  head : BitVec 64
  packet : List Byte
  fecBad : Bool
  corrected : BitVec 16
  deriving DecidableEq, Repr

/-- What lane training or a retrain reached at a port (R197, R199, R227): the lanes locked here, the width the
partner reached (0 x4, 1 x2, 2 x1), the rate, and the reach class the partner sent. -/
structure TrainResult where
  good : BitVec 16
  partnerWidth : BitVec 2
  rate : BitVec 2
  partnerReach : BitVec 2
  deriving DecidableEq, Repr

/-! ## The parts of a forme (R351 to R354) -/

/-- One row of a queue table (R97): capacity, producer code, consumer code. -/
structure QueueRow where
  cap : Nat
  producer : Nat
  consumer : Nat
  deriving DecidableEq, Repr

/-- The timetable section (R57). `endCount`, and each row of `envelope`, are indexed by operating point. -/
structure Timetable where
  pressCount : Nat
  chipCount : Nat
  points : BitVec 3
  endCount : List Nat
  /-- per unit class of R37, the entries at Stopping, Semi-fast and Express -/
  envelope : List (List Nat)
  launchMargin : Nat
  planWatchdog : Nat
  barrierTimeout : Nat
  drainLimit : Nat
  abortLimit : Nat
  /-- parent of each logical chip; 0xFFFF_FFFF at the root -/
  parent : List Nat
  deriving DecidableEq, Repr

/-- Where an item lies in a press store through a platform: press slot, platform, offset in KiB (R293). -/
structure PlatRef where
  slot : Nat
  platform : Nat
  offset : Nat
  deriving DecidableEq, Repr

/-- A route: the entries packed 6 bits each, the next in bits [5:0], and how many there are (R236). -/
structure Route where
  path : BitVec 84
  hops : Nat
  deriving DecidableEq, Repr

/-- The serving section (R293). -/
structure Serving where
  desk : Nat
  stage : List Nat
  stages : Nat
  berths : Nat
  chunk : Nat
  proofMax : Nat
  layers : List Nat
  positionBytes : Nat
  kvHeads : Nat
  headDim : Nat
  frames : Nat
  sliceSlots : Nat
  sparseN : Nat
  sparseSlots : Nat
  liveryLimit : Nat
  admitScan : Nat
  sheet : List PlatRef
  voidRoute : List Route
  deriving DecidableEq, Repr

/-- One picker of the sampler plan (R327). -/
structure Picker where
  slot : Nat
  first : Nat
  ids : Nat
  deriving DecidableEq, Repr

/-- The sampler plan (R327). -/
structure SamplerPlan where
  vocabSize : Nat
  pickers : List Picker
  vocabTable : Nat
  stageSlots : Nat
  stageBytes : Nat
  liveryList : PlatRef
  deriving DecidableEq, Repr

/-- One record of the tensor table (R362). -/
structure Tensor where
  id : Nat
  format : Nat
  paired : Bool
  farPermitted : Bool
  tensorScale : Bool
  k : Nat
  n : Nat
  deriving DecidableEq, Repr

/-- One record of the route list (R241). -/
structure FlowRec where
  route : Route
  sourceSlot : Nat
  sourceChip : Nat
  keyIndex : Nat
  deriving DecidableEq, Repr

/-- One tile or scale entry that the chip keeps (R364). `tile` is 0xFFFF_FFFF for the scale entry;
`cls` is the residency class of R17. -/
structure PlaceRec where
  tensor : Nat
  tile : Nat
  cls : Nat
  slot : Nat
  addr : Nat
  deriving DecidableEq, Repr

/-- A node of the concourse (R169 to R171). -/
inductive Node where
  | press (p : PressId)
  | seq (s : SeqId)
  | west
  | east
  deriving DecidableEq, Repr

/-- One flow of the lane table (R171): source, destination and lane. -/
structure LaneRec where
  src : Node
  dst : Node
  lane : Nat
  deriving DecidableEq, Repr

/-- One platform of a press slot (R165): number, size in KiB and the bases of its two sides. -/
structure PlatformRec where
  number : Nat
  size : Nat
  base0 : Nat
  base1 : Nat
  deriving DecidableEq, Repr

/-- One slice slot of the page map (R308). -/
structure SliceSlot where
  slot : Nat
  listKiB : Nat
  listLane : Nat
  spanKiB : Nat
  spanLane : Nat
  deriving DecidableEq, Repr

/-- Where the engine writes the log lanes of one row (R385): the press slot, the KiB of its press store, and the first lane. -/
structure LogLanes where
  slot : Nat
  kib : Nat
  lane : Nat
  deriving DecidableEq, Repr

/-- The input-log part of a page map (R385): the logged chip, KiB of stage input per position, for each row where the
engine writes its log lanes, and where a stage input row lands in the logged chip's platform. -/
structure LogMap where
  logged : Nat
  rowKiB : Nat
  lanes : List LogLanes
  inputAt : PlatRef
  deriving DecidableEq, Repr

/-- The page map (R308, R309, R385). `windows` gives, for each press slot, the KiB of its window table. -/
structure PageMap where
  slices : List SliceSlot
  windows : List Nat
  log : Option LogMap
  deriving DecidableEq, Repr

/-- The program image of one press slot and variant (R148). -/
structure Program where
  m : List PressWord
  v : List PressWord
  x : List PressWord
  gap : BitVec 4096
  send : List (BitVec 64)
  deriving DecidableEq, Repr

/-- The sections of one placement and variant (R354). -/
structure VariantPart where
  programs : List Program
  sequencers : List (List (BitVec 64))
  farStreams : List (List (BitVec 64))
  points : List (List (BitVec 64))
  samplerMarks : List (BitVec 64)
  deriving DecidableEq, Repr

/-- The sections of one placement (R354). `variants` is indexed by operating point. -/
structure Placement where
  nearKiB : Nat
  farMiB : Nat
  place : List PlaceRec
  lanes : List LaneRec
  /-- landing list of each press slot: pairs of source and entries covered (R173) -/
  landing : List (List (Nat × Nat))
  /-- first KiB of each press slot's landing list in its press store (R164, R173) -/
  landingAt : List Nat
  variants : List (Option VariantPart)
  deriving DecidableEq, Repr

/-- The chip part (R354). -/
structure ChipPart where
  presses : List Nat
  portMask : BitVec 32
  farMask : BitVec 2
  queues : List (List QueueRow)
  platforms : List (List PlatformRec)
  /-- scratch areas of each press slot: first KiB and size in KiB -/
  scratch : List (List (Nat × Nat))
  pageMap : PageMap
  /-- the inbound packets that the forme expects in each step: flows that end here and their packets (R41) -/
  inbound : List (Nat × Nat)
  placements : List Placement
  deriving DecidableEq, Repr

/-- A forme as read from its parts: the fields of every section of R354 that this chip loads. -/
structure Forme where
  tt : Timetable
  serving : Serving
  sampler : Option SamplerPlan
  tensors : List Tensor
  flows : List FlowRec
  dests : List Nat
  keyCount : Nat
  /-- control route to the parent, and the routes to the children, of this chip's place in the barrier tree -/
  treeRoutes : List (Nat × Route)
  chip : ChipPart
  deriving DecidableEq, Repr

/-- What FORME_LOAD reads over KCL (R355): the bytes of the index, the common part and the chip part, and the
fields of their sections. -/
structure FormeParts where
  index : List Byte
  common : List Byte
  chip : List Byte
  forme : Forme
  deriving DecidableEq, Repr

/-! ## The commands -/

/-- A CS_WR of the companion (R402): its TAG, its MASK, which selects 8 aligned bytes of the unit, and the value in those bytes. -/
structure CsWr where
  tag : BitVec 16
  mask : BitVec 64
  value : Reg
  deriving DecidableEq, Repr

/-- The commands of the block: one constructor per row of the opcode table, in the table's order. -/
inductive Instr where
  -- device commands (R422)
  | nop (d : Descriptor)
  | identify (d : Descriptor)
  | getEdition (d : Descriptor)
  | setOperatingPoint (d : Descriptor)
  | selfTest (d : Descriptor)
  | resetWarm (d : Descriptor)
  -- forme and weight commands
  | formeLoad (d : Descriptor) (parts : FormeParts)
  | formeImpose (d : Descriptor) (blk : List Byte)
  | formeStart (d : Descriptor)
  | formeStop (d : Descriptor)
  | formeUnload (d : Descriptor)
  | weightsLoad (d : Descriptor) (blk : List Byte) (sources : List (List Byte))
  | weightsBroadcast (d : Descriptor) (blk : List Byte) (sources : List (List Byte))
  | weightsDigestRead (d : Descriptor)
  | weightsDigestSeal (d : Descriptor) (blk : List Byte)
  | weightsFree (d : Descriptor)
  -- serving commands
  | waybillOpen (d : Descriptor) (blk : List Byte)
  | waybillAppend (d : Descriptor) (blk : List Byte)
  | waybillCancel (d : Descriptor)
  | waybillStable (d : Descriptor)
  | waybillResume (d : Descriptor)
  | waybillQuery (d : Descriptor)
  | liveryLoad (d : Descriptor) (blk : List Byte)
  | liveryFree (d : Descriptor)
  -- fabric, firmware, health and debug commands
  | linkStateRead (d : Descriptor)
  | linkStateEnable (d : Descriptor)
  | linkStateDisable (d : Descriptor)
  | linkRetrain (d : Descriptor)
  | partitionSet (d : Descriptor)
  | routeTableLoad (d : Descriptor) (blk : List Byte)
  | timeSyncRole (d : Descriptor)
  | fwStage (d : Descriptor) (blk : List Byte)
  | fwHandover (d : Descriptor)
  | fwFlashWrite (d : Descriptor)
  | fwVersion (d : Descriptor)
  | healthRead (d : Descriptor)
  | attest (d : Descriptor)
  | colophonSign (d : Descriptor)
  | debugEnable (d : Descriptor)
  | breakSet (d : Descriptor)
  | breakClear (d : Descriptor)
  | hazardRead (d : Descriptor)
  -- press streams (R130)
  | streamNop (i : Issue)
  | departMark (i : Issue)
  | dueMark (i : Issue)
  | loop (i : Issue)
  | endStream (i : Issue)
  | wload (i : Issue)
  | pass (i : Issue)
  | wadd (i : Issue)
  | add (i : Issue)
  | mul (i : Issue)
  | fma (i : Issue)
  | min (i : Issue)
  | max (i : Issue)
  | cmp (i : Issue)
  | select (i : Issue)
  | scale (i : Issue)
  | exponent (i : Issue)
  | mantissa (i : Issue)
  | rcp (i : Issue)
  | rsqrt (i : Issue)
  | cvt (i : Issue)
  | rsum (i : Issue)
  | rmax (i : Issue)
  | rmin (i : Issue)
  | accCvt (i : Issue)
  | load (i : Issue)
  | store (i : Issue)
  | move (i : Issue)
  | moveWide (i : Issue)
  | platRd (i : Issue)
  | platWr (i : Issue)
  | nearRd (i : Issue)
  | nearWr (i : Issue)
  | farRd (i : Issue)
  | farWr (i : Issue)
  | queueWaitEnd (p : PressId) (i : StreamId)
  | releaseWaitEnd (p : PressId)
  -- sequencers, far streams, despatchers, sampler
  | seqSlotPress (c : SeqId) (res : List NearAccess)
  | portionArrival (c : SeqId) (slot : BitVec 7)
  | seqSlotHost (c : SeqId) (res : List NearAccess)
  | seqSlotFirmware (c : SeqId) (res : List NearAccess)
  | seqMark (c : SeqId)
  | seqLoop (c : SeqId)
  | seqEnd (c : SeqId)
  | farStreamSlot (f : FarId) (res : List FarAccess)
  | farStreamMark (f : FarId)
  | farStreamLoop (f : FarId)
  | farStreamEnd (f : FarId)
  | cxlCompletionTimeout (f : FarId)
  | cxlLinkDown (f : FarId)
  | pointsSlot (p : PortId)
  | packetRelease (p : PortId)
  | pointsMark (p : PortId)
  | pointsLoop (p : PortId)
  | pointsEnd (p : PortId)
  | samplerRows
  | samplerDueMark
  | samplerDepartMark
  | samplerLoop
  | samplerEnd
  -- launch, holds, drain and barrier
  | launch
  | programCopy
  | readinessTest (u : UnitId)
  | holdRelease (u : UnitId) (c : Cause)
  | holdResume (u : UnitId) (c : Cause)
  | firmwareServiceIntrusion (b : BoxId)
  | endCountReached
  | drainComplete
  | drainLimitExpiry
  | planWatchdogExpiry (u : UnitId)
  | barrierReport (child : BitVec 32) (body : BitVec 192)
  | startCountReached
  | barrierTimeout
  | announceTimeout
  | announceCommit (body : BitVec 192)
  | announceAbort (body : BitVec 192)
  | announceStop (body : BitVec 192)
  | announceCommitStop (body : BitVec 192)
  | announceStart (body : BitVec 192)
  -- waybill engine
  | rankingComplete (w : BitVec 16)
  | stablingCopyComplete (w : BitVec 16)
  | restoreCopyComplete (w : BitVec 16)
  | stagingCopyComplete (slot : BitVec 12)
  | logCopyComplete
  | void (p : PortId) (body : BitVec 192)
  | cancelWrite (w : BitVec 10) (wr : CsWr)
  -- memory
  | landingArrival (p : PressId) (source : LandingCase)
  | refreshDue
  | refreshWindowEnd
  | nearTemperatureReport (c : SeqId) (temp : BitVec 8)
  | nearTerminusRetrain
  | nearInStepRetrain (c : SeqId)
  | nearRetrainEnd (c : SeqId)
  | nearTrainingComplete (c : SeqId) (ok : Bool)
  | scrub (p : PressId) (ecc : Ecc)
  -- link layer
  | frameStart (p : LinkId)
  | frameReceived (p : LinkId) (f : Frame)
  | linkBlock (p : LinkId) (blk : BitVec 512)
  | initBlock (p : LinkId) (blk : BitVec 512)
  | pause (p : LinkId) (blk : BitVec 512)
  | paused (p : LinkId) (blk : BitVec 512)
  | resume (p : LinkId) (blk : BitVec 512)
  | ackTimerExpiry (p : LinkId)
  | laneTrainingComplete (p : LinkId) (r : TrainResult)
  | trainingRetry (p : LinkId)
  | marginBelowFloor (p : LinkId) (lane : Fin 16) (code : BitVec 8)
  | lossOfLock (p : LinkId)
  | uncorrectableBurst (p : LinkId) (count : BitVec 32)
  | linkTerminusRetrain (p : LinkId)
  | retrainComplete (p : LinkId) (r : TrainResult)
  | retrainTimeout (p : LinkId)
  -- fabric and messages between chips
  | planPacket (p : PortId) (pkt : List Byte)
  | controlPacketForward (p : PortId) (pkt : List Byte)
  | timeProbe (p : PortId) (body : BitVec 192) (t2 : BitVec 72) (replay : Bool)
  | timeReply (p : PortId) (body : BitVec 192) (t4 : BitVec 72) (replay : Bool)
  | timeNotice (p : PortId) (body : BitVec 192)
  | portNotice (p : PortId) (body : BitVec 192)
  | fwMsgRebuilt (p : PortId) (body : BitVec 192)
  | fwMsgAck (p : PortId) (body : BitVec 192)
  | fwMessageResend (serial : BitVec 16)
  | weightData (payload : List Byte)
  | weightEnd (payload : List Byte)
  | broadcastTimeout
  | mirrorItem (payload : List Byte)
  | mirrorAck (payload : List Byte)
  | mirrorRelease (payload : List Byte)
  | recoverFetch (payload : List Byte)
  | recoverData (payload : List Byte)
  | recoverFetchResend (w : BitVec 16)
  | recoverFetchTimeout (w : BitVec 16)
  | keyInstall (p : PortId)
  -- station time and clocks
  | timeProbePeriod
  | probeLost
  | timeSilence
  | timeNoticePeriod
  | altPortReturn
  | timeCode
  | ppsInEdge (t : BitVec 72)
  | ppsTimeout
  | ppsOutEdge
  | refclkLoss
  | refclkReturn (gap : BitVec 16)
  | domainRampStep (d : Fin 4)
  | sscDepthStep (j : Fin 2)
  -- operating point, press and chip states, power
  | operatingPointSwitch
  | operatingPointChangeEnd
  | pressIdle (p : PressId)
  | pressWake (p : PressId)
  | departureGroup (g : Fin 12)
  | powerSample (watts : BitVec 12) (junction : BitVec 8)
  | quietEntry
  | deepQuietEntry
  | wake
  -- self-test, health, firmware
  | selfTestRun (part : BitVec 8)
  | selfTestRunEnd (part : BitVec 8) (fail : Bool) (block : BitVec 16)
  | healthCompute
  | handoverComplete (adopted : BitVec 6)
  | boxWatchdogExpiry (b : BoxId)
  | sb0WatchdogExpiry
  | waybillRebuild
  -- reset and make-ready
  | powerOn
  | underVoltage
  | underVoltageEnd
  | auxSupplyLoss
  | modResetAssert
  | modResetRelease
  | thermalTrip (junction : BitVec 8)
  | nvmWriteEnd
  | optionLoadingComplete (strapLow : Bool)
  | stationReady (delays : List (BitVec 16))
  | kclHwTrainingComplete (ok : Bool)
  | sramTestComplete
  | bootVerify
  | boxServicesReady (b : BoxServices)
  | pressSelfTestComplete (p : PressId) (ok : Bool)
  | engineSelfTestComplete (ok : Bool)
  | farPortReady (f : FarId) (width : BitVec 8) (speed : BitVec 8) (capacity : BitVec 16)
  -- control-space writes
  | fwRecoveryGo (w : CsWr) (image : List Byte)
  | optionCtlWrite (w : CsWr)
  | optionWriteDone (readBackOk : Bool)
  | debugResume (w : CsWr)
  | timeSet (w : CsWr)
  | fabricGidWrite (w : CsWr)
  | linkConfigWrite (p : PortId) (w : CsWr)
  | clkenWrite (r : Fin 3) (w : CsWr)
  | domainCtlWrite (d : Fin 4) (w : CsWr)
  | sscCtlWrite (j : Fin 2) (w : CsWr)
  | farConfigWrite (w : CsWr)
  | farAreaWrite (i : Fin 5) (w : CsWr)
  | kclSharedWrite (w : CsWr)
  | subCfgWrite (i : Fin 64) (w : CsWr)
  | subDoorbell (i : Fin 64) (w : CsWr)
  | descriptorTake
  | cplCfgWrite (j : Fin 64) (w : CsWr)
  | cplConsumerWrite (j : Fin 64) (w : CsWr)
  | evtCfgWrite (w : CsWr)
  | outCfgWrite (r : BitVec 12) (w : CsWr)
  | outConsumerWrite (r : BitVec 12) (w : CsWr)
  | editionPtrWrite (w : CsWr)
  | registerWrite (offset : BitVec 27) (w : CsWr)
  -- companion link
  | csRd (tag : BitVec 16) (offset : BitVec 27)
  | rdShared (tag : BitVec 16) (addr : BitVec 62)
  | rdOwn (tag : BitVec 16) (addr : BitVec 62)
  | writeback (tag : BitVec 16) (addr : BitVec 62) (data : BitVec 512)
  | evict (tag : BitVec 16) (addr : BitVec 62)
  | bulkRd (tag : BitVec 16) (addr : BitVec 62) (length : BitVec 16)
  | bulkWr (tag : BitVec 16) (addr : BitVec 62) (mask : BitVec 64) (data : List Byte)
  | kclData (tag : BitVec 16) (error : Bool) (data : List Byte)
  | kclAck (tag : BitVec 16)
  | snpAck (addr : BitVec 62)
  | snpData (addr : BitVec 62) (data : BitVec 512)
  | snoopTimeout (addr : BitVec 62)
  -- management endpoint
  | mctpControl (msg : List Byte)
  | pldm (msg : List Byte)
  | mgmtControlAccess (write : Bool) (offset : BitVec 27) (value : Reg)
  | getVersion (req : List Byte)
  | getCapabilities (req : List Byte)
  | negotiateAlgorithms (req : List Byte)
  | getDigests (req : List Byte)
  | getCertificate (req : List Byte)
  | challenge (req : List Byte)
  | getMeasurements (req : List Byte)
  | pqSignature (req : List Byte)
  | pqCertificate (req : List Byte)
  | flashSectorEraseEnd
  | wakeComplete
  | cxlWriteCompletion (f : FarId)
  | dynamicAddressAssignment (addr : BitVec 7)
  deriving DecidableEq, Repr

end Sys2Proof
end

