-- ==== Sys2Proof/Decode.lean ====
section
/-! DEFINITION. Words of the opcode table. The table gives no row bits, so no word spells a command. -/

namespace Sys2Proof

/-- The command that a word of `nbits` bits spells. `spec/opcode_table.json` numbers no bits: none. -/
def decodeTableWord (_nbits _w : Nat) : Option Instr := none

end Sys2Proof
end

