-- ==== Sys2Proof/Config.lean ====
section
/-! DEFINITION. What an implementation fixes and what the spec leaves open: constants without a body. -/

namespace Sys2Proof

/-! ## Fused and derived values -/

/-- The fused entry of the latency sheet for a class of R37 and an operating point, before the cap of R38. -/
opaque Config.sheetRaw : Nat → Nat → Nat
/-- Whether the stepping is B1 (R2). -/
opaque Config.isB1 : Bool
/-- Boot ROM version (IDENT_PART). -/
opaque Config.romVersion : BitVec 8
/-- Serial number (IDENT_SERIAL). -/
opaque Config.serial : BitVec 64
/-- The bits of the I3C provisional identifier that name the maker (R491). -/
opaque Config.i3cMaker : BitVec 16
/-- The secret fused at manufacture, from which the module's keys are derived (R446). -/
opaque Config.fusedSecret : BitVec 256
/-- Digest of the vendor's Ed25519 key fused in the module (R433). -/
opaque Config.vendorEdDigest : Digest
/-- Digest of the vendor's ML-DSA-65 key fused in the module (R433). -/
opaque Config.vendorMldsaDigest : Digest
/-- SHA3-256 of the boot ROM (R452). -/
opaque Config.romDigest : Digest
/-- Anti-rollback fuses blown when the part was made, before the count is held to 64 (R434). -/
opaque Config.rollbackAtMake : Nat
/-- REFRESH_PHASE of R184, before it is brought below 1,612 ns. -/
opaque Config.refreshPhaseRaw : Nat
/-- Watchdog timeout of a box in µs, fixed by the firmware release, before it is held between 1 ms and 10,000 ms (R430). -/
opaque Config.watchdogRaw : BitVec 32 → Nat → Nat

/-- Random byte i of 32 that an ML-DSA-65 signature of a message takes (log entry 161). -/
opaque Config.signRandom : List Byte → Nat → Byte
/-- Byte i of 3,309 that stands for an ML-DSA-65 signature of a message where the signing loop ends without one (log entry 161). -/
opaque Config.signFailed : List Byte → Nat → Byte
/-- Certificate chain 0 or 1 (R448). -/
opaque Config.chain : Bool → List Byte

/-! ## Values the spec leaves open -/

/-- Beats of a press's ring oscillator in one nanosecond of station time (R273): press, and how many nanoseconds have been
counted. -/
opaque Config.beats : Nat → Nat → Nat
/-- How far a press slews its local station time in one nanosecond, in 1/256 ns, before it is limited to what is left (R273). -/
opaque Config.beatSlew : Nat → Nat → Nat

/-- What a box reads at a byte address of the far tier at which nothing answers (log entry 131). -/
opaque Config.farHole : Nat → Byte
/-- A free 64-bit value, one for each count of draws. -/
opaque Config.free64 : Nat → BitVec 64
/-- What the codes find in reads whose row names no outcome: one for each count of draws (log entry 145). -/
opaque Config.found : Nat → Reads
/-- A free byte of an answer whose bytes the spec leaves to another standard: message code and index. -/
opaque Config.answerByte : List Byte → Nat → Byte
/-- The module's own state of the running input digest (R339): the digest input so far, byte i. -/
opaque Config.digestState : List Byte → Nat → Byte

end Sys2Proof
end

