-- ==== Sys2Proof/Machine/State.lean ====
section
/-! DEFINITION. The state of the block: every register, memory, buffer, queue and pin the spec gives it,
the stops, and `State.reset`. Plain data throughout. -/

namespace Sys2Proof.Machine

open Sys2Proof

/-! ## The stops -/

/-- Reasons for which the machine stops with a fault. -/
inductive Fault where
  /-- Raised by BULK_RD and BULK_WR for an address outside the near tier's 2^27 KiB (R162): the spec says no such
  address exists and gives no answer to it. Safe: the model stops where the part would do something unstated. -/
  | noSuchAddress (addr : Nat)
  deriving DecidableEq, Repr

/-- Reasons for which a command is refused. -/
inductive Refusal where
  /-- Raised by `exec` alone, for a command whose meaning has not been written. Safe: the model stops. -/
  | notModelled (mnemonic : String)
  deriving DecidableEq, Repr

/-! ## Memory and other sparse stores -/

/-- A byte memory: address and byte, in the canonical form of `Memory.wf`. -/
abbrev Memory := List Host.Cell

/-! ## Nonvolatile store, power and pins -/

/-- A sideband output's level (R463 to R466). -/
inductive PinLevel where
  | highZ | low | high | weakLow
  deriving DecidableEq, Repr

/-- Where the part stands between reset and service (R457 to R470). -/
inductive ResetPhase where
  /-- supplies absent or out of limits, or a full reset held -/
  | held
  /-- rails rising, then option loading -/
  | options
  /-- option loading has ended; make-ready runs -/
  | makeReady
  /-- a warm reset in progress: step 4 of R461 onward -/
  | warm
  /-- the image has been started -/
  | running
  deriving DecidableEq, Repr

/-- The sources of a full reset (R457), in the order of RESET_CAUSE.FULL. -/
inductive FullSource where
  | powerOn | underVoltage | modReset | lossOfReference | thermalTrip
  deriving DecidableEq, Repr

/-- A reset deferred by a nonvolatile write (R462). -/
inductive Deferred where
  | full (src : FullSource)
  | warm (cause : Nat)
  deriving DecidableEq, Repr

/-- Progress of a nonvolatile write (R442, R443, R462). -/
inductive NvmJob where
  /-- erasing flash sectors for FW_FLASH_WRITE; sectors still to erase, header first -/
  | erase (sectors : List Nat)
  /-- programming flash pages for FW_FLASH_WRITE; KiB still to program, header last -/
  | program (kib : List Nat)
  /-- blowing anti-rollback fuses -/
  | fuse (target : Nat)
  /-- erasing the sector of the option block, programming the block, and reading it back (R443) -/
  | option
  | optionProgram
  | optionCheck
  deriving DecidableEq, Repr

/-- Flash, fuses and what is being written to them (R431, R434, R462). -/
structure Nv where
  flash : Memory
  /-- anti-rollback fuses blown (R434) -/
  rollback : Nat
  job : Option NvmJob
  /-- the FW_FLASH_WRITE whose completion awaits the job -/
  cmd : Option Descriptor
  /-- resets deferred by the job (R462) -/
  deferred : List Deferred
  deriving DecidableEq, Repr

/-- Supplies, reset, READY bits, pins and the POWER block (R457 to R482). -/
structure Power where
  phase : ResetPhase
  auxUp : Bool
  inputUp : Bool
  modResetLow : Bool
  underVolt : Bool
  tripLatch : Bool
  /-- sources that now hold the full reset -/
  holders : List FullSource
  causeFull : BitVec 3
  causeWarm : BitVec 8
  warmResets : BitVec 16
  deferrals : BitVec 16
  readyPress : BitVec 96
  readyStation : Bool
  readyEngine : Bool
  readySampler : Bool
  readyBox : BitVec 6
  /-- presses whose self-test of make-ready has not ended (R470, R478) -/
  testing : BitVec 96
  /-- those self-tests are step 6 of a warm reset (R461) -/
  warmTests : Bool
  /-- SRAM test ended in this make-ready (R470) -/
  sramTested : Bool
  /-- levels of PWR_GOOD, THERM_TRIP_L, MOD_READY, ALERT_L, PPS_OUT, CXL_PERST0_L, CXL_PERST1_L -/
  pins : Vector PinLevel 7
  /-- outputs that firmware has taken (R467) -/
  taken : BitVec 7
  point : BitVec 2
  changing : Bool
  pendingPoint : Option (BitVec 2 × BitVec 64)
  pointCmd : Option Descriptor
  /-- the change that the regulators apply, or that has been applied and awaits the launch of its step: point, step S and
  command (R286, R287) -/
  applying : Option (BitVec 2 × BitVec 64)
  applyCmd : Option Descriptor
  /-- the announcement came after the switch count: the copy waits for the change's end (R288) -/
  copyAfter : Bool
  /-- switch count of a change, while a region has not reached it (R287) -/
  switchAt : Option (BitVec 64)
  /-- the regions QNW, QNE, QSW and QSE whose regulators have begun the change in progress (R287) -/
  regions : BitVec 4
  /-- the pending change was accepted in Quiet or Deep quiet (R474) -/
  pointQuiet : Bool
  deepAllow : Bool
  quietAllow : Bool
  limit : BitVec 12
  junction : BitVec 8
  meanW : BitVec 12
  sampleW : BitVec 12
  /-- the last 1,000 samples, newest first (R479) -/
  samples : List Nat
  brakePeak : Bool
  brakeMean : Bool
  /-- consecutive samples with the brake's condition false (R479) -/
  calm : Nat
  braking : Bool
  waking : Bool
  chipState : BitVec 2
  brakesMean : BitVec 32
  brakesPeak : BitVec 32
  quietNs : BitVec 64
  deepNs : BitVec 64
  /-- departure groups still to act: occasion code of R478 and next group -/
  stagger : Option (Nat × Nat)
  /-- nanoseconds since the shared or bulk window was last touched (R475) -/
  windowIdle : Nat
  deriving DecidableEq, Repr

/-! ## Station time and clocks -/

/-- The local time of a press (R272, R273), in 1/256 ns: the measured delay from its repeater, the last time code with its
delays and the time between the last two, beats counted since that code and between the last two, and local station time. -/
structure Beat where
  delay : BitVec 16
  code : Nat
  span : Nat
  count : Nat
  last : Nat
  station : Nat
  deriving DecidableEq, Repr

/-- Station time and its disciplines (R270 to R284). -/
structure Time where
  ns : BitVec 64
  /-- fraction of a nanosecond, in units of 2^-48 ns: the 16-bit fraction register and what accumulates below it -/
  frac : BitVec 48
  /-- frequency correction, signed, 2^-32 ns per cycle (R270) -/
  freq : BitVec 64
  /-- phase still to be slewed away, in units of 2^-48 ns (R277) -/
  slew : Int
  role : BitVec 2
  port : BitVec 5
  altPort : BitVec 5
  period : BitVec 8
  ppsDiscipline : Bool
  master : BitVec 20
  errorBound : BitVec 16
  steps : BitVec 8
  setRefused : Bool
  stepped : Bool
  ppsLocked : Bool
  usingAlt : Bool
  holdover : Bool
  locked : Bool
  everLocked : Bool
  /-- an exchange completed within the last 1 ms -/
  heard : Bool
  delay : BitVec 32
  offset : BitVec 32
  /-- the last offsets within the hop bound, in a row (R278) -/
  goodOffsets : Nat
  replayed : BitVec 16
  lost : BitVec 16
  done : BitVec 32
  asym : Vector (BitVec 16) 32
  ppsNs : BitVec 56
  ppsFrac : BitVec 8
  ppsIgnored : BitVec 32
  ppsEdges : BitVec 32
  repeater : Vector (BitVec 16) 6
  /-- the probes that await their replies, oldest first: number, port and T1 in 1/256 ns -/
  probes : List (BitVec 8 × BitVec 5 × Nat)
  nextProbe : BitVec 8
  /-- upstream's last notice: MASTER, STEPS, FLAGS, ERROR_BOUND -/
  upstream : Option (BitVec 20 × BitVec 8 × BitVec 8 × BitVec 16)
  upstreamLocked : Bool
  /-- last time code sent to the repeaters (R271) -/
  code : BitVec 64
  /-- station time at each repeater QNW, QNE, QSW and QSE and at each link-die copy, in 1/256 ns (R271, R273) -/
  repCode : Vector Nat 6
  beats : Vector Beat 96
  /-- station time has reached a whole second, and PPS_OUT has not risen for it yet (R284) -/
  ppsDue : Bool
  /-- nanoseconds for which PPS_OUT stays high (R284) -/
  ppsHigh : Nat
  deriving DecidableEq, Repr

/-- One clock domain (R268, R269): source, divider target, divider in force, the source being moved to. -/
structure Domain where
  source : BitVec 2
  div : BitVec 8
  divNow : BitVec 8
  ramping : Bool
  sourceNow : BitVec 2
  deriving DecidableEq, Repr

/-- The CLOCKS block (R264 to R269). -/
structure Clk where
  enNear : BitVec 32
  enLink : BitVec 32
  enMisc : BitVec 3
  refused : Bool
  locked : BitVec 8
  longestGap : BitVec 16
  refGaps : BitVec 16
  domains : Vector Domain 4
  sscDepth : Vector (BitVec 4) 2
  sscNow : Vector (BitVec 4) 2
  sscRate : Vector (BitVec 2) 2
  /-- RATE in force, until the next turn of the profile takes the new one (R267) -/
  sscRateNow : Vector (BitVec 2) 2
  /-- how far each profile has come since its last turn: a turn is 10^6 -/
  sscPhase : Vector Nat 2
  deriving DecidableEq, Repr

/-! ## The timetable -/

/-- What kind of hold it is: what ends it (R33). -/
inductive HoldKind where
  | due | readiness | intrusion
  deriving DecidableEq, Repr

/-- An outstanding hold (R30 to R33). -/
structure Hold where
  unit : UnitId
  cause : Cause
  kind : HoldKind
  freeze : Nat
  /-- station time at which it was raised -/
  raised : Nat
  /-- its resume time, once released (R33) -/
  resume : Option Nat
  deriving DecidableEq, Repr

/-- The TIMETABLE block and the step in progress (R24 to R66). -/
structure Tt where
  inStep : Bool
  draining : Bool
  drained : Bool
  runout : Bool
  /-- station time at which run-out began (R50) -/
  runoutAt : Nat
  tt : BitVec 40
  step : BitVec 64
  attempt : BitVec 8
  holds : List Hold
  launched : BitVec 64
  /-- launch count of the attempt in progress (R285) -/
  launchCount : Nat
  /-- launch count last announced; `none` when none is pending -/
  nextLaunch : Option (BitVec 64)
  /-- step and attempt the announced launch names -/
  nextStep : BitVec 64
  nextAttempt : BitVec 8
  late : BitVec 32
  slip : BitVec 32
  aborts : BitVec 4
  rootFault : BitVec 8
  fault : BitVec 8
  /-- station time of the attempt's first fault (R380) -/
  faultAt : Nat
  /-- fault code this chip reported for the last step (STEP_OUTCOME.FAULT) -/
  reported : BitVec 8
  outcome : BitVec 3
  stepHoldNs : BitVec 64
  holdNs : Vector (BitVec 64) 9
  holdCount : Vector (BitVec 64) 9
  timingChoice : BitVec 64
  tcKind : Vector (BitVec 64) 4
  /-- the program images for the next launch have been copied (R148) -/
  copied : Bool
  /-- committed step: the last terminus -/
  committed : Option (BitVec 64)
  endCount : Nat
  variant : BitVec 2
  /-- standing time of this attempt by cause, for the straggle record (R395) -/
  causeNs : Vector (BitVec 64) 9
  /-- station time at which drain began -/
  drainAt : Nat
  /-- a ranking or restore copy, a staging copy, and a log copy were unfinished 32 ns before the announced launch (R55) -/
  waitRank : Bool
  waitStage : Bool
  waitLog : Bool
  deriving DecidableEq, Repr

/-- A report held from the subtree (R45). -/
structure Report where
  child : BitVec 32
  status : BitVec 8
  fault : BitVec 8
  chips : BitVec 32
  maxHold : BitVec 32
  faultChip : BitVec 32
  deriving DecidableEq, Repr

/-- The barrier tree at this chip (R45 to R56). -/
structure Barrier where
  reports : List Report
  readies : List Report
  /-- this chip has sent its report for the attempt, and awaits an announcement -/
  reported : Bool
  /-- the root's decision, which its own announcement must carry (R46) -/
  decided : Option (BitVec 192)
  ready : Bool
  readySent : Bool
  startCount : Option (BitVec 64)
  startCmd : Option Descriptor
  stopCmd : Option Descriptor
  stopPending : Bool
  /-- the forme stopped under R51 or R56 (R381) -/
  stopped : Bool
  /-- rebuilt chip named by FORME_START (R387) -/
  rebuilt : Option (BitVec 32)
  /-- FAULT_CHIP of the last aggregate that the root held (R381) -/
  faultChip : BitVec 32
  deriving DecidableEq, Repr

/-! ## Presses -/

/-- States of a press stream (STREAM_STATUS). DORMANT is read of a stream of a press that is not in Stand. -/
inductive StreamState where
  | idle | running | queueWait | markWait | ended | stopped
  deriving DecidableEq, Repr

/-- A loop in progress: first index of the body, its length, trips, the present trip and the mark stride. -/
structure LoopSt where
  start : Nat
  body : Nat
  trips : Nat
  trip : Nat
  stride : Nat
  deriving DecidableEq, Repr

/-- A mark a unit waits at: its value and, for a DUE mark, queue, entries awaited and source (R26, R133). -/
structure MarkWait where
  value : Nat
  due : Option (Nat × Nat × Nat)
  deriving DecidableEq, Repr

/-- How far the instruction that waits has come: rounds of sources taken, entries taken and still needed, entries formed and
not yet pushed, and how many it has pushed (R101). -/
structure Progress where
  round : Nat
  held : List Entry
  out : List Entry
  pushed : Nat
  deriving DecidableEq, Repr

/-- A wait of an instruction (R69, R101): for a row or for a queue, on a push or a pop, and how far the instruction has come. -/
structure WaitAt where
  row : Bool
  isPush : Bool
  round : Nat
  held : Nat
  out : Nat
  deriving DecidableEq, Repr

/-- A pass or a weight load that waits beside the M stream, which has gone on to later words (R81): its issue, its ICOUNT, its
wait and how far it has come. -/
structure Side where
  issue : Issue
  icount : BitVec 32
  rowWait : Bool
  waitAt : Option WaitAt
  prog : Progress
  deriving DecidableEq, Repr

/-- One stream of a press (R126 to R136). -/
structure Stream where
  state : StreamState
  pc : Nat
  icount : BitVec 32
  tag : BitVec 16
  mem : List PressWord
  loop : Option LoopSt
  mark : Option MarkWait
  /-- value of the last mark released -/
  lastMark : Nat
  /-- the instruction that waits for a queue or a row, to be tried again -/
  waiting : Option Issue
  /-- the wait is for a RELEASED row (R69) and not for a queue -/
  rowWait : Bool
  /-- the wait last counted of that instruction (R125) -/
  waitAt : Option WaitAt
  prog : Progress
  /-- M stream: the pass or load that waits while later words go on (R81) -/
  side : Option Side
  deriving DecidableEq, Repr

/-- State of an accumulator row (R67). -/
inductive RowTag where
  | empty | opened | released
  deriving DecidableEq, Repr

/-- One accumulator row: tag, window exponent, 256 cells of 72 bits, and the SAT and INVALID side bits. -/
structure AccRow where
  tag : RowTag
  window : Int
  cells : List (BitVec 72)
  sat : BitVec 256
  invalid : BitVec 256
  deriving DecidableEq, Repr

/-- One accumulator bank: the rows that are not EMPTY, by row number, and the read queue, oldest first (R70). -/
structure Bank where
  rows : KMap AccRow
  queue : List Nat
  deriving DecidableEq, Repr

/-- A weight plane: the WIN entries of its last load, with format, mode and row count; `none` is EMPTY. -/
structure Plane where
  format : Nat
  paired : Bool
  rows : Nat
  elems : List Entry
  scales : List Entry
  deriving DecidableEq, Repr

/-- One queue of the queue file (R97 to R101). -/
structure Queue where
  cap : Nat
  producer : BitVec 4
  consumer : BitVec 4
  entries : List Entry
  high : BitVec 12
  deriving DecidableEq, Repr

/-- Where an entry that leaves a press is to land (R147). -/
structure Landing where
  /-- 0 FIN, 1 platform write side -/
  kind : Nat
  target : Nat
  platform : Nat
  offset : Nat
  deriving DecidableEq, Repr

/-- Idle states of a press (R151). -/
inductive PressState where
  | stand | layover | shed
  deriving DecidableEq, Repr

/-- A recorded hazard (R159, HAZARD_REC_A and HAZARD_REC_B). -/
structure Hazard where
  tag : BitVec 16
  stream : BitVec 2
  kind : BitVec 4
  tt : BitVec 40
  other : BitVec 4
  location : BitVec 18
  icount : BitVec 32
  deriving DecidableEq, Repr

/-- What the pool's code will find in an entry of FOUT or SAMP when it is read: words corrected, and whether one is uncorrectable
(R103). -/
structure EntryEcc where
  corrected : Nat
  bad : Bool
  deriving DecidableEq, Repr

/-- One press (chapters 3 to 6). -/
structure Press where
  m : Stream
  v : Stream
  x : Stream
  gap : BitVec 4096
  send : List (BitVec 64)
  /-- entries of the present send-list record already taken from FOUT -/
  sendPos : Nat
  /-- index of the present send-list record -/
  sendIdx : Nat
  /-- entries the outbound unit holds until its packet is whole (R235) -/
  outHold : List Entry
  /-- for each entry of FOUT, what the pool's code will find in it (R103) -/
  foutEcc : List EntryEcc
  /-- the same of each entry of SAMP -/
  sampEcc : List EntryEcc
  /-- the entry at FOUT's head has been counted as waiting for its lane's credit (R172) -/
  foutStop : Bool
  queues : Vector Queue 64
  bankA : Bank
  bankB : Bank
  plane0 : Option Plane
  plane1 : Option Plane
  /-- plane rows whose parity failed in this attempt, as plane and row: their products are zero (R92) -/
  badRows : List (Nat × Nat)
  store : Memory
  parity : Bool
  /-- the landing record in hand: source and entries still to come (R173) -/
  landing : Option (Nat × Nat)
  /-- byte address in press store of the next landing record, and the records of the attempt not yet read (R173) -/
  landFrom : Nat
  landLeft : Nat
  /-- what press store's code finds in the landing records at byte addresses (R167) -/
  landEcc : Reads
  /-- landing buffer, oldest first: source and entry -/
  landBuf : List (Nat × Entry)
  /-- zero entries taken in run-out: landing places whose late entries are to be discarded (R50) -/
  owed : List (Nat × Nat)
  -- ARRAY registers
  activePlane : BitVec 2
  parityError : Bool
  windowMismatch : Bool
  accInvalid : Bool
  accSat : Bool
  invalidCells : BitVec 32
  satCells : BitVec 32
  periods : BitVec 64
  /-- PERIODS at the last launch (R395) -/
  periodsAt : BitVec 64
  -- VEC registers
  queueEcc : Bool
  readInvalid : Bool
  readSat : Bool
  nanIn : Bool
  overflow : Bool
  invalidOp : Bool
  readSatCells : BitVec 32
  invalidLanes : BitVec 32
  vecPeriods : BitVec 64
  pushWaits : BitVec 32
  popWaits : BitVec 32
  -- program, power and hazard registers
  variant : BitVec 2
  mLen : BitVec 13
  vLen : BitVec 13
  xLen : BitVec 13
  refetches : BitVec 32
  loads : BitVec 32
  /-- STREAM_STATUS of M, V and X, and PROGRAM_STATUS, as the last attempt left them (R161) -/
  shown : Vector (BitVec 64) 3
  shownProgram : BitVec 64
  leftOut : Bool
  power : PressState
  wakes : BitVec 32
  layoverNs : BitVec 64
  shedNs : BitVec 64
  hazards : BitVec 32
  hazardRecs : List Hazard
  /-- granules touched in debug mode by the landing path and by the X stream: address and whether written -/
  touchLand : List (Nat × Bool)
  touchX : List (Nat × Bool)
  -- PSTORE and CONC registers
  scrubAddr : BitVec 14
  scrubPasses : BitVec 31
  scrubUncorr : BitVec 16
  uncorrectable : BitVec 16
  corrected : BitVec 32
  /-- SRAM corrections of the queue pool, accumulators and instruction memory, for the health score (R392) -/
  sramCorrected : BitVec 32
  /-- uncorrectable words of the queue pool, the planes and the accumulators, for the health score (R392) -/
  sramUncorr : BitVec 32
  stray : BitVec 16
  lbHigh : BitVec 8
  laneStops : BitVec 32
  deriving DecidableEq, Repr

/-! ## Record walkers, memory tiers and the concourse -/

/-- The position of a unit in its list of records (sequencer, far stream, points list, sampler mark list). -/
structure Walk where
  idx : Nat
  loop : Option LoopSt
  /-- the mark it waits at -/
  mark : Option MarkWait
  lastMark : Nat
  ended : Bool
  /-- a slot in hand: records or packets still to serve -/
  left : Nat
  /-- the unit waits within the slot at `idx` -/
  busy : Bool
  deriving DecidableEq, Repr

/-- A press's request to a memory tier: who asked, direction, and the tier entries with their data (writes) and
whether each is to be performed (R146, R309). -/
structure Request where
  press : PressId
  slot : Nat
  write : Bool
  addrs : List Nat
  data : List Entry
  perform : List Bool
  deriving DecidableEq, Repr

/-- An access of the companion or of a signal box waiting for a HOST or FIRMWARE slot (R178). -/
inductive HostAccess where
  | readShared (tag : BitVec 16) (addr : Nat)
  | readOwn (tag : BitVec 16) (addr : Nat)
  | bulkRead (tag : BitVec 16) (addr : Nat) (len : Nat)
  | bulkWrite (tag : BitVec 16) (addr : Nat) (mask : BitVec 64) (data : List Byte)
  | writeback (tag : BitVec 16) (addr : Nat) (data : BitVec 512)
  | snpData (addr : Nat) (inv : Bool) (data : BitVec 512)
  /-- a clean line given up: no channel serves it, but it waits its turn (R407) -/
  | evict (tag : BitVec 16) (addr : Nat)
  deriving DecidableEq, Repr

/-- A request of the companion that has not been performed (R407): a read or a write of control space, or an access of a
window. -/
inductive Held where
  | read (tag : BitVec 16) (off : Nat)
  | write (off : Nat) (w : CsWr)
  | window (access : HostAccess)
  deriving DecidableEq, Repr

/-- An item mirrored or to be mirrored (R384): waybill, layer, page, kind (0 page, 1 head, 2 ledger, 3 input). -/
structure MirrorItem where
  waybill : Nat
  layer : Nat
  page : Nat
  kind : Nat
  deriving DecidableEq, Repr

/-- A write of SB3 into the far tier that awaits a FIRMWARE slot (R192, R384): the item, the tier's byte address, and the bytes. -/
structure FarBox where
  item : MirrorItem
  addr : Nat
  data : List Byte
  deriving DecidableEq, Repr

/-- A signal box's near-tier access awaiting a FIRMWARE slot: box, entry, and the entry to write, if a write. -/
structure BoxAccess where
  box : BoxId
  addr : Nat
  data : Option Entry
  deriving DecidableEq, Repr

/-- One near channel and its sequencer (R174 to R186). -/
structure Channel where
  temp : BitVec 8
  /-- temperature at the last retrain -/
  tempAt : BitVec 8
  rate : BitVec 8
  deferrals : BitVec 8
  hot : Bool
  trained : Bool
  ready : Bool
  slot : BitVec 16
  retrains : BitVec 16
  uncorrectable : BitVec 16
  edcWrite : BitVec 16
  edcRead : BitVec 16
  eccCorrected : BitVec 16
  /-- retrain due at a terminus, and station time of the last retrain -/
  due : Bool
  lastRetrain : BitVec 64
  retraining : Bool
  inStepRetrains : BitVec 32
  /-- EDC errors in the present step (R183) -/
  stepEdc : Nat
  /-- a refresh window occupies the channel -/
  streams : List (List (BitVec 64))
  walk : Walk
  /-- portions in flight toward the sequencer, and arrived, oldest first -/
  coming : List Request
  arrived : List Request
  /-- modified lines that the companion has given up for a snoop, in the order received (R404, R406) -/
  host : List HostAccess
  box : List BoxAccess
  deriving DecidableEq, Repr

/-- A write of a signal box into one near entry, which waits for a FIRMWARE slot or for the gap (R178, R179): its byte address, its
bytes, and whether it is one of the commit writes of R48. -/
structure LateWrite where
  addr : Nat
  data : List Byte
  commit : Bool
  deriving DecidableEq, Repr

/-- The near tier (R174 to R189). -/
structure Near where
  mem : Memory
  channels : Vector Channel 32
  poolBase : BitVec 32
  formeSize : BitVec 32
  /-- a refresh window is open, and the interval in force is the short one -/
  refreshing : Bool
  hotInterval : Bool
  /-- self-refresh in Deep quiet stops insertions (R476) -/
  selfRefresh : Bool
  /-- writes of the boxes that wait, in the order made (R178, R179) -/
  late : List LateWrite
  /-- the writes being made are a commit's (R48, R179); the model's own flag, false between commands -/
  commits : Bool
  deriving DecidableEq, Repr

/-- One CXL root port (R190 to R194). -/
structure FarPort where
  capacity : BitVec 16
  width : BitVec 8
  speed : BitVec 8
  ready : Bool
  down : Bool
  timeouts : BitVec 16
  poison : BitVec 16
  retries : BitVec 32
  streams : List (List (BitVec 64))
  walk : Walk
  coming : List Request
  box : List FarBox
  /-- CXL writes not yet completed by the device -/
  writes : Nat
  deriving DecidableEq, Repr

/-- The far tier (R190 to R194). -/
structure Far where
  mem : Memory
  ports : Vector FarPort 2
  interleave : Bool
  areaError : Bool
  areaSize : Vector (BitVec 32) 5
  areaBase : Vector (BitVec 32) 5
  deriving DecidableEq, Repr

/-- An entry on its way across the concourse: destination press, source code of R173, landing and data. -/
structure Arrival where
  press : PressId
  source : Nat
  landing : Landing
  data : Entry
  /-- how many routers short of its destination it was last counted as waiting for a credit; 0 before that (R172) -/
  stops : Nat
  deriving DecidableEq, Repr

/-! ## Link layer and fabric -/

/-- States of a link port (LINK_STATUS.STATE). -/
inductive LinkState where
  | down | training | init | active | pausing | retraining | resuming
  deriving DecidableEq, Repr

/-- A frame held in the replay buffer (R211). -/
structure TxFrame where
  seq : BitVec 12
  kind : BitVec 2
  cls : BitVec 2
  packet : List Byte
  /-- sent with REPLAY set (R214) -/
  replay : Bool
  deriving DecidableEq, Repr

/-- A packet in a receive buffer (R216, R238). `out` names the output port it waits for, once processed. -/
structure RxPacket where
  cls : BitVec 2
  packet : List Byte
  processed : Bool
  out : Option PortId
  /-- a tee copy or a final delivery waits for the launch it names (R239, R240) -/
  copyWaits : Bool
  deriving DecidableEq, Repr

/-- A packet queued at an output port, with the input port whose receive buffer still holds it. -/
structure OutPacket where
  packet : List Byte
  via : Option PortId
  /-- released by the despatcher (PLAN packets) -/
  flow : Nat
  flowSeq : Nat
  released : Bool
  deriving DecidableEq, Repr

/-- Credits of one class (R216 to R218): the partner's advertisement, those held, the last cumulative returns
received, and the cumulative returns made. -/
structure Credit where
  partnerHdr : BitVec 16
  partnerData : BitVec 16
  hdr : BitVec 16
  data : BitVec 16
  lastHdr : BitVec 16
  lastData : BitVec 16
  retHdr : BitVec 16
  retData : BitVec 16
  deriving DecidableEq, Repr

/-- A retrain asked for: width, rate and whether it waits for a terminus (R223, R225). -/
structure RetrainReq where
  width : BitVec 2
  rate : BitVec 2
  deriving DecidableEq, Repr

/-- A LINK block (R207): STATE, FIRST_HEAD, ACK_SEQ and ACK_VALID, CREDIT as HDR and DATA by class, the flags DRAINED and
RETRAIN_REQ, and TARGET. -/
structure LinkBlock where
  state : BitVec 8
  firstHead : BitVec 8
  ackSeq : BitVec 12
  ackValid : Bool
  credit : Vector (BitVec 16 × BitVec 16) 3
  drained : Bool
  retrainReq : Bool
  target : RetrainReq
  deriving DecidableEq, Repr

/-- The block stream that a port sends (R203): blocks sent since training ended; the words of the block now being filled; the
words of the frame in progress that are still to be laid; the blocks sent since the last LINK block; that LINK block; and
the part of the next block's time that has passed. -/
structure TxStream where
  block : Nat
  opened : List (BitVec 64)
  words : List (BitVec 64)
  sent : List (BitVec 512)
  link : Option LinkBlock
  phase : Nat
  deriving DecidableEq, Repr

/-- A pending key setting (R251). -/
structure PendKeys where
  keys : Vector (BitVec 16) 4
  fence : Bool
  deriving DecidableEq, Repr

/-- States of a despatcher (DESPATCH_STATUS). -/
inductive DespState where
  | idle | running | waitPacket | waitCredit | markWait | ended
  deriving DecidableEq, Repr

/-- One link port with its fabric registers (chapters 7 and 8; R501 for KCL). -/
structure Port where
  state : LinkState
  ready : Bool
  deferrals : BitVec 8
  lanesGood : BitVec 16
  lanesActive : BitVec 16
  rate : BitVec 2
  reach : BitVec 2
  partnerDrained : Bool
  enable : Bool
  marginFloor : BitVec 8
  reachCfg : BitVec 2
  txNext : BitVec 12
  txOldest : BitVec 12
  rxExpected : BitVec 12
  ackValid : Bool
  replay : List TxFrame
  /-- how many of the newest frames of `replay` still have to be sent again -/
  resend : Nat
  replayHigh : BitVec 21
  credits : Vector Credit 3
  timeoutsRow : Nat
  fecCorrected : BitVec 32
  fecUncorr : BitVec 32
  discarded : BitVec 16
  gaps : BitVec 16
  duplicates : BitVec 16
  ignored : BitVec 16
  timeouts : BitVec 16
  sentAgain : BitVec 32
  downEvents : BitVec 16
  retrainsIn : BitVec 16
  retrainsOut : BitVec 16
  framesLost : BitVec 16
  margin : Vector (BitVec 8) 4
  badControl : BitVec 16
  outOfWindow : BitVec 16
  breaches : BitVec 16
  /-- the receiver ignores words until the next good LINK block (R205) -/
  skipping : Bool
  sawInit : Bool
  sawActive : Bool
  /-- lanes have been trained: the block stream runs and INIT is being sent -/
  trainedOnce : Bool
  /-- equaliser values are stored -/
  equalised : Bool
  request : Option RetrainReq
  /-- a LINK_RETRAIN that waits for its terminus -/
  requestCmd : Option Descriptor
  /-- LINK_RETRAINs whose retrain or training runs (R230, R422) -/
  runCmds : List Descriptor
  target : RetrainReq
  /-- the target of the new retrain that a cause of the resume stage starts (R230) -/
  again : Option RetrainReq
  /-- a full-training try waits for a terminus (R201) -/
  tryWaits : Bool
  /-- a warm reset's retrain is to go through INIT (R229) -/
  reinit : Bool
  /-- the stream sent, and blocks received since training ended (R203) -/
  tx : TxStream
  rxBlock : Nat
  /-- RETRAIN_REQ of the partner's last good LINK block (R207), for which the spec gives no further use -/
  partnerReq : Bool
  /-- station time at which the last TIME frame started (R206) -/
  lastTime : Option Nat
  rx : List RxPacket
  txTime : List OutPacket
  txCtrl : List OutPacket
  txData : List OutPacket
  -- fabric
  keys : Vector (BitVec 16) 4
  fence : Bool
  pendKeys : Option PendKeys
  keyMismatch : Bool
  notice : BitVec 2
  partnerValid : Bool
  partnerGid : BitVec 20
  stale : BitVec 16
  stray : BitVec 16
  fencedCount : BitVec 16
  partition : BitVec 16
  payloadCrc : BitVec 16
  badRoute : BitVec 16
  slipNs : BitVec 64
  holds : BitVec 32
  ctrlUnits : BitVec 32
  -- despatcher
  desp : DespState
  flow : BitVec 16
  /-- index of the points-list record in progress, or last taken -/
  record : BitVec 15
  walk : Walk
  lists : List (List (BitVec 64))
  /-- flows the port's points lists name (R244) -/
  transit : List Nat
  /-- next FLOW_SEQ to release of each flow in this attempt -/
  next : KMap Nat
  deriving DecidableEq, Repr

/-- The FABRIC block (R20, R242, R251, R359). -/
structure Fab where
  gidValid : Bool
  gid : BitVec 20
  dieBlock : BitVec 4
  /-- on-die copy of the route table: the entries that are not zero -/
  dieTable : KMap (BitVec 128)
  /-- PARTITION_SETs that await installation: descriptor and ports still to install -/
  partCmds : List (Descriptor × BitVec 32)
  /-- next FLOW_SEQ to form, of each flow sourced here -/
  flowSeq : KMap Nat
  /-- packets of each flow that have landed here in the attempt (R41) -/
  landed : KMap Nat
  deriving DecidableEq, Repr

/-! ## Waybills -/

/-- States of a waybill (R299), in the order of their codes. -/
inductive WbState where
  | free | queued | prefill | decode | stabled | cancelled | expired | done | faulted
  deriving DecidableEq, Repr

/-- A waybill: the fields of its entry (R297, R298) and what the module keeps with it. -/
structure Waybill where
  state : WbState
  priority : BitVec 4
  colophon : Bool
  expireStable : Bool
  restoring : Bool
  stablePending : Bool
  tenant : BitVec 16
  ring : BitVec 12
  livery : Option (BitVec 12)
  deadline : BitVec 64
  ttl : BitVec 32
  committed : Nat
  inputLength : Nat
  generated : Nat
  proofDepth : BitVec 5
  berth : Option (BitVec 12)
  microbatch : BitVec 8
  timingChoices : BitVec 32
  ticket : BitVec 48
  inputStore : BitVec 32
  directory : BitVec 32
  opened : BitVec 48
  closeStatus : BitVec 16
  clientTag : BitVec 32
  params : BitVec 512
  -- kept with the waybill
  /-- generated tokens held back under R345: token and position -/
  held : List (Nat × Nat)
  /-- bytes owed to a UTF-8 sequence (R344) -/
  owed : Nat
  voided : Bool
  /-- state held before stabling or expiry (R300) -/
  back : WbState
  /-- closed at the last commit: FREE after the next (R300) -/
  closing : Bool
  inPlace : Bool
  /-- no report of a rebuild is owed (R388) -/
  rebuilt : Bool
  /-- appended to its microbatch: frames reserved per layer (R304) -/
  reserved : Nat
  /-- last generated tokens, newest first, at most 16 (R336) -/
  tail : List Nat
  storeKiB : Nat
  /-- full pages that a sheet has carried in HEADS (R310) -/
  headed : Nat
  /-- tokens generated in the pass just committed and not yet published: token and position -/
  fresh : List (Nat × Nat)
  /-- position of the last generated token (R503) -/
  lastGen : Nat
  /-- STOP of R337 at the close -/
  stop : BitVec 8
  /-- a ticket that has ended, and whether a cancellation ended it (R421) -/
  ticketEnd : Option (BitVec 48 × Bool)
  deriving DecidableEq, Repr

/-- A command held by the engine until a commit (R301). -/
inductive WbChange where
  | opened (w : Nat) (e : Waybill)
  | appended (w : Nat) (store : Nat) (kib : Nat) (n : Nat)
  /-- with the state's code at acceptance (R422) -/
  | cancel (w : Nat) (st : Nat)
  | stable (w : Nat)
  | resumed (ticket : BitVec 48) (deadline : BitVec 64) (priority : BitVec 4)
  | liveryFree (slot : Nat)
  deriving DecidableEq, Repr

/-- A pending change with the command that asked for it; a CANCEL write has none. -/
structure WbPending where
  change : WbChange
  cmd : Option Descriptor
  deriving DecidableEq, Repr

/-- What the engine does to one waybill entry in a commit, beside the rows of the ended pass and admission (R315). -/
inductive EngWork where
  /-- a stage chip could not hold its share of the stabled waybill: its ticket (R322) -/
  | noRoom (w : Nat) (ticket : BitVec 48)
  /-- its pages cannot be rebuilt (R390) -/
  | lost (w : Nat)
  /-- what the deadline reference expires (R319) -/
  | expire (w : Nat)
  /-- a pending cancellation (R316, R317) -/
  | cancel (p : WbPending)
  /-- another pending command (R301) -/
  | apply (p : WbPending)
  deriving DecidableEq, Repr

/-- What an allocation of the page reserve or the input area is for (R502). -/
inductive AllocKind where
  | root | block | frame (layer page : Nat) | head (layer page : Nat) | score | input
  deriving DecidableEq, Repr

/-- An allocation of the cache pool, in address order. -/
structure Alloc where
  base : Nat
  size : Nat
  owner : Nat
  kind : AllocKind
  deriving DecidableEq, Repr

/-- One berth record of the sheet (R294). -/
structure Berth where
  waybill : Nat
  kind : Nat
  isNew : Bool
  voided : Bool
  sparse : Bool
  closing : Bool
  row : Nat
  group : BitVec 8
  writes : Nat
  livery : BitVec 12
  tenant : BitVec 16
  committed : Nat
  ticket : BitVec 48
  headFirst : Nat
  headCount : Nat
  accepted : Nat
  stop : BitVec 8
  nextToken : Nat
  deriving DecidableEq, Repr

/-- A waybill's stabled copy on this chip (R320): far address in KiB, size, pages of each layer, the positions that it holds,
whether the copy has finished, and the pages whose heads are valid (layer and page). -/
structure Parked where
  base : Nat
  size : Nat
  pages : Nat
  len : Nat
  done : Bool
  heads : List (Nat × Nat)
  deriving DecidableEq, Repr

/-- A waybill's shadow on a stage chip (R291, R324). -/
structure Shadow where
  voided : Bool
  committed : Nat
  root : Nat
  /-- M of R387 on the chip that rebuilds it; its committed length elsewhere -/
  start : Nat
  /-- the livery of its berth, while it may pass this chip (R342) -/
  livery : Option Nat
  deriving DecidableEq, Repr

/-- What an admission has done so far (R303): waybills placed, rows and slices left or taken, liveries of the microbatch, and
candidates passed over. -/
structure Admission where
  placed : List Nat
  rows : Nat
  slices : Nat
  sparse : Nat
  liveries : List Nat
  passedLivery : List Nat
  passedRoom : List Nat
  deriving DecidableEq, Repr

/-- The walk of R303 in progress: its microbatch, the step committed, the deadline reference, what it has done, the candidates
that it has handled, and the visits left, each a round and a waybill. -/
structure AdmitWalk where
  m : Nat
  step : Nat
  ref : Nat
  adm : Admission
  seen : List Nat
  visits : List (Nat × Nat)
  deriving DecidableEq, Repr

/-- A cancellation that has taken effect at once and whose records wait for room (R301): the waybill, its command, and the
state's code at acceptance. -/
structure LateCancel where
  waybill : Nat
  cmd : Option Descriptor
  st : Nat
  deriving DecidableEq, Repr

/-- The waybill engine (chapter 10). -/
structure Eng where
  /-- entries that are not FREE, by index -/
  table : KMap Waybill
  /-- the entries as of the last commit, as the table window shows them (R296) -/
  shown : KMap Waybill
  shadows : KMap Shadow
  pending : List WbPending
  opened : BitVec 48
  serial : BitVec 32
  /-- the sheet of the pass this chip runs in the present or next step, and its release list -/
  sheet : List Berth
  release : List Berth
  /-- desk chip of a forme of several chips: the sheet it sends in the present or next step (R295) -/
  nextSheet : List Berth
  nextRelease : List Berth
  /-- stabled copies in this chip's STABLE area, and waybills whose restore copy is unfinished (R320, R321) -/
  parked : KMap Parked
  restores : List Nat
  /-- release records that wait for the next sheet of their microbatch (R315), and those of the sheets that may not have passed
  every chip, the latest first -/
  releases : List (Nat × Berth)
  sent : List (List (Nat × Berth))
  /-- rows of the present pass whose void bit is set (R317) -/
  voidRows : List Nat
  allocs : List Alloc
  counts : Vector (BitVec 17) 9
  freeRows : BitVec 13
  microbatch : BitVec 8
  cancelIgnored : Bool
  reserved : BitVec 32
  admitted : BitVec 32
  passedLivery : BitVec 16
  passedRoom : BitVec 16
  voidedLanes : BitVec 32
  refused : BitVec 32
  rankLate : BitVec 32
  rankings : BitVec 32
  /-- waybills whose ranking is in progress -/
  ranking : List Nat
  /-- slots changed at the previous terminus (R324), and the copy written last -/
  dirty : List Nat
  ledgerCopy : Bool
  /-- slots that the record of each ledger copy covers (R189) -/
  ledgerSlots : Vector (List Nat) 2
  /-- slots of the copy in force that SB4 found uncorrectable when it came up (R189) -/
  unread : List Nat
  /-- waybills closed and admitted, and timing choices, that the next commit's edition is to report (R425) -/
  closedNow : List Nat
  admittedNow : Nat
  choicesNow : Nat
  /-- what the editions since the last commit report of it (R425, R426) -/
  closedShown : List Nat
  admittedShown : Nat
  choicesShown : Nat
  /-- kinds of the timing choices that the sixth action is still to count (R315) -/
  choicesDue : List Nat
  /-- entries that the engine has handled in the commit in progress, and its walk of admission (R157, R303) -/
  handled : Nat
  /-- what the engine has still to do in the part of the commit at which a breakpoint has stopped it (R158) -/
  todo : List EngWork
  walk : Option AdmitWalk
  /-- stabled waybills whose share a stage chip could not hold, with their tickets (R322) -/
  noRoom : List (Nat × BitVec 48)
  /-- cancellations whose records wait for room (R301) -/
  late : List LateCancel
  /-- frames held, and whether a ranking was in progress, at the last commit (R326) -/
  shownHeld : Nat
  shownRanking : Bool
  /-- forme digest, serving fields and logical chip in force before a warm reset (R325) -/
  adopt : Option (Digest × Serving × Nat)
  /-- the loaded forme has adopted such pages (R391) -/
  adopted : Bool
  deriving DecidableEq, Repr

/-- A row the sampler has processed and not yet released at a mark (R329). -/
structure SampledRow where
  row : Nat
  accepted : Nat
  stop : BitVec 8
  tokens : List Nat
  /-- what the row adds to the counters once its step commits (R349): draws, greedy choices, drafts compared and matched,
  and whether its logits held a NaN -/
  draws : Nat
  greedy : Nat
  offered : Nat
  matched : Nat
  nan : Bool
  deriving DecidableEq, Repr

/-- The sampler (chapter 11). -/
structure Smp where
  walk : Walk
  lists : List (List (BitVec 64))
  /-- rows of the pass taken so far -/
  rowsTaken : Nat
  /-- entries taken from each picker's SAMP queue and not yet used -/
  buf : List (List Entry)
  outputs : List SampledRow
  released : List SampledRow
  stopped : Bool
  draws : BitVec 32
  greedy : BitVec 32
  rows : BitVec 32
  nanLogits : BitVec 16
  noCandidate : BitVec 16
  lengthLimit : BitVec 16
  maxNew : BitVec 16
  stopSequence : BitVec 16
  eos : BitVec 16
  offered : BitVec 32
  accepted : BitVec 32
  tallyFull : BitVec 32
  stallUs : BitVec 32
  stallNs : BitVec 10
  stallCommits : BitVec 32
  deriving DecidableEq, Repr

/-- A livery slot that is VALID or pending (R340 to R342). -/
structure LiverySlot where
  bank : BitVec 32
  rank : BitVec 8
  format : BitVec 4
  staged : Option Nat
  valid : Bool
  tenant : BitVec 16
  alpha : BitVec 32
  weightDigest : Digest
  digest : Digest
  length : Nat
  /-- staging copy not yet finished -/
  copying : Bool
  deriving DecidableEq, Repr

/-- Liveries (R340 to R343). -/
structure Liv where
  slots : KMap LiverySlot
  /-- staging slots freed: slot and step at which it was freed (R342) -/
  freed : List (Nat × Nat)
  late : BitVec 16
  stagings : BitVec 16
  deriving DecidableEq, Repr

/-! ## Forme and weights -/

/-- A tensor present on the chip (R371, R372). -/
structure Present where
  image : Digest
  source : Digest
  length : Nat
  deriving DecidableEq, Repr

/-- An open FABRIC load (R375): the tensors of its list, those that still await their WEIGHT_END, the image portions that have
arrived by tensor and offset, tensors made present, whether one was discarded, and bytes received. -/
structure FabricLoad where
  cmd : Descriptor
  tensors : List Nat
  open' : List Nat
  received : KMap (List (Nat × List Byte))
  present : Nat
  failed : Bool
  bytes : Nat
  deriving DecidableEq, Repr

/-- A WEIGHTS_BROADCAST whose packets have not all been sent (R374): the command, its RESULT, the tensors of its list, and whether
a port has dropped one of its packets. -/
structure Broadcast where
  cmd : Descriptor
  result : Nat
  tensors : List Nat
  lost : Bool
  deriving DecidableEq, Repr

/-- States of the forme (FORME_STATUS.STATE). -/
inductive FormeState where
  | none | loaded | imposed | started
  deriving DecidableEq, Repr

/-- The loaded forme, its imposition and the weight set (chapter 12). -/
structure FormeSt where
  state : FormeState
  chip : BitVec 17
  reason : BitVec 8
  placement : BitVec 2
  digest : Digest
  forme : Option Forme
  present : KMap Present
  sealed : Bool
  weightDigest : Digest
  bytes : BitVec 48
  strayCopies : BitVec 16
  strict : Bool
  rerouted : BitVec 16
  patched : BitVec 17
  imposeDigest : Digest
  regionNear : BitVec 32
  regionNearBase : BitVec 32
  regionFar : BitVec 32
  regionFarBase : BitVec 32
  /-- binding: GID of each logical chip -/
  binding : List (BitVec 20)
  partners : List (BitVec 32)
  keys : Vector (BitVec 16) 4
  /-- imposed routes of the flows sourced here, and of the control routes -/
  flows : List (Nat × Route)
  tree : List (Nat × Route)
  voidRoute : Route
  fabricLoad : Option FabricLoad
  broadcast : Option Broadcast
  /-- WEIGHT_STATUS.PRESENT as the last completed command left it (R378) -/
  presentShown : Nat
  /-- a FORME_STOP has taken effect since the load (R258) -/
  torn : Bool
  deriving DecidableEq, Repr

/-! ## Faults, health, mirror, log and recovery -/

/-- FAULT_DETAIL (R380). -/
structure FaultDetail where
  more : Bool
  code : BitVec 8
  unit : BitVec 8
  tt : BitVec 40
  deriving DecidableEq, Repr

/-- A self-test of one part (SELF_TEST_STATE). -/
structure SelfTest where
  failed : BitVec 16
  progress : BitVec 16
  state : BitVec 4
  deriving DecidableEq, Repr

/-- A self-test command in progress: descriptor, its parts, those ended and those failed (R397). -/
structure SelfTestJob where
  cmd : Descriptor
  parts : List Nat
  ended : List Nat
  failed : List Nat
  queued : Bool
  deriving DecidableEq, Repr

/-- Faults and health (R379 to R399). -/
structure Health where
  fault : FaultDetail
  points : Vector (BitVec 32) 164
  score : Vector (BitVec 10) 164
  /-- points of 10^-8 that each part gathered in each of the last 60 seconds, newest first (R392) -/
  window : List (List Nat)
  /-- the counters of each part at the last computation, whose growth is the events of the next second -/
  counted : List (List Nat)
  /-- parts whose latest self-test reported FAIL (R393) -/
  failing : BitVec 164
  floor : BitVec 10
  alerts : BitVec 164
  test : Vector SelfTest 164
  jobs : List SelfTestJob
  /-- aborts, STOP announcements and watchdog resets of SB1 to SB5, for the chip's score -/
  aborts : Nat
  stops : Nat
  boxResets : Nat
  deriving DecidableEq, Repr

/-- A fetch of a rebuilt chip that has not been answered (R387). -/
structure Fetch where
  waybill : Nat
  /-- 0 shadow, 1 ledger, 2 page, 3 head, 4 logged input, 5 input store -/
  kind : Nat
  layer : Nat
  page : Nat
  deriving DecidableEq, Repr

/-- A copy of SB3 between the tiers: the pages of a waybill stabled (R320) or brought back (R321), the positions of the staging ring
(R386), and the section of a livery slot (R342). -/
inductive CopyJob where
  | stable (w : Nat)
  | restore (w : Nat)
  | log
  | stage (slot : Nat)
  deriving DecidableEq, Repr

/-- Bytes of one near and one far entry that a copy of SB3 moves from the one to the other, with byte addresses; `pad` zeros follow them in the
near tier. They are read in a slot of the tier that they come from, and written in one of the other (R178, R192). -/
structure Move where
  job : CopyJob
  near : Nat
  far : Nat
  len : Nat
  pad : Nat
  /-- from the near to the far tier -/
  out : Bool
  /-- the bytes, once they have been read -/
  data : Option (List Byte)
  deriving DecidableEq, Repr

/-- Mirror, input log and recovery (R382 to R391). -/
structure Mirror where
  /-- items queued and not yet acknowledged; those whose reads have not been served are also in `unsent` -/
  backlog : List MirrorItem
  unsent : List MirrorItem
  /-- items that had been sent at the last commit and not acknowledged: they are sent again at the next (R445) -/
  waited : List MirrorItem
  /-- slots held here for the source: item and far address in KiB -/
  slots : List (MirrorItem × Nat)
  /-- items of the source that have arrived whole and are not yet written (R384) -/
  arrived : List MirrorItem
  full : Bool
  sourceGid : BitVec 20
  partnerGid : BitVec 20
  acked : BitVec 32
  received : BitVec 32
  logConfig : BitVec 3
  logLate : BitVec 32
  logPositions : BitVec 32
  /-- positions staged by the committed pass, waiting for SB3: waybill, position and near address in KiB -/
  logDue : List (Nat × Nat × Nat)
  /-- what SB3's copies between the tiers still have to move, in order (R178, R192) -/
  moves : List Move
  logRing : Nat
  /-- for each waybill, the first position whose stage input this chip has logged (R386, R390) -/
  logged : KMap Nat
  faulted : BitVec 16
  rebuilt : BitVec 16
  rebuilding : Bool
  fetches : List Fetch
  /-- waybills that this chip has found it cannot rebuild (R390) -/
  lost : List Nat
  /-- RESTORING waybills whose rebuild this chip has still to report (R388) -/
  owed : List Nat
  deriving DecidableEq, Repr

/-! ## Debug -/

/-- One BREAK register (R157). -/
structure Break where
  armed : Bool
  tagKind : Bool
  stream : BitVec 2
  unit : BitVec 4
  press : BitVec 7
  once : Bool
  mask : BitVec 16
  value : BitVec 32
  /-- a COUNT breakpoint has hit in this attempt (R158) -/
  hit : Bool
  deriving DecidableEq, Repr

/-- What a breakpoint has stopped (R157). -/
inductive Stopped where
  | stream (p : PressId) (s : StreamId)
  | sampler
  | engine
  deriving DecidableEq, Repr

/-- The DEBUG block (R156 to R158). -/
structure Dbg where
  enabled : Bool
  stopped : List Stopped
  /-- resumed units, whose next instruction, berth or entry is not tested again (R158) -/
  passed : List Stopped
  breaks : Vector Break 8
  hitValid : Bool
  hitIndex : BitVec 3
  hitTt : BitVec 40
  /-- DEBUG_ENABLE held until the next terminus: descriptor and ON -/
  pendingCmd : Option (Descriptor × Bool)
  deriving DecidableEq, Repr

/-! ## The companion link, rings and the edition -/

/-- A line of the shared window that the companion holds (R405): false is S, true is E. -/
structure Line where
  addr : Nat
  excl : Bool
  deriving DecidableEq, Repr

/-- What the module does to the shared window, in order (R408), and EDITION_MIRROR, which follows the page (R426). -/
inductive SharedOp where
  /-- write 64 bytes' worth of a line: address and the bytes with their offsets -/
  | write (addr : Nat) (bytes : List Byte)
  /-- send INTR with this vector, once every earlier write is visible -/
  | intr (vector : BitVec 16)
  /-- EDITION_MIRROR takes this value, once every earlier write is visible -/
  | mirror (edition : BitVec 64)
  deriving DecidableEq, Repr

/-- A message the module sends on KCL (R401). -/
structure KclMsg where
  msg : BitVec 8
  error : Bool
  tag : BitVec 16
  addr : Nat
  data : List Byte
  /-- LENGTH: bytes asked for by MEM_RD, else 0 -/
  length : Nat
  deriving DecidableEq, Repr

/-- A ring's configuration (R413). `aux` holds CPL, VECTOR or TENANT. -/
structure RingCfg where
  enable : Bool
  intr : Bool
  aux : BitVec 16
  size : BitVec 5
  base : BitVec 22
  deriving DecidableEq, Repr

/-- A ring with its indexes (R412). -/
structure Ring where
  cfg : RingCfg
  producer : BitVec 32
  consumer : BitVec 32
  deriving DecidableEq, Repr

/-- A completion waiting for room (R415). -/
structure Completion where
  cmd : Descriptor
  status : BitVec 16
  final : Bool
  reply : Bool
  reason : BitVec 8
  result : BitVec 128
  /-- bits [31:0] of the edition counter when it was posted -/
  edition : BitVec 32
  deriving DecidableEq, Repr

/-- An event that waits for SB0 (R441): the station time at which it arose, its type and its parameters. -/
structure HeldEvent where
  station : Nat
  type : Nat
  a : Nat
  b : Nat
  c : Nat
  deriving DecidableEq, Repr

/-- A MEM_RD not yet answered (R402, R409): its tag, the command that it reads for, or none where the ROM reads an image (R435), and
the offset in the command's block, or none where it reads a source that the block names. -/
structure MemRead where
  tag : BitVec 16
  cmd : Option Descriptor
  off : Option Nat
  deriving DecidableEq, Repr

/-- Companion memory still to be read for a command, or for the ROM (R409, R435): address, bytes, and the offset in its block, or
none for a source. -/
structure MemWant where
  cmd : Option Descriptor
  addr : Nat
  len : Nat
  off : Option Nat
  deriving DecidableEq, Repr

/-- KCL, its windows and the directory (R400 to R411). The link-layer registers are port 32 of `State.ports`. -/
structure Kcl where
  cfgError : Bool
  sharedSize : BitVec 32
  unmapped : BitVec 16
  snoopTimeouts : BitVec 16
  badMessage : BitVec 16
  recalls : BitVec 16
  /-- lines in S or E, in the order granted, oldest first -/
  lines : List Line
  /-- snoops sent and not answered: line address, and whether it is SNP_INV -/
  snoops : List (Nat × Bool)
  /-- module writes and INTRs not yet visible, in order -/
  fifo : List SharedOp
  tx : List KclMsg
  /-- INTRs not yet acknowledged -/
  intrs : List (BitVec 16)
  /-- requests not yet performed, in the order received (R407) -/
  reqs : List Held
  /-- MEM_RDs not yet answered -/
  reads : List MemRead
  /-- what is still to be read -/
  want : List MemWant
  /-- the pieces of blocks read so far: command, offset and bytes -/
  got : List (Descriptor × Nat × List Byte)
  /-- KCL has gone DOWN and is not yet READY again -/
  wasDown : Bool
  downAt : BitVec 64
  downLines : Nat
  downCmds : Nat
  deriving DecidableEq, Repr

/-- Rings, commands taken, and the edition (R412 to R428). -/
structure Rings where
  sub : Vector Ring 64
  cpl : Vector Ring 64
  evt : Ring
  evtLost : BitVec 32
  evtLostSince : BitVec 16
  /-- events that wait for SB0 through a handover, in order (R441) -/
  evtHeld : List HeldEvent
  out : KMap Ring
  /-- next submission ring to be looked at (R414) -/
  turn : Fin 64
  /-- commands taken and not yet run, in acceptance order -/
  taken : List Descriptor
  /-- commands of each submission ring that await a final completion -/
  awaiting : Vector Nat 64
  /-- completions waiting for room, in posting order -/
  waiting : List Completion
  /-- commands that the last warm reset abandoned, for its event (R420) -/
  abandoned : Nat
  edEnable : Bool
  edBase : BitVec 22
  edition : BitVec 64
  edMirror : BitVec 64
  edTerminus : BitVec 64
  /-- the edition that first reported what the table window shows (R422) -/
  edTable : BitVec 64
  edAttempt : BitVec 8
  /-- station time and launch announced of the last commit (R425) -/
  edStation : BitVec 64
  edLaunch : BitVec 64
  /-- the straggle record of the last commit (R395) -/
  straggle : BitVec 128
  /-- final completions to be posted once the edition is written (R415) -/
  atEdition : List Completion
  /-- a commit that waits: its announcement, the action it stands before (R347), and whether it is a COMMIT_STOP -/
  commit : Option (BitVec 192 × Nat × Bool)
  deriving DecidableEq, Repr

/-! ## Firmware and the management endpoint -/

/-- States of the boot (FW_BOOT.STATE). -/
inductive BootState where
  | rom | recovery | running | handover
  deriving DecidableEq, Repr

/-- One signal box (R429, R430). -/
structure SbState where
  resets : BitVec 16
  state : BitVec 2
  timeout : BitVec 32
  /-- the segment in the box's SRAM, and its start address there (R432, R433) -/
  sram : List Byte
  entry : BitVec 32
  /-- the segment of the last restart failed its digest (R436) -/
  spoiled : Bool
  deriving DecidableEq, Repr

/-- A firmware message not yet acknowledged (R445). -/
structure FwMessage where
  serial : BitVec 16
  dest : BitVec 20
  box : BoxId
  data : BitVec 128
  sendings : Nat
  deriving DecidableEq, Repr

/-- Firmware, boot, option block and colophon log (chapter 15). -/
structure Fw where
  boot : BootState
  optionDefault : Bool
  runningSlot : Bool
  source : BitVec 3
  failStep : BitVec 3
  recoveryAddr : BitVec 64
  recoveryLen : BitVec 32
  recoveryGo : Bool
  running : BitVec 32
  boxes : Vector SbState 6
  /-- image in the staging SRAM -/
  staged : Option (List Byte)
  /-- the image slot that holds it (R437) -/
  stagedSlot : Bool
  /-- bytes of the running image, as in the running slot -/
  image : List Byte
  /-- the running image is the one last staged or recovered (R442) -/
  runningIsStaged : Bool
  handoverCmd : Option Descriptor
  handoverPending : Bool
  optionBlock : Vector (BitVec 64) 16
  optionDone : Bool
  optionError : Bool
  strapLow : Bool
  /-- the secret of R446 is locked against all reads -/
  secretLocked : Bool
  colophonNext : Nat
  messages : List FwMessage
  serials : KMap (BitVec 16)
  /-- serials received and acted on: sender GID and serial -/
  seen : List (BitVec 20 × BitVec 16)
  deriving DecidableEq, Repr

/-- The management endpoint (R449 to R451, R491). -/
structure Mgmt where
  address : Option (BitVec 7)
  eid : BitVec 8
  /-- message that the last CHALLENGE_AUTH or MEASUREMENTS signature covered (R451) -/
  signed : Option (List Byte)
  /-- answers sent, newest last -/
  tx : List (List Byte)
  negotiated : Bool
  deriving DecidableEq, Repr

/-! ## The whole block -/

/-- The state of the block. -/
structure State where
  nv : Nv
  power : Power
  time : Time
  clk : Clk
  tt : Tt
  barrier : Barrier
  presses : Vector Press 96
  near : Near
  far : Far
  /-- entries crossing the concourse, oldest first -/
  conc : List Arrival
  ports : Vector Port 33
  fab : Fab
  eng : Eng
  smp : Smp
  liv : Liv
  forme : FormeSt
  health : Health
  mirror : Mirror
  dbg : Dbg
  kcl : Kcl
  rings : Rings
  fw : Fw
  mgmt : Mgmt
  /-- the model's own: how many free values have been drawn -/
  free : Nat
  /-- the commands that are waiting, first in, first out -/
  pending : List Instr
  deriving DecidableEq, Repr

/-! ## Reset (R9, R457, R470)

Every field at the value of its register's Reset column; the values that no Reset column gives are those the
assumption log names. -/

/-- Walk at a full reset (R9). -/
def Walk.reset : Walk where
  idx := 0
  loop := none
  mark := none
  lastMark := 0
  ended := false
  left := 0
  busy := false

/-- Progress at a full reset (R9). -/
def Progress.reset : Progress where
  round := 0
  held := []
  out := []
  pushed := 0

/-- Stream at a full reset (R9). -/
def Stream.reset : Stream where
  state := .idle
  pc := 0
  icount := 0
  tag := 0
  mem := []
  loop := none
  mark := none
  lastMark := 0
  waiting := none
  rowWait := false
  waitAt := none
  prog := Progress.reset
  side := none

/-- Bank at a full reset (R9). -/
def Bank.reset : Bank where
  rows := []
  queue := []

/-- Queue at a full reset (R9). -/
def Queue.reset : Queue where
  cap := 0
  producer := 0
  consumer := 0
  entries := []
  high := 0

/-- A press after a full reset: its registers at their Reset values, store and queues empty (R9). -/
def Press.reset : Press where
  m := Stream.reset
  v := Stream.reset
  x := Stream.reset
  gap := 0
  send := []
  sendPos := 0
  sendIdx := 0
  outHold := []
  foutEcc := []
  sampEcc := []
  foutStop := false
  queues := .replicate 64 Queue.reset
  bankA := Bank.reset
  bankB := Bank.reset
  plane0 := none
  plane1 := none
  badRows := []
  store := []
  parity := false
  landing := none
  landFrom := 0
  landLeft := 0
  landEcc := Reads.clean
  landBuf := []
  owed := []
  activePlane := 0
  parityError := false
  windowMismatch := false
  accInvalid := false
  accSat := false
  invalidCells := 0
  satCells := 0
  periods := 0
  periodsAt := 0
  queueEcc := false
  readInvalid := false
  readSat := false
  nanIn := false
  overflow := false
  invalidOp := false
  readSatCells := 0
  invalidLanes := 0
  vecPeriods := 0
  pushWaits := 0
  popWaits := 0
  variant := 3
  mLen := 0
  vLen := 0
  xLen := 0
  refetches := 0
  loads := 0
  shown := .replicate 3 0
  shownProgram := 0x0003000000000000
  leftOut := false
  power := .stand
  wakes := 0
  layoverNs := 0
  shedNs := 0
  hazards := 0
  hazardRecs := []
  touchLand := []
  touchX := []
  scrubAddr := 0
  scrubPasses := 0
  scrubUncorr := 0
  uncorrectable := 0
  corrected := 0
  sramCorrected := 0
  sramUncorr := 0
  stray := 0
  lbHigh := 0
  laneStops := 0

/-- Channel at a full reset (R9). -/
def Channel.reset : Channel where
  temp := 0
  tempAt := 0
  rate := 0
  deferrals := 0
  hot := false
  trained := false
  ready := false
  slot := 0
  retrains := 0
  uncorrectable := 0
  edcWrite := 0
  edcRead := 0
  eccCorrected := 0
  due := false
  lastRetrain := 0
  retraining := false
  inStepRetrains := 0
  stepEdc := 0
  streams := []
  walk := Walk.reset
  coming := []
  arrived := []
  host := []
  box := []

/-- Near at a full reset (R9). -/
def Near.reset : Near where
  mem := []
  channels := .replicate 32 Channel.reset
  poolBase := 0
  formeSize := 0
  refreshing := false
  hotInterval := false
  selfRefresh := false
  late := []
  commits := false

/-- FarPort at a full reset (R9). -/
def FarPort.reset : FarPort where
  capacity := 0
  width := 0
  speed := 0
  ready := false
  down := false
  timeouts := 0
  poison := 0
  retries := 0
  streams := []
  walk := Walk.reset
  coming := []
  box := []
  writes := 0

/-- Far at a full reset (R9). -/
def Far.reset : Far where
  mem := []
  ports := .replicate 2 FarPort.reset
  interleave := false
  areaError := false
  areaSize := .replicate 5 0
  areaBase := .replicate 5 0

/-- Credit at a full reset (R9). -/
def Credit.reset : Credit where
  partnerHdr := 0
  partnerData := 0
  hdr := 0
  data := 0
  lastHdr := 0
  lastData := 0
  retHdr := 0
  retData := 0

/-- A stream of which no block has been sent. -/
def TxStream.reset : TxStream where
  block := 0
  opened := []
  words := []
  sent := []
  link := none
  phase := 0

/-- A link port after a full reset: DOWN, fenced, with the option block's defaults for ENABLE and REACH (R199, R252, R443). -/
def Port.reset : Port where
  state := .down
  ready := false
  deferrals := 0
  lanesGood := 0
  lanesActive := 0
  rate := 0
  reach := 3
  partnerDrained := false
  enable := true
  marginFloor := 64
  reachCfg := 0
  txNext := 0
  txOldest := 0
  rxExpected := 0
  ackValid := false
  replay := []
  resend := 0
  replayHigh := 0
  credits := .replicate 3 Credit.reset
  timeoutsRow := 0
  fecCorrected := 0
  fecUncorr := 0
  discarded := 0
  gaps := 0
  duplicates := 0
  ignored := 0
  timeouts := 0
  sentAgain := 0
  downEvents := 0
  retrainsIn := 0
  retrainsOut := 0
  framesLost := 0
  margin := .replicate 4 0
  badControl := 0
  outOfWindow := 0
  breaches := 0
  skipping := false
  sawInit := false
  sawActive := false
  trainedOnce := false
  equalised := false
  request := none
  requestCmd := none
  runCmds := []
  target := ⟨0, 0⟩
  again := none
  tryWaits := false
  reinit := false
  tx := TxStream.reset
  rxBlock := 0
  partnerReq := false
  lastTime := none
  rx := []
  txTime := []
  txCtrl := []
  txData := []
  keys := .replicate 4 0
  fence := true
  pendKeys := none
  keyMismatch := false
  notice := 0
  partnerValid := false
  partnerGid := 0
  stale := 0
  stray := 0
  fencedCount := 0
  partition := 0
  payloadCrc := 0
  badRoute := 0
  slipNs := 0
  holds := 0
  ctrlUnits := 0
  desp := .idle
  flow := 0
  record := 0
  walk := Walk.reset
  lists := []
  transit := []
  next := []

/-- Fab at a full reset (R9). -/
def Fab.reset : Fab where
  gidValid := false
  gid := 0
  dieBlock := 0
  dieTable := []
  partCmds := []
  flowSeq := []
  landed := []

/-- Nv at a full reset (R9). -/
def Nv.reset : Nv where
  flash := []
  rollback := min 64 Config.rollbackAtMake
  job := none
  cmd := none
  deferred := []

/-- The POWER and READY/RESET blocks right after the release of a power-on reset (R457, R470). -/
def Power.reset : Power where
  phase := .options
  auxUp := true
  inputUp := true
  modResetLow := false
  underVolt := false
  tripLatch := false
  holders := []
  causeFull := 0
  causeWarm := 0
  warmResets := 0
  deferrals := 0
  readyPress := 0
  readyStation := false
  readyEngine := false
  readySampler := false
  readyBox := 0
  testing := 0
  warmTests := false
  sramTested := false
  pins := #v[.highZ, .highZ, .low, .highZ, .weakLow, .low, .low]
  taken := 0
  point := 0
  changing := false
  pendingPoint := none
  pointCmd := none
  applying := none
  applyCmd := none
  copyAfter := false
  switchAt := none
  regions := 0
  pointQuiet := false
  deepAllow := false
  quietAllow := true
  limit := 1800
  junction := 0
  meanW := 0
  sampleW := 0
  samples := []
  brakePeak := false
  brakeMean := false
  calm := 0
  braking := false
  waking := false
  chipState := 0
  brakesMean := 0
  brakesPeak := 0
  quietNs := 0
  deepNs := 0
  stagger := none
  windowIdle := 0

/-- Beat at a full reset (R9). -/
def Beat.reset : Beat where
  delay := 0
  code := 0
  span := 0
  count := 0
  last := 0
  station := 0

/-- Time at a full reset (R9). -/
def Time.reset : Time where
  ns := 0
  frac := 0
  freq := 0
  slew := 0
  role := 0
  port := 0
  altPort := 0
  period := 4
  ppsDiscipline := false
  master := 0
  errorBound := 0
  steps := 0
  setRefused := false
  stepped := false
  ppsLocked := false
  usingAlt := false
  holdover := false
  locked := false
  everLocked := false
  heard := false
  delay := 0
  offset := 0
  goodOffsets := 0
  replayed := 0
  lost := 0
  done := 0
  asym := .replicate 32 0
  ppsNs := 0
  ppsFrac := 0
  ppsIgnored := 0
  ppsEdges := 0
  repeater := .replicate 6 0
  probes := []
  nextProbe := 0
  upstream := none
  upstreamLocked := false
  code := 0
  repCode := .replicate 6 0
  beats := .replicate 96 Beat.reset
  ppsDue := false
  ppsHigh := 0

/-- Domain at a full reset (R9). -/
def Domain.reset : Domain where
  source := 1
  div := 1
  divNow := 1
  ramping := false
  sourceNow := 1

/-- Clk at a full reset (R9). -/
def Clk.reset : Clk where
  enNear := 0xFFFFFFFF
  enLink := 0xFFFFFFFF
  enMisc := 0b111
  refused := false
  locked := 0
  longestGap := 0
  refGaps := 0
  domains := .replicate 4 Domain.reset
  sscDepth := .replicate 2 0
  sscNow := .replicate 2 0
  sscRate := .replicate 2 0
  sscRateNow := .replicate 2 0
  sscPhase := .replicate 2 0

/-- Tt at a full reset (R9). -/
def Tt.reset : Tt where
  inStep := false
  draining := false
  drained := false
  runout := false
  runoutAt := 0
  tt := 0
  step := 0
  attempt := 0
  holds := []
  launched := 0
  launchCount := 0
  nextLaunch := none
  nextStep := 0
  nextAttempt := 0
  late := 0
  slip := 0
  aborts := 0
  rootFault := 0
  fault := 0
  faultAt := 0
  reported := 0
  outcome := 0
  stepHoldNs := 0
  holdNs := .replicate 9 0
  holdCount := .replicate 9 0
  timingChoice := 0
  tcKind := .replicate 4 0
  copied := false
  committed := none
  endCount := 0
  variant := 0
  causeNs := .replicate 9 0
  drainAt := 0
  waitRank := false
  waitStage := false
  waitLog := false

/-- Barrier at a full reset (R9). -/
def Barrier.reset : Barrier where
  reports := []
  readies := []
  reported := false
  decided := none
  ready := false
  readySent := false
  startCount := none
  startCmd := none
  stopCmd := none
  stopPending := false
  stopped := false
  rebuilt := none
  faultChip := 0xFFFFFFFF

/-- The waybill engine after a full reset: every entry FREE (R326). -/
def Eng.reset : Eng where
  table := []
  shown := []
  shadows := []
  pending := []
  opened := 0
  serial := 0
  sheet := []
  release := []
  nextSheet := []
  nextRelease := []
  parked := []
  restores := []
  releases := []
  voidRows := []
  allocs := []
  counts := (Vector.replicate 9 0).set 0 65535
  freeRows := 0
  microbatch := 0
  cancelIgnored := false
  reserved := 0
  admitted := 0
  passedLivery := 0
  passedRoom := 0
  voidedLanes := 0
  refused := 0
  rankLate := 0
  rankings := 0
  ranking := []
  dirty := []
  ledgerCopy := false
  ledgerSlots := .replicate 2 []
  unread := []
  sent := []
  adopted := false
  closedNow := []
  admittedNow := 0
  choicesNow := 0
  closedShown := []
  admittedShown := 0
  choicesShown := 0
  choicesDue := []
  handled := 0
  todo := []
  walk := none
  noRoom := []
  late := []
  shownHeld := 0
  shownRanking := false
  adopt := none

/-- Smp at a full reset (R9). -/
def Smp.reset : Smp where
  walk := Walk.reset
  lists := []
  rowsTaken := 0
  buf := []
  outputs := []
  released := []
  stopped := false
  draws := 0
  greedy := 0
  rows := 0
  nanLogits := 0
  noCandidate := 0
  lengthLimit := 0
  maxNew := 0
  stopSequence := 0
  eos := 0
  offered := 0
  accepted := 0
  tallyFull := 0
  stallUs := 0
  stallNs := 0
  stallCommits := 0

/-- Liv at a full reset (R9). -/
def Liv.reset : Liv where
  slots := []
  freed := []
  late := 0
  stagings := 0

/-- FormeSt at a full reset (R9). -/
def FormeSt.reset : FormeSt where
  state := .none
  chip := 0
  reason := 0
  placement := 0
  digest := 0
  forme := none
  present := []
  sealed := false
  weightDigest := 0
  bytes := 0
  strayCopies := 0
  strict := false
  rerouted := 0
  patched := 0
  imposeDigest := 0
  regionNear := 0
  regionNearBase := 0
  regionFar := 0
  regionFarBase := 0
  binding := []
  partners := []
  keys := .replicate 4 0
  flows := []
  tree := []
  voidRoute := ⟨0, 0⟩
  fabricLoad := none
  broadcast := none
  presentShown := 0
  torn := false

/-- FaultDetail at a full reset (R9). -/
def FaultDetail.reset : FaultDetail where
  more := false
  code := 0
  unit := 0
  tt := 0

/-- SelfTest at a full reset (R9). -/
def SelfTest.reset : SelfTest where
  failed := 0
  progress := 0
  state := 0

/-- Health at a full reset (R9). -/
def Health.reset : Health where
  fault := FaultDetail.reset
  points := .replicate 164 0
  score := .replicate 164 1000
  window := []
  counted := []
  failing := 0
  floor := 600
  alerts := 0
  test := .replicate 164 SelfTest.reset
  jobs := []
  aborts := 0
  stops := 0
  boxResets := 0

/-- Mirror at a full reset (R9). -/
def Mirror.reset : Mirror where
  backlog := []
  unsent := []
  waited := []
  slots := []
  arrived := []
  full := false
  sourceGid := 0
  partnerGid := 0
  acked := 0
  received := 0
  logConfig := 0
  logLate := 0
  logPositions := 0
  logDue := []
  moves := []
  logRing := 0
  logged := []
  faulted := 0
  rebuilt := 0
  rebuilding := false
  fetches := []
  lost := []
  owed := []

/-- Break at a full reset (R9). -/
def Break.reset : Break where
  armed := false
  tagKind := false
  stream := 0
  unit := 0
  press := 0
  once := false
  mask := 0
  value := 0
  hit := false

/-- Dbg at a full reset (R9). -/
def Dbg.reset : Dbg where
  enabled := false
  stopped := []
  passed := []
  breaks := .replicate 8 Break.reset
  hitValid := false
  hitIndex := 0
  hitTt := 0
  pendingCmd := none

/-- RingCfg at a full reset (R9). -/
def RingCfg.reset : RingCfg where
  enable := false
  intr := false
  aux := 0
  size := 0
  base := 0

/-- Ring at a full reset (R9). -/
def Ring.reset : Ring where
  cfg := RingCfg.reset
  producer := 0
  consumer := 0

/-- Kcl at a full reset (R9). -/
def Kcl.reset : Kcl where
  cfgError := false
  sharedSize := 0
  unmapped := 0
  snoopTimeouts := 0
  badMessage := 0
  recalls := 0
  lines := []
  snoops := []
  fifo := []
  tx := []
  intrs := []
  reqs := []
  reads := []
  want := []
  got := []
  wasDown := false
  downAt := 0
  downLines := 0
  downCmds := 0

/-- Rings at a full reset (R9). -/
def Rings.reset : Rings where
  sub := .replicate 64 Ring.reset
  cpl := .replicate 64 Ring.reset
  evt := Ring.reset
  evtLost := 0
  evtLostSince := 0
  evtHeld := []
  out := []
  turn := 0
  taken := []
  awaiting := .replicate 64 0
  waiting := []
  abandoned := 0
  edEnable := false
  edBase := 0
  edition := 0
  edMirror := 0
  edTerminus := 0
  edTable := 0
  edAttempt := 0
  edStation := 0
  edLaunch := 0
  straggle := 0
  atEdition := []
  commit := none

/-- SbState at a full reset (R9). -/
def SbState.reset : SbState where
  resets := 0
  state := 0
  timeout := 0
  sram := []
  entry := 0
  spoiled := false

/-- Fw at a full reset (R9). -/
def Fw.reset : Fw where
  boot := .rom
  optionDefault := false
  runningSlot := false
  source := 0
  failStep := 0
  recoveryAddr := 0
  recoveryLen := 0
  recoveryGo := false
  running := 0
  boxes := .replicate 6 SbState.reset
  staged := none
  stagedSlot := false
  image := []
  runningIsStaged := false
  handoverCmd := none
  handoverPending := false
  optionBlock := ((Vector.replicate 16 0).set 0 0x00000000FFFFFFFF).set 1 0x0000003000000000
  optionDone := false
  optionError := false
  strapLow := false
  secretLocked := false
  colophonNext := 0
  messages := []
  serials := []
  seen := []

/-- Mgmt at a full reset (R9). -/
def Mgmt.reset : Mgmt where
  address := none
  eid := 0
  signed := none
  tx := []
  negotiated := false

/-- The machine right after a power-on full reset: option loading is about to begin, nothing is READY, and no
command is waiting (R457, R470). -/
def State.reset : State where
  nv := Nv.reset
  power := Power.reset
  time := Time.reset
  clk := Clk.reset
  tt := Tt.reset
  barrier := Barrier.reset
  presses := .replicate 96 Press.reset
  near := Near.reset
  far := Far.reset
  conc := []
  ports := .replicate 33 Port.reset
  fab := Fab.reset
  eng := Eng.reset
  smp := Smp.reset
  liv := Liv.reset
  forme := FormeSt.reset
  health := Health.reset
  mirror := Mirror.reset
  dbg := Dbg.reset
  kcl := Kcl.reset
  rings := Rings.reset
  fw := Fw.reset
  mgmt := Mgmt.reset
  free := 0
  pending := []

end Sys2Proof.Machine
end

