-- ==== Sys2Proof/Machine/Bits.lean ====
section
/-! DEFINITION. Bit fields, bytes in little-endian order (R5), tables, counters and byte memories. -/

namespace Sys2Proof.Machine

open Sys2Proof

/-! ## Fields and bytes -/

/-- Field of `len` bits at bit `lo` of a number. -/
def fld (w lo len : Nat) : Nat := w / 2 ^ lo % 2 ^ len

/-- One bit of a number. -/
def bitAt (w i : Nat) : Bool := w / 2 ^ i % 2 == 1

/-- A number of `len` bits read as two's complement. -/
def signedOf (len v : Nat) : Int := if 2 ^ (len - 1) ≤ v then (v : Int) - (2 ^ len : Nat) else v

/-- 1 for a set bit. -/
def bit (b : Bool) : Nat := if b then 1 else 0

/-- The number a list of bytes spells, little-endian (R5). -/
def leNat : List Byte → Nat
  | [] => 0
  | b :: bs => b.toNat + 256 * leNat bs

/-- The `n` bytes of a number, little-endian (R5). -/
def leBytes : Nat → Nat → List Byte
  | 0, _ => []
  | n + 1, v => BitVec.ofNat 8 v :: leBytes n (v / 256)

/-- `n` zero bytes. -/
def zeros (n : Nat) : List Byte := List.replicate n 0

/-- `n` bytes at offset `off` of a list, with zeros beyond its end. -/
def sliceBytes (bs : List Byte) (off n : Nat) : List Byte :=
  let t := (bs.drop off).take n
  t ++ zeros (n - t.length)

/-- The number in bytes `[off + n - 1 : off]` of a list (R5). -/
def leAt (bs : List Byte) (off n : Nat) : Nat := leNat (sliceBytes bs off n)

/-- Byte `i` of an entry. -/
def entryByte (e : Entry) (i : Nat) : Byte := e.extractLsb' (8 * i) 8

/-- `len` bits at bit `lo` of an entry. -/
def entryFld (e : Entry) (lo len : Nat) : Nat := (e.extractLsb' lo len).toNat

/-- The 1,024 bytes of an entry. -/
def entryBytes (e : Entry) : List Byte := leBytes 1024 e.toNat

/-- The entry that bytes spell; missing bytes are zero. -/
def entryOf (bs : List Byte) : Entry := BitVec.ofNat 8192 (leNat (bs.take 1024))

/-- A list cut into pieces of `n`; `fuel` bounds the pieces. -/
def chunks {α : Type} (n : Nat) : Nat → List α → List (List α)
  | 0, _ => []
  | fuel + 1, l => if l.isEmpty then [] else l.take n :: chunks n fuel (l.drop n)

/-- Bytes cut into entries, the last filled with zeros. -/
def toEntries (bs : List Byte) : List Entry := (chunks 1024 bs.length bs).map entryOf

/-- The whole number of `d`s that covers `n`. -/
def ceilDiv (n d : Nat) : Nat := (n + d - 1) / d

/-! ## Counters -/

/-- One more, saturating at all ones. -/
def satInc {w : Nat} (x : BitVec w) : BitVec w := if x = BitVec.allOnes w then x else x + 1

/-- `n` more, saturating at all ones. -/
def satAdd {w : Nat} (x : BitVec w) (n : Nat) : BitVec w :=
  if 2 ^ w ≤ x.toNat + n then BitVec.allOnes w else BitVec.ofNat w (x.toNat + n)

/-- `n` more, wrapping. -/
def wrapAdd {w : Nat} (x : BitVec w) (n : Nat) : BitVec w := x + BitVec.ofNat w n

/-- A number that saturates in `w` bits. -/
def satNat (w n : Nat) : Nat := if 2 ^ w ≤ n then 2 ^ w - 1 else n

/-! ## Vectors and tables -/

/-- Element `i` of a vector changed by `f`; unchanged where there is no such element. -/
def vmod {α : Type} {n : Nat} (v : Vector α n) (i : Nat) (f : α → α) : Vector α n :=
  if h : i < n then v.set i (f v[i]) else v

/-- Element `i` of a vector, or `d`. -/
def vget {α : Type} {n : Nat} (v : Vector α n) (i : Nat) (d : α) : α := if h : i < n then v[i] else d

/-- What a table holds under a key. -/
def kget {α : Type} (m : KMap α) (k : Nat) : Option α := m.lookup k

/-- A table with `v` under `k`, keys rising. -/
def kset {α : Type} (k : Nat) (v : α) : KMap α → KMap α
  | [] => [(k, v)]
  | (j, u) :: m => if k < j then (k, v) :: (j, u) :: m else if k = j then (k, v) :: m else (j, u) :: kset k v m

/-- A table without `k`. -/
def kdel {α : Type} (k : Nat) : KMap α → KMap α
  | [] => []
  | (j, u) :: m => if k = j then m else (j, u) :: kdel k m

/-- A table with the value under `k` changed by `f`, if there is one. -/
def kmod {α : Type} (k : Nat) (f : α → α) : KMap α → KMap α
  | [] => []
  | (j, u) :: m => if k = j then (j, f u) :: m else (j, u) :: kmod k f m

/-- Keys rise strictly. -/
def kwf {α : Type} : KMap α → Bool
  | [] => true
  | [_] => true
  | (j, _) :: (k, v) :: m => decide (j < k) && kwf ((k, v) :: m)

/-- A list with its elements that satisfy `p` changed by `f`. -/
def mapIf {α : Type} (p : α → Bool) (f : α → α) (l : List α) : List α := l.map (fun x => if p x then f x else x)

/-- The first element that satisfies `p` taken out of a list. -/
def takeFirst {α : Type} (p : α → Bool) : List α → Option (α × List α)
  | [] => none
  | x :: l => if p x then some (x, l) else (takeFirst p l).map (fun (y, r) => (y, x :: r))

/-- The last `n` elements of a list. -/
def lastN {α : Type} (n : Nat) (l : List α) : List α := l.drop (l.length - n)

/-- The largest number of a list, 0 of none. -/
def maxOf (l : List Nat) : Nat := l.foldl max 0

/-- The smallest number of a list. -/
def minOf : List Nat → Option Nat
  | [] => none
  | x :: l => some (l.foldl min x)

/-- The sum of a list. -/
def sumOf (l : List Nat) : Nat := l.foldl (· + ·) 0

/-- Insertion of an element by a "not after" relation, behind those it ties with. -/
def insertBy {α : Type} (le : α → α → Bool) (x : α) : List α → List α
  | [] => [x]
  | y :: l => if le y x then y :: insertBy le x l else x :: y :: l

/-- A list sorted by a "not after" relation, ties in their order. -/
def sortBy {α : Type} (le : α → α → Bool) (l : List α) : List α := l.foldl (fun acc x => insertBy le x acc) []

/-! ## Byte memories -/

/-- What an address that nothing has written reads as in the tiers and in press stores.
DESIGN CHOICE: log entry 2. -/
def blank : Byte := 0

/-- What an address that nothing has written reads as in the flash. PRESUMED: log entry 2. -/
def blankFlash : Byte := 0xFF

/-- One byte of a memory. -/
def memGet (d : Byte) : Memory → Nat → Byte
  | [], _ => d
  | (b, x) :: m, a => if a = b then x else if a < b then d else memGet d m a

/-- A memory with one byte written, in canonical form. -/
def memPut (d : Byte) (a : Nat) (x : Byte) : Memory → Memory
  | [] => if x = d then [] else [(a, x)]
  | (b, y) :: m =>
    if a < b then if x = d then (b, y) :: m else (a, x) :: (b, y) :: m
    else if a = b then if x = d then m else (a, x) :: m
    else (b, y) :: memPut d a x m

/-- `n` bytes from address `a`. -/
def memRead (d : Byte) (m : Memory) (a n : Nat) : List Byte := (List.range n).map (fun i => memGet d m (a + i))

/-- A memory with bytes written from address `a`. -/
def memWrite (d : Byte) (a : Nat) : List Byte → Memory → Memory
  | [], m => m
  | x :: xs, m => memWrite d (a + 1) xs (memPut d a x m)

/-- A memory with `n` bytes from address `a` back at what an address that nothing has written reads as. -/
def memClear (a n : Nat) (m : Memory) : Memory := m.filter (fun c => c.1 < a || a + n ≤ c.1)

/-- Whether every listed byte differs from `d` and addresses rise strictly: the canonical form of a memory. -/
def Memory.wf (d : Byte) : Memory → Bool
  | [] => true
  | [(_, x)] => x != d
  | (a, x) :: (b, y) :: m => x != d && decide (a < b) && Memory.wf d ((b, y) :: m)

/-- Entry `k` of a memory addressed in KiB (R162). -/
def memEntry (m : Memory) (k : Nat) : Entry := entryOf (memRead blank m (1024 * k) 1024)

/-- A memory with entry `k` written. -/
def memPutEntry (m : Memory) (k : Nat) (e : Entry) : Memory := memWrite blank (1024 * k) (entryBytes e) m

end Sys2Proof.Machine
end

