-- ==== Sys2Proof/Machine/Ops.lean ====
section
/-! DEFINITION. The shared operations over the state: accessors, the hold network, step faults, writes into the
shared window with their snoops and interrupts, events and completions. -/

namespace Sys2Proof.Machine

open Sys2Proof

/-- The outcome of every step of the block. -/
abbrev Out := Host.Outcome State Fault Refusal

/-! ## Accessors -/

/-- Press `p`, 0 to 95. -/
def State.press (s : State) (p : Nat) : Press := vget s.presses p Press.reset

/-- The state with press `p` changed. -/
def State.modPress (s : State) (p : Nat) (f : Press → Press) : State := { s with presses := vmod s.presses p f }

/-- The state with every press changed. -/
def State.modPresses (s : State) (f : Press → Press) : State := { s with presses := s.presses.map f }

/-- Link port `p`: 0 to 31 the fabric ports, 32 KCL. -/
def State.port (s : State) (p : Nat) : Port := vget s.ports p Port.reset

/-- The state with link port `p` changed. -/
def State.modPort (s : State) (p : Nat) (f : Port → Port) : State := { s with ports := vmod s.ports p f }

/-- Near channel `c`, 0 to 31. -/
def State.chan (s : State) (c : Nat) : Channel := vget s.near.channels c Channel.reset

/-- The state with near channel `c` changed. -/
def State.modChan (s : State) (c : Nat) (f : Channel → Channel) : State :=
  { s with near.channels := vmod s.near.channels c f }

/-- CXL root port `p`, 0 or 1. -/
def State.farPort (s : State) (p : Nat) : FarPort := vget s.far.ports p FarPort.reset

/-- The state with CXL root port `p` changed. -/
def State.modFar (s : State) (p : Nat) (f : FarPort → FarPort) : State :=
  { s with far.ports := vmod s.far.ports p f }

/-- Station time, in ns (R270). -/
def State.now (s : State) : Nat := s.time.ns.toNat

/-- A value that the spec leaves open, and the state that has drawn it (log entry 3). -/
def State.draw (s : State) : BitVec 64 × State := (Config.free64 s.free, { s with free := s.free + 1 })

/-- What the codes find in reads whose row names no outcome (log entry 145), and the state after the draw. -/
def State.drawReads (s : State) : Reads × State := (Config.found s.free, { s with free := s.free + 1 })

/-- The number of a stream: 0 M, 1 V, 2 X. -/
def streamCode : StreamId → Nat
  | .m => 0
  | .v => 1
  | .x => 2

/-- A stream of a press. -/
def Press.stream (p : Press) : StreamId → Stream
  | .m => p.m
  | .v => p.v
  | .x => p.x

/-- The press with a stream changed. -/
def Press.modStream (p : Press) (i : StreamId) (f : Stream → Stream) : Press :=
  match i with
  | .m => { p with m := f p.m }
  | .v => { p with v := f p.v }
  | .x => { p with x := f p.x }

/-! ## The loaded forme -/

/-- Press slots of the forme: the presses its slots name (R61), empty with no forme loaded. -/
def State.slots (s : State) : List Nat := match s.forme.forme with
  | some f => f.chip.presses
  | none => []

/-- The press in a press slot. -/
def State.slotPress (s : State) (slot : Nat) : Option Nat := s.slots[slot]?

/-- The slot of a press. -/
def State.pressSlot (s : State) (p : Nat) : Option Nat := s.slots.findIdx? (· == p)

/-- Whether the loaded forme uses a fabric port. -/
def State.portUsed (s : State) (p : Nat) : Bool := match s.forme.forme with
  | some f => bitAt f.chip.portMask.toNat p
  | none => false

/-- Whether the loaded forme uses a far port. -/
def State.farUsed (s : State) (p : Nat) : Bool := match s.forme.forme with
  | some f => bitAt f.chip.farMask.toNat p
  | none => false

/-- Whether a forme is loaded (LOADED, IMPOSED or STARTED). -/
def State.loaded (s : State) : Bool := s.forme.state != .none

/-- This chip's logical index. -/
def State.chipIndex (s : State) : Nat := s.forme.chip.toNat

/-- Whether this chip is the desk chip (R292, R293). -/
def State.isDesk (s : State) : Bool := match s.forme.forme with
  | some f => f.serving.desk == s.chipIndex
  | none => false

/-- The parent of logical chip `c` in the barrier tree (R57); `none` at the root. -/
def parentOf (t : Timetable) (c : Nat) : Option Nat :=
  match t.parent[c]? with
  | some p => if p = 0xFFFFFFFF then none else some p
  | none => none

/-- Whether this chip is the root of the barrier tree. -/
def State.isRoot (s : State) : Bool := match s.forme.forme with
  | some f => (parentOf f.tt s.chipIndex).isNone
  | none => false

/-- A field of the timetable section whose 0 stands for a default (R504). -/
def orDefault (v d : Nat) : Nat := if v = 0 then d else v

/-! ## The hold network (R30 to R35) -/

/-- The code of a cause (R35). -/
def causeCode : Cause → Nat
  | .nearLate => 0
  | .farLate => 1
  | .linkLate => 2
  | .refresh => 3
  | .retrain => 4
  | .brake => 5
  | .envelope => 6
  | .debug => 7
  | .firmware => 8

/-- Whether a hold is outstanding at a station time: from its raise until its resume time (R32, R33). -/
def Hold.live (h : Hold) (now : Nat) : Bool := match h.resume with
  | none => true
  | some t => decide (now < t)

/-- The holds that are outstanding now. -/
def State.liveHolds (s : State) : List Hold := s.tt.holds.filter (·.live s.now)

/-- The outstanding holds that stop TT where it stands (R32, R34, R41). -/
def State.stopping (s : State) : List Hold :=
  s.liveHolds.filter (fun h => decide (h.freeze ≤ s.tt.tt.toNat) || s.tt.tt.toNat == s.tt.endCount)

/-- The cause that takes the standing time: the earliest raised of the holds that stop TT, the lower code of two
raised together (R34). -/
def causeOf : List Hold → Option Cause
  | [] => none
  | h :: l => some (l.foldl (fun b x =>
      if x.raised < b.raised || (x.raised == b.raised && decide (causeCode x.cause < causeCode b.cause)) then x else b) h).cause

/-- A hold raised: it is outstanding, and it counts in HOLD_COUNT of its cause (R30, R31, R34). Outside launch to
drain there is no hold (R36). -/
def raiseHold (u : UnitId) (c : Cause) (k : HoldKind) (freeze : Nat) (s : State) : State :=
  if s.tt.inStep && !s.tt.draining then
    { s with tt.holds := s.tt.holds ++ [⟨u, c, k, freeze, s.now, none⟩]
             tt.holdCount := vmod s.tt.holdCount (causeCode c) (· + 1) }
  else s

/-- An intrusion raised at the current TT (R31). -/
def intrude (u : UnitId) (c : Cause) (s : State) : State := raiseHold u c .intrusion (s.tt.tt.toNat + 32) s

/-- The release of holds that satisfy `p`: each takes the resume time of R33. -/
def releaseHolds (p : Hold → Bool) (s : State) : State :=
  { s with tt.holds := mapIf (fun h => p h && h.resume.isNone) (fun h => { h with resume := some (s.now + 32) }) s.tt.holds }

/-- Whether a unit has a hold that has not been released. -/
def State.holdsOpen (s : State) (u : UnitId) (p : Hold → Bool) : Bool :=
  s.tt.holds.any (fun h => h.unit == u && h.resume.isNone && p h)

/-- Whether the chip stands at or below a freeze count, so that an intrusion may begin (R31, R185). -/
def State.stands (s : State) (freeze : Nat) : Bool := !s.tt.inStep || s.tt.draining || decide (freeze ≤ s.tt.tt.toNat)
  || (!s.stopping.isEmpty)

/-- Whether an intrusion of a unit has begun: it has no open hold, or the chip stands at or below the hold's freeze
count (R31). -/
def State.begun (s : State) (u : UnitId) : Bool :=
  (s.tt.holds.filter (fun h => h.unit == u && h.resume.isNone)).all (fun h => s.stands h.freeze)

/-- Whether the module does anything at all: AUX is present and no full reset is held (R457, R495). -/
def State.alive (s : State) : Bool := s.power.auxUp && s.power.phase != .held

/-- Whether make-ready has passed option loading. -/
def State.pastOptions (s : State) : Bool :=
  s.power.phase == .makeReady || s.power.phase == .warm || s.power.phase == .running

/-- A sideband output driven to a level: none is driven while MOD_RESET_L is asserted or AUX is absent (R465). -/
def State.setPin (s : State) (k : Nat) (l : PinLevel) : State :=
  if !s.power.auxUp || s.power.modResetLow then s else { s with power.pins := vmod s.power.pins k (fun _ => l) }

/-- The repeater that serves a sequencer (R271). -/
def seqRepeater (c : Nat) : Nat := c / 8

/-- Local station time of a sequencer: that of its repeater, in 1/256 ns (R271). -/
def State.seqTime (s : State) (c : Nat) : Nat := vget s.time.repCode (seqRepeater c) 0

/-- Whether a local station time, in 1/256 ns, has reached the launch count of the attempt (R285). -/
def State.launchedBy (s : State) (t : Nat) : Bool := decide (s.tt.launchCount * 256 ≤ t)

/-- Whether a press has launched: its own local time has reached the launch count (R273, R285). -/
def State.pressLaunched (s : State) (p : Nat) : Bool := s.launchedBy (vget s.time.beats p Beat.reset).station

/-- Whether a sequencer has launched (R271, R285). -/
def State.seqLaunched (s : State) (c : Nat) : Bool := s.launchedBy (s.seqTime c)

/-- Whether a despatcher has launched: the copy of station time on its link die has reached the launch count (R271, R285). -/
def State.portLaunched (s : State) (p : Nat) : Bool := s.launchedBy (vget s.time.repCode (4 + p / 16) 0)

/-- Whether a brake stands: it has been raised, and within a step the chip has come to stand for it (R31, R480). -/
def State.brakeOn (s : State) : Bool := s.power.braking && s.begun .power

/-! ## When the near channels serve (R179, R182 to R185) -/

/-- Whether a refresh window occupies the channels (R184, R185). -/
def State.refreshOpen (s : State) : Bool := s.near.refreshing && s.begun .refresh

/-- Whether a channel is occupied by its retrain (R183). -/
def State.retrainOpen (s : State) (c : SeqId) : Bool := (s.chan c.val).retraining && s.begun (.nearRetrain c)

/-- Whether a sequencer may take a slot: the refresh window and its own retrain occupy a near channel (R183, R184), and a
brake stops every sequencer (R480). -/
def State.chanFree (s : State) (c : Nat) : Bool :=
  !(if h : c < 32 then s.refreshOpen || s.retrainOpen ⟨c, h⟩ else false) && !s.brakeOn

/-- Whether a step has drained and its commit writes, or its ABORT or STOP, are still to come (R179). While a commit waits for ring
room, or for a breakpoint, the gap serves all the same (R158, R347). -/
def State.decisionDue (s : State) : Bool :=
  s.forme.state == .started && s.tt.drained && !s.tt.inStep && s.tt.nextLaunch.isNone && s.barrier.startCmd.isNone
    && !s.barrier.stopped && s.rings.commit.isNone

/-- Whether the gap between steps serves the windows and the boxes: after the commit writes, and up to 64 ns before the launch count
(R179). -/
def State.gapOpen (s : State) : Bool := !s.tt.inStep && !s.decisionDue && match s.tt.nextLaunch with
  | some l => decide (s.now + 64 ≤ l.toNat)
  | none => true

/-- Whether a terminus retrain is due on a channel (R182). -/
def Channel.isDue (c : Channel) (now : Nat) : Bool :=
  c.ready && !c.retraining && (c.due || decide (c.lastRetrain.toNat + 1000000000 ≤ now))

/-- Whether at least 432 ns remain before the announced launch (R183). -/
def State.retrainFits (s : State) : Bool := match s.tt.nextLaunch with
  | some l => decide (s.now + 432 ≤ l.toNat)
  | none => true

/-- Whether terminus retrains may begin, or be deferred, now: in the gap, after the commit writes, and after a refresh that has
fallen due (R179, R183, R185). -/
def State.retrainTime (s : State) : Bool :=
  !s.tt.inStep && !s.decisionDue && s.rings.commit.isNone && !s.near.late.any (·.commit) && !s.near.selfRefresh && !s.brakeOn
    && !s.refreshOpen

/-- Whether a channel's terminus retrain comes before the accesses of the gap (R179). -/
def State.retrainFirst (s : State) (c : Nat) : Bool := (s.chan c).isDue s.now && s.retrainFits && s.retrainTime

/-- Whether a channel serves the gap's accesses now (R179). -/
def State.gapServes (s : State) (c : Nat) : Bool := s.gapOpen && s.chanFree c && !s.near.selfRefresh && !s.retrainFirst c

/-- Whether the boxes' writes go into a channel at once: outside a step, in the gap's order; those of a commit come first (R48, R179). -/
def State.boxMay (s : State) (c : Nat) : Bool :=
  if s.near.commits then !s.tt.inStep && s.chanFree c && !s.near.selfRefresh else s.gapServes c

/-! ## Step faults (R379, R380) -/

/-- FAULT_DETAIL.UNIT of a unit. -/
def unitFault : UnitId → Nat
  | .stream p _ => p.val
  | .seq c => 96 + c.val
  | .far f => 160 + f.val
  | .despatcher p => 128 + p.val
  | .sampler => 176
  | .refresh => 0xFF
  | .nearRetrain c => 96 + c.val
  | .linkRetrain p => 128 + p.val
  | .power => 0xFF
  | .box b => 170 + b.val

/-- Fault run-out begins: every outstanding DUE hold is released at once (R50). -/
def startRunout (s : State) : State :=
  if s.tt.runout then s
  else releaseHolds (fun h => h.kind == .due) { s with tt.runout := true, tt.runoutAt := s.now }

/-- A step fault is recorded: the first of the attempt in FAULT_DETAIL, later ones only in MORE; then fault
run-out (R50, R379, R380). Of faults that units meet at the same nanosecond, FAULT_DETAIL names that of the lowest unit
code. Outside launch to drain completion there is no step fault. -/
def stepFault (code unit : Nat) (s : State) : State :=
  if !s.tt.inStep then s
  else
    let s := if s.tt.fault = 0 then
        { s with health.fault := ⟨false, BitVec.ofNat 8 code, BitVec.ofNat 8 unit, s.tt.tt⟩
                 tt.fault := BitVec.ofNat 8 code, tt.faultAt := s.now }
      else if s.now = s.tt.faultAt && decide (unit < s.health.fault.unit.toNat) then
        { s with health.fault := ⟨true, BitVec.ofNat 8 code, BitVec.ofNat 8 unit, s.tt.tt⟩, tt.fault := BitVec.ofNat 8 code }
      else { s with health.fault.more := true }
    startRunout s

/-- Fault codes of R379. -/
def fcEcc : Nat := 1
def fcDiscard : Nat := 2
def fcWatchdog : Nat := 3
def fcDrain : Nat := 4
def fcMissing : Nat := 5
def fcFirmware : Nat := 6

/-! ## The shared window (R405, R408) -/

/-- Whether KCL is READY. -/
def State.kclUp (s : State) : Bool := (s.port 32).ready

/-- The line of the directory at a byte offset. -/
def lineBase (a : Nat) : Nat := a / 64 * 64

/-- What the directory records of a line: `none` is I, `some false` S, `some true` E. -/
def lineState (k : Kcl) (a : Nat) : Option Bool := (k.lines.find? (fun l => l.addr == lineBase a)).map Line.excl

/-- A message of the module onto KCL; none leaves while KCL is not READY (R410). -/
def kclSend (m : KclMsg) (s : State) : State := if s.kclUp then { s with kcl.tx := s.kcl.tx ++ [m] } else s

/-- A response of the module with its data (R402). -/
def respond (msg : BitVec 8) (error : Bool) (tag : BitVec 16) (data : List Byte) (s : State) : State :=
  kclSend ⟨msg, error, tag, 0, data, 0⟩ s

/-- SPACE 1 (shared window), 2 (bulk window) and 3 (companion memory) in an ADDR field (R401). -/
def spaceAddr (space off : Nat) : Nat := space * 2 ^ 62 + off

/-- A snoop of a line, once: SNP_INV or SNP_SHARE (R402, R405). -/
def kclSnoop (a : Nat) (inv : Bool) (s : State) : State :=
  if s.kcl.snoops.any (fun x => x.1 == lineBase a) then s
  else kclSend ⟨if inv then 0x40 else 0x41, false, 0, spaceAddr 1 (lineBase a), [], 0⟩
    { s with kcl.snoops := s.kcl.snoops ++ [(lineBase a, inv)] }

/-- Whether an access gives up the data of a line. -/
def HostAccess.gives (h : HostAccess) (a : Nat) : Bool := match h with
  | .writeback _ b _ => lineBase b == lineBase a
  | .snpData b _ _ => lineBase b == lineBase a
  | _ => false

/-- Whether a waiting request gives up the data of a line. -/
def Held.gives (r : Held) (a : Nat) : Bool := match r with
  | .window h => h.gives a
  | _ => false

/-- Whether data that the companion has given up for a line still waits for its HOST slot (R404, R406). -/
def State.lineDue (s : State) (a : Nat) : Bool :=
  (s.chan (a / 1024 % 32)).host.any (·.gives a) || s.kcl.reqs.any (·.gives a)

/-- A WRITEBACK that the module needs as a snoop's data, or before a write of its own to the line, no longer waits for the requests before
it: DEDUCED from R403 and R406, log entry 137. -/
def pullForward (a : Nat) (s : State) : State := match takeFirst (fun (r : Held) => r.gives a) s.kcl.reqs with
  | some (.window h, rest) => { s.modChan (a / 1024 % 32) (fun c => { c with host := c.host ++ [h] }) with kcl.reqs := rest }
  | _ => s

/-- The module's writes, INTRs and editions made visible in order, as far as the lines they touch are I (R405, R408, R426). A write goes
in the gap's order (R179); in a step it waits for a FIRMWARE slot of the sequencer that holds it (R178), and in Deep quiet for the
wake (R476). -/
def kclDrain : Nat → State → State
  | 0, s => s
  | n + 1, s =>
    match s.kcl.fifo with
    | [] => s
    | .intr v :: rest =>
      let s := { s with kcl.fifo := rest }
      kclDrain n (if s.kclUp then kclSend ⟨0x0A, false, v, 0, [], 0⟩ { s with kcl.intrs := s.kcl.intrs ++ [v] } else s)
    | .mirror v :: rest => kclDrain n { s with rings.edMirror := v, kcl.fifo := rest }
    | .write a bs :: rest =>
      if s.lineDue a then pullForward a s
      else match lineState s.kcl a with
        | some _ => kclSnoop a true s
        | none =>
          if s.boxMay (a / 1024 % 32) then kclDrain n { s with near.mem := memWrite blank a bs s.near.mem, kcl.fifo := rest } else s

/-- Drains all that can be drained. -/
def kclPump (s : State) : State := kclDrain s.kcl.fifo.length s

/-- Bytes cut at the boundaries of 64 B lines. -/
def lineCut : Nat → Nat → List Byte → List SharedOp
  | 0, _, _ => []
  | fuel + 1, a, bs =>
    if bs.isEmpty then []
    else
      let n := 64 - a % 64
      .write a (bs.take n) :: lineCut fuel (a + n) (bs.drop n)

/-- A touch of the shared or bulk window: Deep quiet is to be left (R475, R476). -/
def touchWindow (s : State) : State :=
  { s with power.windowIdle := 0, power.waking := s.power.waking || s.power.chipState == 2 }

/-- A write of the module into the shared window, at a byte offset (R408). -/
def sharedWrite (a : Nat) (bs : List Byte) (s : State) : State :=
  let s := touchWindow s
  kclPump { s with kcl.fifo := s.kcl.fifo ++ lineCut (bs.length + 1) a bs }

/-- An INTR, sent once every earlier write is visible (R408). -/
def sharedIntr (v : BitVec 16) (s : State) : State := kclPump { s with kcl.fifo := s.kcl.fifo ++ [.intr v] }

/-- EDITION_MIRROR takes a value once the page's bytes before it are visible (R426). -/
def sharedMirror (v : BitVec 64) (s : State) : State := kclPump { s with kcl.fifo := s.kcl.fifo ++ [.mirror v] }

/-! ## The boxes' own writes into the near tier (R48, R178, R179, R187) -/

/-- Bytes cut at the boundaries of 1 KiB entries, each piece with its address. -/
def entryCut : Nat → Nat → List Byte → List (Nat × List Byte)
  | 0, _, _ => []
  | fuel + 1, a, bs =>
    if bs.isEmpty then []
    else
      let n := 1024 - a % 1024
      (a, bs.take n) :: entryCut fuel (a + n) (bs.drop n)

/-- The near tier as the signal boxes read it: with their own writes that still wait. -/
def State.boxMem (s : State) : Memory := s.near.late.foldl (fun m x => memWrite blank x.addr x.data m) s.near.mem

/-- Whether a write of `n` bytes at `a` goes at once: nothing waits before it, and every channel that it touches takes it. -/
def State.boxFree (s : State) (a n : Nat) : Bool :=
  s.near.late.isEmpty && (List.range (min 32 ((a % 1024 + n + 1023) / 1024))).all (fun k => s.boxMay ((a / 1024 + k) % 32))

/-- Bytes written by a signal box into the near tier: at once where the channels take them, else entry by entry in FIRMWARE slots or later in
the gap (R178, R179). A write that goes at once meets no error: DESIGN CHOICE, log entry 93. -/
def nearPut (a : Nat) (bs : List Byte) (s : State) : State :=
  if s.boxFree a bs.length then { s with near.mem := memWrite blank a bs s.near.mem }
  else { s with near.late := s.near.late ++ (entryCut (bs.length + 1) a bs).map (fun x => ⟨x.1, x.2, s.near.commits⟩) }

/-- `n` KiB of the near tier zeroed by a signal box. -/
def nearZero (kib n : Nat) (s : State) : State :=
  if s.boxFree (kib * 1024) (n * 1024) then { s with near.mem := memClear (kib * 1024) (n * 1024) s.near.mem }
  else { s with near.late := s.near.late ++ (List.range n).map (fun k => ⟨(kib + k) * 1024, zeros 1024, s.near.commits⟩) }

/-- Whether a channel takes the boxes' waiting writes: those of a commit before the rest of the gap's work (R179). -/
def State.lateMay (s : State) (c : Nat) : Bool :=
  if s.near.late.any (fun x => x.commit && x.addr / 1024 % 32 == c) then !s.tt.inStep && s.chanFree c && !s.near.selfRefresh
  else s.gapServes c

/-- The boxes' waiting writes on the channels that take them, in order. -/
def lateGo (s : State) : State :=
  let go (x : LateWrite) : Bool := s.lateMay (x.addr / 1024 % 32)
  { s with near.mem := (s.near.late.filter go).foldl (fun m x => memWrite blank x.addr x.data m) s.near.mem
           near.late := s.near.late.filter (fun x => !go x) }

/-- What waited for the gap between steps goes on: the boxes' writes, and those of the shared window. -/
def boxesGo (s : State) : State := kclPump (lateGo s)

/-! ## The far tier's places (R191, R194) -/

/-- KiB of a root port's device. -/
def State.farSize (s : State) (f : Nat) : Nat := (s.farPort f).capacity.toNat * 262144

/-- The root port that holds a far entry (R191). -/
def farOf (s : State) (a : Nat) : Nat :=
  if s.far.interleave then a / 4 % 2 else if a < s.farSize 0 then 0 else 1

/-- Entries of the far tier (R191). -/
def State.farEntries (s : State) : Nat :=
  if s.far.interleave then 2 * min (s.farSize 0) (s.farSize 1) else s.farSize 0 + s.farSize 1

/-- The key of a far entry in the far memory: its device entry on its port; none beyond the tier (R191). A change of INTERLEAVE
moves no data, because data is kept by device. -/
def farKey (s : State) (a : Nat) : Option Nat :=
  if s.farEntries ≤ a then none
  else some (farOf s a * 2 ^ 31 + (if s.far.interleave then a / 8 * 4 + a % 4 else if a < s.farSize 0 then a else a - s.farSize 0))

/-- Whether every port that holds one of `n` far entries from `a` is READY (R194). -/
def farUp (s : State) (a n : Nat) : Bool :=
  n = 0 || ((s.farPort (farOf s a)).ready && (s.farPort (farOf s (a + n - 1))).ready
    && (!s.far.interleave || ((s.farPort 0).ready && (s.farPort 1).ready)))

/-- `n` bytes of the far tier from byte address `a`; an address beyond the tier, or on a port that is not READY, reads as a free
value (R191, R194; log entry 131). -/
def farRead (s : State) (a n : Nat) : List Byte :=
  (entryCut (n + 1) a (zeros n)).flatMap (fun x => match farKey s (x.1 / 1024) with
    | some k => if (s.farPort (farOf s (x.1 / 1024))).ready then memRead blank s.far.mem (k * 1024 + x.1 % 1024) x.2.length
      else (List.range x.2.length).map (fun i => Config.farHole (x.1 + i))
    | none => (List.range x.2.length).map (fun i => Config.farHole (x.1 + i)))

/-- Bytes written into the far tier; a port that is not READY takes none (R194). -/
def farWrite (a : Nat) (bs : List Byte) (s : State) : State :=
  (entryCut (bs.length + 1) a bs).foldl (fun (s : State) (x : Nat × List Byte) => match farKey s (x.1 / 1024) with
    | some k => if (s.farPort (farOf s (x.1 / 1024))).ready then
        { s with far.mem := memWrite blank (k * 1024 + x.1 % 1024) x.2 s.far.mem } else s
    | none => s) s

/-! ## Rings: events and completions (R412 to R420) -/

/-- Slots of a ring. -/
def RingCfg.slots (c : RingCfg) : Nat := 2 ^ c.size.toNat

/-- Room of a ring with 16-bit indexes (R415). -/
def Ring.room (r : Ring) : Nat := r.cfg.slots - (r.producer.toNat + 65536 - r.consumer.toNat) % 65536

/-- PHASE of the slot that a ring's producer index names (R416). -/
def Ring.phase (r : Ring) : Nat := 1 - r.producer.toNat / r.cfg.slots % 2

/-- Byte offset of the slot that the producer index names. -/
def Ring.slotAt (r : Ring) (size : Nat) : Nat := r.cfg.base.toNat * 1024 + r.producer.toNat % r.cfg.slots * size

/-- Event types of R418. -/
def evStepStopped : Nat := 0x01
def evBarrierSilent : Nat := 0x02
def evPortNotice : Nat := 0x03
def evPortDown : Nat := 0x04
def evFarDown : Nat := 0x05
def evScrub : Nat := 0x06
def evHealthLow : Nat := 0x07
def evSelfTest : Nat := 0x08
def evMirrorFull : Nat := 0x09
def evSnoop : Nat := 0x0A
def evWarmReset : Nat := 0x0B
def evBoxReset : Nat := 0x0C
def evRingError : Nat := 0x0D
def evKclRestored : Nat := 0x0E

/-- An event posted in the event ring, or discarded and counted when the ring is full or not enabled (R417, R418). -/
def postEventAt (station type a b c : Nat) (s : State) : State :=
  let r := s.rings.evt
  if r.cfg.enable && decide (0 < r.room) then
    let bytes := leBytes 1 type ++ leBytes 1 r.phase ++ leBytes 2 s.rings.evtLostSince.toNat ++ leBytes 8 station
      ++ leBytes 4 a ++ leBytes 8 b ++ leBytes 8 c
    let s := sharedWrite (r.slotAt 32) bytes
      { s with rings.evt.producer := BitVec.ofNat 32 ((r.producer.toNat + 1) % 65536), rings.evtLostSince := 0 }
    if r.cfg.intr then sharedIntr r.cfg.aux s else s
  else { s with rings.evtLost := s.rings.evtLost + 1, rings.evtLostSince := satInc s.rings.evtLostSince }

/-- An event: it waits for SB0 while a handover runs (R441). -/
def postEvent (type a b c : Nat) (s : State) : State :=
  if s.fw.boot == .handover then { s with rings.evtHeld := s.rings.evtHeld ++ [⟨s.now, type, a, b, c⟩] }
  else postEventAt s.now type a b c s

/-- The events that waited through a handover are posted (R441). -/
def postHeld (s : State) : State :=
  s.rings.evtHeld.foldl (fun s e => postEventAt e.station e.type e.a e.b e.c s) { s with rings.evtHeld := [] }

/-- Status codes of R423. -/
def stDone : BitVec 16 := 0x0000
def stQueued : BitVec 16 := 0x0001
def stBadOpcode : BitVec 16 := 0x0010
def stBadParam : BitVec 16 := 0x0011
def stNoRoom : BitVec 16 := 0x0020
def stEnvelope : BitVec 16 := 0x0021
def stVerifyFail : BitVec 16 := 0x0030
def stBusy : BitVec 16 := 0x0040
def stExpired : BitVec 16 := 0x0050
def stCancelled : BitVec 16 := 0x0051
def stPartition : BitVec 16 := 0x0060
def stInternal : BitVec 16 := 0x00F0

/-- The 32 bytes of a completion (R420). -/
def completionBytes (c : Completion) (phase : Nat) : List Byte :=
  leBytes 2 c.cmd.opcode.toNat ++ leBytes 2 c.status.toNat ++ leBytes 4 c.cmd.commandId.toNat
    ++ leBytes 1 (phase + 2 * bit c.final + 4 * bit c.reply) ++ leBytes 1 c.cmd.ring.val
    ++ leBytes 1 c.reason.toNat ++ zeros 1 ++ leBytes 4 c.edition.toNat ++ leBytes 16 c.result.toNat

/-- The completion ring of a command's submission ring (R413). -/
def State.cplOf (s : State) (d : Descriptor) : Nat := (vget s.rings.sub d.ring.val Ring.reset).cfg.aux.toNat % 64

/-- Writes a completion into a ring with room, and its INTR (R415, R418). -/
def writeCompletion (c : Completion) (s : State) : State :=
  let j := s.cplOf c.cmd
  let r := vget s.rings.cpl j Ring.reset
  let s := { s with rings.cpl := vmod s.rings.cpl j (fun r => { r with producer := BitVec.ofNat 32 ((r.producer.toNat + 1) % 65536) })
                    rings.awaiting := if c.final then vmod s.rings.awaiting c.cmd.ring.val (· - 1) else s.rings.awaiting }
  let s := sharedWrite (r.slotAt 32) (completionBytes c r.phase) s
  if r.cfg.intr || (c.final && bitAt c.cmd.flags.toNat 0) then sharedIntr r.cfg.aux s else s

/-- Whether a completion ring takes one more completion. -/
def State.cplRoom (s : State) (j : Nat) : Bool :=
  let r := vget s.rings.cpl j Ring.reset
  r.cfg.enable && decide (0 < r.room)

/-- Writes the waiting completions that find room, in posting order on each ring (R415). `blocked` are the rings
whose earlier completion waits. -/
def flushCompletions : List Completion → List Nat → List Completion → State → State
  | [], _, kept, s => { s with rings.waiting := kept }
  | c :: rest, blocked, kept, s =>
    let j := s.cplOf c.cmd
    if s.cplRoom j && !blocked.contains j then flushCompletions rest blocked kept (writeCompletion c s)
    else flushCompletions rest (j :: blocked) (kept ++ [c]) s

/-- Writes what waits and finds room. -/
def flushAll (s : State) : State := flushCompletions s.rings.waiting [] [] s

/-- A completion posted (R415, R420). -/
def post (c : Completion) (s : State) : State :=
  flushAll { s with rings.waiting := s.rings.waiting ++ [{ c with edition := s.rings.edition.setWidth 32 }] }

/-- A completion of a command, with RESULT as a number. -/
def mkCpl (d : Descriptor) (status : BitVec 16) (final : Bool) (result : Nat) : Completion :=
  ⟨d, status, final, false, 0, BitVec.ofNat 128 result, 0⟩

/-- A single or final completion (R415). -/
def finish (d : Descriptor) (status : BitVec 16) (result : Nat) (s : State) : State := post (mkCpl d status true result) s

/-- A single or final completion of a forme or weight command, with its REASON (R377, R420). -/
def finishReason (d : Descriptor) (status : BitVec 16) (reason result : Nat) (s : State) : State :=
  post { mkCpl d status true result with reason := BitVec.ofNat 8 reason } s

/-- A first completion with QUEUED (R415). -/
def queued (d : Descriptor) (result : Nat) (s : State) : State := post (mkCpl d stQueued false result) s

/-- A reply area written, and then the completion with REPLY_WRITTEN (R420). -/
def finishReply (d : Descriptor) (status : BitVec 16) (result : Nat) (reply : List Byte) (s : State) : State :=
  post { mkCpl d status true result with reply := true } (sharedWrite (d.reply.toNat * 1024) reply s)

/-- A final completion that waits for the next edition (R415). -/
def finishAtEdition (d : Descriptor) (status : BitVec 16) (result : Nat) (s : State) : State :=
  { s with rings.atEdition := s.rings.atEdition ++ [mkCpl d status true result] }

end Sys2Proof.Machine
end

