-- ==== Sys2Proof/Machine/Float.lean ====
section
/-! DEFINITION. The number formats (R74, R75, R77, R78, R95, R108 to R116): exact dyadic values, decoding, rounding to
nearest with ties to even, and the arithmetic of the vector unit. -/

namespace Sys2Proof.Machine

open Sys2Proof

/-- A value: a NaN, an infinity, or plus or minus `m` times 2 to the `e`, exactly. -/
inductive Val where
  | nan
  | inf (neg : Bool)
  | fin (neg : Bool) (m : Nat) (e : Int)
  deriving DecidableEq, Repr

/-- A binary format: exponent bits, mantissa bits, bias (R74, R108). -/
structure Fmt where
  ebits : Nat
  mbits : Nat
  bias : Nat
  deriving DecidableEq, Repr

/-- FP32, BF16 and FP16 (R108). -/
def fp32 : Fmt := ⟨8, 23, 127⟩
def bf16 : Fmt := ⟨8, 7, 127⟩
def fp16 : Fmt := ⟨5, 10, 15⟩

/-- The format of a vector operation (R95): codes 0, 1 and 2. -/
def vecFmt : Nat → Fmt
  | 0 => fp32
  | 1 => bf16
  | _ => fp16

/-- Bits of a value in a format. -/
def Fmt.width (f : Fmt) : Nat := 1 + f.ebits + f.mbits

/-- The canonical NaN of a format (R109). -/
def Fmt.nan (f : Fmt) : Nat := (2 ^ f.ebits - 1) * 2 ^ f.mbits + 2 ^ (f.mbits - 1)

/-- An infinity of a format. -/
def Fmt.infinity (f : Fmt) (neg : Bool) : Nat := bit neg * 2 ^ (f.ebits + f.mbits) + (2 ^ f.ebits - 1) * 2 ^ f.mbits

/-- The value of an encoding in FP32, BF16 or FP16 (R108). Subnormals are exact. -/
def Fmt.decode (f : Fmt) (w : Nat) : Val :=
  let m := w % 2 ^ f.mbits
  let e := w / 2 ^ f.mbits % 2 ^ f.ebits
  let neg := bitAt w (f.ebits + f.mbits)
  if e = 2 ^ f.ebits - 1 then if m = 0 then .inf neg else .nan
  else if e = 0 then .fin neg m (1 - (f.bias : Int) - f.mbits)
  else .fin neg (2 ^ f.mbits + m) ((e : Int) - f.bias - f.mbits)

/-- `m` divided by 2 to the `r`, to nearest, ties to even. -/
def rne (m r : Nat) : Nat :=
  if r = 0 then m
  else
    let d := m / 2 ^ r
    let rem := m % 2 ^ r
    if 2 ^ (r - 1) < rem || (rem == 2 ^ (r - 1) && d % 2 == 1) then d + 1 else d

/-- `m · 2^e` brought to a whole multiple of `2^q`, to nearest, ties to even. -/
def rneAt (m : Nat) (e q : Int) : Nat :=
  if q ≤ e then m * 2 ^ (e - q).toNat else rne m (q - e).toNat

/-- floor(log2 (m · 2^e)) of a value that is not zero. -/
def floorLog (m : Nat) (e : Int) : Int := (Nat.log2 m : Int) + e

/-- A value rounded to at most `p` significant bits and to whole multiples of `2^qmin`: its mantissa and exponent. -/
def roundBits (p : Nat) (qmin : Int) (m : Nat) (e : Int) : Nat × Int :=
  let q := max (floorLog m e - ((p : Int) - 1)) qmin
  (rneAt m e q, q)

/-- The encoding of `m · 2^q`, with `m` below or at `2^(mbits+1)`, and whether it overflows. -/
def Fmt.pack (f : Fmt) (neg : Bool) (m : Nat) (q : Int) : Nat × Bool :=
  let s := bit neg * 2 ^ (f.ebits + f.mbits)
  if m < 2 ^ f.mbits then (s + m, false)
  else
    let (m, q) := if 2 ^ (f.mbits + 1) ≤ m then (m / 2, q + 1) else (m, q)
    let x := q + f.mbits + f.bias
    if x ≤ 0 then (s + m, false)
    else if (2 ^ f.ebits : Int) - 1 ≤ x then (f.infinity neg, true)
    else (s + x.toNat * 2 ^ f.mbits + (m - 2 ^ f.mbits), false)

/-- The encoding of a value rounded to nearest, ties to even, and whether a finite value became an infinity (R108,
R110). -/
def Fmt.encode (f : Fmt) : Val → Nat × Bool
  | .nan => (f.nan, false)
  | .inf neg => (f.infinity neg, false)
  | .fin neg m e =>
    if m = 0 then (bit neg * 2 ^ (f.ebits + f.mbits), false)
    else
      let (m', q) := roundBits (f.mbits + 1) (1 - (f.bias : Int) - f.mbits) m e
      f.pack neg m' q

/-- A value as a signed multiple of `2^q`, where `q` is at most its exponent. -/
def signedAt (neg : Bool) (m : Nat) (e q : Int) : Int :=
  let v : Int := (m * 2 ^ (e - q).toNat : Nat)
  if neg then -v else v

/-- What an operation gives: the value, and whether it is an invalid case (R109, R110). -/
abbrev Calc := Val × Bool

/-- Exact sum, rounded later; the sign of an exact zero sum is minus only of two minus zeros (R108). -/
def vAdd : Val → Val → Calc
  | .nan, _ => (.nan, false)
  | _, .nan => (.nan, false)
  | .inf a, .inf b => if a = b then (.inf a, false) else (.nan, true)
  | .inf a, .fin .. => (.inf a, false)
  | .fin .., .inf b => (.inf b, false)
  | .fin a m e, .fin b n f =>
    let q := min e f
    let v := signedAt a m e q + signedAt b n f q
    if v = 0 then (.fin (a && b) 0 0, false)
    else (.fin (decide (v < 0)) v.natAbs q, false)

/-- Exact product (R108). -/
def vMul : Val → Val → Calc
  | .nan, _ => (.nan, false)
  | _, .nan => (.nan, false)
  | .inf a, .inf b => (.inf (a != b), false)
  | .inf a, .fin b m _ => if m = 0 then (.nan, true) else (.inf (a != b), false)
  | .fin a m _, .inf b => if m = 0 then (.nan, true) else (.inf (a != b), false)
  | .fin a m e, .fin b n f => (.fin (a != b) (m * n) (e + f), false)

/-- a · b + c, exact until it is rounded once (R108, R109). -/
def vFma (a b c : Val) : Calc :=
  let p := vMul a b
  if p.2 then (.nan, true) else let r := vAdd p.1 c; (r.1, r.2)

/-- a < b of two values that are not NaN; `zeroOrder` puts −0 below +0 (R111, R112). -/
def vLt (zeroOrder : Bool) : Val → Val → Bool
  | .inf a, .inf b => a && !b
  | .inf a, .fin .. => a
  | .fin .., .inf b => !b
  | .fin a m e, .fin b n f =>
    let q := min e f
    let x := signedAt a m e q
    let y := signedAt b n f q
    decide (x < y) || (zeroOrder && x == 0 && y == 0 && a && !b)
  | _, _ => false

/-- Whether a value is a NaN. -/
def Val.isNan : Val → Bool
  | .nan => true
  | _ => false

/-- The lesser, or NaN (R111). -/
def vMin (a b : Val) : Val := if a.isNan || b.isNan then .nan else if vLt true b a then b else a

/-- The greater, or NaN (R111). -/
def vMax (a b : Val) : Val := if a.isNan || b.isNan then .nan else if vLt true a b then b else a

/-- A predicate of R112: 0 EQ, 1 NE, 2 LT, 3 LE, 4 GT, 5 GE, 6 ORD, 7 UNORD. -/
def vCmp (p : Nat) (a b : Val) : Bool :=
  let un := a.isNan || b.isNan
  let lt := vLt false a b
  let gt := vLt false b a
  match p with
  | 0 => !un && !lt && !gt
  | 1 => un || lt || gt
  | 2 => !un && lt
  | 3 => !un && !gt
  | 4 => !un && gt
  | 5 => !un && !lt
  | 6 => !un
  | _ => un

/-- A value with its sign inverted. -/
def vNeg : Val → Val
  | .nan => .nan
  | .inf a => .inf (!a)
  | .fin a m e => .fin (!a) m e

/-- trunc(b) of a finite value, or the 2,047 that an infinity counts as (R113). -/
def truncOf : Val → Int
  | .nan => 0
  | .inf neg => if neg then -2047 else 2047
  | .fin neg m e =>
    -- a magnitude of 2^13 or more is already beyond the clamp
    let v : Int := if m = 0 then 0 else if 13 ≤ floorLog m e then 8192
      else if 0 ≤ e then (m * 2 ^ e.toNat : Nat) else (m / 2 ^ (-e).toNat : Nat)
    if neg then -v else v

/-- a · 2^n with n = k + trunc(b) clamped (R113). -/
def vScale (k : Int) (a b : Val) : Calc :=
  match a, b with
  | _, .nan => (.nan, true)
  | .nan, _ => (.nan, false)
  | .inf s, _ => (.inf s, false)
  | .fin s m e, b =>
    let n := max (-2048) (min 2047 (k + truncOf b))
    (.fin s m (if m = 0 then e else e + n), false)

/-- EXPONENT (R114). -/
def vExponent : Val → Calc
  | .nan => (.nan, false)
  | .inf _ => (.inf false, false)
  | .fin _ m e => if m = 0 then (.inf true, false)
    else let x := floorLog m e; (.fin (decide (x < 0)) x.natAbs 0, false)

/-- MANTISSA (R114). -/
def vMantissa : Val → Calc
  | .nan => (.nan, false)
  | .inf _ => (.nan, true)
  | .fin s m e => if m = 0 then (.fin s 0 e, false) else (.fin s m (-(Nat.log2 m : Int)), false)

/-- The quotient `1 / m` to far more bits than any format holds, with a sticky last bit: mantissa and exponent. -/
def recip (m : Nat) : Nat × Int :=
  let k := Nat.log2 m + 64
  let d := 2 ^ k / m
  (2 * d + (if 2 ^ k % m = 0 then 0 else 1), -(k : Int) - 1)

/-- `1 / √m` likewise. -/
def recipSqrt (m : Nat) : Nat × Int :=
  let k := Nat.log2 m + 64
  let x := 2 ^ (2 * k) / m
  let r := Nat.sqrt x
  (2 * r + (if r * r = x && 2 ^ (2 * k) % m = 0 then 0 else 1), -(k : Int) - 1)

/-- The largest FP32 value of at most 12 significant bits, (2 − 2^−11) · 2^127, as a mantissa of exponent 116. -/
def max12 : Nat := 4095

/-- A value rounded to the FP32 values of at most 12 significant bits; one beyond the largest of them becomes an
infinity (R115, DEDUCED: log entry 20). -/
def encode12 (neg : Bool) (m : Nat) (e : Int) : Nat × Bool :=
  let big := if 116 ≤ e then decide (max12 < m * 2 ^ (e - 116).toNat) else decide (max12 * 2 ^ (116 - e).toNat < m)
  if big then (fp32.infinity neg, true)
  else
    let (m', q) := roundBits 12 (-149) m e
    fp32.encode (.fin neg m' q)

/-- The encoding of RCP and RSQRT results: 12 significant bits in FP32, correctly rounded otherwise (R115). -/
def encodeEst (f : Fmt) (neg : Bool) (m : Nat) (e : Int) : Nat × Bool :=
  if f = fp32 then encode12 neg m e else f.encode (.fin neg m e)

/-- RCP: encoding, overflow, invalid (R115). -/
def vRcp (f : Fmt) : Val → Nat × Bool × Bool
  | .nan => (f.nan, false, false)
  | .inf s => (bit s * 2 ^ (f.ebits + f.mbits), false, false)
  | .fin s m e =>
    if m = 0 then (f.infinity s, false, false)
    else
      let (r, x) := recip m
      let (w, o) := encodeEst f s r (x - e)
      (w, o, false)

/-- RSQRT: encoding, overflow, invalid (R109, R115). -/
def vRsqrt (f : Fmt) : Val → Nat × Bool × Bool
  | .nan => (f.nan, false, false)
  | .inf s => if s then (f.nan, false, true) else (0, false, false)
  | .fin s m e =>
    if m = 0 then (f.infinity s, false, false)
    else if s then (f.nan, false, true)
    else
      -- m · 2^e with an even exponent
      let (m', e') := if e % 2 = 0 then (m, e) else (2 * m, e - 1)
      let (r, x) := recipSqrt m'
      let (w, o) := encodeEst f false r (x - e' / 2)
      (w, o, false)

/-! ## The matrix formats (R74 to R78) -/

/-- Bits of an element: 16, 8, 6 or 4. -/
def elemBits (code : Nat) : Nat :=
  if code = 1 || code = 2 then 16 else if code = 7 || code = 8 then 6 else if code = 9 || code = 12 then 4 else 8

/-- Whether a format carries E8M0 block scales (R75). -/
def hasScale (code : Nat) : Bool := decide (5 ≤ code) && decide (code ≤ 10)

/-- Exponent bits, mantissa bits and bias of a floating matrix format (R74). -/
def matFmt (code : Nat) : Fmt :=
  match code with
  | 1 => bf16
  | 2 => fp16
  | 3 => ⟨4, 3, 7⟩
  | 5 => ⟨4, 3, 7⟩
  | 4 => ⟨5, 2, 15⟩
  | 6 => ⟨5, 2, 15⟩
  | 7 => ⟨2, 3, 1⟩
  | 8 => ⟨3, 2, 3⟩
  | _ => ⟨2, 1, 1⟩

/-- The encoded value of a matrix element, before its block scale (R74). -/
def matDecode (code w : Nat) : Val :=
  let int (len : Nat) (e : Int) : Val :=
    let v := signedOf len (w % 2 ^ len); .fin (decide (v < 0)) v.natAbs e
  if code = 10 then int 8 (-6) else if code = 11 then int 8 0 else if code = 12 then int 4 0
  else
    let f := matFmt code
    let m := w % 2 ^ f.mbits
    let e := w / 2 ^ f.mbits % 2 ^ f.ebits
    let neg := bitAt w (f.ebits + f.mbits)
    let special : Option Val :=
      if code = 1 || code = 2 || code = 4 || code = 6 then
        if e = 2 ^ f.ebits - 1 then some (if m = 0 then .inf neg else .nan) else none
      else if (code = 3 || code = 5) && e = 15 && m = 7 then some .nan else none
    match special with
    | some v => v
    | none =>
      if e = 0 then .fin neg m (1 - (f.bias : Int) - f.mbits)
      else .fin neg (2 ^ f.mbits + m) ((e : Int) - f.bias - f.mbits)

/-- An element with its E8M0 block scale (R75): 0xFF is NaN. -/
def scaled (scale : Nat) : Val → Val
  | .fin s m e => if scale = 255 then .nan else .fin s m (e + ((scale : Int) - 127))
  | v => if scale = 255 then .nan else v

/-- Largest finite magnitude of a conversion target, as mantissa and exponent (R74, R78). -/
def matMax (code : Nat) : Nat × Int :=
  match code with
  | 3 => (448, 0)
  | 5 => (448, 0)
  | 4 => (57344, 0)
  | 6 => (57344, 0)
  | 7 => (15, -1)
  | 8 => (28, 0)
  | 9 => (6, 0)
  | 10 => (127, -6)
  | 11 => (127, 0)
  | _ => (7, 0)

/-- `m · 2^e` exceeds `n · 2^f`. -/
def dyGt (m : Nat) (e : Int) (n : Nat) (f : Int) : Bool :=
  let q := min e f
  decide (n * 2 ^ (f - q).toNat < m * 2 ^ (e - q).toNat)

/-- Conversion of a value that is not NaN into an element, to nearest, ties to even, saturating (R77, R78). Codes 3 to
12; INT8 and INT4 reach one further below zero. -/
def matEncode (code : Nat) (neg : Bool) (m : Nat) (e : Int) : Nat :=
  let isInt := code = 10 || code = 11 || code = 12
  let len := elemBits code
  if m = 0 then 0
  else if isInt then
    let q : Int := if code = 10 then -6 else 0
    let v := if 20 ≤ floorLog m e then 2 ^ 20 else rneAt m e q
    let lim := 2 ^ (len - 1) - 1
    let v := if neg && code != 10 then min v (lim + 1) else min v lim
    if neg then (2 ^ len - v) % 2 ^ len else v
  else
    let f := matFmt code
    let (big, be) := matMax code
    let (m', q) := roundBits (f.mbits + 1) (1 - (f.bias : Int) - f.mbits) m e
    let (m', q) := if dyGt m' q big be then (big, be) else (m', q)
    if m' = 0 then 0
    else
      -- the exact value m' · 2^q lies in the format
      let x := floorLog m' q
      let emin : Int := 1 - f.bias
      let s := bit neg * 2 ^ (f.ebits + f.mbits)
      if x < emin then s + rneAt m' q (emin - f.mbits)
      else s + ((x - emin).toNat + 1) * 2 ^ f.mbits + (rneAt m' q (x - f.mbits) - 2 ^ f.mbits)

/-- Conversion of a value into a format without block scales: FP8, INT8, INT4 (R77). -/
def matConvert (code : Nat) : Val → Nat
  | .nan => if code = 3 then 0x7F else if code = 4 then 0x7E else 0
  | .inf neg => matEncode code neg 1 200
  | .fin neg m e => matEncode code neg m e

/-- EMAX of an MX format (R78). -/
def mxEmax (code : Nat) : Int :=
  match code with
  | 9 => 2
  | 7 => 2
  | 8 => 4
  | 5 => 8
  | 6 => 15
  | _ => 0

/-- The magnitude of a value as R78 takes it: an infinity counts as the largest finite FP32 value. -/
def mxMag : Val → Nat × Int
  | .nan => (0, 0)
  | .inf _ => (2 ^ 24 - 1, 104)
  | .fin _ m e => (m, e)

/-- floor(log2) of the largest magnitude of a block, if it has one above zero. -/
def mxTop (vs : List Val) : Option Int :=
  vs.foldl (fun a v =>
    let (m, e) := mxMag v
    if m = 0 then a
    else match a with
      | none => some (floorLog m e)
      | some x => some (max x (floorLog m e))) none

/-- The block conversion of R78: the scale byte and the elements. -/
def mxConvert (code : Nat) (vs : List Val) : Nat × List Nat :=
  if vs.any Val.isNan then (0xFF, vs.map (fun _ => 0))
  else match mxTop vs with
    | none => (0x7F, vs.map (fun _ => 0))
    | some x =>
      let e := max (-127) (min 127 (x - mxEmax code))
      ((e + 127).toNat, vs.map (fun v => match v with
        | .fin neg m f => matEncode code neg m (f - e)
        | .inf neg => matEncode code neg 1 500
        | .nan => 0))

/-! ## Waves (R82) -/

/-- The activation at K index `r` + 256 · `half` of a wave entry, with its block scale (R75, R82). `mode`: 0 WIDTH_8, 1 WIDTH_16, 2 PAIRED_4. -/
def activation (format mode : Nat) (e : Entry) (r half : Nat) : Val :=
  let w := match mode with
    | 1 => entryFld e (16 * r) 16
    | 2 => entryFld e (8 * r + 4 * half) 4
    | _ => entryFld e (8 * r) 8
  let v := matDecode format w
  if hasScale format then scaled (entryFld e (8 * (1008 + r / 32 + 8 * half)) 8) v else v

end Sys2Proof.Machine
end

