-- ==== Sys2Proof/Machine/Packets.lean ====
section
/-! DEFINITION. Packets and frames as bytes (R204, R209, R234): the checksum, the headers, the fields, the forming of
packets and their queueing at an output port. -/

namespace Sys2Proof.Machine

open Sys2Proof

/-! ## CRC-32C -/

/-- One bit step of the reflected CRC-32C (polynomial 0x1EDC_6F41). PRESUMED reflected, with all ones before and
after: log entry 21. -/
def crcBit : Nat → Nat → Nat
  | 0, c => c
  | n + 1, c => crcBit n (if c % 2 = 1 then (c / 2) ^^^ 0x82F63B78 else c / 2)

/-- The running checksum after more bytes. -/
def crcRun : List Byte → Nat → Nat
  | [], c => c
  | b :: bs, c => crcRun bs (crcBit 8 (c ^^^ b.toNat))

/-- CRC-32C of bytes. -/
def crc32c (bs : List Byte) : Nat := crcRun bs 0xFFFFFFFF ^^^ 0xFFFFFFFF

/-! ## Classes and fields -/

/-- Classes of R204: 0 TIME, 1 CTRL, 2 DATA. -/
def clsTime : BitVec 2 := 0
def clsCtrl : BitVec 2 := 1
def clsData : BitVec 2 := 2

/-- Whether packet bytes are a control packet (32 B, R209) and not a data packet (R234). -/
def isControl (p : List Byte) : Bool := p.length == 32

/-- TYPE of a packet. -/
def pkType (p : List Byte) : Nat := leAt p 0 1

/-- HOPS of a packet (R209, R234). -/
def pkHops (p : List Byte) : Nat := if isControl p then fld (leAt p 0 8) 24 4 else fld (leAt p 1 1) 0 4

/-- KEY of a packet. -/
def pkKey (p : List Byte) : Nat := if isControl p then fld (leAt p 0 8) 8 16 else leAt p 2 2

/-- ROUTE of a packet. -/
def pkRoute (p : List Byte) : Nat := if isControl p then fld (leAt p 0 8) 28 36 else fld (leAt p 8 11) 0 84

/-- The 24-byte body of a control packet, as a number. -/
def pkBody (p : List Byte) : BitVec 192 := BitVec.ofNat 192 (leAt p 8 24)

/-- Fields of a data header (R234). -/
def pkFlow (p : List Byte) : Nat := leAt p 4 2
def pkLanding (p : List Byte) : Nat := fld (leAt p 19 1) 0 2
def pkTarget (p : List Byte) : Nat := fld (leAt p 20 1) 0 7
def pkPlatform (p : List Byte) : Nat := fld (leAt p 21 1) 0 4
def pkOffset (p : List Byte) : Nat := fld (leAt p 22 2) 0 14
def pkSourceGid (p : List Byte) : Nat := fld (leAt p 24 3) 0 20
def pkDestGid (p : List Byte) : Nat := fld (leAt p 27 3) 0 20
def pkStep (p : List Byte) : Nat := leAt p 32 8
def pkAttempt (p : List Byte) : Nat := leAt p 40 1
def pkFlowSeq (p : List Byte) : Nat := leAt p 44 4
def pkCrc (p : List Byte) : Nat := leAt p 60 4
def pkPayload (p : List Byte) : List Byte := p.drop 64

/-- Payload units of a data packet, 0 of a control packet. -/
def pkUnits (p : List Byte) : Nat := (p.length - 64) / 64

/-- A packet with one hop taken: ROUTE shifted right by 6 bits, HOPS reduced by 1 (R236). -/
def pkHop (p : List Byte) : List Byte :=
  if isControl p then
    let h := leAt p 0 8
    leBytes 8 (h % 2 ^ 24 + (pkHops p - 1) * 2 ^ 24 + pkRoute p / 64 * 2 ^ 28) ++ p.drop 8
  else p.take 1 ++ leBytes 1 (pkHops p - 1) ++ (p.drop 2).take 6 ++ leBytes 11 (pkRoute p / 64) ++ p.drop 19

/-- The bytes of a frame that its size counts: head and packet (R211). -/
def frameBytes (p : List Byte) : Nat := 8 + p.length

/-- Header credits and data credits a packet takes (R216). -/
def pkDataCredits (p : List Byte) : Nat := if isControl p then 0 else 1 + pkUnits p

/-! ## Forming -/

/-- A control packet of a type, key, route and body (R209); ROUTE and HOPS as its forming chip sends it, entry 0
taken (R236). -/
def controlPacket (type key : Nat) (r : Route) (body : Nat) : List Byte :=
  leBytes 8 (type + key * 2 ^ 8 + (r.hops - 1) * 2 ^ 24 + fld r.path.toNat 6 36 * 2 ^ 28) ++ leBytes 24 body

/-- The output port of a route's entry 0 (R236). -/
def routePort (r : Route) : Nat := fld r.path.toNat 0 5

/-- A data packet as its forming chip sends it, entry 0 of its route taken (R234, R236). -/
def dataPacket (type key flow : Nat) (r : Route) (landing target platform offset src dst step attempt seq : Nat)
    (payload : List Byte) : List Byte :=
  leBytes 1 type ++ leBytes 1 (r.hops - 1) ++ leBytes 2 key ++ leBytes 2 flow ++ zeros 2
    ++ leBytes 11 (r.path.toNat / 64) ++ leBytes 1 landing ++ leBytes 1 target ++ leBytes 1 platform ++ leBytes 2 offset
    ++ leBytes 3 src ++ leBytes 3 dst ++ zeros 2 ++ leBytes 8 step ++ leBytes 1 attempt
    ++ leBytes 1 (payload.length / 64 - 1) ++ zeros 2 ++ leBytes 4 seq ++ zeros 12 ++ leBytes 4 (crc32c payload) ++ payload

/-- A packet queued at a fabric port for its class (R206, R233). A port that is not READY discards at once what is
released to it (R228); PLAN packets wait for their despatcher. -/
def sendTime (p : Nat) (pkt : List Byte) (via : Option PortId) (s : State) : State :=
  s.modPort p (fun q => if !q.ready then q else { q with txTime := q.txTime ++ [⟨pkt, via, 0, 0, true⟩] })

/-- A CTRL packet queued at a port; `via` names the input port whose receive buffer holds it. -/
def sendCtrl (p : Nat) (pkt : List Byte) (via : Option PortId) (s : State) : State :=
  s.modPort p (fun q => if !q.ready then q else { q with txCtrl := q.txCtrl ++ [⟨pkt, via, 0, 0, true⟩] })

/-- A PLAN packet queued at its output port for the despatcher (R245). -/
def sendPlan (p : Nat) (pkt : List Byte) (via : Option PortId) (s : State) : State :=
  s.modPort p (fun q => { q with txData := q.txData ++ [⟨pkt, via, pkFlow pkt, pkFlowSeq pkt, false⟩] })

/-- A control packet sent along a route of at most 6 hops; along a longer one none is formed (R209, R236; log entry 121). -/
def sendControl (type key : Nat) (r : Route) (body : Nat) (s : State) : State :=
  if 6 < r.hops then s else sendCtrl (routePort r) (controlPacket type key r body) none s

/-- The GID bound to a logical chip (R359). -/
def State.gidOf (s : State) (chip : Nat) : Nat := match s.forme.binding[chip]? with
  | some g => g.toNat
  | none => 0

/-- The route-table entry of a GID: on die for the DIE_BLOCK, in the near tier otherwise (R242). -/
def State.routeEntry (s : State) (g : Nat) : Nat :=
  if g / 65536 = s.fab.dieBlock.toNat then match kget s.fab.dieTable (g % 65536) with
    | some e => e.toNat
    | none => 0
  else leNat (memRead blank s.boxMem (4210688 * 1024 + 16 * g) 16)

/-- The route a table entry holds, if it is VALID (R242). -/
def entryRoute (e : Nat) : Option Route :=
  if bitAt e 88 then some ⟨BitVec.ofNat 84 (fld e 0 84), fld e 84 4⟩ else none

/-- SERVICE packets of at most 4,096 B of payload each toward a GID, on its route-table route (R233, R242). -/
def sendService (dst : Nat) (payload : List Byte) (s : State) : State :=
  match entryRoute (s.routeEntry dst) with
  | none => s
  | some r => sendCtrl (routePort r)
      (dataPacket 0x41 0 0 r 0 0 0 0 s.fab.gid.toNat dst 0 0 0 (sliceBytes payload 0 (64 * max 1 (ceilDiv payload.length 64)))) none s

/-! ## The send list (R147, R235) -/

/-- ENTRIES of a send-list record. -/
def sendEntries (r : BitVec 64) : Nat := (r.extractLsb' 0 12).toNat + 1

/-- The imposed route of a flow (R241, R359, R360). -/
def State.flowRoute (s : State) (flow : Nat) : Route := match s.forme.flows.lookup flow with
  | some r => r
  | none => ⟨0, 1⟩

/-- The key of a flow: the entry of the key table that its KEY_INDEX names (R249). -/
def State.flowKey (s : State) (flow : Nat) : Nat := match s.forme.forme with
  | some f => match f.flows[flow]? with
    | some r => (vget s.forme.keys r.keyIndex 0).toNat
    | none => 0
  | none => 0

/-- The GID of a flow's destination (R359). -/
def State.flowDest (s : State) (flow : Nat) : Nat := match s.forme.forme with
  | some f => match f.dests[flow]? with
    | some c => s.gidOf c
    | none => 0
  | none => 0

/-- An entry that leaves a press, under the send-list record in force: across the concourse at once, or held until its
packet of 4 entries, or the rest of its record, is whole (R147, R235). An entry that no record covers goes nowhere. -/
def outbound (p : Nat) (e : Entry) (s : State) : State :=
  let pr := s.press p
  match pr.send[pr.sendIdx]? with
  | none => s
  | some r =>
    let n := sendEntries r
    let pos := pr.sendPos
    let last := pos + 1 = n
    let target := (r.extractLsb' 15 7).toNat
    let landing := (r.extractLsb' 13 2).toNat
    let platform := (r.extractLsb' 38 4).toNat
    let offset := (r.extractLsb' 42 14).toNat
    let s := s.modPress p (fun q => { q with sendPos := if last then 0 else pos + 1
                                             sendIdx := if last then q.sendIdx + 1 else q.sendIdx })
    if r.extractLsb' 12 1 = 0 then
      match s.slotPress target with
      | none => s
      | some t =>
        if h : t < 96 then
          { s with conc := s.conc ++ [⟨⟨t, h⟩, (s.pressSlot p).getD 0, ⟨landing, target, platform, offset + pos⟩, e, 0⟩] }
        else s
    else
      let held := pr.outHold ++ [e]
      if last || held.length == 4 then
        let flow := (r.extractLsb' 22 16).toNat
        let route := s.flowRoute flow
        let seq := (kget s.fab.flowSeq flow).getD 0
        let off := if landing = 1 then offset + (pos + 1 - held.length) else 0
        let pkt := dataPacket 0x40 (s.flowKey flow) flow route landing target (if landing = 1 then platform else 0) off
          s.fab.gid.toNat (s.flowDest flow) s.tt.step.toNat s.tt.attempt.toNat seq (held.map entryBytes).flatten
        sendPlan (routePort route) pkt none
          { s.modPress p (fun q => { q with outHold := [] }) with fab.flowSeq := kset flow (seq + 1) s.fab.flowSeq }
      else s.modPress p (fun q => { q with outHold := held })

end Sys2Proof.Machine
end

