-- ==== Sys2Proof/Machine/Lanes.lean ====
section
/-! DEFINITION. The concourse's paths and lanes (R15, R169 to R172): the routers that an entry passes, the buffers of a lane
along them, and the stop of a lane. -/

namespace Sys2Proof.Machine

open Sys2Proof

/-! ## Paths (R170, R171) -/

/-- Column of the router that a sequencer joins (R170). -/
def seqColumn (k : Nat) : Nat := [0, 0, 1, 2, 3, 3, 4, 5, 6, 6, 7, 8, 9, 9, 10, 11].getD (k % 16) 0

/-- Row and column of a sequencer's router (R170). -/
def seqAt (k : Nat) : Nat × Nat := (if k < 16 then 0 else 7, seqColumn k)

/-- Row and column of a press's router (R15). -/
def pressAt (p : Nat) : Nat × Nat := (p / 12, p % 12)

/-- Numbers from one to another along a line, both included. -/
def along (a b : Nat) : List Nat :=
  if a ≤ b then (List.range (b - a + 1)).map (a + ·) else ((List.range (a - b + 1)).map (b + ·)).reverse

/-- The routers of a path in dimension order, each by its press (R171). -/
def pathRouters (a b : Nat × Nat) : List Nat :=
  (along a.2 b.2).map (fun j => 12 * a.1 + j) ++ ((along a.1 b.1).map (fun j => 12 * j + b.2)).drop 1

/-! ## Lanes (R172) -/

/-- The column at which the die-to-die interface of a far port or a fabric port joins the concourse, by its code of R173: far port
0 and ports 0 to 15 lie on the west die (R13, R15). -/
def dieColumn (src : Nat) : Nat := if src = 128 || (decide (130 ≤ src) && decide (src < 146)) then 0 else 11

/-- The router at which a source of R173 joins the concourse toward press `p`. An interface has a link to each row (R169), and its
entries enter in the row of their destination: DESIGN CHOICE, log entry 63. -/
def State.sourceAt (s : State) (src p : Nat) : Option (Nat × Nat) :=
  if src < 96 then (s.slotPress src).map pressAt
  else if src < 128 then some (seqAt (src - 96)) else some ((pressAt p).1, dieColumn src)

/-- The routers that receive the entries of a flow, in order (R172): not that of the press that sends them, but where it sends
to itself; the last alone where no press slot of the forme sends them. -/
def State.flowRouters (s : State) (src p : Nat) : List Nat := match s.sourceAt src p with
  | some a =>
    let l := pathRouters a (pressAt p)
    if src < 96 && decide (1 < l.length) then l.drop 1 else l
  | none => [p]

/-- Entries of a flow in the concourse. -/
def State.flowCount (s : State) (src p : Nat) : Nat :=
  (s.conc.filter (fun a => a.source == src && a.press.val == p)).length

/-- Entries that the buffers of a flow's lane take: two at each receiving router (R172). -/
def State.laneCap (s : State) (src p : Nat) : Nat := 2 * (s.flowRouters src p).length

/-- Whether the source of a flow holds a credit for its next entry (R172). -/
def State.laneRoom (s : State) (src p : Nat) : Bool := decide (s.flowCount src p < s.laneCap src p)

/-- Whether entries of a source still wait for a credit before they can start (R172). -/
def State.sourceHeld (s : State) (src : Nat) : Bool :=
  s.conc.any (fun a => a.source == src && decide (s.laneCap src a.press.val < s.flowCount src a.press.val))

/-- The entries of a flow whose lane has stopped, with `k` of them ahead and `n` receiving routers: two fill the buffer of each
router from the destination back, and the others wait at the source. Each but those of the destination's router waits for a
credit there, and is named by its distance once. -/
def stopFlow (mine : Arrival → Bool) (n : Nat) : Nat → List Arrival → List Arrival × List Nat
  | _, [] => ([], [])
  | k, a :: l =>
    if mine a then
      let b := min (k / 2) n
      let (l', c) := stopFlow mine n (k + 1) l
      if b = 0 || a.stops = b then (a :: l', c) else ({ a with stops := b } :: l', b :: c)
    else let (l', c) := stopFlow mine n k l; (a :: l', c)

/-- An entry counted in LANE_STOPS at press `p`'s router. -/
def countStop (p : Nat) (s : State) : State := s.modPress p (fun x => { x with laneStops := x.laneStops + 1 })

/-- A lane stops (R172): the stop spreads back along the flow's path, and each entry that then waits for a credit counts at the
router at which it waits. -/
def laneStop (src p : Nat) (s : State) : State :=
  let rs := (s.flowRouters src p).reverse
  let (conc, c) := stopFlow (fun a => a.source == src && a.press.val == p) rs.length 0 s.conc
  c.foldl (fun s b => match rs[b]? with
    | some r => countStop r s
    | none => match if src < 96 then s.slotPress src else none with
      | some r => countStop r s
      | none => s) { s with conc := conc }

end Sys2Proof.Machine
end

