-- ==== Sys2Proof/Machine/Marks.lean ====
section
/-! DEFINITION. Marks (R26, R30, R133, R134): reading the items of an instruction memory or a record list, the next
mark of a unit, when a mark is released, and the walk over records with its loops. -/

namespace Sys2Proof.Machine

open Sys2Proof

/-! ## Items -/

/-- What an instruction or a record is to a unit's walk: a mark (value; for DUE queue, entries and source), a loop
(body, trips, mark stride), the end, or work. -/
inductive Item where
  | mark (value : Nat) (due : Option (Nat × Nat × Nat))
  | loop (body trips stride : Nat)
  | fin
  | work
  deriving DecidableEq, Repr

/-- Fields of an instruction word (R128). -/
def wOp (w : PressWord) : Nat := (w.extractLsb' 120 8).toNat
def wTag (w : PressWord) : BitVec 16 := w.extractLsb' 104 16
def wFormat (w : PressWord) : Nat := (w.extractLsb' 96 4).toNat
def wPaired (w : PressWord) : Bool := (w.extractLsb' 100 1).toNat == 1
def wCount (w : PressWord) : Nat := (w.extractLsb' 84 12).toNat + 1
def wSrcA (w : PressWord) : Nat := (w.extractLsb' 78 6).toNat
def wSrcB (w : PressWord) : Nat := (w.extractLsb' 72 6).toNat
def wSrcC (w : PressWord) : Nat := (w.extractLsb' 66 6).toNat
def wDst (w : PressWord) : Nat := (w.extractLsb' 60 6).toNat

/-- Per-op bits `[lo + len - 1 : lo]` of an instruction word. -/
def wFld (w : PressWord) (lo len : Nat) : Nat := (w.extractLsb' lo len).toNat

/-- The item of an instruction word (R26, R130, R133 to R135). -/
def wordItem (w : PressWord) : Item :=
  match wOp w with
  | 1 => .mark (wFld w 0 40) (if wFld w 40 1 = 1 then some (wSrcA w, wCount w, wFld w 41 3) else none)
  | 2 => .loop (wFld w 0 12 + 1) (wFld w 12 16 + 1) (wFld w 28 28)
  | 3 => .fin
  | _ => .work

/-- The item of a record of a sequencer stream, far stream or points list (R175, R192, R243). -/
def recItem (r : BitVec 64) : Item :=
  let n := r.toNat
  match fld n 60 4 with
  | 1 => .mark (fld n 0 40) none
  | 2 => .loop (fld n 0 12 + 1) (fld n 12 16 + 1) (fld n 28 28)
  | 3 => .fin
  | _ => .work

/-! ## Loops -/

/-- The position after the item at `pc`, going round a loop whose body ends there (R134). -/
def nextPos (pc : Nat) (loop : Option LoopSt) : Nat × Option LoopSt :=
  match loop with
  | none => (pc + 1, none)
  | some l =>
    if pc + 1 = l.start + l.body then
      if l.trip + 1 < l.trips then (l.start, some { l with trip := l.trip + 1 }) else (pc + 1, none)
    else (pc + 1, some l)

/-- The trip in progress, 0 outside a loop (R134). -/
def tripOf (loop : Option LoopSt) : Nat := match loop with
  | some l => l.trip
  | none => 0

/-- What MARK_STRIDE adds to a mark of the body on the present trip (R134). -/
def strideOf (loop : Option LoopSt) : Nat := match loop with
  | some l => l.trip * l.stride
  | none => 0

/-- The first mark or end of a list of items. -/
def firstMark : List Item → Option (Nat × Option (Nat × Nat × Nat)) × Bool
  | [] => (none, false)
  | .mark v d :: _ => (some (v, d), false)
  | .fin :: _ => (none, true)
  | _ :: l => firstMark l

/-- The next mark of a unit at index `pc`, with every loop taken into account; `none` where the end comes first
(R30, R134). -/
def nextMark (items : List Item) (pc : Nat) (loop : Option LoopSt) : Option (Nat × Option (Nat × Nat × Nat)) :=
  match loop with
  | none => (firstMark (items.drop pc)).1
  | some l =>
    let stop := l.start + l.body
    match firstMark ((items.drop pc).take (stop - pc)) with
    | (some (v, d), _) => some (v + l.trip * l.stride, d)
    | (none, true) => none
    | (none, false) =>
      let again := if l.trip + 1 < l.trips then (firstMark ((items.drop l.start).take (pc - l.start))).1 else none
      match again with
      | some (v, d) => some (v + (l.trip + 1) * l.stride, d)
      | none => (firstMark (items.drop stop)).1

/-- Marks of a list of items with every loop unrolled, in order (R29, R131). -/
def unrolledMarks : Nat → List Item → List (Nat × Option (Nat × Nat × Nat))
  | 0, _ => []
  | _ + 1, [] => []
  | n + 1, .mark v d :: l => (v, d) :: unrolledMarks n l
  | n + 1, .loop b t st :: l =>
    let body := l.take b
    ((List.range t).map (fun i => body.filterMap (fun x => match x with
      | .mark v d => some (v + i * st, d)
      | _ => none))).flatten ++ unrolledMarks n (l.drop b)
  | _ + 1, .fin :: _ => []
  | n + 1, .work :: l => unrolledMarks n l

/-! ## When a mark is released -/

/-- Whether TT lets a mark of value `v` be released: TT has passed it, or has reached it and does not stand at it
(R26, R32). -/
def State.reached (s : State) (v : Nat) : Bool :=
  s.tt.inStep && !s.tt.draining && (decide (v < s.tt.tt.toNat) || (s.tt.tt.toNat == v && s.stopping.isEmpty))

/-- The test count of a mark (R30). -/
def testCount (v : Nat) (due : Option (Nat × Nat × Nat)) : Nat := match due with
  | some _ => v
  | none => v - 32

/-- The cause of a DUE hold of a SOURCE code (R26, R35). -/
def dueCause (source : Nat) : Cause :=
  match source with
  | 1 => .nearLate
  | 2 => .farLate
  | 3 => .linkLate
  | 4 => .firmware
  | _ => .envelope

/-! ## Walks over records -/

/-- The item at a walk's position; the end beyond the list. -/
def walkItem (list : List (BitVec 64)) (w : Walk) : Item := match list[w.idx]? with
  | some r => recItem r
  | none => .fin

/-- A walk moved past the record in hand. -/
def walkNext (w : Walk) : Walk :=
  let (i, l) := nextPos w.idx w.loop
  { w with idx := i, loop := l, busy := false, left := 0 }

/-- A walk that enters a loop (R134). -/
def walkLoop (body trips stride : Nat) (w : Walk) : Walk :=
  { w with idx := w.idx + 1, loop := some ⟨w.idx + 1, body, trips, 0, stride⟩ }

/-- A walk that waits at a mark. -/
def walkMark (v : Nat) (due : Option (Nat × Nat × Nat)) (w : Walk) : Walk :=
  { w with mark := some ⟨v + strideOf w.loop, due⟩ }

/-- Whether a walk may take its next record: in a step, not at a mark that still waits, not ended. -/
def walkFree (s : State) (w : Walk) : Bool := s.tt.inStep && !s.tt.draining && w.mark.isNone && !w.ended

/-- A walk whose mark is released when TT lets it and `ok` holds. -/
def walkRelease (s : State) (ok : Bool) (w : Walk) : Walk :=
  match w.mark with
  | some m => if ok && s.reached m.value then { walkNext w with mark := none, lastMark := m.value } else w
  | none => w

/-- The next mark a walk must meet. -/
def walkNextMark (list : List (BitVec 64)) (w : Walk) : Option (Nat × Option (Nat × Nat × Nat)) :=
  match w.mark with
  | some m => some (m.value, m.due)
  | none => nextMark (list.map recItem) w.idx w.loop

/-- A walk at the start of an attempt (R24). -/
def walkStart : Walk := Walk.reset

end Sys2Proof.Machine
end

