-- ==== Sys2Proof/Machine/Queues.lean ====
section
/-! DEFINITION. The queue file and the accumulator banks as the streams use them (R69, R70, R97 to R103, R120, R121,
R173). -/

namespace Sys2Proof.Machine

open Sys2Proof

/-! ## Hazards (R159, R160) -/

/-- A hazard recorded in debug mode: counted, and the first eight of the attempt kept. -/
def hazard (p : Nat) (kind stream : Nat) (tag : BitVec 16) (icount : BitVec 32) (other location : Nat) (s : State) : State :=
  if s.dbg.enabled then
    s.modPress p (fun q =>
      { q with hazards := satInc q.hazards
               hazardRecs := if q.hazardRecs.length < 8 then
                   q.hazardRecs ++ [⟨tag, BitVec.ofNat 2 stream, BitVec.ofNat 4 kind, s.tt.tt, BitVec.ofNat 4 other,
                     BitVec.ofNat 18 location, icount⟩]
                 else q.hazardRecs })
  else s

/-! ## The landing path into FIN (R173) -/

/-- The queue Q`q` of a press. -/
def Press.queue (p : Press) (q : Nat) : Queue := vget p.queues q Queue.reset

/-- A queue with entries, and the largest occupancy of the attempt. -/
def Queue.withEntries (q : Queue) (es : List Entry) : Queue :=
  { q with entries := es, high := BitVec.ofNat 12 (max q.high.toNat es.length) }

/-- A touch of the landing path at an entry of press store, in granule `g`, which debug mode checks against the X stream (R159,
R166). -/
def touchLanding (p a g : Nat) (write : Bool) (s : State) : State :=
  if s.dbg.enabled then
    let hit := (s.press p).touchX.any (fun t => t.1 == a && (t.2 || write))
    let s := s.modPress p (fun x => { x with touchLand := (a, write) :: x.touchLand })
    if hit then hazard p 0 3 0 0 2 g s else s
  else s

/-- Source and entries of a landing record (R173). -/
def landFields (r : Nat) : Nat × Nat := (fld r 0 8, fld r 8 12 + 1)

/-- A landing record with one entry taken. -/
def landTake : Option (Nat × Nat) → Option (Nat × Nat)
  | some (src, n) => if n ≤ 1 then none else some (src, n - 1)
  | none => none

/-- The landing path takes its next record from press store, through the code, where it holds none (R167, R173). -/
def landRead (p : Nat) (s : State) : State :=
  let pr := s.press p
  if pr.landing.isSome || pr.landLeft = 0 then s
  else
    let a := pr.landFrom
    let bad := pr.landEcc.uncorrectable.contains a
    let r := landFields (if bad then 0 else leNat (memRead blank pr.store a 4))
    let s := (touchLanding p (a / 1024) (a / 64) false s).modPress p (fun x =>
      { x with landing := some r, landFrom := a + 4, landLeft := x.landLeft - 1
               corrected := x.corrected + BitVec.ofNat 32 (pr.landEcc.corrected.count a)
               uncorrectable := if bad then satInc x.uncorrectable else x.uncorrectable })
    if bad then stepFault fcEcc p s else s

/-- The records that still cover arrivals: the one in hand, and those that press store holds from the next on (R173). -/
def Press.landRecords (p : Press) : List (Nat × Nat) :=
  p.landing.toList ++ (List.range p.landLeft).map (fun i => landFields (leNat (memRead blank p.store (p.landFrom + 4 * i) 4)))

/-- An entry made visible in FIN; it takes its place of the record in hand. -/
def landInto (p : Nat) (e : Entry) (s : State) : State :=
  s.modPress p (fun x => { x with landing := landTake x.landing, queues := vmod x.queues 52 (fun q => q.withEntries (q.entries ++ [e])) })

/-- Whether FIN has room. -/
def finRoom (p : Press) : Bool := decide ((p.queue 52).entries.length < (p.queue 52).cap)

/-- Landing-buffer entries whose source the current record names become visible in FIN, while FIN has room. -/
def landPump : Nat → Nat → State → State
  | 0, _, s => s
  | fuel + 1, p, s =>
    let s := landRead p s
    match (s.press p).landing with
    | none => s
    | some (src, _) =>
      if finRoom (s.press p) then
        match takeFirst (fun x => x.1 == src) (s.press p).landBuf with
        | none => s
        | some (x, rest) => landPump fuel p (landInto p x.2 (s.modPress p (fun y => { y with landBuf := rest })))
      else s

/-! ## Banks (R69, R70) -/

/-- Bank A for Q48, bank B for Q49. -/
def Press.bank (p : Press) (q : Nat) : Bank := if q = 48 then p.bankA else p.bankB

/-- A press with a bank changed. -/
def Press.modBank (p : Press) (q : Nat) (f : Bank → Bank) : Press :=
  if q = 48 then { p with bankA := f p.bankA } else { p with bankB := f p.bankB }

/-- The oldest RELEASED row of a bank and its index. -/
def Bank.oldest (b : Bank) : Option (Nat × AccRow) :=
  match b.queue with
  | [] => none
  | r :: _ => (kget b.rows r).map (fun x => (r, x))

/-- The bank with its oldest RELEASED row EMPTY again (R70). -/
def Bank.pop (b : Bank) : Bank :=
  match b.queue with
  | [] => b
  | r :: l => ⟨kdel r b.rows, l⟩

/-- The set bits of a side vector. -/
def countBits (x : BitVec 256) : Nat := sumOf ((List.range 256).map (fun i => bit (x.getLsbD i)))

/-- What the pop of a row reports (R121). -/
def reportRow (r : AccRow) (p : Press) : Press :=
  { p with readSat := p.readSat || r.sat != 0
           readSatCells := wrapAdd p.readSatCells (countBits r.sat)
           readInvalid := p.readInvalid || r.invalid != 0 }

/-- The exact value of a cell (R83). -/
def cellVal (r : AccRow) (c : Nat) : Val :=
  if r.invalid.getLsbD c then .nan
  else
    let v := (r.cells.getD c 0).toInt
    .fin (decide (v < 0)) v.natAbs r.window

/-- A row read by an FP32 operation: the entry of 256 FP32 values (R120). -/
def rowEntry (r : AccRow) : Entry :=
  entryOf ((List.range 256).map (fun c => leBytes 4 (fp32.encode (cellVal r c)).1)).flatten

/-- Whether one of the first `n` cells of a row overflows FP32 (R110, R120). -/
def rowOverflows (r : AccRow) (n : Nat) : Bool := (List.range (min n 256)).any (fun c => (fp32.encode (cellVal r c)).2)

/-- A side vector with one bit set to a value. -/
def setSide (x : BitVec 256) (c : Nat) (b : Bool) : BitVec 256 :=
  let m : BitVec 256 := 1 <<< c
  if b then x ||| m else x &&& ~~~m

/-- A row with one uncorrectable cell: its value and its side bits are free (R92; log entry 3). -/
def freeCell (s : State) (r : AccRow) (c : Nat) : AccRow × State :=
  let (v, s) := s.draw
  let (u, s) := s.draw
  ({ r with cells := r.cells.set c ((u ++ v).setWidth 72), sat := setSide r.sat c (u.getLsbD 8)
            invalid := setSide r.invalid c (u.getLsbD 9) }, s)

/-! ## Sources and destinations -/

/-- Whether entry `k` from the head of queue `q` of press `p` can be read now. Q63 always can; FIN in fault run-out
always can (R50, R100, R101). -/
def canRead (s : State) (p q k : Nat) : Bool :=
  let pr := s.press p
  if q = 63 then true
  else if q = 48 || q = 49 then decide (k < (pr.bank q).queue.length)
  else decide (k < (pr.queue q).entries.length) || (q == 52 && s.tt.runout)

/-- Entry `k` from the head of a queue; zeros of Q63 and of an absent FIN entry. -/
def readAt (s : State) (p q k : Nat) : Entry := if q = 63 then 0 else ((s.press p).queue q).entries.getD k 0

/-- The head entry of a queue removed. An absent FIN entry takes the landing-list place of the entry it stands for
(R50). -/
def popHead (p q : Nat) (s : State) : State :=
  if q = 63 then s
  else match ((s.press p).queue q).entries with
    | _ :: rest =>
      let s := s.modPress p (fun pr => { pr with queues := vmod pr.queues q (fun x => { x with entries := rest }) })
      if q = 52 then landPump (s.press p).landBuf.length p s else s
    | [] =>
      if q = 52 then
        let s := landRead p s
        match (s.press p).landing with
        | none => s
        | some (src, _) =>
          landPump (s.press p).landBuf.length p
            (s.modPress p (fun pr => { pr with landing := landTake pr.landing, owed := pr.owed ++ [(src, 1)] }))
      else s

/-- Whether an entry can be pushed into queue `q` now (R100, R101). -/
def canPush (s : State) (p q : Nat) : Bool :=
  q == 63 || decide (((s.press p).queue q).entries.length < ((s.press p).queue q).cap)

/-- An uncorrectable error of the queue pool: fault, QUEUE_ECC; the entry reads as zero (R103). -/
def poolFault (p : Nat) (s : State) : State :=
  stepFault fcEcc p (s.modPress p (fun pr => { pr with queueEcc := true, sramUncorr := pr.sramUncorr + 1 }))

/-- SRAM words corrected in a press (R92, R103). -/
def sramFixed (p n : Nat) (s : State) : State := s.modPress p (fun pr => { pr with sramCorrected := pr.sramCorrected + BitVec.ofNat 32 n })

/-- An entry of the pool read through its code (R103). -/
def poolRead (p : Nat) (x : EntryEcc) (e : Entry) (s : State) : Entry × State :=
  let s := sramFixed p x.corrected s
  if x.bad then (0, poolFault p s) else (e, s)

/-- Whether the outbound unit may take the entry at FOUT's head: one for the concourse waits for its lane's credit
(R147, R172). -/
def foutGoes (p : Nat) (s : State) : Bool :=
  let pr := s.press p
  match pr.send[pr.sendIdx]? with
  | none => true
  | some r => r.extractLsb' 12 1 != 0 || match s.slotPress (r.extractLsb' 15 7).toNat with
    | some t => s.laneRoom ((s.pressSlot p).getD 0) t
    | none => true

/-- The entries of FOUT that the outbound unit may take, in order, each through the pool's code (R100, R103, R147). -/
def foutPump : Nat → Nat → State → State
  | 0, _, s => s
  | fuel + 1, p, s =>
    match ((s.press p).queue 53).entries with
    | [] => s
    | e :: rest =>
      if foutGoes p s then
        let found := (s.press p).foutEcc.headD ⟨0, false⟩
        let s := s.modPress p (fun pr =>
          { pr with queues := vmod pr.queues 53 (fun x => { x with entries := rest }), foutEcc := pr.foutEcc.tail, foutStop := false })
        let (e, s) := poolRead p found e s
        foutPump fuel p (outbound p e s)
      else if (s.press p).foutStop then s
      else (countStop p s).modPress p (fun pr => { pr with foutStop := true })

/-- An entry pushed. Q63 discards; the outbound unit takes what it may from FOUT at once. `found` says what the pool's code will find
in an entry of FOUT or SAMP when the outbound unit or the sampler reads it (R100, R103, R147, R328). -/
def push (p q : Nat) (e : Entry) (found : EntryEcc) (s : State) : State :=
  if q = 63 then s
  else
    let s := s.modPress p (fun pr => { pr with queues := vmod pr.queues q (fun x => x.withEntries (x.entries ++ [e])) })
    if q = 53 then
      foutPump ((s.press p).queue 53).entries.length p (s.modPress p (fun pr => { pr with foutEcc := pr.foutEcc ++ [found] }))
    else if q = 54 then s.modPress p (fun pr => { pr with sampEcc := pr.sampEcc ++ [found] })
    else s

/-- Whether the codes found an uncorrectable error in item `i` of what an instruction reads. -/
def badItem (e : Reads) (i : Nat) : Bool := e.uncorrectable.contains i

/-- What the codes found in item `i`. -/
def itemEcc (e : Reads) (i : Nat) : EntryEcc := ⟨e.corrected.count i, badItem e i⟩

/-- Item of `Reads` of the `n`-th entry that an instruction pushes into FOUT or SAMP, as the outbound unit or the sampler reads it
(R103). -/
def pushItem (n : Nat) : Nat := 2 ^ 24 + n

/-- Item of `Reads` of cell `c` of the `n`-th row that an instruction reads or updates (R92). -/
def cellItem (n c : Nat) : Nat := 2 ^ 20 + 256 * n + c

/-- The cells of the `n`-th row among items (R92). -/
def cellsOf (n : Nat) (items : List Nat) : List Nat :=
  (items.filter (fun j => decide (cellItem n 0 ≤ j) && decide (j < cellItem (n + 1) 0))).map (· - cellItem n 0)

/-- An uncorrectable cell is a step fault and leaves a free value (R92). -/
def loseCell (p : Nat) (x : AccRow × State) (c : Nat) : AccRow × State :=
  let (r, s) := freeCell x.2 x.1 c
  (r, stepFault fcEcc p (s.modPress p (fun q => { q with sramUncorr := q.sramUncorr + 1 })))

/-- The `n`-th row that an instruction reads or updates, as its cells' codes let it be read: corrections are counted, and every
uncorrectable cell is lost (R92). -/
def readCells (i : Issue) (n : Nat) (r : AccRow) (s : State) : AccRow × State :=
  (cellsOf n i.read.uncorrectable).foldl (loseCell i.press.val)
    (r, sramFixed i.press.val (cellsOf n i.read.corrected).length s)

/-- The same of a row that stays in its bank: what was read stands there from then on. -/
def readBank (i : Issue) (n q row : Nat) (r : AccRow) (s : State) : AccRow × State :=
  let (r, s) := readCells i n r s
  (r, if (cellsOf n i.read.uncorrectable).isEmpty then s
    else s.modPress i.press.val (fun p => p.modBank q (fun b => { b with rows := kset row r b.rows })))

/-- Entry `k` from the head as read through the pool's code: zero, with the fault, when item `i` is uncorrectable. -/
def readPool (i : Issue) (item q k : Nat) (s : State) : Entry × State :=
  if q = 63 then (0, s) else poolRead i.press.val (itemEcc i.read item) (readAt s i.press.val q k) s

/-! ## The issue of instructions (R127, R136, R149, R157) -/

/-- What an attempt to run an instruction gives: done, or a wait for an accumulator row (`row`) or a queue, on a push or
a pop. -/
inductive Act where
  | done (s : State)
  | wait (row isPush : Bool) (s : State)

/-- The stream of an issue, in a state. -/
def State.streamOf (s : State) (i : Issue) : Stream := (s.press i.press.val).stream i.stream

/-- The state with the stream of an issue changed. -/
def State.modStream (s : State) (i : Issue) (f : Stream → Stream) : State :=
  s.modPress i.press.val (fun p => p.modStream i.stream f)

/-- Progress of the instruction in hand. -/
def State.prog (s : State) (i : Issue) : Progress := (s.streamOf i).prog

/-- Progress recorded. -/
def setProg (i : Issue) (p : Progress) (s : State) : State := s.modStream i (fun st => { st with prog := p })

/-- An entry that an instruction pushes into its destination. -/
def pushBy (i : Issue) (e : Entry) (s : State) : State :=
  let pr := s.prog i
  push i.press.val (wDst i.word) e (itemEcc i.read (pushItem pr.pushed)) (setProg i { pr with pushed := pr.pushed + 1 } s)

/-- The end of an instruction: the stream goes on to the next index; beyond the loaded length is END (R134, R149). -/
def retire (i : Issue) (s : State) : State :=
  s.modStream i (fun st =>
    let st := { st with waiting := none, rowWait := false, waitAt := none, prog := Progress.reset }
    if st.state == .ended || st.mark.isSome then st
    else
      let (pc, l) := nextPos st.pc st.loop
      let past := decide (st.mem.length ≤ pc)
      { st with pc := pc, loop := l, state := if past then .ended else .running
                tag := match st.mem[pc]? with
                  | some w => wTag w
                  | none => st.tag })

/-- The wait that an instruction is in, by how far it has come. -/
def State.waitKey (s : State) (i : Issue) (row isPush : Bool) : WaitAt :=
  let p := s.prog i
  ⟨row, isPush, p.round, p.held.length, p.out.length⟩

/-- Whether that wait has not been counted yet (R101, R125). -/
def newWait (s : State) (i : Issue) (row isPush : Bool) : Bool := (s.streamOf i).waitAt != some (s.waitKey i row isPush)

/-- An instruction that waits; each of its waits for a queue counts once (R69, R101, R125). -/
def noteWait (i : Issue) (row isPush : Bool) (s : State) : State :=
  let fresh := newWait s i row isPush
  let s := s.modStream i (fun st =>
    { st with state := .queueWait, waiting := some i, rowWait := row, waitAt := some (s.waitKey i row isPush) })
  if !fresh || row then s
  else s.modPress i.press.val (fun p =>
    if isPush then { p with pushWaits := p.pushWaits + 1 } else { p with popWaits := p.popWaits + 1 })

/-- A wait for the entries of several queues: each queue beyond the one that `noteWait` counts is a wait of its own (R101, R125). -/
def waitSources (i : Issue) (queues : List Nat) (s : State) : Act :=
  let n := queues.dedup.length - 1
  .wait false false (if newWait s i false false then
    s.modPress i.press.val (fun p => { p with popWaits := p.popWaits + BitVec.ofNat 32 n }) else s)

/-- Whether a word loads a weight plane or passes over one, and which (R137, R138). -/
def planeUse (w : PressWord) : Option (Bool × Nat) :=
  if wOp w = 0x10 then some (true, wFld w 0 1) else if wOp w = 0x11 then some (false, wFld w 8 1) else none

/-- Whether word `w` of the M stream may go on while the load or pass `v` waits: a load goes on beside a pass over the other
plane and a pass beside a load into the other plane, and NOP and LOOP await nothing (R81). -/
def proceeds (v w : PressWord) : Bool := match planeUse v, planeUse w with
  | some (a, p), some (b, q) => a != b && p != q
  | some _, none => wOp w == 0 || wOp w == 2
  | none, _ => false

/-- A load or pass that waits lets the M stream go on where the next word may (R81). -/
def stepAside (i : Issue) (s : State) : State :=
  let st := s.streamOf i
  if i.stream == .m && st.side.isNone && (match st.mem[(nextPos st.pc st.loop).1]? with
      | some w => proceeds i.word w
      | none => false) then
    retire i (s.modStream i (fun st => { st with side := some ⟨i, st.icount, st.rowWait, st.waitAt, st.prog⟩ }))
  else s

/-- The result of an attempt: retired, or waiting. -/
def settle (i : Issue) : Act → State
  | .done s => retire i s
  | .wait row isPush s => stepAside i (noteWait i row isPush s)

/-- The mark of a stream released when TT lets it: the stream goes on past the MARK (R26). -/
def markMet (s : State) (p : Nat) (due : Option (Nat × Nat × Nat)) : Bool :=
  s.tt.runout || match due with
    | none => true
    | some (q, n, _) => canRead s p q (n - 1)

/-- A press stream that may pass its mark passes it. -/
def streamRelease (p : Nat) (id : StreamId) (s : State) : State :=
  let st := (s.press p).stream id
  match st.mark with
  | none => s
  | some m =>
    if s.reached m.value && markMet s p m.due && (s.press p).power == .stand then
      let (pc, l) := nextPos st.pc st.loop
      s.modPress p (fun pr => pr.modStream id (fun st =>
        { st with mark := none, lastMark := m.value, pc := pc, loop := l
                  state := if st.mem.length ≤ pc then .ended else .running
                  tag := match st.mem[pc]? with
                    | some w => wTag w
                    | none => st.tag }))
    else s

/-- Whether breakpoint `b` matches the next instruction of a press stream (R157, R158). -/
def breakStream (b : Break) (i : Issue) (next : BitVec 32) : Bool :=
  b.armed && b.unit == 0 && b.press.toNat == i.press.val && b.stream.toNat == streamCode i.stream
    && (if b.tagKind then (wTag i.word &&& b.mask) == (b.value.setWidth 16 &&& b.mask)
        else !b.hit && b.value == next)

/-- Whether breakpoint `b` matches the `n`-th berth or entry of the sampler (unit 1) or the engine (unit 2), which
names waybill `w` (R157). -/
def breakUnit (b : Break) (unit : Nat) (n w : Nat) : Bool :=
  b.armed && b.unit.toNat == unit
    && (if b.tagKind then (BitVec.ofNat 16 w &&& b.mask) == (b.value.setWidth 16 &&& b.mask)
        else !b.hit && b.value.toNat == n)

/-- The lowest-numbered breakpoint that satisfies `p`, in debug mode. -/
def State.breakAt (s : State) (p : Break → Bool) : Option Nat :=
  if s.dbg.enabled then (s.dbg.breaks.toList.findIdx? p) else none

/-- A breakpoint hit: reported, disarmed when ONCE, and its unit stopped (R157, R158). -/
def breakHit (k : Nat) (u : Stopped) (tt : BitVec 40) (s : State) : State :=
  { s with dbg.hitValid := true, dbg.hitIndex := BitVec.ofNat 3 k, dbg.hitTt := tt
           dbg.stopped := s.dbg.stopped ++ [u]
           dbg.breaks := vmod s.dbg.breaks k (fun b => { b with armed := b.armed && !b.once, hit := b.hit || !b.tagKind }) }

/-- Whether a stream may issue the word of an issue: in a step that its press has launched (R285), no brake standing (R480),
awake, running, at an index that holds the word, with no earlier load or pass in the way (R81). -/
def mayIssue (s : State) (i : Issue) : Bool :=
  let st := s.streamOf i
  s.tt.inStep && !s.tt.draining && s.pressLaunched i.press.val && !s.brakeOn && (s.press i.press.val).power == .stand && st.state == .running
    && st.mem[st.pc]? == some i.word && (match st.side with
      | some x => proceeds x.issue.word i.word
      | none => true)

/-- An instruction taken in hand: it is counted, its tag is shown, and it has done nothing yet (R127, STREAM registers). -/
def takeWord (i : Issue) (s : State) : State :=
  { s with dbg.passed := s.dbg.passed.filter (· != Stopped.stream i.press i.stream) }.modStream i
    (fun st => { st with icount := st.icount + 1, tag := wTag i.word, waitAt := none, prog := Progress.reset })

/-- The issue of one instruction of a press stream (R127, R136, R149, R157): a breakpoint may stop the stream before it;
an unreadable word is executed as a NOP with the fault; otherwise `run` is its effect. `ok` says that the word is an
instruction of the row. -/
def issue (ok : Bool) (run : Issue → State → Act) (i : Issue) (s : State) : State :=
  let p := i.press.val
  let s := streamRelease p i.stream s
  if !ok || !mayIssue s i then s
  else
    let st := s.streamOf i
    let me : Stopped := .stream i.press i.stream
    match if s.dbg.passed.contains me then none else s.breakAt (fun b => breakStream b i (st.icount + 1)) with
    | some k =>
      intrude (.stream i.press i.stream) .debug
        (breakHit k me s.tt.tt (s.modStream i (fun st => { st with state := .stopped })))
    | none =>
      let s := takeWord i s
      match i.fetch with
      | .clean => settle i (run i s)
      | .corrected => settle i (run i (s.modPress p (fun q => { q with sramCorrected := q.sramCorrected + 1 })))
      | .refetched => settle i (run i (s.modPress p (fun q => { q with refetches := q.refetches + 1 })))
      | .unreadable => retire i (stepFault fcEcc p (s.modPress p (fun q => { q with refetches := q.refetches + 1, uncorrectable := satInc q.uncorrectable })))

end Sys2Proof.Machine
end

