-- ==== Sys2Proof/Machine/Matrix.lean ====
section
/-! DEFINITION. The matrix array: weight loads, passes and wide adds (R67 to R93, R137 to R139). -/

namespace Sys2Proof.Machine

open Sys2Proof

/-! ## Weight planes (R79 to R81) -/

/-- Rows an element entry carries (R79). -/
def rowsPerEntry (format : Nat) (paired : Bool) : Nat :=
  if paired then 4 else match elemBits format with
    | 16 => 2
    | 4 => 8
    | _ => 4

/-- Element entries of a load (R79, R80). -/
def elemEntries (format : Nat) (paired : Bool) (rows : Nat) : Nat := ceilDiv rows (rowsPerEntry format paired)

/-- Scale entries of a load (R80). -/
def scaleEntries (format : Nat) (paired : Bool) (rows : Nat) : Nat :=
  if hasScale format then ceilDiv (ceilDiv rows 32 * (if paired then 2 else 1)) 4 else 0

/-- The encoded weight of cell row `r`, column `c`, and half (1: K index r + 256) (R79). -/
def weightBits (p : Plane) (r c half : Nat) : Nat :=
  let at' (k lo len : Nat) : Nat := entryFld (p.elems.getD k 0) lo len
  if p.paired then at' (r / 4) (8 * (256 * (r % 4) + c) + 4 * half) 4
  else match elemBits p.format with
    | 16 => at' (r / 2) (8 * (512 * (r % 2) + 2 * c)) 16
    | 4 => at' (r / 8) (8 * (128 * (r % 8) + c / 2) + 4 * (c % 2)) 4
    | _ => at' (r / 4) (8 * (256 * (r % 4) + c)) 8

/-- The block scale of a weight (R75, R80). -/
def weightScale (p : Plane) (r c half : Nat) : Nat :=
  let row := r / 32 + half * ceilDiv p.rows 32
  entryFld (p.scales.getD (row / 4) 0) (8 * (256 * (row % 4) + c)) 8

/-- The weight of a cell, zero beyond the rows loaded and of the rows `bad`, whose parity failed (R75, R79, R92). -/
def weight (bad : List Nat) (p : Plane) (r c half : Nat) : Val :=
  if p.rows ≤ r || bad.contains r then .fin false 0 0
  else
    let v := matDecode p.format (weightBits p r c half)
    if hasScale p.format then scaled (weightScale p r c half) v else v

/-! ## Waves (R72, R82, R83) -/

/-- The wave mode: 0 WIDTH_8, 1 WIDTH_16, 2 PAIRED_4. -/
def planeMode (format : Nat) (paired : Bool) : Nat := if paired then 2 else if format = 1 || format = 2 then 1 else 0

/-- The mode a pass over an EMPTY plane takes from its activation format (R72). -/
def emptyMode (format : Nat) : Nat := if format = 9 || format = 12 then 2 else if format = 1 || format = 2 then 1 else 0

/-- The activations of a wave, half by half (R82). -/
def waveOf (format mode : Nat) (e : Entry) : List (List Val) :=
  (List.range (if mode = 2 then 2 else 1)).map (fun h => (List.range 256).map (fun r => activation format mode e r h))

/-- The smallest and the largest 72-bit values. -/
def accMin : Int := -2 ^ 71
def accMax : Int := 2 ^ 71 - 1

/-- A value brought into the 72-bit range, and whether that changed it (R83, R84). -/
def clampAcc (v : Int) : Int × Bool := if v < accMin then (accMin, true) else if accMax < v then (accMax, true) else (v, false)

/-- floor(p / 2^w) of a product (R83). -/
def floorAt (neg : Bool) (m : Nat) (e w : Int) : Int :=
  let v : Int := if neg then -(m : Int) else m
  if w ≤ e then v * (2 ^ (e - w).toNat : Nat) else v / (2 ^ (w - e).toNat : Nat)

/-- The contribution of one activation and one weight: the clamped term, SAT, INVALID (R76, R83). -/
def productTerm (w : Int) (a b : Val) : Int × Bool × Bool :=
  match a, b with
  | .fin s m e, .fin t n f => let (v, c) := clampAcc (floorAt (s != t) (m * n) (e + f) w); (v, c, false)
  | _, _ => (0, false, true)

/-- The wave sum of one column: exact, with the side conditions met (R76, R83). -/
def columnSum (w : Int) (terms : List (Val × Val)) : Int × Bool × Bool :=
  terms.foldl (fun (acc : Int × Bool × Bool) t =>
    let (v, c, i) := productTerm w t.1 t.2
    (acc.1 + v, acc.2.1 || c, acc.2.2 || i)) (0, false, false)

/-- The terms of column `c`: every K index of the wave with its weight; zero weights of an EMPTY plane (R68, R83). -/
def columnTerms (bad : List Nat) (pl : Option Plane) (wave : List (List Val)) (c : Nat) : List (Val × Val) :=
  (wave.mapIdx (fun h as => as.mapIdx (fun r a => (a, match pl with
    | some p => weight bad p r c h
    | none => .fin false 0 0)))).flatten

/-- An EMPTY row about to be written. -/
def freshRow (w : Int) : AccRow := ⟨.opened, w, List.replicate 256 0, 0, 0⟩

/-- A row with side bits from lists of columns. -/
def sideBits (l : List Bool) : BitVec 256 := BitVec.ofNat 256 (leNat ((chunks 8 256 l).map (fun b =>
  BitVec.ofNat 8 (b.foldr (fun x n => bit x + 2 * n) 0))))

/-- A row after a wave: the new row, cells that a clamp changed, cells that met an INVALID operand (R76, R83, R84). -/
def waveRow (bad : List Nat) (pl : Option Plane) (wave : List (List Val)) (row : AccRow) : AccRow × Nat × Nat :=
  let res := row.cells.mapIdx (fun c a =>
    let (s, sat, inv) := columnSum row.window (columnTerms bad pl wave c)
    let (v, sat') := clampAcc (a.toInt + s)
    (BitVec.ofInt 72 v, sat || sat', inv))
  ({ row with cells := res.map (·.1), sat := row.sat ||| sideBits (res.map (·.2.1))
              invalid := row.invalid ||| sideBits (res.map (·.2.2)) },
   sumOf (res.map (fun x => bit x.2.1)), sumOf (res.map (fun x => bit x.2.2)))

/-- LOCATION of hazards 1 to 3: bank and row. -/
def rowLocation (q row : Nat) : Nat := (if q = 48 then 0 else 256) + row

/-- A hazard of the M stream at a row of a bank. -/
def rowHazard (i : Issue) (kind q row other : Nat) (s : State) : State :=
  hazard i.press.val kind 0 (wTag i.word) (s.streamOf i).icount other (rowLocation q row) s

/-- The agent number of the consumer of a bank's queue: 1 V, 2 X (R97, R159). -/
def bankConsumer (s : State) (p q : Nat) : Nat := ((s.press p).queue q).consumer.toNat

/-- What an update of a row leaves in the status registers (R84, R88, R93). -/
def noteRow (sat inv : Nat) (mismatch : Bool) (p : Press) : Press :=
  { p with accSat := p.accSat || decide (0 < sat), accInvalid := p.accInvalid || decide (0 < inv)
           satCells := wrapAdd p.satCells sat, invalidCells := wrapAdd p.invalidCells inv
           windowMismatch := p.windowMismatch || mismatch }

/-- A row written and, where `release` says so, handed to its bank's read queue (R69, R70). -/
def putRow (q row : Nat) (r : AccRow) (release : Bool) (p : Press) : Press :=
  if release then
    let p := p.modBank q (fun b => { b with rows := kset row { r with tag := .released } b.rows, queue := b.queue ++ [row] })
    { p with queues := vmod p.queues q (fun x => { x with high := BitVec.ofNat 12 (max x.high.toNat (p.bank q).queue.length) }) }
  else p.modBank q (fun b => { b with rows := kset row r b.rows })

/-! ## WLOAD (R137) -/

/-- Entries from WIN until the load has all it takes; then the plane is loaded (R79 to R81). -/
def wloadLoop : Nat → Issue → State → Act
  | 0, _, s => .done s
  | fuel + 1, i, s =>
    let w := i.word
    let format := wFormat w
    let paired := wPaired w
    let rows := wCount w
    let ne := elemEntries format paired rows
    let pr := s.prog i
    if pr.held.length < ne + scaleEntries format paired rows then
      if canRead s i.press.val 50 0 then
        let (e, s) := readPool i pr.held.length 50 0 s
        wloadLoop fuel i (setProg i { pr with held := pr.held ++ [e] } (popHead i.press.val 50 s))
      else .wait false false s
    else
      let pl : Plane := ⟨format, paired, rows, pr.held.take ne, pr.held.drop ne⟩
      .done (s.modPress i.press.val (fun p =>
        if wFld w 0 1 = 0 then { p with plane0 := some pl } else { p with plane1 := some pl }))

/-- A weight load (R137). -/
def wloadAct (i : Issue) (s : State) : Act := wloadLoop 512 i s

/-! ## PASS (R138) -/

/-- The plane a pass names. -/
def passPlane (p : Press) (w : PressWord) : Option Plane := if wFld w 8 1 = 0 then p.plane0 else p.plane1

/-- The plane rows of a pass whose parity has failed in the attempt (R92). -/
def passBad (p : Press) (w : PressWord) : List Nat := (p.badRows.filter (fun x => x.1 == wFld w 8 1)).map (·.2)

/-- Item of `Reads` of plane row `r` at wave `n` of a pass (R92). -/
def parityItem (n r : Nat) : Nat := 1024 + 256 * n + r

/-- The parity check of a wave: every row that fails is a step fault, and its products are zero for the rest of the attempt
(R92). -/
def waveParity (i : Issue) (n : Nat) (s : State) : State :=
  (i.read.uncorrectable.filter (fun j => decide (parityItem n 0 ≤ j) && decide (j < parityItem (n + 1) 0))).foldl (fun s j =>
    stepFault fcEcc i.press.val (s.modPress i.press.val (fun p =>
      { p with parityError := true, sramUncorr := p.sramUncorr + 1
               badRows := (wFld i.word 8 1, j - parityItem n 0) :: p.badRows }))) s

/-- One wave of a pass into its row; the row is not RELEASED and the XIN entry is `e` (R69, R70, R83). -/
def passWave (i : Issue) (n : Nat) (e : Entry) (s : State) : State :=
  let w := i.word
  let p := i.press.val
  let q := wDst w
  let row := wFld w 0 8 + n
  let pw := signedOf 10 (wFld w 9 10)
  let pl := passPlane (s.press p) w
  let mode := match pl with
    | some x => planeMode x.format x.paired
    | none => emptyMode (wFormat w)
  let acc := wFld w 19 1 = 1
  let old := kget ((s.press p).bank q).rows row
  let (base, fresh, mism) := match old with
    | none => (freshRow pw, false, false)
    | some r => if acc then (r, false, r.window != pw) else (freshRow pw, true, false)
  let (base, s) := if acc && old.isSome then readCells i n base s else (base, s)
  let (r, sat, inv) := waveRow (passBad (s.press p) w) pl (waveOf (wFormat w) mode e) base
  let s := s.modPress p (fun x => putRow q row r (wFld w 20 1 = 1) (noteRow sat inv mism
    { x with periods := wrapAdd x.periods (if mode = 1 then 4 else 1) }))
  let s := if fresh then rowHazard i 2 q row 0 s else s
  if mism then rowHazard i 3 q row 0 s else s

/-- Waves in order, each waiting for its row and its XIN entry (R69, R82, R101). -/
def passLoop : Nat → Issue → State → Act
  | 0, _, s => .done s
  | fuel + 1, i, s =>
    let w := i.word
    let p := i.press.val
    let q := wDst w
    let pr := s.prog i
    if wCount w ≤ pr.round then .done s
    else
      let row := wFld w 0 8 + pr.round
      match kget ((s.press p).bank q).rows row with
      | some ⟨.released, _, _, _, _⟩ =>
        .wait true false (if newWait s i true false then rowHazard i 1 q row (bankConsumer s p q) s else s)
      | _ =>
        if canRead s p 51 0 then
          let (e, s) := readPool i (256 + pr.round) 51 0 s
          passLoop fuel i (setProg i { pr with round := pr.round + 1 }
            (passWave i pr.round e (waveParity i pr.round (popHead p 51 s))))
        else .wait false false s

/-- A pass (R138). -/
def passAct (i : Issue) (s : State) : Act :=
  passLoop 257 i (s.modPress i.press.val (fun p => { p with activePlane := BitVec.ofNat 2 (wFld i.word 8 1) }))

/-! ## WADD (R139) -/

/-- A value of window `old` brought to window `new` (R89). -/
def toWindow (old new : Int) (v : Int) : Int × Bool :=
  if new ≤ old then clampAcc (v * (2 ^ (old - new).toNat : Nat)) else (v / (2 ^ (new - old).toNat : Nat), false)

/-- Fields of a wide entry (R87). -/
def wideValue (e : Entry) (j : Nat) : Int := signedOf 72 (entryFld e (80 * j) 72)
def wideSide (e : Entry) (j : Nat) : Nat := entryFld e (80 * j + 72) 2
def wideWindow (e : Entry) : Int := signedOf 16 (entryFld e (8 * 960) 16)
def wideFirst (e : Entry) : Nat := entryFld e (8 * 962) 16
def wideCells (e : Entry) : Nat := entryFld e (8 * 964) 8

/-- A row after a wide entry has been added: the row, cells newly SAT, cells newly INVALID (R88, R89). An entry whose FIRST_CELL and
CELLS are not those of R87 is added too: VALUE[j] past the 96 are the bytes that stand there, and cells past 255 are dropped. DESIGN
CHOICE, log entry 150. -/
def wideAdd (e : Entry) (row : AccRow) : AccRow × Nat × Nat :=
  let first := wideFirst e
  let n := wideCells e
  let ww := wideWindow e
  let res := row.cells.mapIdx (fun c a =>
    if first ≤ c && c < first + n then
      let j := c - first
      let (v, s1) := toWindow ww row.window (wideValue e j)
      let (v, s2) := clampAcc (a.toInt + v)
      (BitVec.ofInt 72 v, s1 || s2 || bitAt (wideSide e j) 0, bitAt (wideSide e j) 1)
    else (a, false, false))
  ({ row with cells := res.map (·.1), sat := row.sat ||| sideBits (res.map (·.2.1))
              invalid := row.invalid ||| sideBits (res.map (·.2.2)) },
   sumOf (res.map (fun x => bit x.2.1)), sumOf (res.map (fun x => bit x.2.2)))

/-- Wide entries, three to a row, each waiting for its row and its entry (R88, R139). -/
def waddLoop : Nat → Issue → State → Act
  | 0, _, s => .done s
  | fuel + 1, i, s =>
    let w := i.word
    let p := i.press.val
    let q := wDst w
    let src := wSrcA w
    let pr := s.prog i
    if 3 * wCount w ≤ pr.round then .done s
    else
      let row := wFld w 0 8 + pr.round / 3
      let old := kget ((s.press p).bank q).rows row
      match old with
      | some ⟨.released, _, _, _, _⟩ =>
        .wait true false (if newWait s i true false then rowHazard i 1 q row (bankConsumer s p q) s else s)
      | _ =>
        if canRead s p src 0 then
          let (e, s) := readPool i pr.round src 0 s
          let base := old.getD (freshRow (wideWindow e))
          let mism := base.window != wideWindow e
          let (base, s) := if old.isSome then readCells i pr.round base s else (base, s)
          let (r, sat, inv) := wideAdd e base
          let release := wFld w 8 1 = 1 && pr.round % 3 == 2
          let s := (popHead p src s).modPress p (fun x =>
            putRow q row r release (noteRow sat inv mism { x with periods := x.periods + 1 }))
          let s := if mism then rowHazard i 3 q row 0 s else s
          waddLoop fuel i (setProg i { pr with round := pr.round + 1 } s)
        else .wait false false s

/-- A wide add (R139). -/
def waddAct (i : Issue) (s : State) : Act := waddLoop 769 i s

/-! ## The commands -/

/-- WLOAD (R137). -/
def execWload (i : Issue) (s : State) : Out := .next (issue (wOp i.word == 0x10 && i.stream == .m) wloadAct i s)

/-- PASS (R138). -/
def execPass (i : Issue) (s : State) : Out := .next (issue (wOp i.word == 0x11 && i.stream == .m) passAct i s)

/-- WADD (R139). -/
def execWadd (i : Issue) (s : State) : Out := .next (issue (wOp i.word == 0x12 && i.stream == .m) waddAct i s)

end Sys2Proof.Machine
end

