-- ==== Sys2Proof/Machine/Operands.lean ====
section
/-! DEFINITION. The operands of vector operations: sources with their settings and shapes (R104, R105, R107, R140), and
the loop that takes source entries and delivers result entries (R101, R124). -/

namespace Sys2Proof.Machine

open Sys2Proof

/-- Lanes per entry of a vector format (R95). -/
def lanesOf (format : Nat) : Nat := if format = 0 then 256 else 512

/-- Lane `i` of an entry in a vector format, as bits (R95). -/
def laneBits (format : Nat) (e : Entry) (i : Nat) : Nat :=
  if format = 0 then entryFld e (32 * i) 32 else entryFld e (16 * i) 16

/-- An entry from lane bits (R95). -/
def entryOfLanes (format : Nat) (ws : List Nat) : Entry :=
  entryOf (ws.map (fun w => leBytes (if format = 0 then 4 else 2) w)).flatten

/-- A source of a vector operation (R104): its queue, KEEP, shape (0 FULL, 1 REPEAT, 2 SPLAT), lane and negation. -/
structure VSrc where
  q : Nat
  keep : Bool
  shape : Nat
  lane : Nat
  neg : Bool
  deriving DecidableEq, Repr

/-- Sources A, B and C of an instruction (R140). -/
def srcA (w : PressWord) : VSrc := ⟨wSrcA w, wFld w 0 1 == 1, 0, 0, false⟩
def srcB (w : PressWord) : VSrc := ⟨wSrcB w, wFld w 1 1 == 1, wFld w 3 2, wFld w 5 9, wFld w 14 1 == 1⟩
def srcC (w : PressWord) : VSrc := ⟨wSrcC w, wFld w 2 1 == 1, wFld w 15 2, wFld w 17 9, wFld w 26 1 == 1⟩

/-- The bits of lane `i` that a source gives from an entry: its shape and its negation (R104). -/
def srcLane (format : Nat) (v : VSrc) (e : Entry) (i : Nat) : Nat :=
  let b := laneBits format e (if v.shape = 2 then v.lane else i)
  if v.neg then b ^^^ (if format = 0 then 2 ^ 31 else 2 ^ 15) else b

/-- Whether some source pops queue `q` entry by entry: a FULL source with POP (R104, R107). -/
def popsEach (srcs : List VSrc) (q : Nat) : Bool :=
  (srcs.any (fun v => v.q == q && v.shape == 0)) && srcs.any (fun v => v.q == q && !v.keep)

/-- Queues popped at every round, and those popped after the last (R104, R107). -/
def eachQueues (srcs : List VSrc) : List Nat := ((srcs.map VSrc.q).dedup).filter (popsEach srcs)
def lastQueues (srcs : List VSrc) : List Nat :=
  ((srcs.filter (fun v => v.shape != 0 && !v.keep)).map VSrc.q).dedup.filter (fun q => !popsEach srcs q)

/-- How far from the head a source reads at a round. -/
def srcIndex (srcs : List VSrc) (v : VSrc) (round : Nat) : Nat :=
  if v.shape != 0 || popsEach srcs v.q then 0 else round

/-- Items of `Reads` that sources A, B and C read: entry `n` that source `j` reads is item `4096 · j + n`, and of a bank the row
of that number. -/
def srcItem (j n : Nat) : Nat := 4096 * j + n

/-- The first source that names a queue: sources that name one queue read the same entries (R107). -/
def firstSrc (srcs : List VSrc) (q : Nat) : Nat := (srcs.findIdx? (fun v => v.q == q)).getD 0

/-- Which of its entries a source reads at a round: a REPEAT or SPLAT source is read once (R104). -/
def srcPos (v : VSrc) (round : Nat) : Nat := if v.shape != 0 then 0 else round

/-- Whether a cell of a row that one of `n` active lanes reads overflows FP32: the one lane of a SPLAT source, the first `n` cells of
another (R104, R110, R120). -/
def srcOverflows (v : VSrc) (r : AccRow) (n : Nat) : Bool :=
  if v.shape = 2 then decide (0 < n) && (fp32.encode (cellVal r v.lane)).2 else rowOverflows r n

/-- A source's entry at a round, with what the codes found: an error is met once, and every use of the entry sees what it left
(R92, R103, R107, R120, R121). For a bank it is the converted row, in which the cells that the active lanes read may overflow
(R110). -/
def readSrc (i : Issue) (srcs : List VSrc) (j : Nat) (v : VSrc) (round active : Nat) (s : State) : Entry × State :=
  let p := i.press.val
  let j0 := firstSrc srcs v.q
  let item := srcItem j0 (srcPos v round)
  let first := j == j0 && (v.shape == 0 || round == 0)
  if v.q = 48 || v.q = 49 then
    match ((s.press p).bank v.q).oldest with
    | none => (0, s)
    | some (k, r) =>
      let (r, s) := if first then readBank i item v.q k r s else (r, s)
      (rowEntry r, if srcOverflows v r active then s.modPress p (fun x => { x with overflow := true }) else s)
  else if first then readPool i item v.q (srcIndex srcs v round) s
  else (if badItem i.read item then 0 else readAt s p v.q (srcIndex srcs v round), s)

/-- A queue popped for an operation; the pop of a row reports its SAT and INVALID bits (R70, R121). -/
def popSrc (p q : Nat) (s : State) : State :=
  if q = 48 || q = 49 then
    s.modPress p (fun x => match (x.bank q).oldest with
      | none => x
      | some (_, r) => (reportRow r x).modBank q Bank.pop)
  else popHead p q s

/-- What a round of an operation gives: entries it keeps, entries it delivers, and what its lanes met (R110). -/
structure VRes where
  held : List Entry
  outs : List Entry
  nan : Bool
  ovf : Bool
  invalid : Nat
  deriving DecidableEq, Repr

/-- The sticky bits and counters of a round that took `n` wave periods (R110, R125). -/
def noteVec (n : Nat) (r : VRes) (p : Press) : Press :=
  { p with nanIn := p.nanIn || r.nan, overflow := p.overflow || r.ovf
           invalidOp := p.invalidOp || decide (0 < r.invalid)
           invalidLanes := wrapAdd p.invalidLanes r.invalid
           vecPeriods := wrapAdd p.vecPeriods n }

/-- A vector operation: its sources, its rounds, the active lanes a row of a bank has at a round, and its effect at a
round on the entries read. `paced`: each further result entry of a round takes a period (R124). -/
structure VecOp where
  srcs : List VSrc
  rounds : Nat
  active : Nat → Nat
  step : Nat → List Entry → List Entry → VRes
  paced : Bool

/-- Wave periods of a round: one for the entry it takes, and one for each further entry that a conversion delivers (R124). -/
def VecOp.periods (op : VecOp) (r : VRes) : Nat := if op.paced then max 1 r.outs.length else 1

/-- The entries of all sources at a round. -/
def readAll (i : Issue) (srcs : List VSrc) (round active : Nat) : Nat → List VSrc → State → List Entry × State
  | _, [], s => ([], s)
  | j, v :: vs, s =>
    let (e, s) := readSrc i srcs j v round active s
    let (es, s) := readAll i srcs round active (j + 1) vs s
    (e :: es, s)

/-- The queues in which sources lack their entry of a round (R101). -/
def lacking (s : State) (p : Nat) (srcs : List VSrc) (round : Nat) : List Nat :=
  (srcs.filter (fun v => !canRead s p v.q (srcIndex srcs v round))).map VSrc.q

/-- Rounds in order: results are pushed before the next round; a round waits until every source has its entry (R101). -/
def vecLoop : Nat → VecOp → Issue → State → Act
  | 0, _, _, s => .done s
  | fuel + 1, op, i, s =>
    let p := i.press.val
    let pr := s.prog i
    match pr.out with
    | e :: rest =>
      if canPush s p (wDst i.word) then vecLoop fuel op i (pushBy i e (setProg i { pr with out := rest } s))
      else .wait false true s
    | [] =>
      if op.rounds ≤ pr.round then .done ((lastQueues op.srcs).foldl (fun s q => popSrc p q s) s)
      else if op.srcs.all (fun v => canRead s p v.q (srcIndex op.srcs v pr.round)) then
        let (es, s) := readAll i op.srcs pr.round (op.active pr.round) 0 op.srcs s
        let r := op.step pr.round pr.held es
        let s := (eachQueues op.srcs).foldl (fun s q => popSrc p q s) s
        let s := s.modPress p (noteVec (op.periods r) r)
        vecLoop fuel op i (setProg i ⟨pr.round + 1, r.held, r.outs, pr.pushed⟩ s)
      else waitSources i (lacking s p op.srcs pr.round) s

/-- Runs a vector operation to its end or to its first wait. -/
def runVec (op : VecOp) (i : Issue) (s : State) : Act := vecLoop 20000 op i s

end Sys2Proof.Machine
end

