-- ==== Sys2Proof/Machine/Mover.lean ====
section
/-! DEFINITION. The mover: press-store and platform moves, queue-to-queue moves, near-tier and far-tier requests
(R87, R142 to R146, R167, R174, R191, R309). -/

namespace Sys2Proof.Machine

open Sys2Proof

/-! ## Press store (R142, R143, R165, R167) -/

/-- The platform record of a press (R165). -/
def State.platform (s : State) (p n : Nat) : Option PlatformRec :=
  match s.forme.forme, s.pressSlot p with
  | some f, some k => ((f.chip.platforms.getD k []).find? (fun r => r.number == n))
  | _, _ => none

/-- The base of the side of a platform that is read (`write` false) or written in the step (R43, R165). -/
def State.sideBase (s : State) (p n : Nat) (write : Bool) : Option Nat :=
  (s.platform p n).map (fun r => if (s.press p).parity != write then r.base1 else r.base0)

/-- The base of the read side is side PLATFORM_PARITY (R165). -/
def sideOf (parity : Bool) (r : PlatformRec) : Nat := if parity then r.base1 else r.base0

/-- Entry `a` of a press store. -/
def Press.storeEntry (p : Press) (a : Nat) : Entry := memEntry p.store a

/-- An entry read from press store through its code: corrections are counted, and an uncorrectable item records the fault and reads
as zero (R167). -/
def readStore (i : Issue) (item a : Nat) (s : State) : Entry × State :=
  let s := s.modPress i.press.val (fun p => { p with corrected := p.corrected + BitVec.ofNat 32 (i.read.corrected.count item) })
  if badItem i.read item then
    (0, stepFault fcEcc i.press.val (s.modPress i.press.val (fun p => { p with uncorrectable := satInc p.uncorrectable })))
  else ((s.press i.press.val).storeEntry a, s)

/-- A touch of the X stream at an entry of press store, which debug mode checks against the landing path (R159). -/
def touchX (i : Issue) (a : Nat) (write : Bool) (s : State) : State :=
  if s.dbg.enabled then
    let p := i.press.val
    let hit := (s.press p).touchLand.any (fun t => t.1 == a && (t.2 || write))
    let s := s.modPress p (fun x => { x with touchX := (a, write) :: x.touchX })
    if hit then hazard p 0 2 (wTag i.word) (s.streamOf i).icount 3 (16 * a) s else s
  else s

/-- What ADVANCE adds to an address on the present trip (R134). -/
def advance (i : Issue) (lo : Nat) (s : State) : Int :=
  (tripOf (s.streamOf i).loop : Int) * signedOf 14 (wFld i.word lo 14)

/-- Address of entry `k` of a LOAD or STORE (R142). -/
def storeAddr (i : Issue) (k : Nat) (s : State) : Nat :=
  ((wFld i.word 0 14 : Int) + advance i 28 s + (k * wFld i.word 14 14 : Nat)).toNat

/-- Address of entry `k` of a PLAT_RD or PLAT_WR (R143). -/
def platAddr (i : Issue) (write : Bool) (k : Nat) (s : State) : Nat :=
  let base := (s.sideBase i.press.val (wFld i.word 0 4) write).getD 0
  ((base + wFld i.word 4 14 + k : Nat) + advance i 18 s).toNat

/-- Entries from press store into a queue, each waiting for room (R101, R142, R143). -/
def fetchLoop (addr : Nat → State → Nat) : Nat → Issue → State → Act
  | 0, _, s => .done s
  | fuel + 1, i, s =>
    let p := i.press.val
    let pr := s.prog i
    if wCount i.word ≤ pr.round then .done s
    else if canPush s p (wDst i.word) then
      let a := addr pr.round s
      let (e, s) := readStore i pr.round a (touchX i a false s)
      fetchLoop addr fuel i (pushBy i e (setProg i { pr with round := pr.round + 1 } s))
    else .wait false true s

/-- Entries from a queue into press store, each waiting to be there (R101, R142, R143). -/
def storeLoop (addr : Nat → State → Nat) : Nat → Issue → State → Act
  | 0, _, s => .done s
  | fuel + 1, i, s =>
    let p := i.press.val
    let q := wSrcA i.word
    let pr := s.prog i
    if wCount i.word ≤ pr.round then .done s
    else if canRead s p q 0 then
      let a := addr pr.round s
      let (e, s) := readPool i pr.round q 0 s
      let s := touchX i a true (popHead p q s)
      let s := s.modPress p (fun x => { x with store := memPutEntry x.store a e })
      storeLoop addr fuel i (setProg i { pr with round := pr.round + 1 } s)
    else .wait false false s

def loadAct (i : Issue) (s : State) : Act := fetchLoop (storeAddr i) 4097 i s
def storeAct (i : Issue) (s : State) : Act := storeLoop (storeAddr i) 4097 i s
def platRdAct (i : Issue) (s : State) : Act := fetchLoop (platAddr i false) 4097 i s
def platWrAct (i : Issue) (s : State) : Act := storeLoop (platAddr i true) 4097 i s

/-! ## MOVE (R144) -/

/-- Entries from queue to queue (R144). -/
def moveLoop : Nat → Issue → State → Act
  | 0, _, s => .done s
  | fuel + 1, i, s =>
    let p := i.press.val
    let q := wSrcA i.word
    let keep := wFld i.word 1 1 = 1
    let pr := s.prog i
    let k := if keep then pr.round else 0
    match pr.out with
    | e :: rest =>
      if canPush s p (wDst i.word) then moveLoop fuel i (pushBy i e (setProg i { pr with out := rest } s))
      else .wait false true s
    | [] =>
      if wCount i.word ≤ pr.round then .done s
      else if canRead s p q k then
        let (e, s) := readPool i pr.round q k s
        let s := if keep then s else popHead p q s
        moveLoop fuel i (setProg i { pr with round := pr.round + 1, out := [e] } s)
      else .wait false false s

def moveAct (i : Issue) (s : State) : Act := moveLoop 8200 i s

/-- Cells a wide entry carries, by its place in the row (R87). -/
def wideCount (part : Nat) : Nat := if part = 2 then 64 else 96

/-- One of the three entries of a row in the WIDE read mode (R87). -/
def wideEntry (idx part : Nat) (r : AccRow) : Entry :=
  let first := 96 * part
  let cells := (List.range (wideCount part)).map (fun j =>
    leBytes 9 (r.cells.getD (first + j) 0).toNat
      ++ leBytes 1 (bit (r.sat.getLsbD (first + j)) + 2 * bit (r.invalid.getLsbD (first + j))))
  let body := cells.flatten
  entryOf (body ++ zeros (960 - body.length) ++ leBytes 2 (r.window % 65536).toNat ++ leBytes 2 first
    ++ leBytes 1 (wideCount part) ++ leBytes 1 idx ++ leBytes 1 (bit (part == 2)))

/-- Rows of a bank as wide entries, three to a row (R87, R144). -/
def wideLoop : Nat → Issue → State → Act
  | 0, _, s => .done s
  | fuel + 1, i, s =>
    let p := i.press.val
    let q := wSrcA i.word
    let pr := s.prog i
    if 3 * wCount i.word ≤ pr.round then .done s
    else
      match ((s.press p).bank q).oldest with
      | none => .wait false false s
      | some (idx, r) =>
        if canPush s p (wDst i.word) then
          let part := pr.round % 3
          let (r, s) := if part == 0 then readBank i (pr.round / 3) q idx r s else (r, s)
          let s := pushBy i (wideEntry idx part r) s
          let s := if part = 2 then popSrc p q s else s
          wideLoop fuel i (setProg i { (s.prog i) with round := pr.round + 1 } s)
        else .wait false true s

def moveWideAct (i : Issue) (s : State) : Act := wideLoop 769 i s

/-! ## Memory requests (R145, R146) -/

/-- Address lane `k` of address-list entries: OFFSET, BERTH, BERTH_VALID (R146). -/
def addrLane (es : List Entry) (k : Nat) : Nat × Nat × Bool :=
  let v := entryFld (es.getD (k / 128) 0) (64 * (k % 128)) 64
  (fld v 0 32, fld v 32 12, bitAt v 44)

/-- The forme's region of a tier: base and size in KiB (R359). -/
def State.region (s : State) (far : Bool) : Nat × Nat :=
  if far then (s.forme.regionFarBase.toNat * 1024, s.forme.regionFar.toNat * 1024)
  else (s.forme.regionNearBase.toNat, s.forme.regionNear.toNat)

/-- The first address of a request, before the region's base (R145). -/
def reqBase (i : Issue) (s : State) : Int := (wFld i.word 2 32 : Int) + advance i 34 s

/-- RUN of an indirect request. -/
def reqRun (w : PressWord) : Nat := wFld w 48 9 + 1

/-- Whether a request is indirect. -/
def reqIndirect (w : PressWord) : Bool := wFld w 0 1 == 1

/-- Address-list entries a request pops (R145). -/
def reqLists (w : PressWord) : Nat := if reqIndirect w then ceilDiv (wCount w / reqRun w) 128 else 0

/-- The forme-relative addresses of a request, with the lane each comes from (R145, R146). -/
def reqAddrs (i : Issue) (lists : List Entry) (far : Bool) (s : State) : List (Nat × Nat) :=
  let w := i.word
  let base := reqBase i s
  if reqIndirect w then
    let size := (s.region far).2
    ((List.range (wCount w / reqRun w)).map (fun k =>
      (List.range (reqRun w)).map (fun (j : Nat) =>
        ((base + (addrLane lists k).1 + j) % (max 1 size : Nat) |>.toNat, k)))).flatten
  else (List.range (wCount w)).map (fun (j : Nat) => ((base + j).toNat, 0))

/-- Record of the write window of a row and layer (R309). -/
def windowRec (s : State) (p row layer : Nat) : List Byte :=
  match s.forme.forme, s.pressSlot p with
  | some f, some k =>
    memRead blank (s.press p).store ((f.chip.pageMap.windows.getD k 0) * 1024 + 16 * (row * f.serving.layers.getD s.chipIndex 1 + layer)) 16
  | _, _ => zeros 16

/-- Whether an entry at forme-relative address `a` may be written under one window record (R306, R309). -/
def windowAllows (v : Serving) (rec : List Byte) (a : Nat) : Bool :=
  let l := leAt rec 0 3
  let wr := leAt rec 3 1
  let span := v.positionBytes / max 1 v.kvHeads
  let slice := 128 * span
  (List.range 3).any (fun n =>
    let frame := leAt rec (4 + 4 * n) 4
    frame != 0 && decide (frame ≤ a) && decide ((a - frame) * 8 < v.positionBytes) &&
      (let off := (a - frame) * 1024 % max 1 slice
       let first := (l / 128 + n) * 128 + off / max 1 span
       let last := (l / 128 + n) * 128 + (off + 1023) / max 1 span
       decide (first ≤ l + wr) && decide (l ≤ last)))

/-- Whether the write windows of press `p` let row `row` write an entry (R309). -/
def State.mayWrite (s : State) (p row a : Nat) : Bool :=
  match s.forme.forme with
  | some f => (List.range (f.serving.layers.getD s.chipIndex 1)).any (fun l => windowAllows f.serving (windowRec s p row l) a)
  | none => false

/-- Whether a row's void bit is set (R146, R317). -/
def State.rowVoid (s : State) (row : Nat) : Bool := s.eng.voidRows.contains row

/-- For each write of an indirect request: performed, or not for the void bit, or not for the window; the frames of the windows
lie in the near tier (R146, R309). -/
def writeFlags (i : Issue) (far : Bool) (lists : List Entry) (addrs : List (Nat × Nat)) (s : State) : List (Bool × Bool × Nat) :=
  addrs.map (fun (a, k) =>
    if reqIndirect i.word then
      let (_, row, valid) := addrLane lists k
      if !valid then (true, false, k)
      else if s.rowVoid row then (false, true, k)
      else (!far && s.mayWrite i.press.val row a, false, k)
    else (true, false, k))

/-- The portion of a request whose entries satisfy `mine` (R176). -/
def portion (press : PressId) (slot : Nat) (write : Bool) (mine : Nat → Bool)
    (items : List (Nat × Entry × Bool)) : Option Request :=
  let l := items.filter (fun x => mine x.1)
  if l.isEmpty then none
  else some ⟨press, slot, write, l.map (·.1), if write then l.map (·.2.1) else [], l.map (·.2.2)⟩

/-- A request issued: its portions start toward the sequencers or the root ports (R145, R174, R176, R191). -/
def sendRequest (press : PressId) (write far : Bool) (items : List (Nat × Entry × Bool)) (s : State) : State :=
  let slot := (s.pressSlot press.val).getD 0
  if far then
    (List.range 2).foldl (fun s f => match portion press slot write (fun a => farOf s a == f) items with
      | some r => s.modFar f (fun c => { c with coming := c.coming ++ [r] })
      | none => s) s
  else
    (List.range 32).foldl (fun s k => match portion press slot write (fun a => a % 32 == k) items with
      | some r => s.modChan k (fun c => { c with coming := c.coming ++ [r] })
      | none => s) s

/-- The queue of a request's address list. -/
def listQueue (write : Bool) (w : PressWord) : Nat := if write then wSrcB w else wSrcA w

/-- A request: its address list and its data are popped, each waiting to be there; then it is issued (R101, R145). -/
def requestLoop (write far : Bool) : Nat → Issue → State → Act
  | 0, _, s => .done s
  | fuel + 1, i, s =>
    let w := i.word
    let p := i.press.val
    let pr := s.prog i
    let nl := reqLists w
    let n := nl + (if write then wCount w else 0)
    if pr.held.length < n then
      let q := if pr.held.length < nl then listQueue write w else wSrcA w
      if canRead s p q 0 then
        let (e, s) := readPool i pr.held.length q 0 s
        requestLoop write far fuel i (setProg i { pr with held := pr.held ++ [e] } (popHead p q s))
      else .wait false false s
    else
      let lists := pr.held.take nl
      let addrs := reqAddrs i lists far s
      let flags := if write then writeFlags i far lists addrs s else addrs.map (fun x => (true, false, x.2))
      let voided := ((flags.filter (fun f => f.2.1)).map (·.2.2)).dedup.length
      let refused := ((flags.filter (fun f => !f.1 && !f.2.1)).map (·.2.2)).dedup.length
      let base := (s.region far).1
      let items := (addrs.zip flags).mapIdx (fun k x => (base + x.1.1, pr.held.getD (nl + k) 0, x.2.1))
      .done (sendRequest i.press write far items
        { s with eng.voidedLanes := wrapAdd s.eng.voidedLanes voided, eng.refused := wrapAdd s.eng.refused refused })

def nearRdAct (i : Issue) (s : State) : Act := requestLoop false false 5000 i s
def nearWrAct (i : Issue) (s : State) : Act := requestLoop true false 5000 i s
def farRdAct (i : Issue) (s : State) : Act := requestLoop false true 5000 i s
def farWrAct (i : Issue) (s : State) : Act := requestLoop true true 5000 i s

/-! ## The commands -/

/-- The issue of an operation of the X stream with operation code `op` (R130). -/
def issueX (op : Nat) (run : Issue → State → Act) (i : Issue) (s : State) : Out :=
  .next (issue (wOp i.word == op && i.stream == .x) run i s)

/-- LOAD (R142). -/
def execLoad (i : Issue) (s : State) : Out := issueX 0x40 loadAct i s
/-- STORE (R142). -/
def execStore (i : Issue) (s : State) : Out := issueX 0x41 storeAct i s
/-- MOVE without WIDE (R144). -/
def execMove (i : Issue) (s : State) : Out :=
  .next (issue (wOp i.word == 0x42 && i.stream == .x && wFld i.word 0 1 == 0) moveAct i s)
/-- MOVE with WIDE (R87, R144). -/
def execMoveWide (i : Issue) (s : State) : Out :=
  .next (issue (wOp i.word == 0x42 && i.stream == .x && wFld i.word 0 1 == 1) moveWideAct i s)
/-- PLAT_RD (R143). -/
def execPlatRd (i : Issue) (s : State) : Out := issueX 0x43 platRdAct i s
/-- PLAT_WR (R143). -/
def execPlatWr (i : Issue) (s : State) : Out := issueX 0x44 platWrAct i s
/-- NEAR_RD (R145). -/
def execNearRd (i : Issue) (s : State) : Out := issueX 0x45 nearRdAct i s
/-- NEAR_WR (R145). -/
def execNearWr (i : Issue) (s : State) : Out := issueX 0x46 nearWrAct i s
/-- FAR_RD (R145). -/
def execFarRd (i : Issue) (s : State) : Out := issueX 0x47 farRdAct i s
/-- FAR_WR (R145). -/
def execFarWr (i : Issue) (s : State) : Out := issueX 0x48 farWrAct i s

end Sys2Proof.Machine
end

