-- ==== Sys2Proof/Machine/Sheet.lean ====
section
/-! DEFINITION. The berth sheet (R293 to R295, R337): its records as bytes, and its place in press store. -/

namespace Sys2Proof.Machine

open Sys2Proof

/-- KIND codes of R294. -/
def kEmpty : Nat := 0
def kPrefill : Nat := 1
def kDecode : Nat := 2
def kRestore : Nat := 3
def kRelease : Nat := 4
def kStableOut : Nat := 5

/-- An empty berth record of a row (R294). -/
def emptyBerth (row : Nat) : Berth :=
  ⟨0xFFFF, 0, false, false, false, false, row, 0, 0, 0, 0, 0, 0, 0, 0, 0, 0, 0⟩

/-- The 64 bytes of a berth record, with the COMMITTED that the record carries (R294, R337). -/
def berthBytes (b : Berth) (committed : Nat) : List Byte :=
  leBytes 2 b.waybill ++ leBytes 1 b.kind
    ++ leBytes 1 (bit b.isNew + 2 * bit b.voided + 4 * bit b.sparse + 8 * bit b.closing)
    ++ leBytes 2 b.row ++ leBytes 1 b.group.toNat ++ leBytes 1 (b.writes - 1) ++ leBytes 2 b.livery.toNat
    ++ leBytes 2 b.tenant.toNat ++ leBytes 3 committed ++ zeros 1 ++ leBytes 6 b.ticket.toNat
    ++ leBytes 4 (b.headFirst + b.headCount * 2 ^ 17) ++ zeros 6
    ++ leBytes 1 b.accepted ++ leBytes 1 b.stop.toNat ++ leBytes 3 b.nextToken ++ zeros 27

/-- A berth record read from its 64 bytes (R294). A row that writes nothing is EMPTY or RESTORE. -/
def berthOf (bs : List Byte) : Berth :=
  let fl := leAt bs 3 1
  let kind := leAt bs 2 1
  ⟨leAt bs 0 2, kind, bitAt fl 0, bitAt fl 1, bitAt fl 2, bitAt fl 3, leAt bs 4 2, BitVec.ofNat 8 (leAt bs 6 1),
   if kind = 1 || kind = 2 then leAt bs 7 1 + 1 else 0, BitVec.ofNat 12 (leAt bs 8 2), BitVec.ofNat 16 (leAt bs 10 2),
   leAt bs 12 3, BitVec.ofNat 48 (leAt bs 16 6), fld (leAt bs 22 4) 0 17, fld (leAt bs 22 4) 17 2,
   leAt bs 32 1, BitVec.ofNat 8 (leAt bs 33 1), leAt bs 34 3⟩

/-- The press and the byte address of a platform place's read side (R165, R293). -/
def State.placeRead (s : State) (r : PlatRef) : Option (Nat × Nat) :=
  match s.slotPress r.slot with
  | none => none
  | some p => (s.sideBase p r.platform false).map (fun b => (p, (b + r.offset) * 1024))

/-- Bytes written at a platform place's read side; nothing where the forme lacks the platform. -/
def writePlace (r : PlatRef) (off : Nat) (bs : List Byte) (s : State) : State :=
  match s.placeRead r with
  | none => s
  | some (p, a) => s.modPress p (fun x => { x with store := memWrite blank (a + off) bs x.store })

/-- Bytes read at a platform place's read side. -/
def readPlace (r : PlatRef) (off n : Nat) (s : State) : List Byte :=
  match s.placeRead r with
  | none => zeros n
  | some (p, a) => memRead blank (s.press p).store (a + off) n

/-- Where the berth sheet lies on this chip (R293). -/
def State.sheetAt (s : State) : Option PlatRef := match s.forme.forme with
  | some f => f.serving.sheet[s.chipIndex]?
  | none => none

/-- Whether the loaded forme has one chip (R295). -/
def State.oneChip (s : State) : Bool := match s.forme.forme with
  | some f => f.tt.chipCount == 1
  | none => true

/-- Berth rows of a microbatch (R293). -/
def State.berthRows (s : State) : Nat := match s.forme.forme with
  | some f => f.serving.berths
  | none => 0

/-- A sheet, its berth records and its release list, as bytes (R294). -/
def sheetBytes (sheet release : List Berth) : List Byte :=
  (sheet.map (fun b => berthBytes b b.committed)).flatten ++ (release.map (fun b => berthBytes b b.committed)).flatten

/-- The sheet that the desk's sampler completes in a step: that of the pass itself in a forme of one chip, else the one
the chip sends (R295). -/
def State.deskSheet (s : State) : List Berth := if s.oneChip then s.eng.sheet else s.eng.nextSheet

/-- The desk's sheet with its records changed. -/
def State.modDeskSheet (s : State) (f : List Berth → List Berth) : State :=
  if s.oneChip then { s with eng.sheet := f s.eng.sheet } else { s with eng.nextSheet := f s.eng.nextSheet }

/-! ## Parameters of a waybill (R298) -/

/-- `n` bytes at byte `off` of a waybill's parameter section. -/
def Waybill.arg (w : Waybill) (off n : Nat) : Nat := fld w.params.toNat (8 * off) (8 * n)

/-- Fields of the parameter section (R298). -/
def Waybill.seed (w : Waybill) : Nat := w.arg 0 8
def Waybill.temperature (w : Waybill) : Nat := w.arg 8 4
def Waybill.topP (w : Waybill) : Nat := w.arg 12 4
def Waybill.minP (w : Waybill) : Nat := w.arg 16 4
def Waybill.topK (w : Waybill) : Nat := w.arg 20 2
def Waybill.stopCount (w : Waybill) : Nat := fld (w.arg 22 1) 0 4
def Waybill.flags (w : Waybill) : Nat := w.arg 23 1
def Waybill.maxNew (w : Waybill) : Nat := w.arg 24 4
def Waybill.repetition (w : Waybill) : Nat := w.arg 28 4
def Waybill.presence (w : Waybill) : Nat := w.arg 32 4
def Waybill.frequency (w : Waybill) : Nat := w.arg 36 4
def Waybill.eosId (w : Waybill) : Nat := fld (w.arg 40 3) 0 20
def Waybill.biasCount (w : Waybill) : Nat := w.arg 44 2

/-- Bytes of the extra block (R331). -/
def Waybill.extraBytes (w : Waybill) : Nat := 544 + 8 * w.biasCount

/-- X of R339: KiB of the extra block in the input store. -/
def Waybill.extraKiB (w : Waybill) : Nat := ceilDiv w.extraBytes 1024

/-- The prefill target of R503. -/
def Waybill.target (w : Waybill) : Nat := w.inputLength + w.generated

/-! ## The input store (R339) -/

/-- The byte address of a waybill's input store. -/
def Waybill.storeByte (w : Waybill) : Nat := w.inputStore.toNat * 1024

/-- The extra block of a waybill. -/
def extraBlock (s : State) (w : Waybill) : List Byte := memRead blank s.boxMem (w.storeByte + 65536) w.extraBytes

/-- Stop sequence `k` of an extra block: its tokens (R331). -/
def stopSeq (x : List Byte) (k : Nat) : List Nat :=
  (List.range (leAt x (68 * k) 4)).map (fun t => leAt x (68 * k + 4 + 4 * t) 4)

/-- The biases of an extra block: token id and FP32 (R331). -/
def biasList (x : List Byte) (n : Nat) : List (Nat × Nat) :=
  (List.range n).map (fun b => (leAt x (544 + 8 * b) 4, leAt x (544 + 8 * b + 4) 4))

/-- The records of a tally that are VALID: token id and count, in ascending token id (R339). -/
def tallyOf (s : State) (w : Waybill) : List (Nat × Nat) :=
  (List.range 8192).filterMap (fun i =>
    let r := leNat (memRead blank s.boxMem (w.storeByte + 8 * i) 8)
    if bitAt r 20 then some (fld r 0 20, fld r 32 16) else none)

/-- One token added to a tally kept in ascending token id, or not tallied where 8,192 are held (R338). -/
def tallyAdd (t : Nat) : List (Nat × Nat) → Nat → List (Nat × Nat) × Bool
  | l, n =>
    if l.any (fun x => x.1 == t) then (mapIf (fun x => x.1 == t) (fun x => (x.1, min 65535 (x.2 + 1))) l, true)
    else if n < 8192 then (l.filter (fun x => decide (x.1 < t)) ++ [(t, 1)] ++ l.filter (fun x => decide (t < x.1)), true)
    else (l, false)

/-- A tally written back (R339). -/
def tallyWrite (w : Waybill) (l : List (Nat × Nat)) (s : State) : State :=
  let bytes := l.flatMap (fun x => leBytes 8 (x.1 + 2 ^ 20 + x.2 * 2 ^ 32))
  nearPut w.storeByte (bytes ++ zeros (65536 - bytes.length)) s

end Sys2Proof.Machine
end

