-- ==== Sys2Proof/Machine/Sampler.lean ====
section
/-! DEFINITION. The sampler (R327 to R338): its mark list, the taking of rows from the pickers, and the draw. -/

namespace Sys2Proof.Machine

open Sys2Proof

/-! ## FP32 arithmetic of the sampler (R108, R332) -/

/-- A value rounded to FP32. -/
def f32 (v : Val) : Val := fp32.decode (fp32.encode v).1

/-- FP32 sum and product. -/
def f32Add (a b : Val) : Val := f32 (vAdd a b).1
def f32Mul (a b : Val) : Val := f32 (vMul a b).1
def f32Sub (a b : Val) : Val := f32Add a (vNeg b)

/-- FP32 quotient by a finite divisor that is not zero: 80 bits of quotient and a sticky bit, then rounded. -/
def f32Div (a b : Val) : Val :=
  match a, b with
  | .fin na ma ea, .fin nb mb eb =>
    if mb = 0 then .nan
    else
      let k := 80 + Nat.log2 (mb + 1)
      let q := ma * 2 ^ k / mb
      f32 (.fin (na != nb) (2 * q + bit (ma * 2 ^ k % mb != 0)) (ea - eb - k - 1))
  | .inf na, .fin nb _ _ => .inf (na != nb)
  | .fin na _ _, .inf nb => .fin (na != nb) 0 0
  | _, _ => .nan

/-- An FP32 encoding as a value. -/
def f32Of (w : Nat) : Val := fp32.decode w

/-- A whole number as a value, rounded to FP32. -/
def f32Nat (n : Nat) : Val := f32 (.fin false n 0)

/-- Minus infinity. -/
def negInf : Val := .inf true

/-- A logit as it ranks: a NaN counts as minus infinity (R333). -/
def rankVal (v : Val) : Val := if v.isNan then negInf else v

/-! ### exp, correctly rounded (R332)

A fixed-point sum of 320 bits, far beyond the distance of any FP32 argument's exponential from a rounding boundary
(log entry 35). -/

/-- Bits of the fixed point. -/
def expBits : Nat := 320

/-- Even and odd terms of the series of exp (-y): term `n`, its number, and the two sums. -/
def expSeries : Nat → Nat → Nat → Nat → Nat → Nat → Nat × Nat
  | 0, _, _, _, pos, neg => (pos, neg)
  | fuel + 1, y, n, term, pos, neg =>
    let pos' := if n % 2 = 0 then pos + term else pos
    let neg' := if n % 2 = 1 then neg + term else neg
    expSeries fuel y (n + 1) (term * y / 2 ^ expBits / (n + 1)) pos' neg'

/-- Repeated squaring of a fixed-point number. -/
def expSquare : Nat → Nat → Nat
  | 0, x => x
  | n + 1, x => expSquare n (x * x / 2 ^ expBits)

/-- exp of minus `m · 2^e`, with `e` at least -149, as FP32. -/
def expNeg (m : Nat) (e : Int) : Val :=
  if dyGt m e 200 0 then .fin false 0 0
  else
    let y := m * 2 ^ (e + expBits - 8).toNat
    let (p, n) := expSeries 100 y 0 (2 ^ expBits) 0 0
    f32 (.fin false (expSquare 8 (p - n)) (-(expBits : Int)))

/-- The weight of a logit that lies `d` at or below zero from the first (R332). -/
def weightOf (d : Val) : Val :=
  match d with
  | .fin _ m e => if m = 0 then .fin false 1 0 else expNeg m e
  | _ => .fin false 0 0

/-! ### Philox4x32-10 (R334) -/

/-- One round. PRESUMED multipliers and key steps: those of the published definition (log entry 36). -/
def philoxRound (c : Nat × Nat × Nat × Nat) (k : Nat × Nat) : Nat × Nat × Nat × Nat :=
  let p0 := 0xD2511F53 * c.1
  let p1 := 0xCD9E8D57 * c.2.2.1
  (p1 / 2 ^ 32 ^^^ c.2.1 ^^^ k.1, p1 % 2 ^ 32, p0 / 2 ^ 32 ^^^ c.2.2.2 ^^^ k.2, p0 % 2 ^ 32)

/-- The rounds. -/
def philoxRun : Nat → Nat × Nat × Nat × Nat → Nat × Nat → Nat × Nat × Nat × Nat
  | 0, c, _ => c
  | n + 1, c, k => philoxRun n (philoxRound c k) ((k.1 + 0x9E3779B9) % 2 ^ 32, (k.2 + 0xBB67AE85) % 2 ^ 32)

/-- Output word 0 for a seed and a position (R334). -/
def philox (seed q : Nat) : Nat := (philoxRun 10 (q, 0, 0, 0) (seed % 2 ^ 32, seed / 2 ^ 32 % 2 ^ 32)).1

/-! ## Order, tree and sums -/

/-- Whether token `a` ranks before token `b`: the higher logit, then the lower id (R333). -/
def ranksBefore (a b : Nat × Val) : Bool :=
  vLt false b.2 a.2 || (!vLt false a.2 b.2 && decide (a.1 < b.1))

/-- A run of a merge of two ranked lists. -/
def mergeRank : Nat → List (Nat × Val) → List (Nat × Val) → List (Nat × Val)
  | 0, a, b => a ++ b
  | _ + 1, [], b => b
  | _ + 1, a, [] => a
  | n + 1, x :: a, y :: b => if ranksBefore x y then x :: mergeRank n a (y :: b) else y :: mergeRank n (x :: a) b

/-- Pairs of ranked lists merged. -/
def mergePairs : List (List (Nat × Val)) → List (List (Nat × Val))
  | a :: b :: l => mergeRank (a.length + b.length) a b :: mergePairs l
  | l => l

/-- Lists merged into one. -/
def mergeAll : Nat → List (List (Nat × Val)) → List (Nat × Val)
  | 0, l => l.flatten
  | n + 1, l => match l with
    | [] => []
    | [a] => a
    | _ => mergeAll n (mergePairs l)

/-- Tokens in rank order (R333). -/
def rankTokens (l : List (Nat × Val)) : List (Nat × Val) := mergeAll 32 (l.map (fun x => [x]))

/-- One level of the pairwise tree (R61, R119). -/
def sumLevel : List Val → List Val
  | a :: b :: l => f32Add a b :: sumLevel l
  | l => l

/-- The sum of the tree of R119. -/
def treeSum : Nat → List Val → Val
  | _, [] => .fin false 0 0
  | _, [x] => x
  | 0, x :: _ => x
  | n + 1, l => treeSum n (sumLevel l)

/-- Running FP32 sums, from the first element (R332, R334). -/
def runSums : Val → List (Nat × Val) → List (Nat × Val)
  | _, [] => []
  | acc, (t, w) :: l => let a := f32Add acc w; (t, a) :: runSums a l

/-- A list up to and including the first element that satisfies `p`. -/
def takeThrough {α : Type} (p : α → Bool) : List α → List α
  | [] => []
  | x :: l => if p x then [x] else x :: takeThrough p l

/-- Whether S · 2^32 exceeds r · T, on exact values (R334). -/
def exceeds (sum total : Val) (r : Nat) : Bool :=
  match sum, total with
  | .fin _ ms es, .fin _ mt et => dyGt ms (es + 32) (r * mt) et
  | _, _ => false

/-! ## One draw (R332 to R334) -/

/-- What a draw gives: the token, or none with reason NO_CANDIDATE; whether a NaN was met; whether it was greedy. -/
structure Drawn where
  token : Option Nat
  nan : Bool
  greedy : Bool
  deriving DecidableEq, Repr

/-- Bias added, with the tokens it bans (R332). -/
def biased (biases : List (Nat × Nat)) (t : Nat) (l : Val) : Val × Bool :=
  match biases.lookup t with
  | none => (l, false)
  | some b => match f32Of b with
    | .inf true => (negInf, true)
    | v => (f32Add l v, false)

/-- Penalties of a token that the working tally holds (R332). -/
def penalised (w : Waybill) (c : Nat) (l : Val) : Val :=
  if c = 0 then l
  else
    let rep := f32Of w.repetition
    let l := if vLt false (.fin false 0 0) l then f32Div l rep else f32Mul l rep
    f32Sub (f32Sub l (f32Mul (f32Of w.frequency) (f32Nat c))) (f32Of w.presence)

/-- The weights over the vocabulary, with `top` the logit ranked first (R332, R333). -/
def weights (top : Val) (l : List (Nat × Val)) : List (Nat × Val) :=
  l.map (fun (t, v) => (t, match top with
    | .inf false => if v == .inf false then .fin false 1 0 else .fin false 0 0
    | .inf true => .fin false 0 0
    | _ => if v.isNan || v == negInf then .fin false 0 0 else weightOf (f32Sub v top)))

/-- Whether a weight is above zero. -/
def positive (v : Val) : Bool := match v with
  | .fin n m _ => !n && m != 0
  | _ => false

/-- The survivors, with their weights, in rank order (R332, R333). -/
def survivors (w : Waybill) (ranked : List (Nat × Val)) (banned : List Nat) : List (Nat × Val) :=
  match ranked with
  | [] => []
  | (_, top) :: _ =>
    let ws := weights top ranked
    let z := treeSum 64 ((sortBy (fun a b => decide (a.1 ≤ b.1)) ws).map (·.2))
    let k := if w.topK = 0 then 1024 else w.topK
    let cand := ws.take k
    let ps := cand.map (fun (t, x) => (t, x, f32Div x z))
    let sums := runSums (.fin false 0 0) (ps.map (fun x => (x.1, x.2.2)))
    let topP := f32Of w.topP
    let kept := if vLt false topP (.fin false 1 0) then
        ps.take (takeThrough (fun x => !vLt false x.2 topP) sums).length
      else ps
    let floor := match ps with
      | (_, _, p) :: _ => f32Mul (f32Of w.minP) p
      | [] => .fin false 0 0
    ((kept.filter (fun x => !vLt false x.2.2 floor)).filter (fun x => positive x.2.1 && !banned.contains x.1)).map
      (fun x => (x.1, x.2.1))

/-- One draw at the position that token `q` will occupy, from the logits of every token in ascending id (R332 to R334). -/
def drawToken (w : Waybill) (biases : List (Nat × Nat)) (tally : List (Nat × Nat)) (logits : List Val) (q : Nat) : Drawn :=
  let l := logits.mapIdx (fun t v => (t, biased biases t v))
  let banned := (l.filter (fun x => x.2.2)).map (·.1)
  let nan := (logits.mapIdx (fun t v => (t, v))).any (fun x => x.2.isNan && !banned.contains x.1)
  let l := l.map (fun x => (x.1, penalised w ((tally.lookup x.1).getD 0) x.2.1))
  if positive (f32Of w.temperature) then
    let l := l.map (fun x => (x.1, rankVal (f32Div x.2 (f32Of w.temperature))))
    let surv := survivors w (rankTokens l) banned
    match surv.getLast? with
    | none => ⟨none, nan, false⟩
    | some (last, _) =>
      let sums := runSums (.fin false 0 0) surv
      let total := (sums.getLast?.map (·.2)).getD (.fin false 0 0)
      let r := philox w.seed q
      ⟨some (((sums.find? (fun x => exceeds x.2 total r)).map (·.1)).getD last), nan, false⟩
  else
    match rankTokens (l.map (fun x => (x.1, rankVal x.2))) with
    | [] => ⟨none, nan, true⟩
    | (t, v) :: _ => ⟨if v == negInf then none else some t, nan, true⟩

/-! ## Acceptance and stops (R335, R336) -/

/-- Reason codes of R336. -/
def stopEos : Nat := 1
def stopSequence : Nat := 2
def stopMaxNew : Nat := 3
def stopLength : Nat := 4
def stopNoCandidate : Nat := 5

/-- The longest committed length (R336). -/
def lengthLimit : Nat := 16777215

/-- The first stop condition that holds after the last of `toks`, generated in this row, oldest first (R336): reason
and stop-sequence index. -/
def stopTest (w : Waybill) (extra : List Byte) (toks : List Nat) (committed : Nat) : Nat × Nat :=
  let last := toks.getLastD 0
  let hist := (w.tail.reverse ++ toks)
  let matched := (List.range w.stopCount).find? (fun k =>
    let q := stopSeq extra k
    !q.isEmpty && lastN q.length hist == q)
  if bitAt w.flags 0 && last == w.eosId then (stopEos, 0)
  else match matched with
    | some k => (stopSequence, k)
    | none =>
      if w.generated + toks.length = w.maxNew then (stopMaxNew, 0)
      else if lengthLimit ≤ committed then (stopLength, 0)
      else (0, 0)

/-- A row that makes no output (R335). -/
def emptyRow (row accepted : Nat) : SampledRow := ⟨row, accepted, 0, [], 0, 0, 0, 0, false⟩

/-- Working tally of a position: the committed tally and the tokens generated earlier in the row (R338). -/
def workTally (t : List (Nat × Nat)) (toks : List Nat) : List (Nat × Nat) :=
  toks.foldl (fun t x => (tallyAdd x t 0).1) t

/-- The draws of a row from set `k` on (R335, R336): `depth` proofs at most. -/
def drawRow (w : Waybill) (extra : List Byte) (biases tally : List (Nat × Nat)) (sets : List (List Val))
    (drafts : List Nat) (prefill : Bool) (first base : Nat) : Nat → Nat → SampledRow → SampledRow
  | 0, _, r => r
  | fuel + 1, k, r =>
    let d := drawToken w biases (workTally tally r.tokens) (sets.getD k []) (base + k + 1)
    let r := { r with nan := r.nan || d.nan }
    match d.token with
    | none => { r with stop := BitVec.ofNat 8 stopNoCandidate }
    | some t =>
      let toks := r.tokens ++ [t]
      let committed := if prefill then first else first + toks.length
      let (stop, idx) := stopTest w extra toks committed
      let r := { r with tokens := toks, accepted := if prefill then r.accepted else toks.length
                        draws := if d.greedy then r.draws else r.draws + 1
                        greedy := if d.greedy then r.greedy + 1 else r.greedy
                        stop := BitVec.ofNat 8 (stop + 8 * idx) }
      if stop != 0 || fuel = 0 then r
      else if drafts.getD k 0 = t then
        drawRow w extra biases tally sets drafts prefill first base fuel (k + 1)
          { r with offered := r.offered + 1, matched := r.matched + 1 }
      else { r with offered := r.offered + 1 }

/-- The plan of the sampler (R327). -/
def State.samplerPlan (s : State) : Option SamplerPlan := s.forme.forme.bind (fun f => f.sampler)

/-- Entries that picker `k` pushes for one row (R328). -/
def pickerNeed (proofMax k : Nat) (p : Picker) : Nat := (if k = 0 then 1 else 0) + (1 + proofMax) * ceilDiv p.ids 256

/-- The proof depth of the forme. -/
def State.proofMax (s : State) : Nat := match s.forme.forme with
  | some f => f.serving.proofMax
  | none => 0

/-- FP32 lane `j` of an entry. -/
def laneOf (e : Entry) (j : Nat) : Nat := entryFld e (32 * j) 32

/-- Set `k` of a row, all tokens in ascending id; `rows` holds each picker's entries of the row (R328). -/
def logitSet (plan : SamplerPlan) (rows : List (List Entry)) (k : Nat) : List Val :=
  ((plan.pickers.zip rows).mapIdx (fun i x =>
    let n := ceilDiv x.1.ids 256
    let first := (if i = 0 then 1 else 0) + k * n
    (List.range x.1.ids).map (fun j => f32Of (laneOf (x.2.getD (first + j / 256) 0) (j % 256))))).flatten

/-- One row of the pass, from its entries (R335 to R337). A DECODE row in flight when an append has made its waybill PREFILL commits
the position of the last generated token and draws nothing: the waybill's next token lies beyond the appended ones (R503; log
entry 130). -/
def sampleRow (s : State) (plan : SamplerPlan) (rec : Berth) (rows : List (List Entry)) : SampledRow :=
  match kget s.eng.table rec.waybill with
  | none => emptyRow rec.row 0
  | some w =>
    let working := (rec.kind = kPrefill || rec.kind = kDecode) && (w.state == .prefill || w.state == .decode)
    if !working || rec.voided || w.voided || s.rowVoid rec.row then emptyRow rec.row 0
    else
      let l := rec.committed
      if rec.kind = kPrefill && decide (l + rec.writes < w.target) then emptyRow rec.row rec.writes
      else if rec.kind = kDecode && w.state == .prefill then emptyRow rec.row 1
      else
        let extra := extraBlock s w
        let biases := biasList extra w.biasCount
        let tally := tallyOf s w
        let sets := (List.range (1 + s.proofMax)).map (logitSet plan rows)
        let drafts := (List.range s.proofMax).map (laneOf ((rows.headD []).headD 0))
        if rec.kind = kPrefill then
          drawRow w extra biases tally sets drafts true (l + rec.writes) (l + rec.writes - 1) 1 0 (emptyRow rec.row rec.writes)
        else
          drawRow w extra biases tally sets drafts false l l (1 + min w.proofDepth.toNat s.proofMax) 0 (emptyRow rec.row 0)

/-! ## The mark list (R329) -/

/-- The sampler's list in the variant in force. -/
def State.smpList (s : State) : List (BitVec 64) := s.smp.lists.getD s.tt.variant.toNat []

/-- The item of a sampler record: a DUE mark awaits entries of source ON_CHIP (R329). -/
def smpItem (r : BitVec 64) : Item := match recItem r with
  | .mark v _ => .mark v (if bitAt r.toNat 40 then some (54, 0, 0) else none)
  | x => x

/-- Rows of the next ROWS record from a walk's position, going round its loop (R134, R329). -/
def nextRows (l : List (BitVec 64)) (w : Walk) : Nat :=
  let isRows (r : BitVec 64) : Bool := fld r.toNat 60 4 == 0
  let again := match w.loop with
    | some x => if x.trip + 1 < x.trips then (l.drop x.start).take (w.idx - x.start) else []
    | none => []
  let here := match w.loop with
    | some x => (l.drop w.idx).take (x.start + x.body - w.idx) ++ again ++ l.drop (x.start + x.body)
    | none => l.drop w.idx
  match here.find? isRows with
  | some r => fld r.toNat 0 13 + 1
  | none => 0

/-- Whether the awaited entries of a DUE mark at the sampler's position are present in every picker's queue (R329). -/
def State.smpDueMet (s : State) : Bool :=
  s.tt.runout || match s.samplerPlan with
    | none => true
    | some plan =>
      let n := nextRows s.smpList s.smp.walk
      (plan.pickers.mapIdx (fun k p => (k, p))).all (fun (k, p) =>
        match s.slotPress p.slot with
        | none => true
        | some pr => decide (n * pickerNeed s.proofMax k p ≤ ((s.press pr).queue 54).entries.length + (s.smp.buf.getD k []).length))

/-- A sampled row's results placed in the desk's sheet and in its place in press store (R295, R329, R337). -/
def fillBerth (r : SampledRow) (s : State) : State :=
  match s.eng.sheet[r.row]? with
  | none => s
  | some rec =>
    match s.deskSheet.findIdx? (fun b => b.waybill == rec.waybill && rec.waybill != 0xFFFF) with
    | none => s
    | some k =>
      let b := s.deskSheet.getD k (emptyBerth 0)
      let b := { b with accepted := r.accepted, stop := r.stop, nextToken := r.tokens.getLastD b.nextToken, closing := r.stop != 0 }
      let s := s.modDeskSheet (fun l => l.set k b)
      match s.sheetAt with
      | some p => writePlace p (64 * k) (berthBytes b (b.committed + r.accepted)) s
      | none => s

/-- A DEPART mark, or the end count, releases the outputs of every row processed before it; a row whose void bit has
come makes no output (R317, R329). -/
def smpRelease (s : State) : State :=
  let out := s.smp.outputs.map (fun r => if s.rowVoid r.row then emptyRow r.row 0 else r)
  out.foldl (fun s r => fillBerth r s) { s with smp.outputs := [], smp.released := s.smp.released ++ out }

/-- The sampler past a mark that TT lets it pass (R329). -/
def smpGo (s : State) : State :=
  match s.smp.walk.mark with
  | none => s
  | some m =>
    let w := walkRelease s (m.due.isNone || s.smpDueMet) s.smp.walk
    if w.mark.isSome then s
    else
      let s := { s with smp.walk := w }
      if m.due.isNone then smpRelease s else s

/-- The record at the sampler's position: KIND, and the record as a number. Under a brake the sampler takes up nothing after
the record in hand (R480). -/
def smpRecord (s : State) : Option (Nat × Nat) :=
  if walkFree s s.smp.walk && (s.smp.walk.busy || !s.brakeOn) then (s.smpList[s.smp.walk.idx]?).map (fun r => (fld r.toNat 60 4, r.toNat)) else none

/-- Entries moved from picker `k`'s queue into the sampler, at most `n`, each through the pool's code (R103, R328). -/
def pullPicker : Nat → Nat → Nat → State → State
  | 0, _, _, s => s
  | n + 1, k, p, s =>
    match ((s.press p).queue 54).entries with
    | [] => s
    | e :: _ =>
      let (e, s) := poolRead p ((s.press p).sampEcc.headD ⟨0, false⟩) e s
      pullPicker n k p (popHead p 54 { s.modPress p (fun x => { x with sampEcc := x.sampEcc.tail }) with
        smp.buf := s.smp.buf.mapIdx (fun i l => if i = k then l ++ [e] else l) })

/-- Every picker's entries, for at most `rows` rows (R328: eight at once). -/
def pullAll (plan : SamplerPlan) (rows : Nat) (s : State) : State :=
  let s := if s.smp.buf.length = plan.pickers.length then s else { s with smp.buf := plan.pickers.map (fun _ => []) }
  (plan.pickers.mapIdx (fun k p => (k, p))).foldl (fun s (k, p) =>
    match s.slotPress p.slot with
    | none => s
    | some pr => pullPicker (rows * pickerNeed s.proofMax k p - (s.smp.buf.getD k []).length) k pr s) s

/-- Whether every picker's entries of one row are in hand. -/
def rowReady (plan : SamplerPlan) (s : State) : Bool :=
  (plan.pickers.mapIdx (fun k p => (k, p))).all (fun (k, p) => decide (pickerNeed s.proofMax k p ≤ (s.smp.buf.getD k []).length))

/-- One row processed from the entries in hand. -/
def smpRow (plan : SamplerPlan) (s : State) : State :=
  let need := plan.pickers.mapIdx (pickerNeed s.proofMax)
  let rows := (s.smp.buf.zip need).map (fun x => x.1.take x.2)
  let n := s.smp.rowsTaken
  let r := sampleRow s plan (s.eng.sheet.getD n (emptyBerth n)) rows
  { s with smp.buf := (s.smp.buf.zip need).map (fun x => x.1.drop x.2)
           smp.rowsTaken := n + 1, smp.outputs := s.smp.outputs ++ [{ r with row := n }]
           smp.walk.left := s.smp.walk.left - 1
           dbg.passed := s.dbg.passed.filter (· != .sampler) }

/-- Rows taken and processed until the record is done or entries are missing. A breakpoint may stop the sampler before a
berth (R157). -/
def smpRows : Nat → SamplerPlan → State → State
  | 0, _, s => s
  | fuel + 1, plan, s =>
    if s.smp.walk.left = 0 then { s with smp.walk := walkNext s.smp.walk }
    else
      let s := pullAll plan (min 8 s.smp.walk.left) s
      if !rowReady plan s then s
      else
        let w := (s.eng.sheet.getD s.smp.rowsTaken (emptyBerth 0)).waybill
        match if s.dbg.passed.contains .sampler then none else s.breakAt (fun b => breakUnit b 1 (s.smp.rowsTaken + 1) w) with
        | some k => intrude .sampler .debug { breakHit k .sampler s.tt.tt s with smp.stopped := true }
        | none => smpRows fuel plan (smpRow plan s)

/-- SAMPLER_ROWS (R328, R329): the entries of the next ROWS rows of the pass, in ROW order. -/
def execSamplerRows (s : State) : Out :=
  let s := smpGo s
  .next (match smpRecord s, s.samplerPlan with
    | some (0, r), some plan =>
      if s.smp.stopped then s
      else
        let n := fld r 0 13 + 1
        let s := if s.smp.walk.busy then s else { s with smp.walk := { s.smp.walk with busy := true, left := n } }
        smpRows (n + 1) plan s
    | _, _ => s)

/-- The sampler waits at a mark. -/
def smpMark (v : Nat) (due : Option (Nat × Nat × Nat)) (s : State) : State :=
  smpGo { s with smp.walk := walkMark v due s.smp.walk }

/-- SAMPLER_DUE_MARK (R329). A mark that is not met at its test count raises its hold (R30, R35). -/
def execSamplerDueMark (s : State) : Out :=
  let s := smpGo s
  .next (match smpRecord s with
    | some (1, r) =>
      if bitAt r 40 then
        let s := smpMark (fld r 0 40) (some (54, 0, 0)) s
        match s.smp.walk.mark with
        | some m =>
          if decide (m.value ≤ s.tt.tt.toNat) && !s.smpDueMet && !s.holdsOpen .sampler (fun _ => true) then
            raiseHold .sampler .envelope .due (m.value + 32) s
          else s
        | none => s
      else s
    | _ => s)

/-- SAMPLER_DEPART_MARK (R329). -/
def execSamplerDepartMark (s : State) : Out :=
  let s := smpGo s
  .next (match smpRecord s with
    | some (1, r) => if bitAt r 40 then s else smpMark (fld r 0 40) none s
    | _ => s)

/-- SAMPLER_LOOP (R134, R329). -/
def execSamplerLoop (s : State) : Out :=
  let s := smpGo s
  .next (match smpRecord s with
    | some (2, r) =>
      { s with smp.walk := walkLoop (fld r 0 12 + 1) (fld r 12 16 + 1) (fld r 28 28) s.smp.walk }
    | _ => s)

/-- SAMPLER_END (R329). -/
def execSamplerEnd (s : State) : Out :=
  let s := smpGo s
  .next (match smpRecord s with
    | some (3, _) => { s with smp.walk := { s.smp.walk with ended := true } }
    | _ => s)

end Sys2Proof.Machine
end

