-- ==== Sys2Proof/Machine/Pool.lean ====
section
/-! DEFINITION. The cache pool (R305 to R310, R502): its division, allocation, directories, and the lists, spans, windows
and livery list that the engine writes for a pass (R295, R308, R309, R343). -/

namespace Sys2Proof.Machine

open Sys2Proof

/-! ## The division of the pool (R306, R310, R502) -/

/-- Sizes and places of a pool, in KiB. -/
structure PoolMap where
  slice : Nat
  frame : Nat
  head : Nat
  layers : Nat
  base : Nat
  res : Nat
  resEnd : Nat
  deriving DecidableEq, Repr

/-- First KiB of the forme region of the near tier (R187). -/
def nearFormeBase : Nat := 4259840

/-- One past the last KiB of the near tier (R162). -/
def nearEnd : Nat := 134217728

/-- A number rounded up to a whole multiple. -/
def alignUp (a n : Nat) : Nat := ceilDiv n (max 1 a) * max 1 a

/-- The pool of a forme on logical chip `c`, from a base in KiB (R502): the page reserve follows the null slice, and holds
what R502 gives it with its frames aligned to 32 KiB (R305; log entry 54). -/
def poolOf (v : Serving) (c base : Nat) : PoolMap :=
  let slice := max 1 (v.positionBytes / (8 * max 1 v.kvHeads))
  let frame := v.positionBytes / 8
  let head := ceilDiv (64 + 2 * v.headDim * v.kvHeads) 1024
  let layers := v.layers.getD c 1
  let res := base + slice
  ⟨slice, frame, head, layers, base, res, alignUp 32 res + v.frames * layers * (frame + 2 + head) + min v.frames 65535⟩

/-- Whether the pool holds the null slice and the page reserve (R293, R502). -/
def PoolMap.fits (m : PoolMap) : Bool := decide (m.resEnd ≤ nearEnd)

/-- The pool in force: the loaded forme's, else that whose pages a warm reset left in place (R325); that of no forme has no
page reserve. -/
def State.pool (s : State) : PoolMap := match s.forme.forme, s.eng.adopt with
  | some f, _ => poolOf f.serving s.chipIndex s.near.poolBase.toNat
  | none, some (_, v, c) => poolOf v c s.near.poolBase.toNat
  | none, none => ⟨1, 32, 1, 1, s.near.poolBase.toNat, s.near.poolBase.toNat, s.near.poolBase.toNat⟩

/-! ## Allocation (R305, R502) -/

/-- The lowest free address at or above `lo`, aligned, that leaves `size` free below `hi`; `l` lies in address order. -/
def lowestFree (align size hi : Nat) : List Alloc → Nat → Option Nat
  | [], lo => let c := alignUp align lo; if c + size ≤ hi then some c else none
  | a :: l, lo =>
    let c := alignUp align lo
    if c + size ≤ a.base then (if c + size ≤ hi then some c else none)
    else lowestFree align size hi l (max c (a.base + a.size))

/-- Allocations in address order. -/
def insertAlloc (a : Alloc) : List Alloc → List Alloc
  | [] => [a]
  | b :: l => if a.base < b.base then a :: b :: l else b :: insertAlloc a l

/-- An allocation from the page reserve; its address, or 0 where none is free. -/
def allocRes (w : Nat) (k : AllocKind) (size align : Nat) (s : State) : Nat × State :=
  match lowestFree align size s.pool.resEnd s.eng.allocs s.pool.res with
  | some a => (a, { s with eng.allocs := insertAlloc ⟨a, size, w, k⟩ s.eng.allocs })
  | none => (0, s)

/-- The lowest free address for an input store (R424, R505). -/
def inputRoom (size : Nat) (s : State) : Option Nat := lowestFree 1 size nearEnd s.eng.allocs s.pool.resEnd

/-- An input store allocated. -/
def allocInput (w a size : Nat) (s : State) : State :=
  { s with eng.allocs := insertAlloc ⟨a, size, w, .input⟩ s.eng.allocs }

/-- An allocation given up. -/
def freeAt (a : Nat) (s : State) : State := { s with eng.allocs := s.eng.allocs.filter (fun x => x.base != a) }

/-- What a waybill holds of a kind: the address, 0 where it holds none. -/
def State.held (s : State) (w : Nat) (k : AllocKind) : Nat :=
  match s.eng.allocs.find? (fun x => x.owner == w && x.kind == k) with
  | some x => x.base
  | none => 0

/-- KiB of a score area: one for each layer and page at its allocation (R502; log entry 38). -/
def scoreKiB (layers pages : Nat) : Nat := layers * pages

/-- Pages of each layer that a score area of `size` KiB has room for. -/
def scoreCap (layers size : Nat) : Nat := (size / max 1 layers * 1024 - 64) / 64

/-- A score area with room for `pages` pages of each layer: the waybill's first at its first sparse pass (R502), and a larger one
in its place, with what it held, once the waybill outgrows it (log entry 38). -/
def ensureScore (w pages : Nat) (s : State) : State :=
  match s.eng.allocs.find? (fun x => x.owner == w && x.kind == .score) with
  | none =>
    let (a, s) := allocRes w .score (scoreKiB s.pool.layers pages) 1 s
    nearZero a (scoreKiB s.pool.layers pages) s
  | some x =>
    let layers := s.pool.layers
    if pages ≤ scoreCap layers x.size then s
    else
      let size := scoreKiB layers pages
      let (a, s) := allocRes w .score size 1 { s with eng.allocs := s.eng.allocs.filter (fun y => y.base != x.base) }
      let was := s.boxMem
      let old (k : Nat) : List Byte := memRead blank was (x.base * 1024 + k * (x.size / max 1 layers * 1024)) (x.size / max 1 layers * 1024)
      (List.range layers).foldl (fun s k => nearPut (a * 1024 + k * pages * 1024) (old k) s) (nearZero a size s)

/-- Everything of the page reserve that a waybill holds is given up (R315). -/
def freePages (w : Nat) (s : State) : State :=
  { s with eng.allocs := s.eng.allocs.filter (fun x => x.owner != w || x.kind == .input) }

/-! ## The near tier as the engine writes it -/

/-- A little-endian number in the near tier. -/
def nearNum (s : State) (a n : Nat) : Nat := leNat (memRead blank s.boxMem a n)

/-! ## The directory (R307) -/

/-- The byte address of directory block `n` of a layer, from its first block; 0 where the chain ends before it. -/
def blockFrom (s : State) : Nat → Nat → Nat
  | 0, kib => kib
  | n + 1, kib => if kib = 0 then 0 else blockFrom s n (nearNum s (kib * 1024) 4)

/-- Directory block `n` of a waybill's layer, in KiB; 0 where it has none. -/
def State.dirBlock (s : State) (w layer n : Nat) : Nat :=
  let root := s.held w .root
  if root = 0 then 0 else blockFrom s n (nearNum s (root * 1024 + 4 * layer) 4)

/-- The byte address of a page entry, where its block exists. -/
def State.dirEntry (s : State) (w layer page : Nat) : Option Nat :=
  let b := s.dirBlock w layer (page / 63)
  if b = 0 then none else some (b * 1024 + 16 + 16 * (page % 63))

/-- A directory root for a waybill that has none (R502). -/
def ensureRoot (w : Nat) (s : State) : State :=
  if s.held w .root = 0 then
    let (a, s) := allocRes w .root 1 1 s
    nearZero a 1 s
  else s

/-- A directory block for a page of a layer that needs a new one (R307, R502). -/
def ensureBlock (w layer page : Nat) (s : State) : State :=
  let n := page / 63
  if s.dirBlock w layer n != 0 then s
  else
    let (a, s) := allocRes w .block 1 1 s
    if a = 0 then s
    else
      let s := nearPut (a * 1024 + 4) (leBytes 4 (63 * n)) (nearZero a 1 s)
      if n = 0 then nearPut (s.held w .root * 1024 + 4 * layer) (leBytes 4 a) s
      else nearPut (s.dirBlock w layer (n - 1) * 1024) (leBytes 4 a) s

/-- A frame for a page that has none (R307, R502). -/
def ensureFrame (w layer page : Nat) (s : State) : State :=
  if s.held w (.frame layer page) != 0 then s
  else
    let (a, s) := allocRes w (.frame layer page) s.pool.frame 32 s
    match s.dirEntry w layer page with
    | some d => nearPut d (leBytes 4 a) s
    | none => s

/-- A head record for a page that has none (R310). -/
def ensureHead (w layer page : Nat) (s : State) : State :=
  if s.held w (.head layer page) != 0 then s
  else
    let (a, s) := allocRes w (.head layer page) s.pool.head 1 s
    match s.dirEntry w layer page with
    | some d => nearPut (d + 4) (leBytes 4 a) s
    | none => s

/-- Flags of a page entry set (R307): bit 0 HEAD_VALID, bit 1 FULL, bit 2 MIRRORED. -/
def setDirFlag (w layer page mask : Nat) (s : State) : State :=
  match s.dirEntry w layer page with
  | some d => nearPut (d + 8) (leBytes 1 (nearNum s (d + 8) 1 ||| mask)) s
  | none => s

/-- Flags of a page entry. -/
def State.dirFlags (s : State) (w layer page : Nat) : Nat := match s.dirEntry w layer page with
  | some d => nearNum s (d + 8) 1
  | none => 0

/-- Every layer, and every page of a range, in order. -/
def overPages (layers first n : Nat) (f : Nat → Nat → State → State) (s : State) : State :=
  (List.range layers).foldl (fun s l => (List.range n).foldl (fun s k => f l (first + k) s) s) s

/-! ## Running heads and selection (R310 to R312) -/

/-- Committed pages of a length. -/
def pagesOf (l : Nat) : Nat := ceilDiv l 128

/-- Whether a berth of committed length `l` is sparse (R311). -/
def isSparse (v : Serving) (l : Nat) : Bool := v.sparseN != 0 && decide (v.sparseN + 36 < pagesOf l)

/-- Scored pages of a layer of a waybill's score area, and the byte at which the layer's part begins. The layout of a
score area is the model's: DESIGN CHOICE, log entry 38. -/
def scorePart (s : State) (w layer : Nat) : Nat × Nat :=
  match s.eng.allocs.find? (fun x => x.owner == w && x.kind == .score) with
  | none => (0, 0)
  | some a =>
    let part := a.size / max 1 s.pool.layers * 1024
    let at' := a.base * 1024 + layer * part
    (min (nearNum s at' 4) (scoreCap s.pool.layers a.size), at')

/-- The rank value of a candidate page: plus infinity beyond the scored pages; a NaN below every number (R312). -/
def pageScore (s : State) (part : Nat × Nat) (g page : Nat) : Val :=
  if part.1 ≤ page then .inf false else f32Of (nearNum s (part.2 + 64 + 64 * page + 4 * g) 4)

/-- Whether candidate `a` ranks before `b`: the higher score, a NaN last, then the higher page (R312). -/
def pageBefore (a b : Nat × Val) : Bool :=
  if a.2.isNan || b.2.isNan then (if a.2.isNan == b.2.isNan then decide (b.1 < a.1) else b.2.isNan)
  else vLt false b.2 a.2 || (!vLt false a.2 b.2 && decide (b.1 < a.1))

/-- The first `n` of a list under an order, found one at a time. -/
def bestOf (before : Nat × Val → Nat × Val → Bool) : Nat → List (Nat × Val) → List Nat
  | 0, _ => []
  | n + 1, l => match l with
    | [] => []
    | x :: r =>
      let b := r.foldl (fun b y => if before y b then y else b) x
      b.1 :: bestOf before n (l.filter (fun y => y.1 != b.1))

/-- The pages of a row that a KV head of a layer reads (R308, R311, R312): every page, or the fixed first and last ones with
the candidates that rank first. -/
def readPages (s : State) (v : Serving) (w l layer g : Nat) : List Nat :=
  let p := pagesOf l
  if isSparse v l then
    let part := scorePart s w layer
    let cand := ((List.range p).filter (fun k => decide (4 ≤ k) && decide (k + 33 ≤ p))).map (fun k => (k, pageScore s part g k))
    let chosen := bestOf pageBefore v.sparseN cand
    (List.range p).filter (fun k => decide (k < 4) || decide (p < k + 33) || chosen.contains k)
  else List.range p

/-! ## What a pass finds in press store (R308, R309, R343) -/

/-- Bytes written into the press store of a press slot. -/
def slotPut (slot a : Nat) (bs : List Byte) (s : State) : State := match s.slotPress slot with
  | some p => s.modPress p (fun x => { x with store := memWrite blank a bs x.store })
  | none => s

/-- An address lane of R146. -/
def addrLaneOf (s : State) (kib row : Nat) (valid : Bool) : Nat :=
  (kib - s.forme.regionNearBase.toNat) % 2 ^ 32 + row * 2 ^ 32 + bit valid * 2 ^ 44

/-- The FP32 encoding of a count. -/
def countLane (n : Nat) : Nat := (fp32.encode (.fin false n 0)).1

/-- Berth records that serve a pass: those of the sheet with a waybill. -/
def passRows (sheet : List Berth) : List Berth := sheet.filter (fun b => b.kind == kPrefill || b.kind == kDecode || b.kind == kRestore)

/-- M of R387 for a row that this chip rebuilds, else its committed length. -/
def rowStart (s : State) (b : Berth) : Nat :=
  if b.kind = kRestore && s.mirror.rebuilding then match kget s.eng.shadows b.waybill with
    | some x => min x.committed x.start
    | none => b.committed
  else b.committed

/-- Positions that a row writes on this chip: none of a RESTORE row, but on the rebuilt chip (R321, R388). -/
def rowWrites (s : State) (chunk : Nat) (b : Berth) : Nat :=
  if b.kind = kPrefill || b.kind = kDecode then b.writes
  else if b.kind = kRestore && s.mirror.rebuilding then min chunk (b.committed - rowStart s b)
  else 0

/-- The slices that a row reads in a layer, with their spans (R308). A RESTORE row of a rebuilt chip lists every page (R388). -/
def rowSlices (s : State) (v : Serving) (layer : Nat) (b : Berth) : List (Nat × Nat) :=
  if b.kind = kRestore && !s.mirror.rebuilding then []
  else
    let l := rowStart s b
    let pages (g : Nat) : List Nat := if b.kind = kRestore then List.range (pagesOf l) else readPages s v b.waybill l layer g
    (List.range v.kvHeads).flatMap (fun g => (pages g).map (fun p =>
      (addrLaneOf s (s.held b.waybill (.frame layer p) + g * s.pool.slice) b.row true, countLane (min 128 (l - 128 * p)))))

/-- Every slice of a pass, layer by layer, each layer filled up with null slices (R308). -/
def passSlices (s : State) (v : Serving) (rows : List Berth) : List (Nat × Nat) :=
  (List.range s.pool.layers).flatMap (fun layer =>
    let l := rows.flatMap (rowSlices s v layer)
    l.take v.sliceSlots ++ List.replicate (v.sliceSlots - l.length) (addrLaneOf s s.pool.base 0 false, 0))

/-- The page lists and span arrays of a pass (R308). -/
def writeLists (m : PageMap) (v : Serving) (rows : List Berth) (s : State) : State :=
  (m.slices.zip (passSlices s v rows)).foldl (fun s (x, lane, span) =>
    slotPut x.slot (x.spanKiB * 1024 + 4 * x.spanLane) (leBytes 4 span)
      (slotPut x.slot (x.listKiB * 1024 + 8 * x.listLane) (leBytes 8 lane) s)) s

/-- The record of a write window (R309). -/
def windowBytes (s : State) (chunk layer : Nat) (b : Berth) : List Byte :=
  let l := rowStart s b
  let n := rowWrites s chunk b
  if n = 0 then leBytes 3 l ++ zeros 13
  else
    let first := l / 128
    let last := (l + n - 1) / 128
    leBytes 3 l ++ leBytes 1 (n - 1) ++ (List.range 3).flatMap (fun k =>
      let f := if first + k ≤ last then s.held b.waybill (.frame layer (first + k)) else 0
      leBytes 4 (if f = 0 then 0 else f - s.forme.regionNearBase.toNat))

/-- The window tables of every press slot (R309); a row without a waybill writes nothing. -/
def writeWindows (m : PageMap) (v : Serving) (sheet : List Berth) (s : State) : State :=
  let layers := s.pool.layers
  let bytes := sheet.flatMap (fun b =>
    (List.range layers).flatMap (fun l => if b.waybill = 0xFFFF then zeros 16 else windowBytes s v.chunk l b))
  (m.windows.mapIdx (fun k a => (k, a))).foldl (fun s (k, a) => slotPut k (a * 1024) bytes s) s

/-- Positions that one row may write in a pass: the depth of a row's log lanes (R385, R386). -/
def logDepth (v : Serving) : Nat := max v.chunk (1 + v.proofMax)

/-- Where a row's position of a pass lies in the log staging ring, four passes deep (R385). DESIGN CHOICE: log entry 37. -/
def logPlace (s : State) (v : Serving) (m : LogMap) (step row k : Nat) : Nat :=
  s.mirror.logRing + ((step % 4 * v.berths + row) * logDepth v + k) * m.rowKiB

/-- The log lanes of every row for the step to come, where the map places that row's (R385). -/
def writeLogLanes (m : LogMap) (v : Serving) (step : Nat) (s : State) : State :=
  if s.mirror.logRing = 0 then s
  else
    (m.lanes.take v.berths |>.mapIdx (fun r x => (r, x))).foldl (fun (s : State) (x : Nat × LogLanes) =>
      slotPut x.2.slot (x.2.kib * 1024 + 8 * x.2.lane)
        ((List.range (logDepth v)).flatMap (fun k => leBytes 8 (addrLaneOf s (logPlace s v m step x.1 k) 0 false))) s) s

/-- Near address in KiB of livery staging slot `k` (R187, R342). -/
def stagePlace (s : State) (p : SamplerPlan) (k : Nat) : Nat :=
  s.near.poolBase.toNat - p.stageSlots * (p.stageBytes / 1024) + k * (p.stageBytes / 1024)

/-- The livery of each berth group of a sheet (R303, R343): `none` for a group without one. -/
def groupLivery (sheet : List Berth) (g : Nat) : Option Nat :=
  (sheet.find? (fun b => b.waybill != 0xFFFF && b.group.toNat == g)).map (fun b => b.livery.toNat)

/-- The livery list of a pass (R343). -/
def writeLiveryList (p : SamplerPlan) (sheet : List Berth) (s : State) : State :=
  let bytes := (List.range 64).flatMap (fun g => match groupLivery sheet g with
    | none => zeros 16
    | some k => match kget s.liv.slots k with
      | none => zeros 16
      | some x => leBytes 4 (match x.staged with
          | some n => stagePlace s p n
          | none => 0)
        ++ leBytes 1 x.rank.toNat ++ leBytes 1 x.format.toNat ++ leBytes 2 k ++ leBytes 4 x.alpha.toNat ++ zeros 4)
  writePlace p.liveryList 0 bytes s

end Sys2Proof.Machine
end

