-- ==== Sys2Proof/Machine/Sha3.lean ====
section
/-! DEFINITION. SHA3-256 and SHA3-512 (FIPS 202), which R65, R189, R339, R352, R372, R432 and R452 name. -/

namespace Sys2Proof.Machine

open Sys2Proof

/-- The round constants of Keccak-f[1600]. -/
def keccakRc : List (BitVec 64) :=
  [0x0000000000000001, 0x0000000000008082, 0x800000000000808A, 0x8000000080008000, 0x000000000000808B, 0x0000000080000001,
   0x8000000080008081, 0x8000000000008009, 0x000000000000008A, 0x0000000000000088, 0x0000000080008009, 0x000000008000000A]
  ++ [0x000000008000808B, 0x800000000000008B, 0x8000000000008089, 0x8000000000008003, 0x8000000000008002, 0x8000000000000080,
   0x000000000000800A, 0x800000008000000A, 0x8000000080008081, 0x8000000000008080, 0x0000000080000001, 0x8000000080008008]

/-- The rotation of lane x + 5y. -/
def keccakRot : List Nat :=
  [0, 1, 62, 28, 27, 36, 44, 6, 55, 20, 3, 10, 43, 25, 39, 41, 45, 15, 21, 8, 18, 2, 61, 56, 14]

/-- A lane of the state. -/
def lane (a : List (BitVec 64)) (i : Nat) : BitVec 64 := a.getD i 0

/-- One round of Keccak-f[1600]. -/
def keccakRound (a : List (BitVec 64)) (rc : BitVec 64) : List (BitVec 64) :=
  let c := (List.range 5).map (fun x => lane a x ^^^ lane a (x + 5) ^^^ lane a (x + 10) ^^^ lane a (x + 15) ^^^ lane a (x + 20))
  let d := (List.range 5).map (fun x => lane c ((x + 4) % 5) ^^^ (lane c ((x + 1) % 5)).rotateLeft 1)
  let a := (List.range 25).map (fun i => lane a i ^^^ lane d (i % 5))
  -- lane (x, y) moves to (y, 2x + 3y): lane (u, v) comes from x = u + 3v, y = u (mod 5)
  let b := (List.range 25).map (fun i =>
    let u := i % 5
    let v := i / 5
    let j := (u + 3 * v) % 5 + 5 * u
    (lane a j).rotateLeft (keccakRot.getD j 0))
  let a := (List.range 25).map (fun i =>
    let r := i / 5 * 5
    lane b i ^^^ (~~~(lane b (r + (i + 1) % 5)) &&& lane b (r + (i + 2) % 5)))
  match a with
  | x :: t => (x ^^^ rc) :: t
  | [] => []

/-- Keccak-f[1600]. -/
def keccakF (a : List (BitVec 64)) : List (BitVec 64) := keccakRc.foldl keccakRound a

/-- A block of bytes taken into the state. -/
def absorbBlock (a : List (BitVec 64)) (blk : List Byte) : List (BitVec 64) :=
  keccakF (a.mapIdx (fun i x => x ^^^ BitVec.ofNat 64 (leAt blk (8 * i) 8)))

/-- A message padded for SHA3 to whole blocks of `rate` bytes. -/
def sha3Pad (rate : Nat) (m : List Byte) : List Byte :=
  let n := rate - m.length % rate
  m ++ (if n = 1 then [0x86] else 0x06 :: zeros (n - 2) ++ [0x80])

/-- SHA3 with a rate, to `n` bytes. -/
def sha3 (rate n : Nat) (m : List Byte) : List Byte :=
  let a := (chunks rate (m.length + 1) (sha3Pad rate m)).foldl absorbBlock (List.replicate 25 0)
  (a.flatMap (fun x => leBytes 8 x.toNat)).take n

/-- SHA3-256 as bytes. -/
def sha256 (m : List Byte) : List Byte := sha3 136 32 m

/-- SHA3-512 as bytes. -/
def sha512 (m : List Byte) : List Byte := sha3 72 64 m

/-- SHA3-256 as a digest; byte i in bits [8i + 7:8i]. -/
def digestOf (m : List Byte) : Digest := BitVec.ofNat 256 (leNat (sha256 m))

/-- The 32 bytes of a digest. -/
def digestBytes (d : Digest) : List Byte := leBytes 32 d.toNat

end Sys2Proof.Machine
end

