-- ==== Sys2Proof/Machine/Signing.lean ====
section
/-! DEFINITION. The signatures that R432, R433, R446 and R447 name: Ed25519 (RFC 8032) with SHA-512, and ML-DSA-65 (FIPS 204) with
SHAKE (FIPS 202). What the standards say is taken from outside the spec: PRESUMED, log entry 161. -/

namespace Sys2Proof.Machine

open Sys2Proof

/-! ## SHAKE -/

/-- A message padded for SHAKE to whole blocks of `rate` bytes. -/
def shakePad (rate : Nat) (m : List Byte) : List Byte :=
  let n := rate - m.length % rate
  m ++ (if n = 1 then [0x9F] else 0x1F :: zeros (n - 2) ++ [0x80])

/-- Blocks read out of the state. -/
def squeeze (rate : Nat) : Nat → List (BitVec 64) → List Byte
  | 0, _ => []
  | n + 1, a => (a.flatMap (fun x => leBytes 8 x.toNat)).take rate ++ squeeze rate n (keccakF a)

/-- SHAKE with a rate, to `n` bytes. -/
def shake (rate n : Nat) (m : List Byte) : List Byte :=
  (squeeze rate (ceilDiv n rate) ((chunks rate (m.length + 1) (shakePad rate m)).foldl absorbBlock (List.replicate 25 0))).take n

/-- SHAKE256. -/
def shake256 (n : Nat) (m : List Byte) : List Byte := shake 136 n m

/-- SHAKE128. -/
def shake128 (n : Nat) (m : List Byte) : List Byte := shake 168 n m

/-! ## SHA-512 (FIPS 180-4) -/

/-- The round constants of SHA-512. -/
def shaTwoK : List (BitVec 64) :=
  [0x428a2f98d728ae22, 0x7137449123ef65cd, 0xb5c0fbcfec4d3b2f, 0xe9b5dba58189dbbc, 0x3956c25bf348b538,
   0x59f111f1b605d019, 0x923f82a4af194f9b, 0xab1c5ed5da6d8118, 0xd807aa98a3030242, 0x12835b0145706fbe,
   0x243185be4ee4b28c, 0x550c7dc3d5ffb4e2, 0x72be5d74f27b896f, 0x80deb1fe3b1696b1, 0x9bdc06a725c71235,
   0xc19bf174cf692694, 0xe49b69c19ef14ad2, 0xefbe4786384f25e3, 0x0fc19dc68b8cd5b5, 0x240ca1cc77ac9c65]
  ++ [0x2de92c6f592b0275, 0x4a7484aa6ea6e483, 0x5cb0a9dcbd41fbd4, 0x76f988da831153b5, 0x983e5152ee66dfab,
   0xa831c66d2db43210, 0xb00327c898fb213f, 0xbf597fc7beef0ee4, 0xc6e00bf33da88fc2, 0xd5a79147930aa725,
   0x06ca6351e003826f, 0x142929670a0e6e70, 0x27b70a8546d22ffc, 0x2e1b21385c26c926, 0x4d2c6dfc5ac42aed,
   0x53380d139d95b3df, 0x650a73548baf63de, 0x766a0abb3c77b2a8, 0x81c2c92e47edaee6, 0x92722c851482353b]
  ++ [0xa2bfe8a14cf10364, 0xa81a664bbc423001, 0xc24b8b70d0f89791, 0xc76c51a30654be30, 0xd192e819d6ef5218,
   0xd69906245565a910, 0xf40e35855771202a, 0x106aa07032bbd1b8, 0x19a4c116b8d2d0c8, 0x1e376c085141ab53,
   0x2748774cdf8eeb99, 0x34b0bcb5e19b48a8, 0x391c0cb3c5c95a63, 0x4ed8aa4ae3418acb, 0x5b9cca4f7763e373,
   0x682e6ff3d6b2b8a3, 0x748f82ee5defb2fc, 0x78a5636f43172f60, 0x84c87814a1f0ab72, 0x8cc702081a6439ec]
  ++ [0x90befffa23631e28, 0xa4506cebde82bde9, 0xbef9a3f7b2c67915, 0xc67178f2e372532b, 0xca273eceea26619c,
   0xd186b8c721c0c207, 0xeada7dd6cde0eb1e, 0xf57d4f7fee6ed178, 0x06f067aa72176fba, 0x0a637dc5a2c898a6,
   0x113f9804bef90dae, 0x1b710b35131c471b, 0x28db77f523047d84, 0x32caab7b40c72493, 0x3c9ebe0a15c9bebc,
   0x431d67c49c100d4c, 0x4cc5d4becb3e42b6, 0x597f299cfc657e2a, 0x5fcb6fab3ad6faec, 0x6c44198c4a475817]

/-- The first hash value of SHA-512. -/
def shaTwoStart : List (BitVec 64) :=
  [0x6a09e667f3bcc908, 0xbb67ae8584caa73b, 0x3c6ef372fe94f82b, 0xa54ff53a5f1d36f1, 0x510e527fade682d1,
   0x9b05688c2b3e6c1f, 0x1f83d9abfb41bd6b, 0x5be0cd19137e2179]

/-- Bytes as a number, the first the most significant. -/
def beNat (l : List Byte) : Nat := leNat l.reverse

/-- A number in `n` bytes, the first the most significant. -/
def beBytes (n v : Nat) : List Byte := (leBytes n v).reverse

/-- A message padded for SHA-512 to whole blocks of 128 B. -/
def shaTwoPad (m : List Byte) : List Byte :=
  m ++ 0x80 :: zeros ((239 - m.length % 128) % 128) ++ beBytes 16 (8 * m.length)

/-- The message schedule: `n` more words after the 16 latest, which come newest first. -/
def shaTwoWords : Nat → List (BitVec 64) → List (BitVec 64)
  | 0, w => w
  | n + 1, w =>
    let x := w.getD 14 0
    let y := w.getD 1 0
    let a := x.rotateRight 1 ^^^ x.rotateRight 8 ^^^ x >>> 7
    let b := y.rotateRight 19 ^^^ y.rotateRight 61 ^^^ y >>> 6
    shaTwoWords n ((b + w.getD 6 0 + a + w.getD 15 0) :: w)

/-- One round: the eight working words, the constant and the word of the schedule. -/
def shaTwoRound (v : List (BitVec 64)) (kw : BitVec 64 × BitVec 64) : List (BitVec 64) := match v with
  | [a, b, c, d, e, f, g, h] =>
    let t := h + (e.rotateRight 14 ^^^ e.rotateRight 18 ^^^ e.rotateRight 41) + ((e &&& f) ^^^ (~~~e &&& g)) + kw.1 + kw.2
    let u := (a.rotateRight 28 ^^^ a.rotateRight 34 ^^^ a.rotateRight 39) + ((a &&& b) ^^^ (a &&& c) ^^^ (b &&& c))
    [t + u, a, b, c, d + t, e, f, g]
  | _ => v

/-- A block taken into the hash value. -/
def shaTwoBlock (v : List (BitVec 64)) (blk : List Byte) : List (BitVec 64) :=
  let w := ((List.range 16).map (fun i => BitVec.ofNat 64 (beNat (sliceBytes blk (8 * i) 8)))).reverse
  List.zipWith (· + ·) v ((shaTwoK.zip (shaTwoWords 64 w).reverse).foldl shaTwoRound v)

/-- SHA-512. -/
def shaTwo (m : List Byte) : List Byte :=
  ((chunks 128 (m.length + 17) (shaTwoPad m)).foldl shaTwoBlock shaTwoStart).flatMap (fun x => beBytes 8 x.toNat)

/-! ## Ed25519 (RFC 8032, 5.1) -/

/-- The prime of the field. -/
def edPrime : Nat := 2 ^ 255 - 19

/-- The order of the base point. -/
def edOrder : Nat := 2 ^ 252 + 27742317777372353535851937790883648493

/-- The curve's constant d. -/
def edD : Nat := 37095705934669439343138083508754565189542113879843219016388785533085940283555

/-- A power of a number below a modulus; the first number bounds the bits of the exponent. -/
def powMod (m : Nat) : Nat → Nat → Nat → Nat
  | 0, _, _ => 1
  | n + 1, b, e =>
    let h := powMod m n (b * b % m) (e / 2)
    if e % 2 = 1 then b * h % m else h

/-- A power in the field. -/
def edPow (b e : Nat) : Nat := powMod edPrime 255 b e

/-- The sum of two points. -/
def edAdd (a b : Nat × Nat) : Nat × Nat :=
  let k := edD * (a.1 * b.1 % edPrime) * (a.2 * b.2 % edPrime) % edPrime
  ((a.1 * b.2 + b.1 * a.2) * edPow (1 + k) (edPrime - 2) % edPrime,
   (a.2 * b.2 + a.1 * b.1) * edPow (edPrime + 1 - k) (edPrime - 2) % edPrime)

/-- A multiple of a point; the first number bounds the bits of the factor. -/
def edTimes : Nat → Nat → Nat × Nat → Nat × Nat
  | 0, _, _ => (0, 1)
  | n + 1, k, a =>
    let h := edTimes n (k / 2) (edAdd a a)
    if k % 2 = 1 then edAdd a h else h

/-- The base point. -/
def edBase : Nat × Nat :=
  (15112221349535400772501151409588531511454012693041857206046113283949847762202,
   46316835694926478169428394003475163141307993866256225615783033603165251855960)

/-- A point as 32 bytes. -/
def edEncode (a : Nat × Nat) : List Byte := leBytes 32 (a.2 + 2 ^ 255 * (a.1 % 2))

/-- The point that 32 bytes encode. -/
def edDecode (l : List Byte) : Option (Nat × Nat) :=
  let v := leNat l
  let y := v % 2 ^ 255
  let odd := v / 2 ^ 255
  let u := (y * y + edPrime - 1) % edPrime
  let w := (edD * (y * y % edPrime) + 1) % edPrime
  let x := u * edPow w 3 * edPow (u * edPow w 7 % edPrime) ((edPrime - 5) / 8) % edPrime
  let z := w * (x * x) % edPrime
  let x := if z = u then some x else if z = (edPrime - u) % edPrime then some (x * edPow 2 ((edPrime - 1) / 4) % edPrime) else none
  match x with
  | some x =>
    if edPrime ≤ y || l.length != 32 || (x == 0 && odd == 1) then none
    else some (if x % 2 = odd then x else edPrime - x, y)
  | none => none

/-- The factor and the prefix of a private key. -/
def edExpand (key : List Byte) : Nat × List Byte :=
  let h := shaTwo key
  (leAt h 0 32 % 2 ^ 254 / 8 * 8 + 2 ^ 254, sliceBytes h 32 32)

/-- The public key of a private key. -/
def edPublic (key : List Byte) : List Byte := edEncode (edTimes 255 (edExpand key).1 edBase)

/-- The challenge of a signature: the first point, the public key and the message. -/
def edChallenge (r key m : List Byte) : Nat := leNat (shaTwo (r ++ key ++ m)) % edOrder

/-- The Ed25519 signature of a message. -/
@[irreducible] def edSign (key m : List Byte) : List Byte :=
  let (a, pre) := edExpand key
  let r := leNat (shaTwo (pre ++ m)) % edOrder
  let point := edEncode (edTimes 253 r edBase)
  point ++ leBytes 32 ((r + edChallenge point (edPublic key) m * a) % edOrder)

/-- Whether an Ed25519 signature verifies: key, message, signature. -/
@[irreducible] def edVerify (key m sig : List Byte) : Bool :=
  let r := sig.take 32
  let t := leNat (sig.drop 32)
  match edDecode key, edDecode r with
  | some a, some b =>
    sig.length == 64 && decide (t < edOrder)
      && edTimes 4 8 (edTimes 253 t edBase) == edTimes 4 8 (edAdd b (edTimes 253 (edChallenge r key m) a))
  | _, _ => false

/-! ## ML-DSA-65 (FIPS 204) -/

/-- The modulus q. A polynomial is the list of its 256 coefficients below q. -/
def dsaQ : Nat := 8380417

/-- γ1, and γ2, half the step of the high bits. -/
def dsaMask : Nat := 2 ^ 19
def dsaHalf : Nat := 261888

/-- The exponent of the root of the transform's place `j`: 2 brv(j) + 1. -/
def dsaTurn (j : Nat) : Nat := 2 * sumOf ((List.range 8).map (fun b => j / 2 ^ b % 2 * 2 ^ (7 - b))) + 1

/-- The root of 1 whose odd powers are the transform's points, to a power. -/
def dsaRoot (e : Nat) : Nat := powMod dsaQ 9 1753 (e % 512)

/-- The value of a polynomial. -/
def dsaAt (f : List Nat) (x : Nat) : Nat := f.foldr (fun c v => (c + x * v) % dsaQ) 0

/-- The transform NTT: the values at the roots. -/
def dsaNtt (f : List Nat) : List Nat := (List.range 256).map (fun j => dsaAt f (dsaRoot (dsaTurn j)))

/-- The polynomial of a transform: 1/256 of the sum over the roots. -/
def dsaBack (f : List Nat) : List Nat :=
  let g := (f.zipIdx).map (fun x => (x.1, dsaTurn x.2))
  (List.range 256).map (fun k => 8347681 * sumOf (g.map (fun x => x.1 * dsaRoot (512 - x.2 * k % 512) % dsaQ)) % dsaQ)

/-- Sums, differences and products place by place. -/
def dsaAdd (f g : List Nat) : List Nat := List.zipWith (fun a b => (a + b) % dsaQ) f g
def dsaSub (f g : List Nat) : List Nat := List.zipWith (fun a b => (a + dsaQ - b) % dsaQ) f g
def dsaMul (f g : List Nat) : List Nat := List.zipWith (fun a b => a * b % dsaQ) f g

/-- A row of transforms times a column of them. -/
def dsaDot (row v : List (List Nat)) : List Nat := (List.zipWith dsaMul row v).foldl dsaAdd (List.replicate 256 0)

/-- Numbers packed in `w` bits each, the first lowest. -/
def dsaPack (w : Nat) (l : List Nat) : List Byte := leBytes (ceilDiv (w * l.length) 8) (l.foldr (fun x v => x + 2 ^ w * v) 0)

/-- `n` numbers of `w` bits each. -/
def dsaUnpack (w n : Nat) (l : List Byte) : List Nat := let v := leNat l; (List.range n).map (fun i => v / 2 ^ (w * i) % 2 ^ w)

/-- RejNTTPoly: the first 256 numbers below q of three bytes each. -/
def dsaUniform (seed : List Byte) : List Nat :=
  let b := shake128 1344 seed
  (((List.range 448).map (fun i => leAt b (3 * i) 3 % 2 ^ 23)).filter (· < dsaQ)).take 256

/-- ExpandA: the six rows of five transforms. -/
def dsaMatrix (rho : List Byte) : List (List (List Nat)) :=
  (List.range 6).map (fun r => (List.range 5).map (fun c => dsaUniform (rho ++ [BitVec.ofNat 8 c, BitVec.ofNat 8 r])))

/-- RejBoundedPoly: the first 256 half bytes below 9, each 4 less the half byte. -/
def dsaSmall (seed : List Byte) : List Nat :=
  (((shake256 1088 seed).flatMap (fun b => [b.toNat % 16, b.toNat / 16])).filter (· < 9)).take 256 |>.map (fun x => (dsaQ + 4 - x) % dsaQ)

/-- A coefficient taken between −q/2 and q/2: its size. -/
def dsaSize (c : Nat) : Nat := min c (dsaQ - c)

/-- Whether every coefficient of a vector is below a bound in size. -/
def dsaBelow (n : Nat) (v : List (List Nat)) : Bool := v.all (·.all (fun c => decide (dsaSize c < n)))

/-- Decompose: the high bits, and whether the low bits are above zero, and their size. -/
def dsaParts (c : Nat) : Nat × Bool × Nat :=
  let low := c % (2 * dsaHalf)
  let up := decide (dsaHalf < low)
  let high := c / (2 * dsaHalf) + if up then 1 else 0
  let size := if up then 2 * dsaHalf - low else low
  if high = 16 then (0, false, size + 1) else (high, !up && decide (0 < low), size)

/-- HighBits. -/
def dsaHigh (c : Nat) : Nat := (dsaParts c).1

/-- UseHint. -/
def dsaUse (hint : Bool) (c : Nat) : Nat :=
  let (h, up, _) := dsaParts c
  if !hint then h else if up then (h + 1) % 16 else (h + 15) % 16

/-- SampleInBall, from place 207 on: the bytes left to read, the signs and the polynomial. -/
def dsaShuffle : Nat → Nat → Nat → List Byte → List Nat → List Nat
  | 0, _, _, _, c => c
  | n + 1, i, signs, l, c =>
    match l.dropWhile (fun b => decide (i < b.toNat)) with
    | [] => c
    | b :: l => dsaShuffle n (i + 1) (signs / 2) l ((c.set i (c.getD b.toNat 0)).set b.toNat (if signs % 2 = 1 then dsaQ - 1 else 1))

/-- SampleInBall: 49 coefficients 1 or −1. -/
def dsaBall (seed : List Byte) : List Nat :=
  let l := shake256 1088 seed
  dsaShuffle 49 207 (leAt l 0 8) (l.drop 8) (List.replicate 256 0)

/-- The hash of a message under the hash of a public key: empty context (R432). -/
def dsaMu (tr m : List Byte) : List Byte := shake256 64 (tr ++ [0, 0] ++ m)

/-- The hash c~ of a message's hash and the high bits of w. -/
def dsaCommit (mu : List Byte) (high : List (List Nat)) : List Byte := shake256 48 (mu ++ high.flatMap (dsaPack 4))

/-- The key pair of KeyGen_internal. -/
structure DsaKey where
  rho : List Byte
  prf : List Byte
  tr : List Byte
  pub : List Byte
  s1 : List (List Nat)
  s2 : List (List Nat)
  t0 : List (List Nat)
  deriving DecidableEq, Repr

/-- ML-DSA.KeyGen_internal. -/
def dsaKeyGen (xi : List Byte) : DsaKey :=
  let h := shake256 128 (xi ++ [6, 5])
  let rho := sliceBytes h 0 32
  let seed := sliceBytes h 32 64
  let s1 := (List.range 5).map (fun r => dsaSmall (seed ++ leBytes 2 r))
  let s2 := (List.range 6).map (fun r => dsaSmall (seed ++ leBytes 2 (r + 5)))
  let v := s1.map dsaNtt
  let t := List.zipWith (fun row x => dsaAdd (dsaBack (dsaDot row v)) x) (dsaMatrix rho) s2
  let t1 := t.map (·.map (fun c => (c + 4095) / 8192))
  let pub := rho ++ t1.flatMap (dsaPack 10)
  ⟨rho, sliceBytes h 96 32, shake256 64 pub, pub, s1, s2,
    List.zipWith (fun f g => List.zipWith (fun a b => (a + dsaQ - 8192 * b % dsaQ) % dsaQ) f g) t t1⟩

/-- The hints of a signature packed: the places, and where each polynomial's end. -/
def dsaHints (h : List (List Bool)) : List Byte :=
  let places := h.map (fun f => (f.zipIdx).filterMap (fun x => if x.1 then some (BitVec.ofNat 8 x.2) else none))
  let l := places.flatten
  l ++ zeros (55 - l.length) ++ (List.range 6).map (fun i => BitVec.ofNat 8 (places.take (i + 1)).flatten.length)

/-- Whether places rise. -/
def rising : List Byte → Bool
  | a :: b :: l => decide (a < b) && rising (b :: l)
  | _ => true

/-- The hints that 61 bytes pack. -/
def dsaHintsOf (y : List Byte) : Option (List (List Bool)) :=
  let ends := 0 :: (y.drop 55).map (·.toNat)
  let parts := (List.range 6).map (fun i => (y.take (ends.getD (i + 1) 0)).drop (ends.getD i 0))
  if (List.range 6).all (fun i => decide (ends.getD i 0 ≤ ends.getD (i + 1) 0) && decide (ends.getD (i + 1) 0 ≤ 55))
      && parts.all rising && ((y.take 55).drop (ends.getD 6 0)).all (· == 0) then
    some (parts.map (fun l => (List.range 256).map (fun j => l.contains (BitVec.ofNat 8 j))))
  else none

/-- One attempt of a signature, with the counter κ. -/
def dsaTry (k : DsaKey) (mu seed : List Byte) (kappa : Nat) : Option (List Byte) :=
  let y := (List.range 5).map (fun r =>
    (dsaUnpack 20 256 (shake256 640 (seed ++ leBytes 2 (kappa + r)))).map (fun x => (dsaQ + dsaMask - x) % dsaQ))
  let v := y.map dsaNtt
  let w := (dsaMatrix k.rho).map (fun row => dsaBack (dsaDot row v))
  let ch := dsaCommit mu (w.map (·.map dsaHigh))
  let c := dsaNtt (dsaBall ch)
  let times := fun f => dsaBack (dsaMul c (dsaNtt f))
  let z := List.zipWith (fun a f => dsaAdd a (times f)) y k.s1
  let r := List.zipWith (fun a f => dsaSub a (times f)) w k.s2
  let ct := k.t0.map times
  let hint := List.zipWith (fun a b => List.zipWith (fun x y => dsaHigh ((x + y) % dsaQ) != dsaHigh x) a b) r ct
  if dsaBelow (dsaMask - 196) z && r.all (·.all (fun x => decide ((dsaParts x).2.2 < dsaHalf - 196))) && dsaBelow dsaHalf ct
      && decide ((hint.map (·.count true)).sum ≤ 55) then
    some (ch ++ z.flatMap (fun f => dsaPack 20 (f.map (fun x => (dsaMask + dsaQ - x) % dsaQ))) ++ dsaHints hint)
  else none

/-- The first attempt that gives a signature. -/
def dsaTries (k : DsaKey) (mu seed : List Byte) : Nat → Nat → Option (List Byte)
  | 0, _ => none
  | n + 1, kappa => match dsaTry k mu seed kappa with
    | some g => some g
    | none => dsaTries k mu seed n (kappa + 5)

/-- ML-DSA.Sign with an empty context: key, the random bytes and the message; `none` after 814 attempts, the bound of FIPS 204. -/
@[irreducible] def mldsaSign (k : DsaKey) (rnd m : List Byte) : Option (List Byte) :=
  let mu := dsaMu k.tr m
  dsaTries k mu (shake256 64 (k.prf ++ rnd ++ mu)) 814 0

/-- Whether an ML-DSA-65 signature verifies with an empty context: key, message, signature. -/
@[irreducible] def mldsaVerify (key m sig : List Byte) : Bool :=
  let t1 := (List.range 6).map (fun i => dsaUnpack 10 256 (sliceBytes key (32 + 320 * i) 320))
  let z := (List.range 5).map (fun i =>
    (dsaUnpack 20 256 (sliceBytes sig (48 + 640 * i) 640)).map (fun x => (dsaQ + dsaMask - x) % dsaQ))
  match dsaHintsOf (sliceBytes sig 3248 61) with
  | none => false
  | some hint =>
    let c := dsaNtt (dsaBall (sig.take 48))
    let v := z.map dsaNtt
    let w := List.zipWith (fun row t =>
      dsaBack (dsaSub (dsaDot row v) (dsaMul c (dsaNtt (t.map (fun x => 8192 * x % dsaQ)))))) (dsaMatrix (key.take 32)) t1
    let high := List.zipWith (fun h f => List.zipWith dsaUse h f) hint w
    key.length == 1952 && sig.length == 3309 && dsaBelow (dsaMask - 196) z
      && dsaCommit (dsaMu (shake256 64 key) m) high == sig.take 48

/-! ## The module's keys (R446, R447) -/

/-- ASCII bytes. -/
def asciiBytes (l : List Char) : List Byte := l.map (fun c => BitVec.ofNat 8 c.toNat)

/-- The fused secret's first 32 bytes of SHAKE256 with a string (R446). -/
def derived (name : List Char) : List Byte := shake256 32 (digestBytes Config.fusedSecret ++ asciiBytes name)

/-- The module's Ed25519 private key (R446). -/
@[irreducible] def moduleEdKey : List Byte := derived ['K', 'V', '9', '6', ' ', 'E', 'D', '2', '5', '5', '1', '9']

/-- The module's ML-DSA-65 key pair (R446). -/
@[irreducible] def moduleDsaKey : DsaKey := dsaKeyGen (derived ['K', 'V', '9', '6', ' ', 'M', 'L', 'D', 'S', 'A', '6', '5'])

/-- SHA3-256 of the Ed25519 public key (R447). -/
@[irreducible] def edKeyId : Digest := digestOf (edPublic moduleEdKey)

/-- SHA3-256 of the ML-DSA-65 public key (R447). -/
@[irreducible] def mldsaKeyId : Digest := digestOf moduleDsaKey.pub

/-- The Ed25519 signature of the ROM's service over a message (R447). -/
def edSignature (m : List Byte) : List Byte := edSign moduleEdKey m

/-- The ML-DSA-65 signature of the ROM's service over a message (R447). The random bytes are free, and so is what stands where 814
attempts give none: log entry 161. -/
def mldsaSignature (m : List Byte) : List Byte :=
  (mldsaSign moduleDsaKey ((List.range 32).map (Config.signRandom m)) m).getD ((List.range 3309).map (Config.signFailed m))

end Sys2Proof.Machine
end

