-- ==== Sys2Proof/Machine/Boot.lean ====
section
/-! DEFINITION. Firmware images (R431 to R436): their header, their verification, where they lie, and the handover records
(R439). -/

namespace Sys2Proof.Machine

open Sys2Proof

/-! ## Images (R432, R433) -/

/-- First KiB of the firmware area of the near tier (R187, R436). -/
def fwArea : Nat := 4227072

/-- Header fields of an image (R432). -/
def imgRelease (img : List Byte) : Nat := leAt img 8 4
def imgRollback (img : List Byte) : Nat := leAt img 12 1
def imgAbi (img : List Byte) : Nat := leAt img 14 2
def imgRecordMin (img : List Byte) : Nat := leAt img 16 2
def imgRecordMax (img : List Byte) : Nat := leAt img 18 2
def imgBody (img : List Byte) : Nat := leAt img 20 4

/-- Segment table entry of a box: OFFSET, LENGTH, the word that is zero, and the digest. -/
def imgSegment (img : List Byte) (b : Nat) : Nat × Nat × Nat × List Byte :=
  (leAt img (48 * b + 64) 4, leAt img (48 * b + 68) 4, leAt img (48 * b + 76) 4, sliceBytes img (48 * b + 80) 32)

/-- ENTRY of a box's segment (R432). -/
def imgEntry (img : List Byte) (b : Nat) : Nat := leAt img (48 * b + 72) 4

/-- Watchdog timeout of a box under a release, in µs: 1 ms to 10,000 ms (R430). -/
def watchdogTimeout (release : BitVec 32) (b : Nat) : BitVec 32 := BitVec.ofNat 32 (max 1000 (min 10000000 (Config.watchdogRaw release b)))

/-- The bytes of a box's segment. -/
def segmentBytes (img : List Byte) (b : Nat) : List Byte :=
  let (off, len, _) := imgSegment img b
  sliceBytes img off len

/-- IMAGE_DIGEST (R432). -/
def imageDigest (img : List Byte) : List Byte :=
  sha512 (sliceBytes img 0 512 ++ (List.range 6).flatMap (segmentBytes img))

/-- Bytes of a range that are all zero. -/
def zeroRange (img : List Byte) (off n : Nat) : Bool := (sliceBytes img off n).all (· == 0)

/-- Whether two ranges given by offset and length are apart. -/
def rangesApart : List (Nat × Nat) → Bool
  | [] => true
  | x :: l => l.all (fun y => decide (x.1 + x.2 ≤ y.1) || decide (y.1 + y.2 ≤ x.1)) && rangesApart l

/-- Step 1 of R433: MAGIC, HEADER_VERSION, the zero fields and the segment table. -/
def imageForm (img : List Byte) : Bool :=
  let segs := (List.range 6).map (imgSegment img)
  leAt img 0 4 == 0x4D494256 && leAt img 4 2 == 1 && decide (imgRollback img ≤ 64)
    && decide (imgRecordMin img ≤ imgRecordMax img) && decide (8192 + imgBody img ≤ img.length)
    && [(6, 2), (13, 1), (24, 40), (352, 160), (608, 416), (2976, 96), (6381, 1811)].all (fun r => zeroRange img r.1 r.2)
    && segs.all (fun g => decide (8192 ≤ g.1) && g.1 % 64 == 0 && decide (1 ≤ g.2.1) && decide (g.2.1 ≤ 524288)
      && decide (g.1 + g.2.1 ≤ 8192 + imgBody img) && g.2.2.1 == 0)
    && rangesApart (segs.map (fun g => (g.1, g.2.1)))

/-- The first step of R433 that an image fails; 0 for a valid one. -/
def verifyImage (rollback : Nat) (img : List Byte) : Nat :=
  let edKey := sliceBytes img 512 32
  let mldsaKey := sliceBytes img 1024 1952
  if !imageForm img then 1
  else if sha256 edKey != digestBytes Config.vendorEdDigest || sha256 mldsaKey != digestBytes Config.vendorMldsaDigest then 2
  else if imgRollback img < rollback then 3
  else if (List.range 6).any (fun b => sha256 (segmentBytes img b) != (imgSegment img b).2.2.2) then 4
  else if !edVerify edKey (imageDigest img) (sliceBytes img 544 64) then 5
  else if !mldsaVerify mldsaKey (imageDigest img) (sliceBytes img 3072 3309) then 6
  else 0

/-- The bytes of an image that a header with a good MAGIC says it has, read from a store of at most `room` bytes. -/
def imageAt (read : Nat → Nat → List Byte) (room : Nat) : List Byte :=
  let head := read 0 8192
  if leAt head 0 4 = 0x4D494256 && 8192 + imgBody head ≤ room then head ++ read 8192 (imgBody head) else head

/-- The image in the flash (R431). -/
def flashImage (s : State) : List Byte := imageAt (fun a n => memRead blankFlash s.nv.flash a n) (16 * 2 ^ 20)

/-- First byte of an image slot of the near tier (R436). -/
def slotBase (b : Bool) : Nat := (fwArea + 4096 * bit b) * 1024

/-- The running copy (R436). -/
def runningCopy (s : State) : List Byte :=
  imageAt (fun a n => memRead blank s.boxMem (slotBase s.fw.runningSlot + a) n) (4 * 2 ^ 20)

/-- An image written into an image slot. One longer than the slot's 4 MiB, which only a recovery can bring, is cut there (log
entry 156). -/
def putImageSlot (b : Bool) (img : List Byte) (s : State) : State := nearPut (slotBase b) (img.take (4 * 2 ^ 20)) s

/-- A box that starts from its segment of an image: the segment is in its SRAM, and it starts at ENTRY (R433, R439). -/
def startBox (img : List Byte) (b : Nat) (x : SbState) : SbState :=
  { x with state := 0, timeout := watchdogTimeout (BitVec.ofNat 32 (imgRelease img)) b, sram := segmentBytes img b
           entry := BitVec.ofNat 32 (imgEntry img b), spoiled := false }

/-- A box that restarts alone: its segment comes from the running copy and is checked against its digest (R430, R436). -/
def reloadBox (img : List Byte) (b : Nat) (x : SbState) : SbState :=
  { x with state := 2, sram := segmentBytes img b, entry := BitVec.ofNat 32 (imgEntry img b)
           spoiled := sha256 (segmentBytes img b) != (imgSegment img b).2.2.2 }

/-! ## Handover records (R439) -/

/-- The handover record of a box. What its body holds is the firmware's own: a free value (log entry 43). -/
def writeRecord (b : Nat) (s : State) : State :=
  let (v, s) := s.draw
  let body := leBytes 8 v.toNat
  nearPut ((fwArea + 8192 + 512 * b) * 1024)
    (leBytes 2 (imgRecordMax s.fw.image) ++ leBytes 2 b ++ leBytes 4 s.fw.running.toNat ++ leBytes 8 s.rings.edTerminus.toNat
      ++ leBytes 4 body.length ++ sha256 body ++ body) s

/-- A pending handover begins (R439): SB0 takes no descriptors, and every box writes its record. -/
def beginHandover (s : State) : State :=
  let s := { s with fw.handoverPending := false, fw.boot := .handover, fw.boxes := s.fw.boxes.map (fun b => { b with state := 1 }) }
  (List.range 6).foldl (fun s b => writeRecord b s) s

end Sys2Proof.Machine
end

