-- ==== Sys2Proof/Machine/Edition.lean ====
section
/-! DEFINITION. The edition page (R425, R426) and the completions that wait for it (R415). -/

namespace Sys2Proof.Machine

open Sys2Proof

/-- FORME_STATUS.STATE. -/
def formeCode : FormeState → Nat
  | .none => 0
  | .loaded => 1
  | .imposed => 2
  | .started => 3

/-- The code of a waybill's state (R299). -/
def wbCode : WbState → Nat
  | .free => 0
  | .queued => 1
  | .prefill => 2
  | .decode => 3
  | .stabled => 4
  | .cancelled => 5
  | .expired => 6
  | .done => 7
  | .faulted => 8

/-- Waybills in each state, of the 65,535 entries (WB_STATE_COUNT). -/
def stateCounts (t : KMap Waybill) : Vector (BitVec 17) 9 :=
  Vector.ofFn (fun i =>
    let n := (t.filter (fun w => wbCode w.2.state == i.val)).length
    BitVec.ofNat 17 (if i.val = 0 then 65535 - (t.filter (fun w => w.2.state != .free)).length else n))

/-- Bytes 8 to 163 of the edition page (R425). -/
def editionHead (s : State) : List Byte :=
  leBytes 8 s.rings.edTerminus.toNat ++ leBytes 1 s.rings.edAttempt.toNat ++ leBytes 1 (formeCode s.forme.state)
    ++ leBytes 1 s.power.point.toNat ++ zeros 1 ++ leBytes 4 s.eng.choicesShown
    ++ leBytes 8 s.rings.edLaunch.toNat ++ leBytes 8 s.rings.edStation.toNat ++ (s.eng.counts.toList.map (fun c => leBytes 4 c.toNat)).flatten
    ++ leBytes 16 s.rings.straggle.toNat ++ leBytes 4 s.eng.closedShown.length ++ leBytes 4 s.eng.admittedShown
    ++ leBytes 32 (if s.loaded then s.forme.digest.toNat else 0)
    ++ leBytes 32 (if s.forme.sealed then s.forme.weightDigest.toNat else 0)

/-- The closure map and the published indexes, on the desk chip and on a chip with no forme loaded (R301); zeros on a stage
chip (R425). -/
def editionMaps (s : State) : List Byte :=
  if s.isDesk || !s.loaded then
    leBytes 8192 (s.eng.closedShown.foldl (fun m w => m ||| 2 ^ w) 0)
      ++ (List.range 4096).flatMap (fun r => leBytes 4 (match kget s.rings.out r with
        | some x => x.producer.toNat
        | none => 0))
  else zeros 24576

/-- Completions that take effect with the edition just written (R415). -/
def postAtEdition (s : State) : State :=
  let l := s.rings.atEdition
  l.foldl (fun s c => post c s) { s with rings.atEdition := [] }

/-- Page frames that waybills hold on this chip (WB_FRAMES). -/
def framesHeld (s : State) : Nat := (s.eng.allocs.filter (fun x => match x.kind with
  | .frame _ _ => true
  | _ => false)).length

/-- What the table window, WAYBILL_QUERY, WB_STATE_COUNT, WB_ENGINE and WB_FRAMES show until the next commit (R296, R301,
R326), with the edition that is about to report it. -/
def showTable (s : State) : State :=
  { s with rings.edTable := s.rings.edition + 2, eng.counts := stateCounts s.eng.table, eng.shown := s.eng.table
           eng.shownHeld := framesHeld s, eng.shownRanking := !s.eng.ranking.isEmpty }

/-- One entry shown as it is: a change that takes effect at once, with its own edition (R301). -/
def showEntry (i : Nat) (s : State) : State :=
  let shown := match kget s.eng.table i with
    | some w => kset i w s.eng.shown
    | none => kdel i s.eng.shown
  { s with rings.edTable := s.rings.edition + 2, eng.shown := shown, eng.counts := stateCounts shown }

/-- The closes, admissions and timing choices of a terminus become those that its edition reports, and those of every edition
until the next commit (R64, R425). -/
def reportTerminus (s : State) : State :=
  { s with
    eng.closedShown := s.eng.closedNow, eng.admittedShown := s.eng.admittedNow, eng.choicesShown := s.eng.choicesNow
    eng.closedNow := [], eng.admittedNow := 0, eng.choicesNow := 0 }

/-- A new edition (R426): COUNTER odd, every other byte, COUNTER even, EDITION_MIRROR. The page is written while
EDITION_PTR is enabled; the counter rises by 2 in any case (log entry 34). It names the last terminus committed, and reports
what that commit did. -/
def writeEdition (s : State) : State :=
  let e := s.rings.edition
  let base := s.rings.edBase.toNat * 1024
  let page := editionHead s ++ zeros (4096 - 164) ++ editionMaps s ++ zeros 4096
  let s := if s.rings.edEnable then
      sharedWrite base (leBytes 8 (e + 2).toNat) (sharedWrite (base + 8) page (sharedWrite base (leBytes 8 (e + 1).toNat) s))
    else s
  postAtEdition { sharedMirror (e + 2) s with rings.edition := e + 2 }

end Sys2Proof.Machine
end

