-- ==== Sys2Proof/Machine/Command.lean ====
section
/-! DEFINITION. What every companion command does first (R8, R414, R415, R419): its parameters, its reserved fields, its
block and its reply area. -/

namespace Sys2Proof.Machine

open Sys2Proof

/-- `n` bytes of a descriptor at byte `off`, from 24 to 63 (R419). -/
def pArg (d : Descriptor) (off n : Nat) : Nat := fld d.p.toNat (8 * (off - 24)) (8 * n)

/-- The bits of P that a command uses, given as pairs of first byte and bytes. -/
def pMask (used : List (Nat × Nat)) : BitVec 320 :=
  used.foldl (fun m u => m ||| BitVec.ofNat 320 ((2 ^ (8 * u.2) - 1) * 2 ^ (8 * (u.1 - 24)))) 0

/-- Reserved fields of a descriptor are zero (R419). -/
def descOk (d : Descriptor) (used : List (Nat × Nat)) : Bool :=
  d.flags.toNat / 2 == 0 && d.reserved == 0 && d.p &&& ~~~(pMask used) == 0

/-- A command that is carried out leaves the list of those taken. -/
def cmdBegin (d : Descriptor) (s : State) : State := { s with rings.taken := s.rings.taken.erase d }

/-- Whether a command's reply area of `kib` KiB lies wholly in the shared window (R404, R419). -/
def replyOk (s : State) (d : Descriptor) (kib : Nat) : Bool :=
  d.reply != 0 && decide (d.reply.toNat + kib ≤ s.kcl.sharedSize.toNat)

/-- Whether a descriptor names a parameter block (R419). -/
def hasBlock (d : Descriptor) : Bool := d.block != 0 && d.blockLength != 0

/-- A command whose reserved fields are zero is carried out by `run`; another completes with BAD_PARAM (R8, R419). -/
def command (d : Descriptor) (used : List (Nat × Nat)) (run : State → State) (s : State) : State :=
  let s := cmdBegin d s
  if descOk d used then run s else finish d stBadParam 0 s

/-- A command that takes a block: BAD_PARAM without one, INTERNAL where its bytes could not all be read (R410, R419). -/
def commandBlk (d : Descriptor) (used : List (Nat × Nat)) (blk : List Byte) (run : State → State) (s : State) : State :=
  command d used (fun s =>
    if !hasBlock d then finish d stBadParam 0 s
    else if blk.length < d.blockLength.toNat then finish d stInternal 0 s
    else run s) s

/-- A command that writes a reply of `kib` KiB: BAD_PARAM where the area is absent or too small (R419). -/
def commandReply (d : Descriptor) (used : List (Nat × Nat)) (kib : Nat) (run : State → State) (s : State) : State :=
  command d used (fun s => if replyOk s d kib then run s else finish d stBadParam 0 s) s

/-! ## Reads of companion memory (R401, R409, R435) -/

/-- MEM_RDs in flight at most: DESIGN CHOICE, log entry 51. -/
def readsInFlight : Nat := 64

/-- MEM_RDs sent for the blocks still wanted, in pieces of at most 1,024 B (R401, R409). -/
def issueReads : Nat → State → State
  | 0, s => s
  | n + 1, s =>
    if readsInFlight ≤ s.kcl.reads.length then s else match s.kcl.want with
    | [] => s
    | w :: rest =>
      let used := s.kcl.reads.map (fun r => r.tag.toNat)
      let tag := BitVec.ofNat 16 (((List.range (readsInFlight + 1)).find? (fun t => !used.contains t)).getD 0)
      let k := (min w.len 1024 + 63) / 64 * 64
      issueReads n (kclSend ⟨0x09, false, tag, spaceAddr 3 w.addr, [], k⟩
        { s with
          kcl.reads := s.kcl.reads ++ [⟨tag, w.cmd, w.off⟩]
          kcl.want := if w.len ≤ 1024 then rest
            else { w with addr := w.addr + 1024, len := w.len - 1024, off := w.off.map (· + 1024) } :: rest })

/-- The ROM reads an image of `n` bytes at an address of companion memory (R435). -/
def romReads (addr n : Nat) (s : State) : State :=
  if !s.kclUp then s else issueReads readsInFlight { s with kcl.want := s.kcl.want ++ [⟨none, addr, n, some 0⟩] }

/-- The ROM reads nothing more. -/
def endRomReads (s : State) : State :=
  { s with kcl.reads := s.kcl.reads.filter (fun r => r.cmd.isSome), kcl.want := s.kcl.want.filter (fun w => w.cmd.isSome) }

/-! ## Forme and weight commands (R350, R377, R378) -/

/-- Refusal reasons of R377. -/
def frStructure : Nat := 0x01
def frRelease : Nat := 0x02
def frChip : Nat := 0x03
def frGid : Nat := 0x04
def frDigest : Nat := 0x05
def frRule : Nat := 0x06
def frUnavailable : Nat := 0x07
def frEnvelope : Nat := 0x08
def frPlacement : Nat := 0x09
def frSelf : Nat := 0x20
def frBinding : Nat := 0x21
def frKeys : Nat := 0x22
def frNoRoute : Nat := 0x23
def frRouteLength : Nat := 0x24
def frRouteMismatch : Nat := 0x25
def frState : Nat := 0x3F

/-- Whether a command is a forme or a weight command (R350). -/
def isFormeCommand (d : Descriptor) : Bool :=
  let op := d.opcode.toNat
  (decide (0x0101 ≤ op) && decide (op ≤ 0x0105)) || (decide (0x0201 ≤ op) && decide (op ≤ 0x0204))

/-- WEIGHT_STATUS at the completion of a weight command (R378). -/
def showPresent (d : Descriptor) (s : State) : State :=
  if d.opcode.toNat / 256 = 2 then { s with forme.presentShown := s.forme.present.length } else s

/-- A forme or weight command that fails, with its reason (R377). -/
def formeRefuse (d : Descriptor) (status : BitVec 16) (reason : Nat) (s : State) : State :=
  finishReason d status reason 0 (showPresent d { s with forme.reason := BitVec.ofNat 8 reason })

/-- A forme or weight command that completes with DONE. -/
def formeDone (d : Descriptor) (result : Nat) (s : State) : State :=
  finish d stDone result (showPresent d { s with forme.reason := 0 })

/-- A change made while no forme is started writes a new edition at once, where the edition page shows it (R426). -/
def pageChange (old new : State) : State :=
  if (old.forme.state == .started && new.forme.state == .started) || editionHead old == editionHead new then new else writeEdition new

/-- A forme or weight command that completes with QUEUED. -/
def formeQueued (d : Descriptor) (s : State) : State := queued d 0 { s with forme.reason := 0 }

/-- A command whose reads of companion memory have failed (R410, R419): a forme or weight command records its REASON. -/
def readFailed (d : Descriptor) (s : State) : State :=
  if isFormeCommand d then formeRefuse d stInternal frStructure s else finish d stInternal 0 s

/-- Tensors made absent. -/
def dropTensors (l : List Nat) (s : State) : State :=
  { s with forme.present := s.forme.present.filter (fun x => !l.contains x.1) }

/-- Whether a forme or weight command that was accepted earlier has not completed: a FABRIC load or a broadcast that is open, or one that is
still taken, reading its block or its sources (R350). -/
def earlierRuns (d : Descriptor) (s : State) : Bool :=
  s.forme.fabricLoad.isSome || s.forme.broadcast.isSome || (s.rings.taken.takeWhile (· != d)).any isFormeCommand

/-- Whether the weight set takes tensors (R371). -/
def weightsOpen (s : State) : Bool := s.loaded && s.forme.state != .started && !s.forme.sealed

/-- Tensors that the block of a command that may load weights names; none for another command (R371). -/
def blockTensors (d : Descriptor) (blk : List Byte) (s : State) : List Nat :=
  let first := if d.opcode.toNat = 0x0202 then 16 * pArg d 24 1 else 0
  if (d.opcode.toNat = 0x0201 || d.opcode.toNat = 0x0202) && weightsOpen s && !earlierRuns d s then
    (List.range ((blk.length - first) / 64)).map (fun i => leAt blk (first + 64 * i) 4)
  else []

/-- A command's block as far as it has been read. -/
def blockRead (d : Descriptor) (s : State) : List Byte :=
  let parts := (s.kcl.got.filter (fun g => g.1 == d)).map (·.2)
  ((sortBy (fun (a b : Nat × List Byte) => decide (a.1 ≤ b.1)) parts).flatMap (·.2)).take d.blockLength.toNat

/-- A command whose reads of companion memory have failed, with no tensor of its list present (R371, R410): `was` is the state in which its
block stands as far as it has been read. -/
def readsFailed (d : Descriptor) (was s : State) : State := readFailed d (dropTensors (blockTensors d (blockRead d was) was) s)

/-! ## Results -/

/-- The value that lies at bytes `[hi:lo]` of a completion, from byte 16 (R420, R422). -/
def resAt (lo v : Nat) : Nat := v * 2 ^ (8 * (lo - 16))

end Sys2Proof.Machine
end

