-- ==== Sys2Proof/Machine/Sequencer.lean ====
section
/-! DEFINITION. Near-tier sequencers and far streams (R174 to R178, R186, R190 to R194), and the service of the
companion's and the signal boxes' accesses. -/

namespace Sys2Proof.Machine

open Sys2Proof

/-! ## One near-tier access (R186) -/

/-- Whether an access ends uncorrectable: on-die ECC, or a fourth EDC mismatch (R186). -/
def NearAccess.bad (a : NearAccess) : Bool := decide (4 ≤ a.edc) || match a.ecc with
  | .uncorrectable _ => true
  | _ => false

/-- The counters of NEAR_ERRORS after an access: repetitions and retries, at most 3 of one access, corrections and
uncorrectable results of every slot class (R186). -/
def countAccess (write : Bool) (a : NearAccess) (c : Channel) : Channel :=
  let n := min a.edc 3
  { c with edcRead := if write then c.edcRead else wrapAdd c.edcRead n
           edcWrite := if write then wrapAdd c.edcWrite n else c.edcWrite
           eccCorrected := if a.ecc == .corrected then c.eccCorrected + 1 else c.eccCorrected
           uncorrectable := if NearAccess.bad a then satInc c.uncorrectable else c.uncorrectable
           stepEdc := c.stepEdc + a.edc }

/-- An access that meets no error. -/
def cleanAccess : NearAccess := ⟨0, .clean⟩

/-! ## The companion's accesses (R178, R186, R402, R404, R405) -/

/-- The directory with a line granted, `excl` for E (R405). -/
def grantLine (a : Nat) (excl : Bool) (k : Kcl) : Kcl :=
  { k with lines := k.lines.filter (fun l => l.addr != lineBase a) ++ [⟨lineBase a, excl⟩] }

/-- A line that the companion no longer holds. -/
def dropLine (a : Nat) (s : State) : State := { s with kcl.lines := s.kcl.lines.filter (fun l => l.addr != lineBase a) }

/-- A line that the companion keeps as a clean copy. -/
def shareLine (a : Nat) (s : State) : State :=
  { s with kcl.lines := mapIf (fun l => l.addr == lineBase a) (fun l => { l with excl := false }) s.kcl.lines }

/-- Data with a byte-enable mask applied over what memory holds. -/
def maskBytes (old new : List Byte) (mask : BitVec 64) : List Byte :=
  (old.zip new).mapIdx (fun i x => if mask.getLsbD i then x.2 else x.1)

/-- A line of the shared window that the companion holds while a bulk write touches it: what the line holds afterwards is a free
value (R406; log entry 136). -/
def spoilLine (s : State) (a : Nat) : State :=
  let (words, s) := (List.range 8).foldl (fun (acc : List Byte × State) _ => let (v, s) := acc.2.draw; (acc.1 ++ leBytes 8 v.toNat, s)) ([], s)
  { s with near.mem := memWrite blank a words s.near.mem }

/-- The lines held in S or E that a bulk write of `n` bytes at `a` has touched (R406). -/
def spoilLines (a n : Nat) (s : State) : State :=
  ((s.kcl.lines.filter (fun l => decide (l.addr < a + n) && decide (a < l.addr + 64))).map Line.addr).foldl spoilLine s

/-- An access of the companion served by a channel, with what the channel met: it is answered, with ERROR set and zero
data or an abandoned write when uncorrectable (R186, R402, R405). -/
def serveHost (h : HostAccess) (r : NearAccess) (s : State) : State :=
  let bad := NearAccess.bad r
  let c (a : Nat) (w : Bool) (s : State) : State := s.modChan (a / 1024 % 32) (countAccess w r)
  match h with
  | .readShared tag a =>
    let s := c a false s
    if bad then respond 0x22 true tag (zeros 64) s
    else respond 0x22 false tag (memRead blank s.near.mem a 64) { s with kcl := grantLine a false s.kcl }
  | .readOwn tag a =>
    let s := c a false s
    if bad then respond 0x23 true tag (zeros 64) s
    else respond 0x23 false tag (memRead blank s.near.mem a 64) { s with kcl := grantLine a true s.kcl }
  | .bulkRead tag a n =>
    let s := c a false s
    respond 0x24 bad tag (if bad then zeros n else memRead blank s.near.mem a n) s
  | .bulkWrite tag a mask data =>
    let s := c a true s
    if bad then respond 0x21 true tag [] s
    else
      let data := if data.length = 64 then maskBytes (memRead blank s.near.mem a 64) data mask else data
      respond 0x21 false tag [] (spoilLines a data.length { s with near.mem := memWrite blank a data s.near.mem })
  | .writeback tag a data =>
    let s := dropLine a (c a true s)
    if bad then respond 0x21 true tag [] s
    else respond 0x21 false tag [] { s with near.mem := memWrite blank a (leBytes 64 data.toNat) s.near.mem }
  | .evict _ _ => s
  | .snpData a inv data =>
    let s := c a true s
    let s := if inv then dropLine a s else shareLine a s
    if bad then s else { s with near.mem := memWrite blank a (leBytes 64 data.toNat) s.near.mem }

/-! ## The signal boxes' accesses (R178, R186) -/

/-- A box access of a near channel served: a write is performed, unless uncorrectable. An uncorrectable read of the mirror's is
counted, and its bytes are sent as near memory holds them: DESIGN CHOICE, log entry 132, since no service gives its handling
(R186, R384). -/
def serveBox (c : Nat) (b : BoxAccess) (r : NearAccess) (s : State) : State :=
  let s := s.modChan c (countAccess b.data.isSome r)
  match b.data with
  | some e => if NearAccess.bad r then s else { s with near.mem := memPutEntry s.near.mem b.addr e }
  | none => s

/-- A waiting write of a box served in a slot; an uncorrectable one is abandoned (R186; log entry 132). -/
def serveLate (c : Nat) (w : LateWrite) (r : NearAccess) (s : State) : State :=
  let s := s.modChan c (countAccess true r)
  if NearAccess.bad r then s else { s with near.mem := memWrite blank w.addr w.data s.near.mem }

/-- The next write of the shared window, where its line lies on a channel and is I, served in a slot (R178, R408); an uncorrectable one is
abandoned. -/
def serveShared (c : Nat) (r : NearAccess) (s : State) : Option State := match s.kcl.fifo with
  | .write a bs :: rest =>
    if a / 1024 % 32 != c || s.lineDue a || (lineState s.kcl a).isSome then none
    else
      let s := { s.modChan c (countAccess true r) with kcl.fifo := rest }
      some (if NearAccess.bad r then s else { s with near.mem := memWrite blank a bs s.near.mem })
  | _ => none

/-! ## Sequencers (R175, R176) -/

/-- The stream of a channel in the variant in force (R58, R175). -/
def State.seqList (s : State) (c : Nat) : List (BitVec 64) := (s.chan c).streams.getD s.tt.variant.toNat []

/-- A sequencer that may pass its mark passes it: every earlier slot has completed, and what it read has left (R172, R176). -/
def seqGo (c : Nat) (s : State) : State :=
  s.modChan c (fun x => { x with walk := walkRelease s (!s.sourceHeld (96 + c)) x.walk })

/-- The record at a sequencer's position, where it may take one: KIND, and the record as a number. It takes none before its own
launch (R285). A slot whose entries still
wait for their lane's credit is not done (R172). -/
def seqRecord (c : Nat) (s : State) : Option (Nat × Nat) :=
  let w := (s.chan c).walk
  if walkFree s w && s.seqLaunched c && !s.sourceHeld (96 + c) then ((s.seqList c)[w.idx]?).map (fun r => (fld r.toNat 60 4, r.toNat)) else none

/-- A sequencer past the record in hand (R176). -/
def seqPass (c : Nat) (s : State) : State :=
  s.modChan c (fun x => { x with walk := walkNext x.walk, slot := BitVec.ofNat 16 x.walk.idx })

/-- One entry of a portion read or written (R176, R186). Read data starts across the concourse. -/
def seqEntry (c : Nat) (r : Request) (a : Nat) (data : Entry) (perform : Bool) (acc : NearAccess) (s : State) : State :=
  if r.write && !perform then s
  else
    let s := s.modChan c (countAccess r.write acc)
    let bad := NearAccess.bad acc
    let s := if bad then stepFault fcEcc (96 + c) s else s
    if r.write then if bad then s else { s with near.mem := memPutEntry s.near.mem a data }
    else { s with conc := s.conc ++ [⟨r.press, 96 + c, ⟨0, 0, 0, 0⟩, if bad then 0 else memEntry s.near.mem a, 0⟩] }

/-- The entries of a portion in order. -/
def seqEntries (c : Nat) (r : Request) : List (Nat × Bool) → List Entry → List NearAccess → State → State
  | [], _, _, s => s
  | (a, p) :: l, ds, res, s =>
    seqEntries c r l ds.tail res.tail (seqEntry c r a (ds.headD 0) p (res.headD cleanAccess) s)

/-- SEQ_SLOT_PRESS (R176): the slot serves the next portion from its press slot, once that has arrived. -/
def execSeqSlotPress (c : SeqId) (res : List NearAccess) (s : State) : Out :=
  let k := c.val
  let s := seqGo k s
  match seqRecord k s with
  | some (0, r) =>
    if fld r 58 2 = 0 && s.chanFree k then
      match takeFirst (fun q => q.slot == fld r 51 7) (s.chan k).arrived with
      | some (q, rest) =>
        .next (seqPass k (seqEntries k q (q.addrs.zip q.perform) q.data res (s.modChan k (fun x => { x with arrived := rest }))))
      | none => .next (s.modChan k (fun x => { x with walk := { x.walk with busy := true }, slot := BitVec.ofNat 16 x.walk.idx }))
    else .next s
  | _ => .next s

/-- PORTION_ARRIVAL (R176): the next portion from a press slot has reached the sequencer. -/
def execPortionArrival (c : SeqId) (slot : BitVec 7) (s : State) : Out :=
  .next (match takeFirst (fun q => q.slot == slot.toNat) (s.chan c.val).coming with
    | some (q, rest) => s.modChan c.val (fun x => { x with coming := rest, arrived := x.arrived ++ [q] })
    | none => s)

/-- SEQ_MARK (R176). -/
def execSeqMark (c : SeqId) (s : State) : Out :=
  let k := c.val
  let s := seqGo k s
  match seqRecord k s with
  | some (1, r) => .next (seqGo k (s.modChan k (fun x =>
      { x with walk := walkMark (fld r 0 40) none x.walk, slot := BitVec.ofNat 16 x.walk.idx })))
  | _ => .next s

/-- SEQ_LOOP (R134, R175). -/
def execSeqLoop (c : SeqId) (s : State) : Out :=
  let k := c.val
  let s := seqGo k s
  match seqRecord k s with
  | some (2, r) => .next (s.modChan k (fun x =>
      { x with walk := walkLoop (fld r 0 12 + 1) (fld r 12 16 + 1) (fld r 28 28) x.walk, slot := BitVec.ofNat 16 x.walk.idx }))
  | _ => .next s

/-- SEQ_END (R175): the stream of the variant is done. -/
def execSeqEnd (c : SeqId) (s : State) : Out :=
  let k := c.val
  let s := seqGo k s
  match seqRecord k s with
  | some (3, _) => .next (s.modChan k (fun x => { x with walk := { x.walk with ended := true }, slot := BitVec.ofNat 16 x.walk.idx }))
  | _ => .next s

/-! ## Far streams (R192, R194) -/

/-- The far stream of a root port in the variant in force (R192). -/
def State.farList (s : State) (f : Nat) : List (BitVec 64) := (s.farPort f).streams.getD s.tt.variant.toNat []

/-- A far stream that may pass its mark passes it (R172, R192). -/
def farGo (f : Nat) (s : State) : State :=
  s.modFar f (fun x => { x with walk := walkRelease s (!s.sourceHeld (128 + f)) x.walk })

/-- The record at a far stream's position. -/
def farRecord (f : Nat) (s : State) : Option (Nat × Nat) :=
  let w := (s.farPort f).walk
  if walkFree s w && !s.sourceHeld (128 + f) then ((s.farList f)[w.idx]?).map (fun r => (fld r.toNat 60 4, r.toNat)) else none

/-- Whether an access ends with poison or an uncorrectable response; an entry beyond the tier answers so (R191, R194; log
entry 131). -/
def FarAccess.bad (s : State) (a : Nat) (acc : FarAccess) : Bool := acc.poison || (farKey s a).isNone

/-- One far entry read or written: retries counted, poison is a step fault and reads as zero (R194). -/
def farEntry (f : Nat) (r : Request) (a : Nat) (data : Entry) (perform : Bool) (acc : FarAccess) (s : State) : State :=
  if r.write && !perform then s
  else
    let s := s.modFar f (fun x => { x with retries := wrapAdd x.retries acc.retries
                                           poison := if FarAccess.bad s a acc then satInc x.poison else x.poison
                                           writes := if r.write then x.writes + 1 else x.writes })
    let s := if FarAccess.bad s a acc then stepFault fcEcc (160 + f) s else s
    let e : Entry := match farKey s a with
      | some k => if acc.poison then 0 else memEntry s.far.mem k
      | none => 0
    if r.write then match farKey s a with
      | some k => if acc.poison then s else { s with far.mem := memPutEntry s.far.mem k data }
      | none => s
    else { s with conc := s.conc ++ [⟨r.press, 128 + f, ⟨0, 0, 0, 0⟩, e, 0⟩] }

/-- The far entries of a portion in order. -/
def farEntries (f : Nat) (r : Request) : List (Nat × Bool) → List Entry → List FarAccess → State → State
  | [], _, _, s => s
  | (a, p) :: l, ds, res, s =>
    farEntries f r l ds.tail res.tail (farEntry f r a (ds.headD 0) p (res.headD ⟨0, false⟩) s)

/-- A pending write of SB3 on a far port performed, with what it met (R192, R194). -/
def farBox (f : Nat) (b : FarBox) (acc : FarAccess) (s : State) : State :=
  let s := s.modFar f (fun x => { x with writes := x.writes + 1, retries := wrapAdd x.retries acc.retries
                                         poison := if acc.poison then satInc x.poison else x.poison })
  if acc.poison then stepFault fcEcc (160 + f) s else farWrite b.addr b.data s

/-- A far stream past the record in hand. -/
def farPass (f : Nat) (s : State) : State := s.modFar f (fun x => { x with walk := walkNext x.walk })

/-- FAR_STREAM_MARK (R192). -/
def execFarStreamMark (f : FarId) (s : State) : Out :=
  let k := f.val
  let s := farGo k s
  match farRecord k s with
  | some (1, r) => .next (farGo k (s.modFar k (fun x => { x with walk := walkMark (fld r 0 40) none x.walk })))
  | _ => .next s

/-- FAR_STREAM_LOOP (R192). -/
def execFarStreamLoop (f : FarId) (s : State) : Out :=
  let k := f.val
  let s := farGo k s
  match farRecord k s with
  | some (2, r) => .next (s.modFar k (fun x =>
      { x with walk := walkLoop (fld r 0 12 + 1) (fld r 12 16 + 1) (fld r 28 28) x.walk }))
  | _ => .next s

/-- FAR_STREAM_END (R192). -/
def execFarStreamEnd (f : FarId) (s : State) : Out :=
  let k := f.val
  let s := farGo k s
  match farRecord k s with
  | some (3, _) => .next (s.modFar k (fun x => { x with walk := { x.walk with ended := true } }))
  | _ => .next s

/-- A root port that goes down or times out: counted, READY cleared, event (R194). -/
def farDown (f : Nat) (s : State) : State :=
  postEvent evFarDown f 0 0 (s.modFar f (fun x => { x with ready := false, timeouts := satInc x.timeouts }))

/-- CXL_COMPLETION_TIMEOUT (R194). -/
def execCxlCompletionTimeout (f : FarId) (s : State) : Out := .next (farDown f.val s)

/-- CXL_LINK_DOWN (R194): WIDTH reads 0 while the link is down. -/
def execCxlLinkDown (f : FarId) (s : State) : Out :=
  .next ((farDown f.val s).modFar f.val (fun x => { x with down := true, width := 0 }))

/-- CXL_WRITE_COMPLETION (R41): the device has completed one write of the port. -/
def execCxlWriteCompletion (f : FarId) (s : State) : Out :=
  .next (s.modFar f.val (fun x => { x with writes := x.writes - 1 }))

end Sys2Proof.Machine
end

