-- ==== Sys2Proof/Machine/Berths.lean ====
section
/-! DEFINITION. What a chip's engine does with a berth sheet (R295, R310, R320, R321, R384 to R386): releases, stabled and
restored pages, shadows, frames and lists, and the copies that SB3 makes. -/

namespace Sys2Proof.Machine

open Sys2Proof

/-! ## Items for the mirror (R384) -/

/-- The partner that keeps this chip's mirror, a logical chip (R382). -/
def State.partner (s : State) : Option Nat := match s.forme.partners[s.chipIndex]? with
  | some p => if p.toNat = 0xFFFFFFFF then none else some p.toNat
  | none => none

/-- Byte address of ledger copy `c` (R187). -/
def ledgerBase (c : Bool) : Nat := (4194304 + 8192 * bit c) * 1024

/-- Item kinds: a page, a head record, a ledger slot, a KiB of input store, and what stands beside a ledger slot. -/
def itemPage : Nat := 0
def itemHead : Nat := 1
def itemLedger : Nat := 2
def itemInput : Nat := 3
def itemKept : Nat := 5

/-- The near entries that hold an item, a ledger slot in the copy written last: first KiB and number; none where the waybill no longer has it. -/
def itemPlace (s : State) (m : MirrorItem) : Nat × Nat :=
  if m.kind = itemPage then (s.held m.waybill (.frame m.layer m.page), s.pool.frame)
  else if m.kind = itemHead then (s.held m.waybill (.head m.layer m.page), s.pool.head)
  else if m.kind = itemLedger then (ledgerBase (!s.eng.ledgerCopy) / 1024 + m.waybill / 8, 1)
  else match kget s.eng.table m.waybill with
    | some w => (w.inputStore.toNat + m.page, 1)
    | none => (0, 0)

/-- Reads of a run of near entries queued for SB3's FIRMWARE slots (R178). -/
def queueReads (kib n : Nat) (s : State) : State :=
  (List.range n).foldl (fun s k => s.modChan ((kib + k) % 32) (fun c => { c with box := c.box ++ [⟨3, kib + k, none⟩] })) s

/-- Items sent and not acknowledged through a whole step are read and sent again (R384, R445). The spec gives no interval: DESIGN CHOICE,
log entry 160. -/
def resendMirror (s : State) : State :=
  let open' (m : MirrorItem) : Bool := s.mirror.backlog.contains m && !s.mirror.unsent.contains m
  let s' := { s with mirror.waited := s.mirror.backlog.filter open' }
  (s.mirror.waited.filter open').foldl (fun s m =>
    let (kib, n) := itemPlace s m
    queueReads kib n { s with mirror.unsent := s.mirror.unsent ++ [m] }) s'

/-- An item queued for mirroring, on a chip that has a partner (R384). -/
def queueMirror (m : MirrorItem) (s : State) : State :=
  if s.partner.isNone then s
  else
    let (kib, n) := itemPlace s m
    queueReads kib n { s with mirror.backlog := s.mirror.backlog ++ [m], mirror.unsent := s.mirror.unsent ++ [m] }

/-! ## Services of mirroring and recovery (R384, R387, R445) -/

/-- The serving section in force, if a forme is loaded. -/
def State.serving (s : State) : Option Serving := s.forme.forme.map (·.serving)

/-- A service head of mirroring and recovery, and its data. The layout is the model's: DESIGN CHOICE, log entry 41. -/
def mirrorHead (kind : Nat) (m : MirrorItem) (off len total : Nat) : List Byte :=
  leBytes 1 kind ++ leBytes 1 3 ++ leBytes 2 m.waybill ++ leBytes 1 m.layer ++ leBytes 1 m.kind ++ zeros 2 ++ leBytes 4 m.page
    ++ leBytes 4 off ++ leBytes 4 len ++ leBytes 4 total ++ zeros 40

/-- Logical chips in stage order: by stage, then by index. -/
def stageOrder (v : Serving) : List Nat :=
  sortBy (fun a b => decide (v.stage.getD a 0 < v.stage.getD b 0) || (v.stage.getD a 0 == v.stage.getD b 0 && decide (a ≤ b)))
    (List.range v.stage.length)

/-- The next chip in stage order, around the end (R293). -/
def nextInStage (v : Serving) (c : Nat) : Nat :=
  let l := stageOrder v
  l.getD (((l.findIdx? (· == c)).getD 0 + 1) % max 1 l.length) 0

/-- The chip before in stage order, around the start. -/
def prevInStage (v : Serving) (c : Nat) : Nat :=
  let l := stageOrder v
  l.getD (((l.findIdx? (· == c)).getD 0 + l.length - 1) % max 1 l.length) 0

/-- A recovery's fetch: its service head, with the GID that the answer goes to in bytes [27:24] (R387, R445; log entry 41). -/
def fetchHead (s : State) (x : Fetch) : List Byte :=
  (mirrorHead 0x13 ⟨x.waybill, x.layer, x.page, x.kind⟩ 0 0 0).take 24 ++ leBytes 4 s.fab.gid.toNat ++ zeros 36

/-- The logical chip that answers a fetch: the desk for shadows, the logging chip for logged inputs, the partner for the
rest (R387, R388). -/
def fetchFrom (s : State) (x : Fetch) : Option Nat := match s.serving with
  | none => none
  | some v => if x.kind = 0 then some v.desk else if x.kind = 4 then some (prevInStage v s.chipIndex) else s.partner

/-- A fetch sent, on its route-table route (R242, R387). -/
def sendFetch (x : Fetch) (s : State) : State := match fetchFrom s x with
  | some c => sendService (s.gidOf c) (fetchHead s x) s
  | none => s

/-- The SERIAL of the next message to a GID, which rises by 1 per message to it (R445). -/
def State.serialTo (s : State) (gid : Nat) : BitVec 16 := (kget s.fw.serials gid).getD 0

/-- The next message to a GID has its SERIAL. -/
def takeSerial (gid : Nat) (s : State) : State := { s with fw.serials := kset gid (s.serialTo gid + 1) s.fw.serials }

/-- A FIRMWARE_MESSAGE of KIND REBUILT sent on the route table's route (R445). -/
def sendFwMessage (m : FwMessage) (s : State) : State :=
  match entryRoute (s.routeEntry m.dest.toNat) with
  | none => s
  | some r => sendControl 0x30 0 r (m.box.val + 0x01 * 2 ^ 8 + m.serial.toNat * 2 ^ 16 + s.fab.gid.toNat * 2 ^ 32
      + m.data.toNat * 2 ^ 64) s

/-- Fetches begun. -/
def beginFetches (l : List Fetch) (s : State) : State :=
  l.foldl (fun s x => sendFetch x s) { s with mirror.fetches := s.mirror.fetches ++ l }

/-! ## Stabled copies (R320 to R322) -/

/-- Base and size of a far area, in KiB (R193). -/
def farArea (s : State) (i : Nat) : Nat × Nat :=
  ((vget s.far.areaBase i 0).toNat * 1024, (vget s.far.areaSize i 0).toNat * 1024)

/-- Whether every port that holds a far area is READY (R194). -/
def areaUp (s : State) (i : Nat) : Bool := farUp s (farArea s i).1 (farArea s i).2

/-- Whether a copy into or out of a far area goes on: its ports are READY, and no brake pauses it (R194, R479, R480). -/
def copyRuns (s : State) (i : Nat) : Bool := areaUp s i && !s.power.braking

/-- The heads of a waybill's first pages that are valid (R310). -/
def validHeads (s : State) (w pages : Nat) : List (Nat × Nat) :=
  (List.range s.pool.layers).flatMap (fun layer => (List.range pages).filterMap (fun p =>
    if bitAt (s.dirFlags w layer p) 0 then some (layer, p) else none))

/-- Directory blocks of one layer with so many pages. -/
def blocksOf (pages : Nat) : Nat := ceilDiv pages 63

/-- KiB of a stabled copy: directory, pages and heads. Its layout is the model's: DESIGN CHOICE, log entry 39. -/
def parkSize (m : PoolMap) (pages heads : Nat) : Nat :=
  1 + m.layers * blocksOf pages + m.layers * pages * m.frame + heads * m.head

/-- The lowest free place of the STABLE area for a copy of a size; none while a port that holds the area is not READY (R194). -/
def stableRoom (size : Nat) (s : State) : Option Nat :=
  let (base, n) := farArea s 1
  let used := (s.eng.parked.map (fun x => (⟨x.2.base, x.2.size, x.1, .root⟩ : Alloc))).foldl (fun l a => insertAlloc a l) []
  if n = 0 || !areaUp s 1 then none else lowestFree 1 size (base + n) used base

/-- A waybill's committed length on this chip. -/
def State.lengthOf (s : State) (w : Nat) : Nat := match kget s.eng.shadows w with
  | some x => x.committed
  | none => 0

/-- Whether a waybill holds pages on this chip. -/
def State.holdsPages (s : State) (w : Nat) : Bool := s.held w .root != 0

/-- Page frames of one layer that a waybill holds on this chip. -/
def framesOf (s : State) (w : Nat) : Nat := (s.eng.allocs.filter (fun x => x.owner == w && (match x.kind with
  | .frame 0 _ => true
  | _ => false))).length

/-- Whether this chip's STABLE area can hold a waybill's first pages (R322). -/
def stableFits (s : State) (w pages : Nat) : Bool :=
  !s.holdsPages w || (stableRoom (parkSize s.pool pages (validHeads s w pages).length) s).isSome

/-- Far KiB of frame `p` of a layer, and of head `k`, in a stabled copy. -/
def parkFrame (m : PoolMap) (k : Parked) (layer p : Nat) : Nat :=
  k.base + 1 + m.layers * blocksOf k.pages + (layer * k.pages + p) * m.frame
def parkHead (m : PoolMap) (k : Parked) (j : Nat) : Nat :=
  k.base + 1 + m.layers * blocksOf k.pages + m.layers * k.pages * m.frame + j * m.head

/-- Far byte of a page entry's flags in a stabled copy's directory. -/
def parkFlag (k : Parked) (layer p : Nat) : Nat := (k.base + 1 + layer * blocksOf k.pages + p / 63) * 1024 + 16 + 16 * (p % 63) + 8

/-! ## SB3's copies between the tiers (R178, R192, R320, R321, R342, R386) -/

/-- Bytes to be moved, cut at the entries of both tiers; `near` and `far` are byte addresses. -/
def moveCut (j : CopyJob) (out : Bool) : Nat → Nat → Nat → Nat → List Move
  | 0, _, _, _ => []
  | fuel + 1, near, far, len =>
    if len = 0 then []
    else
      let n := min len (min (1024 - near % 1024) (1024 - far % 1024))
      ⟨j, near, far, n, 0, out, none⟩ :: moveCut j out fuel (near + n) (far + n) (len - n)

/-- `n` whole KiB to be moved; `near` and `far` are in KiB. -/
def moveKiB (j : CopyJob) (out : Bool) (near far n : Nat) : List Move := moveCut j out (1024 * n + 1) (near * 1024) (far * 1024) (n * 1024)

/-- The first `n` positions of a frame to be moved to the far tier: that part of each slice (R306, R314). -/
def movePositions (j : CopyJob) (m : PoolMap) (near far n : Nat) : List Move :=
  if 128 ≤ n then moveKiB j true near far m.frame
  else (List.range (m.frame / m.slice)).flatMap (fun g =>
    let len := n * (m.slice * 1024 / 128)
    moveCut j true (len + 1) ((near + g * m.slice) * 1024) ((far + g * m.slice) * 1024) len)

/-- What a stabling copy moves: the directory, the positions below the length, and the valid heads (R314, R320). -/
def stableMoves (s : State) (w : Nat) (k : Parked) : List Move :=
  let m := s.pool
  let b := blocksOf k.pages
  let j := CopyJob.stable w
  moveKiB j true (s.held w .root) k.base 1
    ++ (List.range m.layers).flatMap (fun layer =>
      (List.range b).flatMap (fun n => moveKiB j true (s.dirBlock w layer n) (k.base + 1 + layer * b + n) 1)
        ++ (List.range k.pages).flatMap (fun p => movePositions j m (s.held w (.frame layer p)) (parkFrame m k layer p) (k.len - 128 * p)))
    ++ (k.heads.mapIdx (fun i h => (i, h))).flatMap (fun x => moveKiB j true (s.held w (.head x.2.1 x.2.2)) (parkHead m k x.1) m.head)

/-- What a restore copy moves: the pages below the committed length, the flags of their entries, and the heads (R321). -/
def restoreMoves (s : State) (w : Nat) (k : Parked) : List Move :=
  let m := s.pool
  let j := CopyJob.restore w
  (List.range m.layers).flatMap (fun layer => (List.range (min (pagesOf (s.lengthOf w)) k.pages)).flatMap (fun p =>
      moveKiB j false (s.held w (.frame layer p)) (parkFrame m k layer p) m.frame ++ (match s.dirEntry w layer p with
        | some d => moveCut j false 2 (d + 8) (parkFlag k layer p) 1
        | none => [])))
    ++ (k.heads.mapIdx (fun i h => (i, h))).flatMap (fun x => moveKiB j false (s.held w (.head x.2.1 x.2.2)) (parkHead m k x.1) m.head)

/-- A copy begins: what it has to move replaces what an earlier one of its kind still had. -/
def beginMoves (j : CopyJob) (l : List Move) (s : State) : State :=
  { s with mirror.moves := s.mirror.moves.filter (fun m => m.job != j) ++ l }

/-- Whether a copy has nothing more to move. -/
def State.moved (s : State) (j : CopyJob) : Bool := s.mirror.moves.all (fun m => m.job != j)

/-- Whether a copy goes on: it has not been given up, the ports of its area are READY, and no brake pauses it (R194, R479). -/
def State.jobRuns (s : State) (j : CopyJob) : Bool := match j with
  | .stable w => (match kget s.eng.parked w with
    | some k => !k.done && s.holdsPages w && copyRuns s 1
    | none => false)
  | .restore w => s.eng.restores.contains w && (kget s.eng.parked w).isSome && copyRuns s 1
  | .log => copyRuns s 2
  | .stage k => (match kget s.liv.slots k with
    | some x => x.copying && copyRuns s 4
    | none => false)

/-- Whether the next access of a move is one of a near channel's: a read on the way out, a write on the way in, once its bytes are read. -/
def State.nearTurn (s : State) (c : Nat) (m : Move) : Bool := m.near / 1024 % 32 == c && m.out == m.data.isNone && s.jobRuns m.job

/-- Whether the next access of a move is one of a root port's. -/
def State.farTurn (s : State) (f : Nat) (m : Move) : Bool := farOf s (m.far / 1024) == f && m.out == m.data.isSome && s.jobRuns m.job

/-- A move's access to a near channel, with what it met. An uncorrectable read moves what near memory holds, and an uncorrectable write is
abandoned: DESIGN CHOICE, log entry 132 (R186). -/
def moveNear (c : Nat) (m : Move) (r : NearAccess) (s : State) : State :=
  let s := s.modChan c (countAccess (!m.out) r)
  if m.out then { s with mirror.moves := mapIf (· == m) (fun m => { m with data := some (memRead blank s.near.mem m.near m.len) }) s.mirror.moves }
  else
    let s := { s with mirror.moves := s.mirror.moves.erase m }
    if NearAccess.bad r then s
    else { s with near.mem := memWrite blank m.near ((m.data.getD []) ++ zeros m.pad) s.near.mem }

/-- A move's access to a root port, with what it met: retries are counted, and poison is a step fault; it reads as zeros, and its write is
abandoned (R194). -/
def moveFar (f : Nat) (m : Move) (r : FarAccess) (s : State) : State :=
  let bad := FarAccess.bad s (m.far / 1024) r
  let s := s.modFar f (fun x => { x with writes := if m.out then x.writes + 1 else x.writes, retries := wrapAdd x.retries r.retries
                                         poison := if bad then satInc x.poison else x.poison })
  let s := if bad then stepFault fcEcc (160 + f) s else s
  if m.out then
    let s := { s with mirror.moves := s.mirror.moves.erase m }
    if bad then s else farWrite m.far (m.data.getD []) s
  else { s with mirror.moves := mapIf (· == m) (fun m => { m with data := some (if bad then zeros m.len else farRead s m.far m.len) }) s.mirror.moves }

/-- All of a copy to the far tier made at once, for a forme that leaves (R325; log entry 162). -/
def moveAll (l : List Move) (s : State) : State := l.foldl (fun s m => farWrite m.far (memRead blank s.boxMem m.near m.len) s) s

/-- SB3 begins to copy a waybill's positions below `len` into the STABLE area; a chip without room discards them (R320, R322). -/
def startStable (w len : Nat) (s : State) : State :=
  if !s.holdsPages w || (kget s.eng.parked w).isSome then s
  else
    let pages := pagesOf len
    let heads := validHeads s w pages
    let size := parkSize s.pool pages heads.length
    match stableRoom size s with
    | some a =>
      let k : Parked := ⟨a, size, pages, len, false, heads⟩
      beginMoves (.stable w) (stableMoves s w k) { s with eng.parked := kset w k s.eng.parked }
    | none => freePages w s

/-- The stabled copy of a waybill is whole: it is in the STABLE area, and the frames are freed (R314, R320). -/
def stabled (w : Nat) (k : Parked) (s : State) : State := freePages w { s with eng.parked := kset w { k with done := true } s.eng.parked }

/-- STABLING_COPY_COMPLETE (R320): everything has been moved. -/
def execStablingCopyComplete (w : BitVec 16) (s : State) : Out :=
  let w := w.toNat
  .next (match kget s.eng.parked w with
    | none => s
    | some k => if s.jobRuns (.stable w) && s.moved (.stable w) then stabled w k s else s)

/-- A stabling copy made at once (R325). -/
def stablingCopy (w : Nat) (s : State) : State := match kget s.eng.parked w with
  | none => s
  | some k => if k.done || !s.holdsPages w || !areaUp s 1 then s else stabled w k (moveAll (stableMoves s w k) (beginMoves (.stable w) [] s))

/-- RESTORE_COPY_COMPLETE (R321): the pages are back in their new frames, FULL where the committed length says so (R307). The
launch that a restore copy may delay is one whose pass has a row of the waybill, beyond its RESTORE (R55, R326). -/
def execRestoreCopyComplete (w : BitVec 16) (s : State) : Out :=
  let w := w.toNat
  .next (match kget s.eng.parked w with
    | none => s
    | some k =>
      if !s.jobRuns (.restore w) || !k.done || !s.moved (.restore w) then s
      else
        let s := overPages s.pool.layers 0 (min (pagesOf (s.lengthOf w)) k.pages) (fun layer p s =>
          if 128 * (p + 1) ≤ s.lengthOf w then setDirFlag w layer p 2 s else s) s
        let late := match s.tt.nextLaunch with
          | some t => !s.tt.inStep && decide (t.toNat < s.now + 32)
              && (passRows s.eng.sheet).any (fun b => b.waybill == w && b.kind != kRestore)
          | none => false
        let s := { s with eng.parked := kdel w s.eng.parked, eng.restores := s.eng.restores.erase w }
        if late then { s with tt.waitRank := true } else s)

/-! ## Processing a sheet (R295) -/

/-- A shadow reaches a committed length: pages that become FULL are flagged and queued for mirroring (R307, R384). -/
def reachLength (w l : Nat) (s : State) : State := match kget s.eng.shadows w with
  | none => s
  | some x =>
    overPages s.pool.layers (x.committed / 128) (l / 128 - x.committed / 128) (fun layer p s =>
      queueMirror ⟨w, layer, p, itemPage⟩ (setDirFlag w layer p 2 s))
      { s with eng.shadows := kset w { x with committed := l } s.eng.shadows }

/-- The waybill became FREE: its mirror slots are freed (R384). -/
def mirrorRelease (i : Nat) (s : State) : State := match s.partner with
  | none => s
  | some p => sendService (s.gidOf p) (mirrorHead 0x12 ⟨i, 0, 0, 0⟩ 0 0 0) s

/-- A stage chip's report that its STABLE area cannot hold its share: bit 1 of FLAGS in the STABLE_OUT record, as it travels on
(R322). Where the report stands is the model's: DESIGN CHOICE, log entry 66. -/
def reportNoRoom (n : Nat) (b : Berth) (s : State) : State := match s.sheetAt, s.serving with
  | some p, some v => writePlace p (64 * (v.berths + n) + 3) (leBytes 1 (bit b.isNew + 2 + 4 * bit b.sparse + 8 * bit b.closing)) s
  | _, _ => s

/-- Release record `n` of a list (R315): RELEASE frees the waybill's pages and its stabled copy, and a stage chip's mirror of it
(R384); STABLE_OUT stables its positions below the committed length that the record carries (R294, R320), or reports that they
do not fit (R322); the desk takes the reports that come back. -/
def processRelease (n : Nat) (b : Berth) (s : State) : State :=
  if b.kind = kRelease then
    let s := freePages b.waybill s
    let s := if s.isDesk || (kget s.eng.shadows b.waybill).isNone then s else mirrorRelease b.waybill s
    { s with eng.parked := kdel b.waybill s.eng.parked, eng.shadows := kdel b.waybill s.eng.shadows
             eng.restores := s.eng.restores.erase b.waybill, eng.ranking := s.eng.ranking.erase b.waybill
             mirror.lost := if s.isDesk then s.mirror.lost else s.mirror.lost.erase b.waybill, mirror.logged := kdel b.waybill s.mirror.logged }
  else if b.kind = kStableOut then
    let s := reachLength b.waybill b.committed s
    let s := { s with eng.shadows := kmod b.waybill (fun x => { x with livery := none }) s.eng.shadows }
    let full := !stableFits s b.waybill (pagesOf b.committed) && (kget s.eng.parked b.waybill).isNone
    let s := startStable b.waybill b.committed s
    if s.isDesk then { s with eng.noRoom := if b.voided then s.eng.noRoom ++ [(b.waybill, b.ticket)] else s.eng.noRoom }
    else if full then reportNoRoom n b s else s
  else s

/-- A shadow takes the committed length and the void bit of its berth record (R295). Pages that a RESTORE row finds in place are
FULL below that length (R307); those that it brings back become so with their copy. -/
def processLength (b : Berth) (s : State) : State :=
  let w := b.waybill
  let old := match kget s.eng.shadows w with
    | some x => x
    | none => ⟨false, 0, 0, 0, none⟩
  let start := if s.mirror.rebuilding && b.kind == kRestore then old.start else b.committed
  let livery := if b.group.getLsbD 7 then none else some b.livery.toNat
  let mark (x : Shadow) : Shadow := { x with voided := old.voided || b.voided, start := start, livery := livery }
  if b.kind = kRestore && (s.mirror.rebuilding || s.held w (.frame 0 0) = 0) then { s with eng.shadows := kset w (mark { old with committed := b.committed }) s.eng.shadows }
  else reachLength w b.committed { s with eng.shadows := kset w (mark old) s.eng.shadows }

/-- The allocations of one row, in the order of R502. -/
def processAlloc (v : Serving) (b : Berth) (s : State) : State :=
  let w := b.waybill
  let s := ensureRoot w s
  let restoring := b.kind == kRestore
  let n := rowWrites s v.chunk b
  let l := rowStart s b
  let pages := if restoring then pagesOf b.committed else if n = 0 then 0 else pagesOf (l + n)
  let first := if restoring then 0 else l / 128
  let inPlace := s.held w (.frame 0 0) != 0
  let copied := (kget s.eng.parked w)
  let s := (List.range s.pool.layers).foldl (fun s layer =>
    let s := (List.range (pages - first)).foldl (fun s k => ensureBlock w layer (first + k) s) s
    let s := (List.range (pages - first)).foldl (fun s k => ensureFrame w layer (first + k) s) s
    let s := (List.range b.headCount).foldl (fun s k => ensureHead w layer (b.headFirst + k) s) s
    match copied with
    | some k => if restoring then (k.heads.filter (fun h => h.1 == layer)).foldl (fun s h => ensureHead w layer h.2 s) s else s
    | none => s) s
  let s := if b.sparse then ensureScore w (max (pagesOf b.committed) pages) s else s
  let s := { s with eng.shadows := kmod w (fun x => { x with root := s.held w .root }) s.eng.shadows }
  if restoring then
    if inPlace then { s with eng.parked := kdel w s.eng.parked }
    else match copied with
      | some k => if s.eng.restores.contains w then s
          else beginMoves (.restore w) (restoreMoves s w k) { s with eng.restores := s.eng.restores ++ [w] }
      | none => s
  else s

/-- The step committed last on this chip, 0 before the first. -/
def State.lastStep (s : State) : Nat := match s.tt.committed with
  | some k => k.toNat
  | none => 0

/-- Staging slots freed within the last STAGES steps (R342). -/
def freshlyFreed (s : State) (stages step : Nat) (k : Nat) : Bool :=
  s.liv.freed.any (fun f => f.1 == k && decide (step < f.2 + stages))

/-- The lowest staging slot that may be given (R342). -/
def freeStage (s : State) (p : SamplerPlan) (stages step : Nat) : Option Nat :=
  let used := s.liv.slots.filterMap (fun x => x.2.staged)
  (List.range p.stageSlots).find? (fun k => !used.contains k && !freshlyFreed s stages step k)

/-- What a staging copy moves: the data of the records whose layer the chip keeps, each part on a whole KiB (R340). A chip keeps
layers 0 to LAYERS - 1: log entry 40. The livery's table of records is read at once: log entry 162. -/
def stageMoves (s : State) (slot : Nat) (x : LiverySlot) (place : Nat) : List Move :=
  let a := x.bank.toNat * 1048576
  let rd (off n : Nat) : List Byte := farRead s (a + off) n
  let parts := (List.range (leNat (rd 6 2))).filterMap (fun k =>
    let e := rd (64 + 16 * k) 16
    if leAt e 0 1 < s.pool.layers then some (leAt e 4 4, leAt e 8 4) else none)
  (parts.foldl (fun (acc : Nat × List Move) (p : Nat × Nat) =>
    let l := moveCut (.stage slot) false (p.2 + 1) acc.1 (a + p.1) p.2
    let pad := (1024 - (acc.1 + p.2) % 1024) % 1024
    (acc.1 + p.2 + pad, acc.2 ++ l.mapIdx (fun i m => if i + 1 = l.length then { m with pad := pad } else m))) (place * 1024, [])).2

/-- A livery staged at a slot: SB3 begins its copy (R342). -/
def stageLivery (slot k : Nat) (s : State) : State :=
  let l := match kget s.liv.slots slot, s.samplerPlan with
    | some x, some p => stageMoves s slot x (stagePlace s p k)
    | _, _ => []
  beginMoves (.stage slot) l
    { s with liv.slots := kmod slot (fun x => { x with staged := some k, copying := true }) s.liv.slots
             liv.stagings := s.liv.stagings + 1 }

/-- Staged liveries outside a list leave their staging slots (R342). -/
def unstage (named : List Nat) (step : Nat) (s : State) : State :=
  let idle := s.liv.slots.filter (fun x => x.2.staged.isSome && !named.contains x.1)
  { s with
    liv.slots := s.liv.slots.map (fun x => if named.contains x.1 then x else (x.1, { x.2 with staged := none, copying := false }))
    liv.freed := s.liv.freed ++ idle.filterMap (fun x => x.2.staged.map (fun k => (k, step))) }

/-- The livery that a row names is staged on this chip, or its copy begins (R342). The desk waits STAGES steps before it gives a freed slot again;
a stage chip, which follows the desk's decisions, does not wait again: DEDUCED, log entry 159. -/
def processLivery (p : SamplerPlan) (stages : Nat) (b : Berth) (s : State) : State :=
  if b.group.getLsbD 7 then s
  else match kget s.liv.slots b.livery.toNat with
    | none => s
    | some x =>
      if x.staged.isSome then s
      else match freeStage s p (if s.isDesk then stages else 0) s.lastStep with
        | none => s
        | some k => stageLivery b.livery.toNat k s

/-- On the rebuilt chip: the logged stage inputs that its RESTORE rows need, fetched from the logging chip (R388). -/
def fetchLogged (v : Serving) (rows : List Berth) (s : State) : State :=
  beginFetches ((rows.filter (fun b => b.kind == kRestore)).flatMap (fun b =>
    (List.range (rowWrites s v.chunk b)).map (fun k => ⟨b.waybill, 4, k, rowStart s b + k⟩))) s

/-- Steps 1 to 4 of R295 on a sheet. The pass's rows whose shadow is VOIDED write nothing (R317). -/
def processSheet (sheet release : List Berth) (s : State) : State :=
  match s.forme.forme with
  | none => s
  | some f =>
    let rows := passRows sheet
    let s := (release.mapIdx (fun n b => (n, b))).foldl (fun (s : State) (x : Nat × Berth) => processRelease x.1 x.2 s) s
    let s := rows.foldl (fun s b => processLength b s) s
    let s := rows.foldl (fun s b => processAlloc f.serving b s) s
    let s := match f.sampler with
      | some p => rows.foldl (fun s b => processLivery p f.serving.stages b s) s
      | none => s
    let s := writeLists f.chip.pageMap f.serving rows s
    let s := writeWindows f.chip.pageMap f.serving sheet s
    let s := match f.chip.pageMap.log with
      | some m => writeLogLanes m f.serving s.tt.nextStep.toNat s
      | none => s
    let s := match f.sampler with
      | some p => writeLiveryList p sheet s
      | none => s
    let s := if s.mirror.rebuilding then fetchLogged f.serving rows s else s
    let voided (b : Berth) : Bool := match kget s.eng.shadows b.waybill with
      | some x => x.voided
      | none => false
    { s with eng.sheet := sheet, eng.release := release
             eng.voidRows := ((rows.filter (fun b => b.voided || voided b)).map (·.row)) }

/-! ## What a committed pass leaves to the engine and to SB3 (R310, R312, R384 to R386) -/

/-- Heads that the pass carried are valid at its commit (R310), and are queued for mirroring (R384); the desk notes that a pass
has carried them. -/
def commitHeads (s : State) : State :=
  (passRows s.eng.sheet).foldl (fun s b =>
    let s := if b.headCount = 0 then s else
      { s with eng.table := kmod b.waybill (fun w => { w with headed := max w.headed (b.headFirst + b.headCount) }) s.eng.table }
    overPages s.pool.layers b.headFirst b.headCount (fun layer p s =>
      queueMirror ⟨b.waybill, layer, p, itemHead⟩ (setDirFlag b.waybill layer p 1 s)) s) s

/-- REBUILT reported to the desk chip once every waybill owed is rebuilt (R388): at the desk itself by its own engine, elsewhere
by a FIRMWARE_MESSAGE, which stays until its ACK (R445). -/
def reportRebuilt (n : Nat) (s : State) : State :=
  let s := { s with mirror.rebuilt := satAdd s.mirror.rebuilt n }
  if s.isDesk then { s with eng.table := s.eng.table.map (fun x => (x.1, if x.2.restoring then { x.2 with rebuilt := true } else x.2)) }
  else match s.serving with
    | none => s
    | some v =>
      let m : FwMessage := ⟨s.serialTo (s.gidOf v.desk), BitVec.ofNat 20 (s.gidOf v.desk), 4, BitVec.ofNat 128 (n % 65536), 1⟩
      sendFwMessage m (takeSerial (s.gidOf v.desk) { s with fw.messages := s.fw.messages ++ [m] })

/-- What the rebuilt chip still has to do, looked at when its fetches are answered and at each commit: REBUILT once every
position of the waybills it owes is in place, and the end of the rebuilding once every shadow is whole (R388, R391). -/
def settleRebuild (n : Nat) (s : State) : State :=
  if !s.mirror.rebuilding || !s.mirror.fetches.isEmpty then s
  else
    let whole (w : Nat) : Bool := match kget s.eng.shadows w with
      | some x => decide (x.committed ≤ x.start)
      | none => true
    let s := if s.mirror.owed.isEmpty || !s.mirror.owed.all whole then s
      else reportRebuilt n { s with mirror.owed := [] }
    if s.mirror.owed.isEmpty && s.eng.shadows.all (fun x => decide (x.2.committed ≤ x.2.start)) then
      { s with mirror.rebuilding := false }
    else s

/-- The RESTORE rows of a committed pass have written their windows on the rebuilt chip (R388). -/
def commitRestores (s : State) : State :=
  if !s.mirror.rebuilding then s
  else match s.serving with
    | none => s
    | some v =>
      let rows := (passRows s.eng.sheet).filter (fun b => b.kind == kRestore)
      let s := rows.foldl (fun s b =>
        let m := rowStart s b
        let n := rowWrites s v.chunk b
        let s := { s with eng.shadows := kmod b.waybill (fun x => { x with start := m + n }) s.eng.shadows }
        overPages s.pool.layers (m / 128) ((m + n) / 128 - m / 128) (fun layer p s =>
          queueMirror ⟨b.waybill, layer, p, itemPage⟩ (setDirFlag b.waybill layer p 2 s)) s) s
      settleRebuild s.mirror.owed.length s

/-- Rankings begin for the sparse rows of the pass (R312). -/
def commitRankings (s : State) : State :=
  let l := ((passRows s.eng.sheet).filter (fun b => b.sparse)).map (·.waybill)
  { s with eng.ranking := s.eng.ranking ++ l.filter (fun w => !s.eng.ranking.contains w) }

/-- LOG_POSITIONS (LOG_CONFIG). -/
def logPositions (s : State) : Nat := 256 * 2 ^ min 4 s.mirror.logConfig.toNat

/-- S of R386. -/
def logSpan (s : State) (v : Serving) : Nat := logPositions s + logDepth v

/-- Far KiB of a position's slot in the INPUT_LOG area (R386). -/
def logSlot (s : State) (v : Serving) (m : LogMap) (w p : Nat) : Nat :=
  (farArea s 2).1 + (w * logSpan s v + p % logSpan s v) * m.rowKiB

/-- Whether this chip has logged a position of a waybill: one that took the place of a lost logging chip has not logged what came before it
(R390). -/
def State.hasLogged (s : State) (w p : Nat) : Bool := match kget s.mirror.logged w with
  | some first => decide (first ≤ p)
  | none => false

/-- What the copy of the staging ring moves: each position into its slot of the INPUT_LOG area (R386). -/
def logMoves (s : State) (v : Serving) (m : LogMap) (l : List (Nat × Nat × Nat)) : List Move :=
  l.flatMap (fun x => moveKiB .log true x.2.2 (logSlot s v m x.1 x.2.1) m.rowKiB)

/-- Positions that the pass staged for the input log (R385, R386). -/
def commitLog (step : Nat) (s : State) : State :=
  match s.forme.forme with
  | none => s
  | some f => match f.chip.pageMap.log with
    | none => s
    | some m =>
      if s.mirror.logRing = 0 then s
      else
        let l := (passRows s.eng.sheet).flatMap (fun b =>
          (List.range b.writes).map (fun k => (b.waybill, b.committed + k, logPlace s f.serving m step b.row k)))
        { s with mirror.logDue := s.mirror.logDue ++ l, mirror.moves := s.mirror.moves ++ logMoves s f.serving m l
                 mirror.logged := l.foldl (fun g x => if (kget g x.1).isSome then g else kset x.1 x.2.1 g) s.mirror.logged }

/-- Whether a copy completed now is less than 32 ns before the launch it may delay (R55). -/
def copyLate (s : State) : Bool := match s.tt.nextLaunch with
  | some t => !s.tt.inStep && decide (t.toNat < s.now + 32)
  | none => false

/-- Whether the step to come writes a place of the log staging ring whose copy has not been made (R386). -/
def logWraps (s : State) : Bool := match s.forme.forme.bind (fun f => f.chip.pageMap.log.map (fun m => (m, f.serving))) with
  | some (m, v) =>
    let ring := (List.range v.berths).flatMap (fun r => (List.range (logDepth v)).map (fun k => logPlace s v m s.tt.nextStep.toNat r k))
    s.mirror.logDue.any (fun x => ring.contains x.2.2)
  | none => false

/-- LOG_COPY_COMPLETE (R386): every position staged has been moved. -/
def execLogCopyComplete (s : State) : Out :=
  .next (if s.mirror.logDue.isEmpty || !s.jobRuns .log || !s.moved .log then s
    else { s with mirror.logDue := [], mirror.logPositions := wrapAdd s.mirror.logPositions s.mirror.logDue.length
                  tt.waitLog := s.tt.waitLog || logWraps s && copyLate s })

/-- RANKING_COMPLETE (R312, R313). The selection itself is made with the lists that it serves. -/
def execRankingComplete (w : BitVec 16) (s : State) : Out :=
  .next (if s.eng.ranking.contains w.toNat then
      { s with eng.ranking := s.eng.ranking.erase w.toNat, eng.rankings := s.eng.rankings + 1
               tt.waitRank := s.tt.waitRank || (copyLate s && s.eng.sheet.any (fun b => b.waybill == w.toNat && b.sparse)) }
    else s)

/-- STAGING_COPY_COMPLETE (R342). -/
def execStagingCopyComplete (slot : BitVec 12) (s : State) : Out :=
  .next (match kget s.liv.slots slot.toNat with
    | some x =>
      if x.staged.isNone || !s.jobRuns (.stage slot.toNat) || !s.moved (.stage slot.toNat) then s
      else
        let late := copyLate s && s.eng.sheet.any (fun b => b.waybill != 0xFFFF && !b.group.getLsbD 7 && b.livery == slot)
        { s with liv.slots := kset slot.toNat { x with copying := false } s.liv.slots, tt.waitStage := s.tt.waitStage || late }
    | none => s)

end Sys2Proof.Machine
end

