-- ==== Sys2Proof/Machine/Publish.lean ====
section
/-! DEFINITION. The waybill's entry as bytes (R297), colophons (R65), output records and their publication (R344 to R348),
and the ledger (R189, R324). -/

namespace Sys2Proof.Machine

open Sys2Proof

/-! ## The entry (R297, R298) -/

/-- The 128 bytes of a waybill's entry. -/
def waybillBytes (w : Waybill) : List Byte :=
  leBytes 1 (wbCode w.state)
    ++ leBytes 1 (w.priority.toNat + 16 * bit w.colophon + 32 * bit w.expireStable + 64 * bit w.restoring + 128 * bit w.stablePending)
    ++ leBytes 2 w.tenant.toNat ++ leBytes 2 w.ring.toNat
    ++ leBytes 2 (match w.livery with
      | some k => k.toNat + 32768
      | none => 0)
    ++ leBytes 8 w.deadline.toNat ++ leBytes 4 w.ttl.toNat ++ leBytes 3 w.committed ++ leBytes 3 w.inputLength
    ++ leBytes 3 w.generated ++ leBytes 1 w.proofDepth.toNat
    ++ leBytes 2 (match w.berth with
      | some r => r.toNat + 32768
      | none => 0)
    ++ leBytes 2 w.microbatch.toNat ++ leBytes 4 w.timingChoices.toNat ++ leBytes 6 w.ticket.toNat
    ++ leBytes 4 w.inputStore.toNat ++ leBytes 4 w.directory.toNat ++ leBytes 6 w.opened.toNat
    ++ leBytes 2 w.closeStatus.toNat ++ leBytes 4 w.clientTag.toNat ++ leBytes 64 w.params.toNat

/-- The entry of an index as the table window shows it: that of the last commit (R296); zeros where it is FREE. -/
def shownEntry (s : State) (i : Nat) : List Byte := match kget s.eng.shown i with
  | some w => if w.state = .free then zeros 128 else waybillBytes w
  | none => zeros 128

/-! ## Colophons (R65) -/

/-- Byte address of an input token of a waybill. -/
def Waybill.tokenByte (w : Waybill) (k : Nat) : Nat := w.storeByte + (65 + w.extraKiB) * 1024 + 4 * k

/-- Input token `k` of a waybill (R339). -/
def inputToken (s : State) (w : Waybill) (k : Nat) : Nat := nearNum s (w.tokenByte k) 4

/-- What INPUT_DIGEST covers: the parameter section, then every input token (R65). -/
def digestInput (s : State) (w : Waybill) : List Byte :=
  leBytes 64 w.params.toNat ++ memRead blank s.boxMem (w.tokenByte 0) (4 * w.inputLength)

/-- The 148 bytes that a colophon covers (R65, R301). -/
def colophonInput (s : State) (w : Waybill) : List Byte :=
  leBytes 32 (if s.loaded then s.forme.digest.toNat else 0)
    ++ leBytes 32 (if s.forme.sealed then s.forme.weightDigest.toNat else 0)
    ++ leBytes 32 (match w.livery.bind (fun k => kget s.liv.slots k.toNat) with
      | some x => x.digest.toNat
      | none => 0)
    ++ sha256 (digestInput s w)
    ++ leBytes 4 (match s.forme.forme with
      | some f => f.tt.pressCount
      | none => 0)
    ++ leBytes 4 (match s.forme.forme with
      | some f => f.tt.chipCount
      | none => 0)
    ++ leBytes 8 w.seed ++ leBytes 4 w.timingChoices.toNat

/-- The colophon of a waybill. -/
def colophonOf (s : State) (w : Waybill) : List Byte := sha256 (colophonInput s w)

/-! ## Output records (R344, R345) -/

/-- A head record. -/
def headRecord (i : Nat) (w : Waybill) (kind len flags cont token pos term : Nat) (payload : List Byte) : List Byte :=
  leBytes 2 i ++ leBytes 2 w.tenant.toNat ++ leBytes 1 kind ++ leBytes 1 len ++ leBytes 1 flags ++ leBytes 1 cont
    ++ leBytes 4 token ++ leBytes 4 pos ++ leBytes 4 term ++ sliceBytes payload 0 12

/-- A continuation record. -/
def contRecord (i : Nat) (w : Waybill) (payload : List Byte) : List Byte :=
  leBytes 2 i ++ leBytes 2 w.tenant.toNat ++ leBytes 1 1 ++ leBytes 1 payload.length ++ sliceBytes payload 0 26

/-- Bytes owed to a UTF-8 sequence after one published byte (R344). -/
def owedAfter (owed : Nat) (b : Byte) : Nat :=
  let x := b.toNat
  if 0x80 ≤ x && x ≤ 0xBF && 0 < owed then owed - 1
  else if 0xC0 ≤ x && x ≤ 0xDF then 1
  else if 0xE0 ≤ x && x ≤ 0xEF then 2
  else if 0xF0 ≤ x && x ≤ 0xF7 then 3
  else 0

/-- The bytes of a token (R345): none while no forme is loaded (R301). The table's address is relative to the forme's near
region (R163), which a load places before it is imposed (R187). -/
def tokenBytes (s : State) (t : Nat) : List Byte :=
  match s.samplerPlan with
  | none => []
  | some p =>
    let a := (nearFormeBase + p.vocabTable) * 1024
    let r := nearNum s (a + 4 * t) 4
    memRead blank s.boxMem (a + 4 * p.vocabSize + fld r 0 24) (fld r 24 8)

/-- The records of one token, and the bytes owed after it (R344). -/
def textRecords (s : State) (i : Nat) (w : Waybill) (step tok pos : Nat) (held : Bool) (owed : Nat) : List (List Byte) × Nat :=
  let bs := tokenBytes s tok
  let owed := bs.foldl owedAfter owed
  let rest := chunks 26 bs.length (bs.drop 12)
  (headRecord i w 0 (min 12 bs.length) (bit (decide (0 < owed)) + 2 * bit held) rest.length tok pos step (bs.take 12)
    :: rest.map (contRecord i w), owed)

/-- The longest tail of the generated tokens, among the last `n`, that begins a stop sequence without being the whole of one (R345). -/
def heldTail (w : Waybill) (extra : List Byte) (n : Nat) : Nat :=
  let stops := (List.range w.stopCount).map (stopSeq extra)
  maxOf ((List.range (min n (min 15 w.tail.length) + 1)).filter (fun k =>
    stops.any (fun q => decide (k < q.length) && q.take k == (w.tail.take k).reverse)))

/-- What a waybill publishes at a commit: its records, and the entry with what it holds back (R345, R346). -/
def recordsOf (s : State) (step i : Nat) (w : Waybill) (closes : Bool) : List (List Byte) × Waybill :=
  let incl := bitAt w.flags 1
  let extra := extraBlock s w
  let held := w.held.map (fun x => (x.1, x.2, true))
  let fresh := w.fresh.map (fun x => (x.1, x.2, false))
  let all := if !closes then held ++ fresh
    else match w.state with
      | .faulted => []
      | .done => held ++ fresh
      | _ => held
  let all := if closes && w.state == .done && w.stop.toNat % 8 == stopSequence && !incl then
      all.take (all.length - (stopSeq extra (w.stop.toNat / 8)).length)
    else all
  let all := if bitAt w.flags 0 then all.filter (fun x => x.1 != w.eosId) else all
  let keep := if closes || incl then 0 else heldTail w extra all.length
  let out := all.take (all.length - keep)
  let (recs, owed) := out.foldl (fun (acc : List (List Byte) × Nat) x =>
    let (r, o) := textRecords s i w step x.1 x.2.1 x.2.2 acc.2
    (acc.1 ++ r, o)) ([], w.owed)
  let colo := if w.colophon && w.state != .faulted then
      let c := colophonOf s w
      [headRecord i w 3 12 0 1 0 0 step (c.take 12), contRecord i w (c.drop 12)]
    else []
  let close := headRecord i w 2 12 0 0 0 0 step
    (leBytes 4 w.generated ++ leBytes 2 w.closeStatus.toNat ++ leBytes 1 w.stop.toNat ++ zeros 1 ++ leBytes 4 w.timingChoices.toNat)
  let w' := { w with held := (all.drop (all.length - keep)).map (fun x => (x.1, x.2.1)), fresh := [], owed := owed }
  if closes && w.state == .faulted && w.closeStatus == stPartition then ([], w')
  else if closes then (recs ++ colo ++ [close], w')
  else (recs, w')

/-- Room of an output ring at the third action (R427). -/
def outRoom (r : Ring) : Nat := r.cfg.slots - (r.producer - r.consumer).toNat

/-- One record written into an output ring (R412, R426). -/
def outWrite (ring : Nat) (rec : List Byte) (s : State) : State :=
  match kget s.rings.out ring with
  | none => s
  | some r =>
    sharedWrite (r.slotAt 32) rec { s with rings.out := kset ring { r with producer := r.producer + 1 } s.rings.out }

/-- The waybills that publish at a commit, in order: those with a row in the pass, by row; then the other closes, by
index (R346). -/
def publishOrder (s : State) : List Nat :=
  let rows := ((passRows s.eng.sheet).map (·.waybill)).filter (fun i => (kget s.eng.table i).isSome)
  rows ++ (s.eng.closedNow.filter (fun i => !rows.contains i)).foldl (fun l i => insertBy (fun a b => decide (a ≤ b)) i l) []

/-- What each waybill publishes: index, ring, records and the entry afterwards (R346). -/
def publishList (s : State) (step : Nat) : List (Nat × Nat × List (List Byte) × Waybill) :=
  (publishOrder s).filterMap (fun i => (kget s.eng.table i).bind (fun w =>
    let closes := s.eng.closedNow.contains i
    if closes || (!w.fresh.isEmpty && (w.state == .prefill || w.state == .decode)) then
      let (r, w') := recordsOf s step i w closes
      some (i, w.ring.toNat, r, w')
    else none))

/-- Whether every ring has room for its records (R347). -/
def publishFits (s : State) (l : List (Nat × Nat × List (List Byte) × Waybill)) : Bool :=
  (l.map (·.2.1)).all (fun ring =>
    let n := sumOf ((l.filter (fun x => x.2.1 == ring)).map (fun x => x.2.2.1.length))
    match kget s.rings.out ring with
    | some r => n == 0 || decide (n ≤ outRoom r)
    | none => true)

/-- First KiB of the colophon log in the near tier, and its entries (R436, R454). -/
def colophonBase : Nat := 4227072 + 11264
def colophonSlots : Nat := 262144

/-- The colophon among the records of a waybill, if they hold one (R344). -/
def colophonIn : List (List Byte) → Option (List Byte)
  | a :: b :: l => if leAt a 4 1 = 3 then some (sliceBytes a 20 12 ++ sliceBytes b 6 20) else colophonIn (b :: l)
  | _ => none

/-- A published colophon written into the colophon log, over its oldest entry (R454). -/
def logColophon (step i : Nat) (w : Waybill) (recs : List (List Byte)) (s : State) : State := match colophonIn recs with
  | none => s
  | some c =>
    nearPut (colophonBase * 1024 + s.fw.colophonNext % colophonSlots * 64)
      (c ++ leBytes 2 i ++ leBytes 2 w.tenant.toNat ++ leBytes 2 w.closeStatus.toNat ++ zeros 2 ++ leBytes 8 step ++ zeros 16)
      { s with fw.colophonNext := s.fw.colophonNext + 1 }

/-- The records written, ring by ring in their order, and the colophons logged (R346, R454). -/
def publishAll (step : Nat) (l : List (Nat × Nat × List (List Byte) × Waybill)) (s : State) : State :=
  l.foldl (fun s x =>
    let s := logColophon step x.1 x.2.2.2 x.2.2.1 (x.2.2.1.foldl (fun s r => outWrite x.2.1 r s) s)
    { s with eng.table := kset x.1 x.2.2.2 s.eng.table }) s

/-! ## The ledger (R189, R324) -/

/-- The slot of a waybill: its entry on the desk chip, its shadow on a stage chip (R324). -/
def ledgerSlot (s : State) (i : Nat) : List Byte :=
  if s.isDesk then match kget s.eng.table i with
    | some w => if w.state = .free then zeros 128 else waybillBytes w
    | none => zeros 128
  else match kget s.eng.shadows i with
    | some x => leBytes 2 i ++ leBytes 1 (bit x.voided) ++ zeros 1 ++ leBytes 3 x.committed ++ zeros 1 ++ leBytes 4 x.root ++ zeros 116
    | none => zeros 128

/-- Slots of a ledger copy that hold something. -/
def ledgerHeld (s : State) (base : Nat) : List Nat :=
  (s.boxMem.filter (fun c => base ≤ c.1 && c.1 < base + 8388480)).map (fun c => (c.1 - base) / 128)

/-- Slots whose content differs from that of the last copy written: among those that any table names, or that this copy holds, as
of an entry that has become FREE or of a shadow that is gone. -/
def ledgerChanged (s : State) : List Nat :=
  let last := ledgerBase (!s.eng.ledgerCopy)
  let mine := (if s.isDesk then s.eng.table.map (·.1) else s.eng.shadows.map (·.1))
  let named := (mine ++ ledgerHeld s last ++ s.eng.dirty).foldl (fun l i => if l.contains i then l else insertBy (fun a b => decide (a ≤ b)) i l) []
  named.filter (fun i => memRead blank s.boxMem (last + 128 * i) 128 != ledgerSlot s i)

/-- Whether the digest in a copy's end record matches the slots that the record covers (R189). -/
def ledgerValid (s : State) (c : Bool) : Bool :=
  let base := ledgerBase c
  let slots := (vget s.eng.ledgerSlots (bit c) []).flatMap (fun i => memRead blank s.boxMem (base + 128 * i) 128)
  sha256 (slots ++ memRead blank s.boxMem (base + 8388480) 16) == memRead blank s.boxMem (base + 8388480 + 16) 32

/-- TERMINUS of a ledger copy (R324). -/
def copyTerminus (s : State) (c : Bool) : Nat := nearNum s (ledgerBase c + 8388480) 8

/-- The ledger copy in force, if one is: the valid copy with the higher terminus (R189). -/
def ledgerInForce (s : State) : Option Bool :=
  match ledgerValid s false, ledgerValid s true with
  | true, true => some (decide (copyTerminus s false < copyTerminus s true))
  | true, false => some false
  | false, true => some true
  | false, false => none

/-- The ledger written at a terminus: every slot changed at this terminus or the previous one, then the end record (R189,
R324). `ledgerCopy` names the copy that is due. -/
def writeLedger (step : Nat) (s : State) : State :=
  let base := ledgerBase s.eng.ledgerCopy
  let changed := ledgerChanged s
  let slots := (changed ++ s.eng.dirty).foldl (fun l i => if l.contains i then l else insertBy (fun a b => decide (a ≤ b)) i l) []
  let data := slots.map (fun i => (i, ledgerSlot s i))
  let head := leBytes 8 step ++ leBytes 4 slots.length ++ zeros 4
  let dig := sha256 ((data.map (·.2)).flatten ++ head)
  let s := data.foldl (fun s x => nearPut (base + 128 * x.1) x.2 s) s
  let s := nearPut (base + 8388480) (head ++ dig ++ zeros 80) s
  let s := { s with
    eng.dirty := changed, eng.ledgerCopy := !s.eng.ledgerCopy
    eng.ledgerSlots := s.eng.ledgerSlots.set (bit s.eng.ledgerCopy) slots (by unfold bit; split <;> omega) }
  if s.isDesk then slots.foldl (fun s i => queueMirror ⟨i, 0, 0, itemLedger⟩ s) s else s

end Sys2Proof.Machine
end

