-- ==== Sys2Proof/Machine/Engine.lean ====
section
/-! DEFINITION. The waybill engine of the desk chip (R299 to R304, R315 to R323, R503): acceptance, closes, pending commands,
admission and the next sheet. -/

namespace Sys2Proof.Machine

open Sys2Proof

/-! ## Small parts -/

/-- A waybill changed. -/
def modWb (i : Nat) (f : Waybill → Waybill) (s : State) : State := { s with eng.table := kmod i f s.eng.table }

/-- Whether a state is one of the closed ones (R299). -/
def WbState.closed : WbState → Bool
  | .cancelled | .expired | .done | .faulted => true
  | _ => false

/-- An EXPIRED waybill that holds a ticket (R319). -/
def Waybill.parkedExpired (w : Waybill) : Bool := w.state == .expired && w.ticket != 0

/-- Kinds of timing choice (R62). -/
def tcAdmission : Nat := 0
def tcDeadline : Nat := 1
def tcTtl : Nat := 2
def tcCancel : Nat := 3

/-- A timing-choice event: its waybill counts it at once, so that a close that it causes reports it (R65), and the commit's
edition has it among its events (R64); the TIMETABLE counts take it in the sixth action (R315). That the count at close includes
the event that closes the waybill is the model's: DESIGN CHOICE, log entry 128. -/
def timingChoice (kind i : Nat) (s : State) : State :=
  { modWb i (fun w => { w with timingChoices := satInc w.timingChoices }) s with
      eng.choicesNow := s.eng.choicesNow + 1, eng.choicesDue := s.eng.choicesDue ++ [kind] }

/-- The timing choices of a commit counted (R62, R64, R315). -/
def countChoices (s : State) : State :=
  s.eng.choicesDue.foldl (fun (s : State) k =>
    { s with tt.timingChoice := s.tt.timingChoice + 1, tt.tcKind := vmod s.tt.tcKind k (· + 1) }) { s with eng.choicesDue := [] }

/-- A waybill closed (R300): nothing more that it generated is published, but for a DONE one (R315). -/
def closeWb (i : Nat) (st : WbState) (code : BitVec 16) (s : State) : State :=
  { modWb i (fun w => { w with state := st, closeStatus := code, fresh := if st == .done then w.fresh else [] }) s with
      eng.closedNow := if s.eng.closedNow.contains i then s.eng.closedNow else s.eng.closedNow ++ [i] }

/-- The tenant of an enabled output ring. -/
def ringTenant (s : State) (r : Nat) : Option Nat := match kget s.rings.out r with
  | some x => if x.cfg.enable then some x.cfg.aux.toNat else none
  | none => none

/-- Whether the tenants of a waybill's ring and livery are its own (R323). -/
def fenceOk (s : State) (w : Waybill) : Bool :=
  ringTenant s w.ring.toNat == some w.tenant.toNat
    && match w.livery with
      | some k => (match kget s.liv.slots k.toNat with
        | some x => x.tenant == w.tenant
        | none => false)
      | none => true

/-- PROOF_MAX added to a reservation (R304). -/
def reservation (v : Serving) (w : Waybill) (more : Nat) : Nat := w.inputLength + more + w.maxNew + v.proofMax

/-- Frames per layer of a reservation (R304). -/
def frameNeed (v : Serving) (w : Waybill) (more : Nat) : Nat := ceilDiv (reservation v w more) 128

/-- Whether a waybill's reservation makes it a sparse berth (R304). -/
def sparseBudget (v : Serving) (w : Waybill) : Bool := v.sparseN != 0 && decide (v.sparseN + 36 < frameNeed v w 0)

/-- The slice budget of a waybill (R304). -/
def sliceNeed (v : Serving) (w : Waybill) : Nat :=
  if sparseBudget v w then v.kvHeads * (v.sparseN + 36) else v.kvHeads * frameNeed v w 0

/-! ## Acceptance (R315, R335, R336, R338) -/

/-- Input tokens whose positions become committed, in order: the positions of a waybill in PREFILL, after its last generated token
and below its prefill target (R338, R503). -/
def committedInputs (s : State) (w : Waybill) (new : Nat) : List Nat :=
  if bitAt w.flags 2 && w.state == .prefill then
    (List.range (new - w.committed)).filterMap (fun k =>
      let p := w.committed + k
      if (w.generated = 0 || w.lastGen < p) && decide (p < w.target) then some (inputToken s w (p - w.generated)) else none)
  else []

/-- A closing waybill that fails the tenant fence at its publication closes FAULTED instead, and publishes nothing (R323). -/
def fenceClosed (i : Nat) (s : State) : State := match kget s.eng.table i with
  | some w => if w.state.closed && !fenceOk s w then modWb i (fun w => { w with state := .faulted, closeStatus := stPartition }) s else s
  | none => s

/-- Tokens added to a tally, and how many were not tallied (R338). -/
def tallyTokens (l : List (Nat × Nat)) (ts : List Nat) : List (Nat × Nat) × Nat :=
  ts.foldl (fun acc t =>
    let (l, ok) := tallyAdd t acc.1 acc.1.length
    (l, acc.2 + bit (!ok))) (l, 0)

/-- KiB of a waybill's input store that differ between two states (R384). -/
def changedStore (old new : State) (w : Waybill) : List Nat :=
  (List.range 64).filter (fun k =>
    memRead blank old.boxMem (w.storeByte + 1024 * k) 1024 != memRead blank new.boxMem (w.storeByte + 1024 * k) 1024)

/-- What the engine takes of row `k`'s results (R295). In a forme of one chip it reads the SAMPLER bytes and COMMITTED from the
sheet's read side, where the forme has sent them; the drawn tokens come with the release of R329. In a forme of several chips
the sampler is asked itself. -/
def rowResult (s : State) (k : Nat) (b : Berth) : Option SampledRow :=
  let drawn := s.smp.released.find? (fun r => r.row == k)
  match s.sheetAt with
  | some p =>
    if !s.oneChip then drawn
    else
      let x := berthOf (readPlace p (64 * k) 64 s)
      let tokens := match drawn with
        | some r => if r.tokens.isEmpty then [] else r.tokens.dropLast ++ [x.nextToken]
        | none => []
      some (if x.waybill = b.waybill then
          { emptyRow k (x.committed - b.committed) with stop := x.stop, tokens := tokens } else emptyRow k 0)
  | none => drawn

/-- The acceptance of one row (R315): committed and generated lengths, the tally, and a close DONE. -/
def acceptRow (r : SampledRow) (s : State) : State :=
  match s.eng.sheet[r.row]? with
  | none => s
  | some b => match kget s.eng.table b.waybill with
    | none => s
    | some w =>
      if !(b.kind == kPrefill || b.kind == kDecode) || !(w.state == .prefill || w.state == .decode)
          || b.voided then s
      else if !fenceOk s w then closeWb b.waybill .faulted stPartition s
      else
        let new := min (w.committed + r.accepted) lengthLimit
        let prefill := w.state == .prefill
        let first := if prefill then w.target else w.committed + 1
        let (tally, full) := tallyTokens (tallyOf s w) (committedInputs s w new ++ r.tokens)
        let w' := { w with
          committed := new, generated := w.generated + r.tokens.length
          state := if prefill && decide (w.target ≤ new) then .decode else w.state
          fresh := r.tokens.mapIdx (fun j t => (t, first + j))
          tail := (r.tokens.reverse ++ w.tail).take 16
          lastGen := if r.tokens.isEmpty then w.lastGen else first + (r.tokens.length - 1)
          stop := r.stop }
        let s1 := tallyWrite w tally { s with eng.table := kset b.waybill w' s.eng.table
                                              smp.tallyFull := wrapAdd s.smp.tallyFull full }
        let s1 := (changedStore s s1 w).foldl (fun x k => queueMirror ⟨b.waybill, 0, k, itemInput⟩ x) s1
        if r.stop.toNat % 8 != 0 then closeWb b.waybill .done stDone s1 else s1

/-- The end of a RESTORE pass (R321); while a rebuild is owed its report, the waybill takes another (R388). -/
def endRestore (b : Berth) (s : State) : State :=
  match kget s.eng.table b.waybill with
  | none => s
  | some w =>
    if w.state != .queued || !w.restoring || w.berth.isNone then s
    else if w.rebuilt then modWb b.waybill (fun w => { w with restoring := false, state := w.back, ticket := 0 }) s
    else modWb b.waybill (fun w => { w with berth := none }) s

/-- The sampler's counters take the rows of the step (R349). -/
def countSampler (s : State) : State :=
  let l := s.smp.released
  let n (p : SampledRow → Bool) : Nat := (l.filter p).length
  let why (k : Nat) (r : SampledRow) : Bool := r.stop.toNat % 8 == k
  { s with
    smp.draws := wrapAdd s.smp.draws (sumOf (l.map (·.draws))), smp.greedy := wrapAdd s.smp.greedy (sumOf (l.map (·.greedy)))
    smp.rows := wrapAdd s.smp.rows l.length, smp.nanLogits := satAdd s.smp.nanLogits (n (·.nan))
    smp.noCandidate := satAdd s.smp.noCandidate (n (why stopNoCandidate))
    smp.lengthLimit := wrapAdd s.smp.lengthLimit (n (why stopLength)), smp.maxNew := wrapAdd s.smp.maxNew (n (why stopMaxNew))
    smp.stopSequence := wrapAdd s.smp.stopSequence (n (why stopSequence)), smp.eos := wrapAdd s.smp.eos (n (why stopEos))
    smp.offered := wrapAdd s.smp.offered (sumOf (l.map (·.offered)))
    smp.accepted := wrapAdd s.smp.accepted (sumOf (l.map (·.matched))) }

/-! ## Expiry and cancellation (R316, R319 to R321, R421) -/

/-- A stabled copy and its ticket given up; `cancelled` says what ended it (R421). -/
def dropTicket (i : Nat) (cancelled : Bool) (s : State) : State :=
  modWb i (fun w => { w with ticket := 0, restoring := false
                             ticketEnd := if w.ticket = 0 then w.ticketEnd else some (w.ticket, cancelled) })
    { s with eng.parked := kdel i s.eng.parked, eng.restores := s.eng.restores.erase i }

/-- A ticket issued, with the TTL expiry time (R320). -/
def issueTicket (ref i : Nat) (s : State) : State :=
  let n := s.eng.serial + 1
  modWb i (fun w => { w with ticket := BitVec.ofNat 48 (n.toNat * 65536 + i)
                             deadline := if w.ttl = 0 then 0 else BitVec.ofNat 64 (ref + w.ttl.toNat * 1000000) })
    { s with eng.serial := n }

/-- What a commit's deadline reference expires of one waybill (R63, R319, R320): with EXPIRE_STABLE, and room for its pages, it
closes with a ticket. -/
def expireWb (ref i : Nat) (s : State) : State :=
  match kget s.eng.table i with
  | none => s
  | some w =>
    if w.deadline = 0 || ref < w.deadline.toNat then s
    else match w.state with
      | .queued | .prefill | .decode =>
        let s := timingChoice tcDeadline i s
        let s := modWb i (fun w => { w with back := if w.state == .queued then (if w.restoring then w.back else .prefill) else w.state
                                            ticketEnd := none }) s
        let s := if w.expireStable then modWb i (fun w => { w with ticket := 0 }) s else dropTicket i false s
        let s := closeWb i .expired stExpired s
        if w.expireStable && stableFits s i (pagesOf w.committed) then issueTicket ref i s else s
      | .stabled =>
        closeWb i .expired stExpired (dropTicket i false (timingChoice tcTtl i s))
      | .expired => if w.ticket != 0 then dropTicket i false s else s
      | _ => s

/-- A cancellation that takes effect, and the completion of its command (R316, R317, R421). -/
def takeCancel (i st : Nat) (cmd : Option Descriptor) (s : State) : State :=
  let fin (code : BitVec 16) (s : State) : State := match cmd with
    | some d => finishAtEdition d code (resAt 16 st) s
    | none => s
  match kget s.eng.table i with
  | none => fin stDone s
  | some w => match w.state with
    | .queued | .prefill | .decode | .stabled =>
      fin stCancelled (closeWb i .cancelled stCancelled (dropTicket i true (timingChoice tcCancel i s)))
    | .expired =>
      if w.ticket != 0 && !s.eng.closedNow.contains i then fin stDone (dropTicket i true s) else fin w.closeStatus s
    | _ => fin w.closeStatus s

/-- Whether a waybill's pass has ended at the desk in the step committed: it has a row in that pass (R320). -/
def passEnded (s : State) (i : Nat) : Bool := (passRows s.eng.sheet).any (fun b => b.waybill == i)

/-- Whether a stabling accepted before a cancellation of the same waybill takes effect at this commit (R421): its pass has
ended. -/
def stableFirst (s : State) (before : List WbPending) (i : Nat) : Bool :=
  before.any (fun p => p.change == .stable i) && match kget s.eng.table i with
    | some w => (w.state == .prefill || w.state == .decode) && w.berth.isSome && passEnded s i
    | none => false

/-- A pending cancellation at its turn, unless a stabling before it leaves it for the next commit (R315, R421). A waybill that its close
would publish to a ring or from a livery of another tenant closes by the fence instead (R323, R421). -/
def takePending (p : WbPending) (s : State) : State := match p.change with
  | .cancel i st =>
    if stableFirst s (s.eng.pending.takeWhile (· != p)) i then s
    else
      let s := { s with eng.pending := s.eng.pending.erase p }
      let fenced := match kget s.eng.table i with
        | some w => !w.state.closed && !fenceOk s w
        | none => false
      takeCancel i st p.cmd (if fenced then closeWb i .faulted stPartition (dropTicket i false s) else s)
  | _ => s

/-! ## The sixth action (R301, R304, R315) -/

/-- Whether any chip may hold something of a waybill: it has a berth, has committed a position, or holds something here. -/
def mayHold (s : State) (i : Nat) (w : Waybill) : Bool :=
  w.berth.isSome || w.committed != 0 || w.inPlace || s.holdsPages i || (kget s.eng.shadows i).isSome || (kget s.eng.parked i).isSome

/-- A release record queued for the next sheet of a waybill's microbatch, if any chip may hold something of it; the berth
is given up (R315). -/
def leaveBerth (i kind : Nat) (s : State) : State :=
  match kget s.eng.table i with
  | none => s
  | some w =>
    let any := mayHold s i w
    let rec' := { emptyBerth 0 with waybill := i, kind := kind, tenant := w.tenant, committed := w.committed
                                    ticket := if kind = kStableOut then w.ticket else 0 }
    let s := if any then { s with eng.releases := s.eng.releases ++ [(w.microbatch.toNat, rec')] } else s
    modWb i (fun w => { w with berth := none, inPlace := false }) s

/-- A ticket issued whose TTL runs from the first commit to come (R325). -/
def issueTicketLater (i : Nat) (s : State) : State :=
  let n := s.eng.serial + 1
  modWb i (fun w => { w with ticket := BitVec.ofNat 48 (n.toNat * 65536 + i), deadline := 0 }) { s with eng.serial := n }

/-- The TTL of a waybill that a warm reset or an unloading stabled begins at the first commit (R325). -/
def startTtl (ref : Nat) (w : Waybill) : Waybill :=
  if w.state == .stabled && w.ttl != 0 && w.deadline == 0 && ref != 0 then
    { w with deadline := BitVec.ofNat 64 (ref + w.ttl.toNat * 1000000) }
  else w

/-- What a close leaves to the sixth action: an EXPIRED waybill that has closed with a ticket at this terminus is stabled, and
every other closed one is released (R319, R322). -/
def settleClose (i : Nat) (s : State) : State :=
  match kget s.eng.table i with
  | none => s
  | some w =>
    if !w.state.closed || w.closing then s
    else if w.ticket != 0 then
      if s.eng.closedShown.contains i then modWb i (fun w => { w with restoring := false }) (leaveBerth i kStableOut s) else s
    else
      leaveBerth i kRelease { (modWb i (fun w => { w with ticket := 0, restoring := false }) s) with eng.parked := kdel i s.eng.parked }

/-- Frames per layer reserved (R304). -/
def reservedFrames (s : State) : Nat := sumOf (s.eng.table.map (fun x => x.2.reserved))

/-- A stabling that takes effect (R320 to R322, R421); it waits for the end of the waybill's pass. A STABLED waybill holds no reservation
(R304). -/
def applyStable (p : WbPending) (ref i : Nat) (s : State) : State :=
  let fin (code : BitVec 16) (s : State) : State := match p.cmd, kget s.eng.table i with
    | some d, some w => finishAtEdition d code (resAt 16 w.ticket.toNat + resAt 22 (wbCode w.state)) s
    | some d, none => finishAtEdition d code 0 s
    | none, _ => s
  match kget s.eng.table i with
  | none => fin stDone s
  | some w =>
    if !(w.state == .prefill || w.state == .decode) then fin stDone (modWb i (fun w => { w with stablePending := false }) s)
    else if w.berth.isNone || !passEnded s i then { s with eng.pending := s.eng.pending ++ [p] }
    else if !stableFits s i (pagesOf w.committed) then fin stNoRoom (modWb i (fun w => { w with stablePending := false }) s)
    else
      let s := modWb i (fun w => { w with stablePending := false, back := w.state, state := .stabled, ticketEnd := none, reserved := 0 }) (issueTicket ref i s)
      fin stDone (leaveBerth i kStableOut s)

/-- Every KiB of a new input store queued for the mirror (R384). -/
def mirrorStore (i kib : Nat) (s : State) : State := (List.range kib).foldl (fun s k => queueMirror ⟨i, 0, k, itemInput⟩ s) s

/-- An append that takes effect (R304, R421, R503, R505): a waybill in PREFILL or DECODE takes the new reservation at once; a QUEUED
or STABLED one is judged against FRAMES alone, and reserves nothing. -/
def applyAppend (p : WbPending) (i store kib n : Nat) (s : State) : State :=
  let fin (code : BitVec 16) (s : State) : State := match p.cmd, kget s.eng.table i with
    | some d, some w => finishAtEdition d code (resAt 16 w.inputLength + resAt 19 (wbCode w.state)) s
    | some d, none => finishAtEdition d code 0 s
    | none, _ => s
  match kget s.eng.table i, s.serving with
  | some w, some v =>
    if w.state.closed then
      fin (if w.state == .cancelled then stCancelled else if w.state == .expired then stExpired else stDone) (freeAt store s)
    else
      let need := frameNeed v w n
      let berthed := w.state == .prefill || w.state == .decode
      let room := if berthed then v.frames - reservedFrames s + w.reserved else v.frames
      if room < need then fin stNoRoom (freeAt store s)
      else
        let s := nearPut (store * 1024) (memRead blank s.boxMem w.storeByte 65536) s
        let s := freeAt w.inputStore.toNat s
        fin stDone (mirrorStore i kib (modWb i (fun w => { w with
          inputStore := BitVec.ofNat 32 store, storeKiB := kib, inputLength := w.inputLength + n
          state := if w.state == .decode then .prefill else w.state
          back := if w.back == .decode then .prefill else w.back
          reserved := if berthed then need else w.reserved }) s))
  | _, _ => fin stBadParam (freeAt store s)

/-- A resume that takes effect (R321, R421). A resume before the stabling copies have finished stops them: on this chip at once, and on
another by not sending the STABLE_OUT that still waits for its sheet, or by the RESTORE row. -/
def applyResume (p : WbPending) (ticket : BitVec 48) (deadline : BitVec 64) (priority : BitVec 4) (s : State) : State :=
  let i := ticket.toNat % 65536
  let fin (code : BitVec 16) (r : Nat) (s : State) : State := match p.cmd with
    | some d => finishAtEdition d code r s
    | none => s
  match kget s.eng.table i with
  | none => fin stBadParam 0 s
  | some w =>
    if w.ticket = ticket && (w.state == .stabled || w.state == .expired) then
      let s := match kget s.eng.parked i with
        | some k => if k.done then s else { s with eng.parked := kdel i s.eng.parked }
        | none => s
      let s := { s with eng.releases := s.eng.releases.filter (fun x => x.2.waybill != i || x.2.kind != kStableOut) }
      fin stDone (resAt 16 i) (modWb i (fun w => { w with
        state := .queued, restoring := true, deadline := deadline, priority := priority, closeStatus := 0
        closing := false, ticketEnd := none, inPlace := false }) s)
    else match w.ticketEnd with
      | some (t, c) => if t = ticket then fin (if c then stCancelled else stExpired) 0 s else fin stBadParam 0 s
      | none => fin stBadParam 0 s

/-- One pending command (R301). Cancellations that are still here wait for the next commit. -/
def applyPending (ref : Nat) (p : WbPending) (s : State) : State :=
  match p.change with
  | .opened i e =>
    let s := mirrorStore i e.storeKiB { s with eng.table := kset i { e with state := .queued } s.eng.table }
    match p.cmd with
    | some d => finishAtEdition d stDone 0 s
    | none => s
  | .appended i store kib n => applyAppend p i store kib n s
  | .cancel _ _ => { s with eng.pending := s.eng.pending ++ [p] }
  | .stable i => applyStable p ref i s
  | .resumed t dl pr => applyResume p t dl pr s
  | .liveryFree k =>
    let s := { s with liv.slots := kdel k s.liv.slots }
    match p.cmd with
    | some d => finishAtEdition d stDone 0 s
    | none => s

/-- A waybill becomes FREE (R300). -/
def freeWb (i : Nat) (s : State) : State :=
  match kget s.eng.table i with
  | none => s
  | some w => mirrorRelease i (freeAt w.inputStore.toNat { s with eng.table := kdel i s.eng.table })

/-- Closed entries of the previous terminus become FREE, and those of this one will (R300). -/
def freeClosed (s : State) : State :=
  let old := (s.eng.table.filter (fun x => x.2.closing && x.2.state.closed && !x.2.parkedExpired)).map (·.1)
  let s := old.foldl (fun s i => freeWb i s) s
  { s with eng.table := s.eng.table.map (fun x => (x.1, { x.2 with closing := x.2.state.closed && !x.2.parkedExpired })) }

/-! ## Breakpoints of the engine (R157, R158) -/

/-- The breakpoint of the engine that an entry meets before it is handled (R157, R158). -/
def engineStops (w : Nat) (s : State) : Option Nat :=
  if s.dbg.passed.contains .engine then none else s.breakAt (fun b => breakUnit b 2 (s.eng.handled + 1) w)

/-- An entry is handled: it counts, and the next may stop the engine again. -/
def engineHandles (s : State) : State :=
  { s with eng.handled := s.eng.handled + 1, dbg.passed := s.dbg.passed.filter (· != .engine) }

/-! ## Admission (R302 to R304, R342) -/

/-- Whether waybill `a` comes before or with `b` in admission order (R302). -/
def admitBefore (a b : Nat × Waybill) : Bool :=
  let key (w : Waybill) : Nat := if w.deadline = 0 then 2 ^ 64 else w.deadline.toNat
  if a.2.priority != b.2.priority then decide (b.2.priority.toNat < a.2.priority.toNat)
  else if key a.2 != key b.2 then decide (key a.2 < key b.2)
  else decide (a.2.opened.toNat ≤ b.2.opened.toNat)

/-- Liveries that no PREFILL or DECODE waybill names leave their staging slots (R342): on a stage chip, those that no shadow of a
waybill in a berth names. -/
def unstageIdle (step : Nat) (s : State) : State :=
  if s.isDesk then
    unstage (s.eng.table.filterMap (fun x =>
      if x.2.state == .prefill || x.2.state == .decode || (x.2.state == .queued && x.2.berth.isSome) then x.2.livery.map (·.toNat)
      else none)) step s
  else unstage (s.eng.shadows.filterMap (fun x => x.2.livery)) step s

/-- A waybill that fails the tenant fence at its admission closes FAULTED (R323). -/
def fenceCandidate (i : Nat) (s : State) : State :=
  leaveBerth i kRelease (closeWb i .faulted stPartition (dropTicket i false s))

/-- One visit of the walk of R303, to a candidate in a round. -/
def visit (v : Serving) (m step : Nat) (acc : Admission × State) (x : Nat × Nat) : Admission × State :=
  let (a, s) := acc
  let (round, i) := x
  match kget s.eng.table i with
  | none => acc
  | some w =>
    if a.rows = 0 || a.placed.contains i || w.state != .queued then acc
    else if v.frames < reservedFrames s + frameNeed v w 0 || v.sliceSlots < a.slices + sliceNeed v w
        || (sparseBudget v w && decide (v.sparseSlots ≤ a.sparse)) then
      ({ a with passedRoom := if a.passedRoom.contains i then a.passedRoom else i :: a.passedRoom }, s)
    else
      let liv := w.livery.map (·.toNat)
      let newLiv := match liv with
        | some k => !a.liveries.contains k
        | none => false
      if newLiv && round = 1 then acc
      else if !(newLiv && decide (v.liveryLimit ≤ a.liveries.length)) && !fenceOk s w then (a, fenceCandidate i s)
      else
        let stage := match liv, s.samplerPlan with
          | some k, some p => (match kget s.liv.slots k with
            | some y => if y.staged.isSome then some none else (freeStage s p v.stages step).map some
            | none => none)
          | some _, none => none
          | none, _ => some none
        if (newLiv && decide (v.liveryLimit ≤ a.liveries.length)) || stage.isNone then
          ({ a with passedLivery := if a.passedLivery.contains i then a.passedLivery else i :: a.passedLivery }, s)
        else
          let s := match liv, stage with
            | some k, some (some n) => stageLivery k n s
            | _, _ => s
          let s := modWb i (fun w => { w with
            microbatch := BitVec.ofNat 8 m, berth := some 0, reserved := frameNeed v w 0
            state := if w.restoring then w.state else .prefill }) s
          ({ a with placed := a.placed ++ [i], rows := a.rows - 1, slices := a.slices + sliceNeed v w
                    sparse := a.sparse + bit (sparseBudget v w)
                    liveries := match liv with
                      | some k => if a.liveries.contains k then a.liveries else k :: a.liveries
                      | none => a.liveries }, s)

/-- The waybills that hold a berth in a microbatch. -/
def berthed (s : State) (m : Nat) : List (Nat × Waybill) :=
  s.eng.table.filter (fun x => x.2.berth.isSome && x.2.microbatch.toNat == m
    && (x.2.state == .prefill || x.2.state == .decode || (x.2.state == .queued && x.2.restoring)))

/-- Whether another waybill of equal priority and deadline, opened later, stays QUEUED (R62). -/
def ordered (s : State) (w : Waybill) : Bool :=
  s.eng.table.any (fun x => x.2.state == .queued && x.2.berth.isNone && x.2.priority == w.priority && x.2.deadline == w.deadline
    && decide (w.opened.toNat < x.2.opened.toNat))

/-- The walk of R303 into microbatch `m`, after the commit of `step`, before its first visit. `closing` waybills are no
candidates. -/
def admitStart (v : Serving) (m step ref : Nat) (s : State) : AdmitWalk :=
  let queued := sortBy admitBefore (s.eng.table.filter (fun x => x.2.state == .queued && x.2.berth.isNone))
  let scan := orDefault v.admitScan 1024
  let cancelled (i : Nat) : Bool := s.eng.pending.any (fun p => match p.change with
    | .cancel j _ => i == j
    | _ => false)
  let cands := ((queued.take scan).filter (fun x =>
    !cancelled x.1 && !(x.2.deadline != 0 && decide (x.2.deadline.toNat ≤ ref)))).map (·.1)
  let kept := berthed s m
  let leaving := s.eng.table.filter (fun x => x.2.berth.isNone && x.2.reserved != 0 && x.2.microbatch.toNat == m)
  let start : Admission :=
    ⟨[], v.berths - kept.length, sumOf ((kept ++ leaving).map (fun x => sliceNeed v x.2)),
     (kept.filter (fun x => sparseBudget v x.2)).length, (kept.filterMap (fun x => x.2.livery.map (·.toNat))).dedup, [], []⟩
  let visits := (List.range 16).reverse.flatMap (fun prio =>
    let l := cands.filter (fun i => match kget s.eng.table i with
      | some w => w.priority.toNat == prio && w.state == .queued
      | none => false)
    l.map (fun i => (1, i)) ++ l.map (fun i => (2, i)))
  ⟨m, step, ref, start, [], visits⟩

/-- The walk of R303 as far as a breakpoint lets it go: what is left, and the breakpoint that stops it before a candidate
(R157). -/
def admitGo (v : Serving) : AdmitWalk → List (Nat × Nat) → State → AdmitWalk × Option Nat × State
  | w, [], s => ({ w with visits := [] }, none, s)
  | w, x :: l, s =>
    if w.adm.rows = 0 then ({ w with visits := [] }, none, s)
    else if w.seen.contains x.2 then
      let (a, s) := visit v w.m w.step (w.adm, s) x
      admitGo v { w with adm := a } l s
    else match engineStops x.2 s with
      | some k => ({ w with visits := x :: l }, some k, s)
      | none =>
        let (a, s) := visit v w.m w.step (w.adm, engineHandles s) x
        admitGo v { w with adm := a, seen := x.2 :: w.seen } l s

/-- What an admission that has come to its end counts (R62, R304): the waybills placed, and the state. -/
def admitEnd (a : Admission) (s : State) : List Nat × State :=
  let s := a.placed.foldl (fun s i => match kget s.eng.table i with
    | some w => if ordered s w then timingChoice tcAdmission i s else s
    | none => s) s
  (a.placed, { s with
    eng.admitted := wrapAdd s.eng.admitted a.placed.length, eng.admittedNow := s.eng.admittedNow + a.placed.length
    eng.passedLivery := satAdd s.eng.passedLivery a.passedLivery.length
    eng.passedRoom := satAdd s.eng.passedRoom a.passedRoom.length
    eng.freeRows := BitVec.ofNat 13 a.rows })

/-! ## The next sheet (R294, R295, R303, R310, R314) -/

/-- Whether a waybill comes before another in ROW order: by livery slot, those without one last, then by index (R303). -/
def rowBefore (a b : Nat × Waybill) : Bool :=
  let key (w : Waybill) : Nat := match w.livery with
    | some k => k.toNat
    | none => 4096
  if key a.2 != key b.2 then decide (key a.2 < key b.2) else decide (a.1 ≤ b.1)

/-- The committed length and state with which a waybill's next pass begins: those after the pass that the desk runs in the
step to come, in a forme of several chips (R294, R295). -/
def nextPass (s : State) (i : Nat) (w : Waybill) : Nat × WbState :=
  let st := if w.state == .queued then w.back else w.state
  if s.oneChip then (w.committed, st)
  else match s.eng.sheet.find? (fun b => b.waybill == i && (b.kind == kPrefill || b.kind == kDecode)) with
    | some b =>
      if st == .prefill then
        let l := w.committed + (if b.kind = kPrefill then b.writes else 1)
        (l, if w.target ≤ l then .decode else st)
      else (w.committed, st)
    | none => (w.committed, st)

/-- Full pages that a sheet has carried in HEADS: with those of the pass that the desk runs in the step to come (R310). -/
def headedOf (s : State) (i : Nat) (w : Waybill) : Nat := match s.eng.sheet.find? (fun b => b.waybill == i && b.headCount != 0) with
  | some b => max w.headed (b.headFirst + b.headCount)
  | none => w.headed

/-- The berth record of a waybill in the next sheet. NEXT_TOKEN is its last generated token, with which a pass after an append
begins as a DECODE pass does (R337, R503). -/
def nextBerth (v : Serving) (s : State) (placed : List Nat) (groups : List Nat) (row : Nat) (x : Nat × Waybill) : Berth :=
  let (i, w) := x
  let (l, st) := nextPass s i w
  let inFlight := !s.oneChip && s.eng.sheet.any (fun b => b.waybill == i && b.kind == kRestore)
  let kind := if w.restoring && !inFlight then kRestore else if st == .prefill then kPrefill else kDecode
  let group := match w.livery with
    | some k => (groups.findIdx? (· == k.toNat)).getD 0
    | none => groups.length % 64 + 128
  let headed := headedOf s i w
  let heads := if kind = kRestore then 0 else min 2 (w.committed / 128 - headed)
  { emptyBerth row with
    waybill := i, kind := kind, isNew := placed.contains i, voided := w.voided, sparse := kind != kRestore && isSparse v l
    group := BitVec.ofNat 8 group
    writes := if kind = kPrefill then max 1 (min v.chunk (w.target - l)) else if kind = kDecode then 1 + w.proofDepth.toNat else 0
    livery := w.livery.getD 0, tenant := w.tenant, committed := w.committed
    ticket := if kind = kRestore then w.ticket else 0
    headFirst := if heads = 0 then 0 else headed, headCount := heads
    nextToken := if kind = kRestore then 0 else w.tail.headD 0 }

/-- The sheet of microbatch `m`, after admission, and the entries' BERTH fields (R295, R303). -/
def buildSheet (v : Serving) (m : Nat) (placed : List Nat) (s : State) : List Berth × List Berth × State :=
  let rows := sortBy rowBefore (berthed s m)
  let groups := sortBy (fun a b => decide (a ≤ b)) ((rows.filterMap (fun x => x.2.livery.map (·.toNat))).dedup)
  let recs := rows.mapIdx (fun r x => nextBerth v s placed groups r x)
  let sheet := recs ++ (List.range (v.berths - recs.length)).map (fun k => emptyBerth (recs.length + k))
  let ofThis (x : Nat × Berth) : Bool := x.1 % max 1 v.stages == m
  let mine := s.eng.releases.filter ofThis
  let rel := (mine.take v.berths).map (·.2)
  let release := rel ++ (List.range (v.berths - rel.length)).map (fun _ => emptyBerth 0)
  let s := recs.foldl (fun s b => modWb b.waybill (fun w =>
    { w with berth := some (BitVec.ofNat 12 b.row) }) s) s
  (sheet, release, { s with
    eng.releases := s.eng.releases.filter (fun x => !ofThis x) ++ mine.drop v.berths
    eng.sent := mine.take v.berths :: s.eng.sent.take (v.stages - 1)
    eng.microbatch := BitVec.ofNat 8 m, eng.freeRows := BitVec.ofNat 13 (v.berths - recs.length) })

/-- Release records that go out again once passes in flight are abandoned (R325, R387): those of the last sheets that still say
what became of their waybills. -/
def sendAgain (s : State) : State :=
  let holds (x : Nat × Berth) : Bool := match kget s.eng.table x.2.waybill with
    | none => x.2.kind == kRelease
    | some w => if x.2.kind = kStableOut then w.ticket == x.2.ticket && (w.state == .stabled || w.state == .expired)
        else w.state.closed && w.ticket == 0
  { s with eng.releases := s.eng.sent.reverse.flatten.filter holds ++ s.eng.releases.filter holds, eng.sent := [] }

/-- The sheet at this chip's SHEET place, as landed (R295). -/
def readSheet (v : Serving) (s : State) : List Berth × List Berth :=
  match s.sheetAt with
  | none => ([], [])
  | some p =>
    let rd (k : Nat) : Berth := berthOf (readPlace p (64 * k) 64 s)
    ((List.range v.berths).map rd, (List.range v.berths).map (fun k => rd (v.berths + k)))

/-- Directory addresses of the desk's entries follow its allocations (R297, R307). -/
def noteDirectories (s : State) : State :=
  { s with eng.table := s.eng.table.map (fun x => (x.1, { x.2 with directory := BitVec.ofNat 32 (s.held x.1 .root) })) }

/-- The desk's engine part, written and, in a forme of one chip, processed at the same commit (R295). -/
def deskSheets (v : Serving) (m : Nat) (placed : List Nat) (s : State) : State :=
  let put (sheet release : List Berth) (s : State) : State := match s.sheetAt with
    | some p => writePlace p 0 (sheetBytes sheet release) s
    | none => s
  if s.oneChip then
    let (sheet, release, s) := buildSheet v m placed s
    noteDirectories (processSheet sheet release (put sheet release s))
  else
    let (pass, rel) := readSheet v s
    let s := processSheet pass rel s
    let (sheet, release, s) := buildSheet v m placed s
    noteDirectories (put sheet release { s with eng.nextSheet := sheet, eng.nextRelease := release })

/-- The liveries loaded since the last commit become VALID (R341). -/
def liveriesValid (s : State) : State :=
  { s with liv.slots := s.liv.slots.map (fun x => (x.1, { x.2 with valid := true })) }

/-- The engine's part of the sixth action on the desk chip before its pending commands (R315). -/
def deskApply (s : State) : State :=
  let done (x : Nat × Waybill) : Nat × Waybill := (x.1, if x.2.closing then { x.2 with reserved := 0 } else x.2)
  let s := { s with eng.table := s.eng.table.map done }
  (s.eng.table.map (·.1)).foldl (fun s i => settleClose i s) s

/-- What follows the pending commands: liveries, and the start of admission (R303, R341, R342). -/
def deskWalk (step ref : Nat) (s : State) : State := match s.serving with
  | none => s
  | some v =>
    let s := unstageIdle step (liveriesValid s)
    { s with eng.walk := some (admitStart v ((step + 1) % max 1 v.stages) step ref s) }

/-- What follows admission (R315): the sheets, entries that become FREE, and the timing choices counted. -/
def deskSettle (v : Serving) (w : AdmitWalk) (s : State) : State :=
  let (placed, s) := admitEnd w.adm { s with eng.walk := none }
  let s := countChoices (freeClosed (deskSheets v w.m placed s))
  { s with eng.reserved := BitVec.ofNat 32 (reservedFrames s) }

/-- What follows the pending commands on a stage chip: liveries (R341, R342), and the sheet of the next pass (R295). -/
def stageApply (step : Nat) (s : State) : State :=
  match s.serving with
  | none => s
  | some v =>
    let s := unstageIdle step (liveriesValid s)
    let (pass, rel) := readSheet v s
    processSheet pass rel s

/-- What the desk's second action does before its rows: reservations of waybills that left their berths end (R304), and TTLs
begin (R325). -/
def deskBegin (ref : Nat) (s : State) : State :=
  let begin (x : Nat × Waybill) : Nat × Waybill :=
    (x.1, startTtl ref (if x.2.berth.isNone && x.2.reserved != 0 then { x.2 with reserved := 0 } else x.2))
  { s with eng.table := s.eng.table.map begin }

/-- The rows of the pass that has ended, with their places in the sheet. -/
def endedRows (s : State) : List (Nat × Berth) :=
  (s.eng.sheet.mapIdx (fun k b => (k, b))).filter (fun x => x.2.kind == kPrefill || x.2.kind == kDecode || x.2.kind == kRestore)

/-- One row of the ended pass handled (R315, R321). -/
def handleRow (k : Nat) (b : Berth) (s : State) : State :=
  if !s.isDesk then s
  else if b.kind = kRestore then endRestore b s
  else match rowResult s k b with
    | some r => acceptRow r s
    | none => s

/-- A stage chip has reported that it could not hold its share of a stabled waybill, which closes FAULTED (R322). One that has
expired with its ticket is closed already, and loses the ticket. -/
def closeNoRoom (i : Nat) (ticket : BitVec 48) (s : State) : State :=
  match kget s.eng.table i with
  | none => s
  | some w =>
    if w.ticket != ticket || ticket = 0 then s
    else if w.state.closed then dropTicket i false s
    else closeWb i .faulted stInternal (dropTicket i false s)

/-- A waybill whose pages cannot be rebuilt closes FAULTED at the first commit after the restart (R390). -/
def loseWb (i : Nat) (s : State) : State := match kget s.eng.table i with
  | some w => if w.state.closed || w.state == .free then s
    else closeWb i .faulted stInternal (modWb i (fun w => { w with ticket := 0 }) { s with mirror.faulted := satInc s.mirror.faulted })
  | none => s

/-- Whether a commit's deadline reference expires a waybill, or ends the ticket of one that has expired (R63, R319). -/
def expires (ref : Nat) (w : Waybill) : Bool :=
  ref != 0 && w.deadline != 0 && decide (w.deadline.toNat ≤ ref) && (match w.state with
    | .queued | .prefill | .decode | .stabled => true
    | .expired => w.ticket != 0
    | _ => false)

/-- The entry that a work of the engine handles, where it handles one (R157). -/
def EngWork.entry (ref : Nat) (s : State) : EngWork → Option Nat
  | .noRoom i t => match kget s.eng.table i with
    | some w => if w.ticket = t && t != 0 then some i else none
    | none => none
  | .lost i => match kget s.eng.table i with
    | some w => if w.state.closed || w.state == .free then none else some i
    | none => none
  | .expire i => match kget s.eng.table i with
    | some w => if expires ref w then some i else none
    | none => none
  | .cancel p => match p.change with
    | .cancel i _ => if stableFirst s (s.eng.pending.takeWhile (· != p)) i then none else some i
    | _ => none
  | .apply p => match p.change with
    | .opened i _ | .appended i _ _ _ | .stable i => some i
    | .resumed t _ _ => some (t.toNat % 65536)
    | .cancel _ _ | .liveryFree _ => none

/-- One work of the engine done. A close is checked against the tenant fence (R323). A waybill that expires and then fails the fence at
the same commit has been counted as a DEADLINE_EXPIRY all the same: DESIGN CHOICE, log entry 129. -/
def EngWork.run (ref : Nat) (x : EngWork) (s : State) : State := match x with
  | .noRoom i t => fenceClosed i (closeNoRoom i t s)
  | .lost i => fenceClosed i (loseWb i s)
  | .expire i => fenceClosed i (expireWb ref i s)
  | .cancel p => takePending p s
  | .apply p => applyPending ref p s

/-- Works of the engine done in turn, as far as a breakpoint lets it go; the breakpoint that stops it before one (R157, R158). -/
def worksGo (ref : Nat) : List EngWork → State → Option Nat × State
  | [], s => (none, { s with eng.todo := [] })
  | x :: l, s => match x.entry ref s with
    | none => worksGo ref l (match x with
      | .apply _ => x.run ref s
      | .noRoom _ _ | .lost _ | .expire _ | .cancel _ => s)
    | some i => match engineStops i s with
      | some k => (some k, { s with eng.todo := x :: l })
      | none => worksGo ref l (x.run ref (engineHandles s))

/-- The rest of the desk's second action (R315), as works: waybills whose stabled copies are lost or whose pages cannot be rebuilt,
expiries, and then cancellations. Closes of the first action are checked against the fence first. -/
def deskCloses (s : State) : State :=
  let s := s.eng.closedNow.foldl (fun s i => fenceClosed i s) s
  { s with
    eng.todo := s.eng.noRoom.map (fun x => .noRoom x.1 x.2) ++ s.mirror.lost.map .lost ++ s.eng.table.map (fun x => .expire x.1)
      ++ (s.eng.pending.filter (fun p => match p.change with
        | .cancel _ _ => true
        | _ => false)).map .cancel
    eng.noRoom := [], mirror.lost := [] }

/-- The pending commands of the sixth action, in the order of their acceptance, as works (R301). -/
def pendingWorks (s : State) : State := { s with eng.todo := s.eng.pending.map .apply, eng.pending := [] }

end Sys2Proof.Machine
end

