-- ==== Sys2Proof/Machine/Blocks.lean ====
section
/-! DEFINITION. The block stream that a link port sends (R203, R204, R207): 64 B blocks of 8 B words, the LINK block after
every 24 of them, the heads and words of frames, and the stream's advance with time. -/

namespace Sys2Proof.Machine

open Sys2Proof

/-! ## Credits and units (R216, R217, R400) -/

/-- Payload units of a packet at a port: a fabric data packet has a 64 B header, a message of KCL a 32 B one. -/
def portUnits (p : Nat) (pkt : List Byte) : Nat := (pkt.length - (if p = 32 then 32 else 64)) / 64

/-- Data credits a packet takes at a port (R216). -/
def portCredits (p : Nat) (pkt : List Byte) : Nat := if isControl pkt then 0 else 1 + portUnits p pkt

/-- Header and data credits that a port advertises for a class (R217, R400). -/
def advertised (p cls : Nat) : Nat × Nat :=
  if p = 32 then if cls = 2 then (64, 0) else (256, 2048)
  else if cls = 0 then (32, 0) else if cls = 1 then (256, 512) else (64, 2560)

/-! ## Frames as words (R203, R204) -/

/-- The head of a frame (R204): KIND, CLASS, REPLAY, SEQ, UNITS-1 and the CRC over head bits [31:0] and the packet. -/
def frameHead (p : Nat) (f : TxFrame) : BitVec 64 :=
  let units := if isControl f.packet then 0 else portUnits p f.packet - 1
  let low := f.kind.toNat + f.cls.toNat * 2 ^ 2 + bit f.replay * 2 ^ 4 + f.seq.toNat * 2 ^ 8 + units * 2 ^ 20
  BitVec.ofNat 64 (low + crc32c (leBytes 4 low ++ f.packet) * 2 ^ 32)

/-- Bytes as 8 B words. -/
def wordsOf (bs : List Byte) : List (BitVec 64) :=
  (List.range (ceilDiv bs.length 8)).map (fun i => BitVec.ofNat 64 (leAt bs (8 * i) 8))

/-- The word at which nothing is sent: 8 zero bytes (R203). -/
def idleWord : BitVec 64 := 0

/-! ## The LINK block that a port forms (R207, R213, R218) -/

/-- STATE that a port sends: INIT until it has received an INIT block, then ACTIVE; PAUSE of the end that asked, PAUSED of
the end that answers, RESUME in the resume stage (R202, R224). -/
def sentState (q : Port) : Nat := match q.state with
  | .init => if q.sawInit then 1 else 0
  | .pausing => 2
  | .retraining => 3
  | .resuming => 4
  | _ => 1

/-- The LINK block that port `p` sends now: E - 1, the credits that its state calls for, DRAINED and its request. -/
def linkNow (drained : Bool) (p : Nat) (q : Port) : LinkBlock where
  state := BitVec.ofNat 8 (sentState q)
  firstHead := 0xFF
  ackSeq := q.rxExpected - 1
  ackValid := q.ackValid
  credit := q.credits.mapIdx (fun c x =>
    if sentState q = 0 then (BitVec.ofNat 16 (advertised p c).1, BitVec.ofNat 16 (advertised p c).2) else (x.retHdr, x.retData))
  drained := drained
  retrainReq := q.request.isSome
  target := if q.state == .pausing then q.target else ⟨0, 0⟩

/-- Bytes [59:0] of a LINK block. -/
def LinkBlock.body (b : LinkBlock) : List Byte :=
  leBytes 1 b.state.toNat ++ leBytes 1 b.firstHead.toNat ++ leBytes 2 (b.ackSeq.toNat + bit b.ackValid * 2 ^ 12)
    ++ (b.credit.toList.map (fun c => leBytes 2 c.1.toNat ++ leBytes 2 c.2.toNat)).flatten
    ++ leBytes 1 (bit b.drained + bit b.retrainReq * 2) ++ leBytes 1 (b.target.width.toNat + b.target.rate.toNat * 4) ++ zeros 42

/-- The 64 B of a LINK block with its CRC. -/
def LinkBlock.bits (b : LinkBlock) : BitVec 512 := BitVec.ofNat 512 (leNat b.body + crc32c b.body * 2 ^ 480)

/-! ## Laying words into blocks (R203) -/

/-- A block as its eight words. -/
def blockOf (ws : List (BitVec 64)) : BitVec 512 := BitVec.ofNat 512 (leNat (ws.flatMap (fun w => leBytes 8 w.toNat)))

/-- Index of the next word to be laid, from 0 for the first word after the last LINK block (FIRST_HEAD). -/
def Port.wordIndex (q : Port) : Nat := 8 * q.tx.sent.length + q.tx.opened.length

/-- One word laid. The word that fills a block sends it; the 24th block since the last LINK block is followed by the next:
block b is a LINK block when b mod 25 is 24. -/
def layWord (drained : Bool) (p : Nat) (q : Port) (w : BitVec 64) : Port :=
  if q.tx.opened.length < 7 then { q with tx.opened := q.tx.opened ++ [w] }
  else
    let b := q.tx.block + 1
    let q := { q with tx.block := b, tx.opened := [], tx.sent := q.tx.sent ++ [blockOf (q.tx.opened ++ [w])] }
    if b % 25 = 24 then { q with tx.block := b + 1, tx.sent := [], tx.link := some (linkNow drained p q) } else q

/-- Words laid in order. -/
def layWords (drained : Bool) (p : Nat) (ws : List (BitVec 64)) (q : Port) : Port := ws.foldl (layWord drained p) q

/-- The frame in progress laid to its end. -/
def finishFrame (drained : Bool) (p : Nat) (q : Port) : Port :=
  layWords drained p q.tx.words { q with tx.words := [] }

/-- A frame begun at the next word (R203): the frame before it has ended; FIRST_HEAD of the last LINK block names the first
head laid after it. -/
def layFrame (drained : Bool) (p : Nat) (f : TxFrame) (q : Port) : Port :=
  let q := finishFrame drained p q
  let i := BitVec.ofNat 8 q.wordIndex
  let mark (b : LinkBlock) : LinkBlock := if b.firstHead = 0xFF then { b with firstHead := i } else b
  let q := layWord drained p { q with tx.link := q.tx.link.map mark } (frameHead p f)
  { q with tx.words := wordsOf f.packet }

/-- The frame in progress, and then idle words, up to the next LINK block, which carries the port's new state (R202, R224;
log entry 118). -/
def sendState (drained : Bool) (p : Nat) (q : Port) : Port :=
  let q := finishFrame drained p q
  layWords drained p (List.replicate (192 - q.wordIndex) idleWord) q

/-- The rest of the block now being filled: words of the frame in progress, then idle words. -/
def layBlock (drained : Bool) (p : Nat) (q : Port) : Port :=
  let n := 8 - q.tx.opened.length
  let ws := q.tx.words.take n
  layWords drained p (ws ++ List.replicate (n - ws.length) idleWord) { q with tx.words := q.tx.words.drop n }

/-- Blocks laid in order. -/
def layBlocks (drained : Bool) (p : Nat) : Nat → Port → Port
  | 0, q => q
  | n + 1, q => layBlocks drained p n (layBlock drained p q)

/-! ## The stream's rate (R200, R203, R231) -/

/-- Width code of a fabric port's active lanes: 0 x4, 1 x2, 2 x1. -/
def widthOf (lanes : Nat) : Nat := if lanes % 16 = 15 then 0 else if lanes % 16 = 3 || lanes % 16 = 12 then 1 else 2

/-- What a nanosecond adds to a port's phase, and the phase that a data block takes. Twenty-four data blocks and a LINK block
take 16 ns at x4 and 212.5 Gb/s; KCL carries 224 GB/s x 514/544 of blocks. -/
def streamRate (p : Nat) (q : Port) : Nat × Nat :=
  if p = 32 then (5397, 1700) else (384 / 2 ^ (widthOf q.lanesActive.toNat + q.rate.toNat), 256)

/-- Whether a port's block stream runs: from INIT on, but while its lanes retrain (R202, R224). -/
def Port.streams (q : Port) : Bool := q.state == .init || q.state == .active || q.state == .pausing || q.state == .resuming

/-- One nanosecond of a port's stream. -/
def streamNs (drained : Bool) (p : Nat) (q : Port) : Port :=
  if !q.streams then q
  else
    let (rate, block) := streamRate p q
    let t := q.tx.phase + rate
    layBlocks drained p (t / block) { q with tx.phase := t % block }

/-- DRAINED as this chip sends it: it is not between launch and drain completion (R207). -/
def State.sendsDrained (s : State) : Bool := !s.tt.inStep

/-- One nanosecond of every port's stream. -/
def streamTick (s : State) : State := { s with ports := s.ports.mapIdx (fun p q => streamNs s.sendsDrained p q) }

/-- A port's change of state told to its partner in the next LINK block. -/
def tellState (p : Nat) (s : State) : State := s.modPort p (sendState s.sendsDrained p)

end Sys2Proof.Machine
end

