-- ==== Sys2Proof/Machine/Link.lean ====
section
/-! DEFINITION. The Syndun link layer (R197 to R231): training, frames, sequence numbers and replay, credits, LINK
blocks, retrains, and a port that goes DOWN; the companion link as port 32 (R231, R400, R410). -/

namespace Sys2Proof.Machine

open Sys2Proof

/-! ## Widths (R197, R227) -/

/-- The widest width code that the good lanes of a fabric port allow (R227): 0 x4, 1 x2, 2 x1. -/
def reachWidth (good : Nat) : Option Nat :=
  if good % 16 = 15 then some 0
  else if good % 4 = 3 || good / 4 % 4 = 3 then some 1
  else if good % 16 = 0 then none
  else some 2

/-- The lanes a width uses of this end's good ones (R227). Which lanes serve where the partner's good lanes are others is not
stated: each end takes its own lowest, DESIGN CHOICE, log entry 148. -/
def activeLanes (width good : Nat) : Nat :=
  if width = 0 then 15
  else if width = 1 then if good % 4 = 3 then 3 else 12
  else if bitAt good 0 then 1 else if bitAt good 1 then 2 else if bitAt good 2 then 4 else 8

/-- Bounds of the pause, retrain and resume stages together, in ns (R224): by reach class, with a width change or a
rate change. -/
def retrainBound (reach : Nat) (wide rate : Bool) : Nat :=
  let lanes := if reach = 0 then (if rate then 40000 else if wide then 8000 else 6000)
    else if reach = 1 then (if rate then 42000 else if wide then 10000 else 8000)
    else (if rate then 46000 else if wide then 14000 else 12000)
  lanes + (if reach = 2 then 4000 else 1000)

/-- The width code in use. -/
def Port.width (q : Port) : Nat := widthOf q.lanesActive.toNat

/-- Margin codes after the active lanes become `act`: 0 where a lane is inactive (R222). -/
def marginsFor (act : Nat) (m : Vector (BitVec 8) 4) : Vector (BitVec 8) 4 :=
  m.mapIdx (fun i x => if bitAt act i then x else 0)

/-! ## Credits (R216 to R218, R400) -/

/-- Whether the receive buffer of a class has room for a packet: the sender held a credit for it (R221). -/
def rxRoom (p cls : Nat) (pkt : List Byte) (q : Port) : Bool :=
  let held := q.rx.filter (fun r => r.cls.toNat == cls)
  decide (held.length + 1 ≤ (advertised p cls).1)
    && decide (sumOf (held.map (fun r => portCredits p r.packet)) + portCredits p pkt ≤ (advertised p cls).2)

/-- Credits of a packet given back by its receiver (R216). -/
def returnCredits (p cls : Nat) (pkt : List Byte) (q : Port) : Port :=
  { q with credits := vmod q.credits cls (fun c =>
      { c with retHdr := c.retHdr + 1, retData := wrapAdd c.retData (portCredits p pkt) }) }

/-- The first packet of a receive buffer that satisfies `f` leaves it, and its credits go back. -/
def rxTake (p : Nat) (f : RxPacket → Bool) (s : State) : State :=
  match takeFirst f (s.port p).rx with
  | some (r, rest) => s.modPort p (fun q => returnCredits p r.cls.toNat r.packet { q with rx := rest })
  | none => s

/-- A forwarded packet has left its output port: it leaves the receive buffer of the port it came by, unless a copy of
it still waits to be delivered (R238, R239). -/
def viaSent (o : OutPacket) (s : State) : State :=
  match o.via with
  | none => s
  | some v =>
    match (s.port v.val).rx.find? (fun r => r.out.isSome && r.packet == o.packet) with
    | none => s
    | some r =>
      if r.copyWaits then
        match takeFirst (fun x => x == r) (s.port v.val).rx with
        | some (x, rest) => s.modPort v.val (fun q => { q with rx := { x with out := none } :: rest })
        | none => s
      else rxTake v.val (fun x => x == r) s

/-! ## Broadcasts (R374) -/

/-- Whether a waiting packet is one of this chip's own broadcast: WEIGHT_DATA or WEIGHT_END for SB3, formed here (R374). -/
def isCast (o : OutPacket) : Bool :=
  o.via.isNone && pkType o.packet == 0x41 && (leAt o.packet 64 1 == 1 || leAt o.packet 64 1 == 2) && leAt o.packet 65 1 == 3

/-- A WEIGHTS_BROADCAST completes once none of its packets waits at a port (R374). One of whose packets a port has dropped has not
been sent on every route: it completes with INTERNAL, and its tensors are absent (DESIGN CHOICE, log entry 134). -/
def castGo (s : State) : State := match s.forme.broadcast with
  | none => s
  | some b =>
    if s.ports.toList.any (fun q => q.txCtrl.any isCast) then s
    else
      let s := { s with forme.broadcast := none }
      if b.lost then formeRefuse b.cmd stInternal frState (dropTensors b.tensors s) else formeDone b.cmd b.result s

/-- Packets dropped at a port: a broadcast that had one among them has lost it (R228, R374). -/
def castDropped (gone : List OutPacket) (s : State) : State :=
  if gone.any isCast then { s with forme.broadcast := s.forme.broadcast.map (fun b => { b with lost := true }) } else s

/-! ## Sending frames (R203, R206, R211, R214) -/

/-- Bytes in the replay buffer (R211). -/
def Port.replayBytes (q : Port) : Nat := sumOf (q.replay.map (fun f => frameBytes f.packet))

/-- Whether a port has the credits, the sequence window and the replay room for a packet of a class (R211, R216). -/
def canStart (p cls : Nat) (pkt : List Byte) (q : Port) : Bool :=
  let c := vget q.credits cls Credit.reset
  decide (1 ≤ c.hdr.toNat) && decide (portCredits p pkt ≤ c.data.toNat) && decide (q.replay.length < 1024)
    && decide (q.replayBytes + frameBytes pkt ≤ 2 ^ 20)

/-- The port with a new frame started: it takes its sequence number, its credits and its place in the replay buffer, and its
words go into the block stream (R203, R211, R216). -/
def startFrame (drained : Bool) (p cls : Nat) (pkt : List Byte) (q : Port) : Port :=
  let f : TxFrame := ⟨q.txNext, if isControl pkt then 1 else 2, BitVec.ofNat 2 cls, pkt, false⟩
  let q := { q with replay := q.replay ++ [f], txNext := q.txNext + 1
                    credits := vmod q.credits cls (fun c =>
                      { c with hdr := c.hdr - 1, data := c.data - BitVec.ofNat 16 (portCredits p pkt) }) }
  layFrame drained p f { q with replayHigh := BitVec.ofNat 21 (max q.replayHigh.toNat q.replayBytes) }

/-- The 64 B units of a TIME or CTRL frame sent in a step (PORT_CTRL). -/
def countCtrl (pkt : List Byte) (s : State) (q : Port) : Port :=
  if s.tt.inStep then { q with ctrlUnits := wrapAdd q.ctrlUnits (ceilDiv (frameBytes pkt) 64) } else q

/-- A frame sent again, with REPLAY set and its own sequence number (R214). -/
def resendFrame (drained : Bool) (p : Nat) (q : Port) : Port :=
  let i := q.replay.length - q.resend
  let q := match q.replay[i]? with
    | some f => layFrame drained p { f with replay := true } q
    | none => q
  { q with replay := q.replay.mapIdx (fun k f => if k = i then { f with replay := true } else f)
           resend := q.resend - 1, sentAgain := q.sentAgain + 1 }

/-- Class and bytes of a message of KCL (R400, R401). -/
def kclClass (m : KclMsg) : Nat := if m.msg.toNat < 0x20 then 0 else if m.msg.toNat < 0x40 then 1 else 2

/-- The bytes of a message of KCL (R401). -/
def kclBytes (m : KclMsg) : List Byte :=
  leBytes 1 m.msg.toNat ++ leBytes 1 (bit m.error) ++ leBytes 2 m.tag.toNat ++ zeros 4 ++ leBytes 8 m.addr
    ++ List.replicate 8 0xFF ++ leBytes 2 m.length ++ zeros 6
    ++ (if m.data.isEmpty then [] else sliceBytes m.data 0 (64 * ceilDiv m.data.length 64))

/-- Bytes put over those at an offset. -/
def putBytes (off : Nat) (new pkt : List Byte) : List Byte := pkt.take off ++ new ++ pkt.drop (off + new.length)

/-- The fraction of station time, in 1/256 ns. -/
def State.nowFrac (s : State) : Nat := s.time.frac.toNat / 2 ^ 40

/-- Whether a TIME packet may leave at this frame boundary: a reply only once T3 is later than T2 (R282). -/
def timeReady (s : State) (o : OutPacket) : Bool :=
  o.via.isSome || pkType o.packet != 2
    || decide (leAt o.packet 8 8 * 256 + leAt o.packet 16 1 < s.now * 256 + s.nowFrac)

/-- A TIME packet of this chip with its departure written as it leaves (R275, R282). -/
def stampTime (s : State) (o : OutPacket) : List Byte :=
  if o.via.isSome then o.packet
  else if pkType o.packet = 1 then putBytes 8 (leBytes 8 s.now ++ leBytes 1 s.nowFrac) o.packet
  else if pkType o.packet = 2 then putBytes 20 (leBytes 8 s.now) (putBytes 18 (leBytes 1 s.nowFrac) o.packet)
  else putBytes 16 (leBytes 8 s.now) o.packet

/-- The departure of a probe kept for its exchange. -/
def keepT1 (k : Nat) (o : OutPacket) (s : State) : State :=
  let mine (x : BitVec 8 × BitVec 5 × Nat) : Bool :=
    o.via.isNone && pkType o.packet == 1 && x.2.1.toNat == k && x.1.toNat == leAt o.packet 17 1
  { s with time.probes := mapIf mine (fun x => (x.1, x.2.1, s.now * 256 + s.nowFrac)) s.time.probes }

/-- The TIME packet whose turn it is at a port, and the others: a reply before any other (R275). -/
def timeNext (q : Port) : Option (OutPacket × List OutPacket) :=
  match takeFirst (fun o => pkType o.packet == 2) q.txTime with
  | some x => some x
  | none => match q.txTime with
    | o :: rest => some (o, rest)
    | [] => none

/-- Whether 2 us have passed since a port's last TIME frame started (R206). -/
def timeSpaced (s : State) (q : Port) : Bool := match q.lastTime with
  | none => true
  | some t => decide (t + 2000 ≤ s.now)

/-- The new frame that a port may start at a frame boundary, by R206: its class, its packet, and the port without it. A class
whose first packet may not start yet leaves the boundary to the next class, since credits are kept by class (R216). -/
def nextFrame (s : State) (k : Nat) (q : Port) : Option (Nat × OutPacket × Port) :=
  let time := match timeNext q with
    | some (o, rest) =>
      if timeSpaced s q && timeReady s o && canStart k 0 o.packet q then
        some (0, o, { q with txTime := rest, lastTime := some s.now })
      else none
    | none => none
  let ctrl := match q.txCtrl with
    | o :: rest => if canStart k 1 o.packet q then some (1, o, { q with txCtrl := rest }) else none
    | [] => none
  let data := match q.txData with
    | o :: rest => if o.released && canStart k 2 o.packet q then some (2, o, { q with txData := rest }) else none
    | [] => none
  time.or (ctrl.or data)

/-- A frame of a fabric port started for a class: a TIME packet takes its departure, and a forwarded packet leaves the receive
buffer that held it. -/
def startFabric (k cls : Nat) (o : OutPacket) (q : Port) (s : State) : State :=
  let count (x : Port) : Port := if cls = 2 then x else countCtrl o.packet s x
  let pkt := if cls = 0 then stampTime s o else o.packet
  let s := s.modPort k (fun _ => count (startFrame s.sendsDrained k cls pkt q))
  viaSent o (if cls = 0 then keepT1 k o s else s)

/-- FRAME_START (R203, R204, R206): a port at a frame boundary starts its next frame: a frame sent again, else TIME,
CTRL and released DATA packets in that order. KCL sends its messages in the order they were formed (log entry 30). -/
def execFrameStart (p : LinkId) (s : State) : Out :=
  let k := p.val
  let q := s.port k
  .next (
    if q.state != .active || !q.sawActive then s
    else if 0 < q.resend then s.modPort k (resendFrame s.sendsDrained k)
    else if k = 32 then
      match takeFirst (fun m => canStart 32 (kclClass m) (kclBytes m) q) s.kcl.tx with
      | some (m, rest) => { s.modPort 32 (startFrame s.sendsDrained 32 (kclClass m) (kclBytes m)) with kcl.tx := rest }
      | none => s
    else
      match nextFrame s k q with
      | some (cls, o, q) => castGo (startFabric k cls o q s)
      | none => s)

/-! ## A port that goes DOWN (R228, R229, R410) -/

/-- The frames of the replay buffer and of the receive buffers are discarded and counted; the copies of received packets
that other ports held leave with them. -/
def dropBuffers (p : Nat) (s : State) : State :=
  let n := (s.port p).replay.length + (s.port p).rx.length
  let keep (l : List OutPacket) : List OutPacket := l.filter (fun o => o.via.map Fin.val != some p)
  let cut (q : Port) : Port := { q with txTime := keep q.txTime, txCtrl := keep q.txCtrl, txData := keep q.txData }
  let s := { s with ports := s.ports.map cut }
  s.modPort p (fun q => { q with replay := [], rx := [], resend := 0, txOldest := q.txNext, framesLost := satAdd q.framesLost n })

/-- The commands that awaited a retrain or a training try complete (R422). One that still waits for its terminus does not. -/
def linkCmdEnd (p : Nat) (s : State) : State :=
  let q := s.port p
  let waits := q.request.isSome
  let code : Nat := match q.state with
    | .down => 0 | .training => 1 | .init => 2 | .active => 3 | .pausing => 4 | .retraining => 5 | .resuming => 6
  (q.runCmds ++ (if waits then [] else q.requestCmd.toList)).foldl (fun s d => finish d stDone code s)
    (s.modPort p (fun q => { q with runCmds := [], requestCmd := if waits then q.requestCmd else none }))

/-- What the module does when KCL goes DOWN (R410). An image that the ROM was reading is asked for anew (log entry 138). -/
def kclFail (s : State) : State :=
  let was := s
  let lines := s.kcl.lines.length
  let cut := s.rings.taken.filter (fun d => s.kcl.reads.any (fun r => r.cmd == some d) || s.kcl.want.any (fun r => r.cmd == some d))
  let rom := s.kcl.reads.any (fun r => r.cmd.isNone) || s.kcl.want.any (fun w => w.cmd.isNone)
  let s := { s with
    fw.recoveryGo := s.fw.recoveryGo && !rom
    kcl.wasDown := true, kcl.downAt := s.time.ns, kcl.downLines := lines, kcl.downCmds := cut.length
    kcl.snoopTimeouts := satAdd s.kcl.snoopTimeouts lines, kcl.lines := [], kcl.snoops := [], kcl.reqs := []
    kcl.intrs := [], kcl.reads := [], kcl.want := [], kcl.got := [], kcl.tx := []
    kcl.fifo := s.kcl.fifo.filter (fun o => match o with
      | .intr _ => false
      | .write _ _ | .mirror _ => true)
    near.channels := s.near.channels.map (fun c => { c with host := [] })
    rings.taken := s.rings.taken.filter (fun d => !cut.contains d) }
  kclPump (cut.foldl (fun s d => readsFailed d was s) s)

/-- Whether SB5, which has the time exchanges, the notices and PPS discipline, runs its services (R289, R429). -/
def State.sb5Up (s : State) : Bool := s.power.readyBox.getLsbD 5

/-- A slave whose PORT is not READY uses ALT_PORT if that is READY (R281); with neither it is in HOLDOVER. -/
def pickUpstream (s : State) : State :=
  if s.time.role != 2 then s
  else
    let main := (s.port s.time.port.toNat).ready
    let alt := (s.port s.time.altPort.toNat).ready
    if !main && alt then { s with time.usingAlt := true }
    else if main && s.time.usingAlt && !alt then { s with time.usingAlt := false }
    else if !main && !alt then { s with time.locked := false, time.holdover := true }
    else s

/-! ## Notices (R280, R282) -/

/-- The body of a TIME_NOTICE; STATION is written as the frame leaves. -/
def noticeBody (s : State) : Nat :=
  let master := if s.time.role = 1 then s.fab.gid.toNat else s.time.master.toNat
  master + s.time.steps.toNat * 2 ^ 24
    + (bit s.time.locked + 2 * bit s.time.ppsDiscipline + 4 * bit s.time.holdover) * 2 ^ 32
    + s.time.errorBound.toNat * 2 ^ 128

/-- A TIME_NOTICE queued on every READY port, while SB5 runs (R280, R429). -/
def noticeAll (s : State) : State :=
  if !s.sb5Up then s
  else (List.range 32).foldl (fun s p =>
    if (s.port p).ready then sendTime p (controlPacket 3 0 ⟨BitVec.ofNat 84 p, 1⟩ (noticeBody s)) none s else s) s

/-- A notice as well whenever LOCKED or HOLDOVER has changed (R280). -/
def noticeChange (before after : State) : State :=
  if before.time.locked != after.time.locked || before.time.holdover != after.time.holdover then noticeAll after else after

/-- A port goes DOWN (R228): READY clears, buffers are discarded, PACKET_DISCARD is recorded in a step, an event is
posted, and what is queued to be sent is discarded. KCL follows R410 in place of the fault and the event. -/
def portDownWith (fault : Bool) (p : Nat) (s : State) : State :=
  let was := (s.port p).ready
  let q := s.port p
  let gone := q.txTime ++ q.txCtrl ++ q.txData.filter (fun o => o.released)
  let s := dropBuffers p s
  let s := s.modPort p (fun q =>
    { q with state := .down, ready := false, reach := 3, lanesActive := 0, margin := .replicate 4 0
             downEvents := if was then satInc q.downEvents else q.downEvents
             txTime := [], txCtrl := [], txData := q.txData.filter (fun o => !o.released)
             sawInit := false, sawActive := false, again := none, request := none, reinit := false
             tx.words := [], lastTime := none })
  let s := gone.foldl (fun s o => viaSent o s) s
  let s := if p = 32 then (if was then kclFail s else s)
    else if was then
      postEvent evPortDown p (if s.tt.inStep then s.tt.step.toNat else 0) 0 (if fault then stepFault fcDiscard (128 + p) s else s)
    else s
  noticeChange s (pickUpstream (linkCmdEnd p (castGo (castDropped gone s))))

/-- A port goes DOWN for a cause of R228 or by LINK_CONFIG. -/
def portDown (p : Nat) (s : State) : State := portDownWith true p s

/-- A port that enters INIT (R202): sequence numbers at 0, nothing outstanding, no credits held yet. -/
def initPort (q : Port) : Port :=
  { q with state := .init, txNext := 0, txOldest := 0, rxExpected := 0, ackValid := false, replay := [], resend := 0
           rx := [], credits := .replicate 3 Credit.reset, sawInit := false, sawActive := false, skipping := false
           timeoutsRow := 0, again := none, reinit := false, tx.words := [] }

/-- A port in INIT with its INIT block sent (R202). -/
def beginInit (p : Nat) (f : Port → Port) (s : State) : State := tellState p (s.modPort p (fun q => initPort (f q)))

/-! ## Training (R197, R199, R201, R202) -/

/-- Full training begins (R201): never in a step, where the try waits for the terminus. -/
def beginTraining (p : Nat) (s : State) : State :=
  let q := s.port p
  if !q.enable || q.state != .down || !(p == 32 || s.clk.enLink.getLsbD p) then s
  else if s.tt.inStep then s.modPort p (fun q => { q with tryWaits := true })
  else s.modPort p (fun q => { q with state := .training, tryWaits := false })

/-- The training tries that waited for a terminus (R201). -/
def waitingTries (s : State) : State :=
  (List.range 33).foldl (fun s p => if (s.port p).tryWaits then beginTraining p s else s) s

/-- Full training never runs in a step (R201): at a launch the tries in progress end, to be made again at the terminus (log
entry 119). -/
def stopTraining (s : State) : State :=
  { s with ports := s.ports.map (fun q => if q.state == .training then { q with state := .down, tryWaits := true } else q) }

/-- TRAINING_RETRY (R201). -/
def execTrainingRetry (p : LinkId) (s : State) : Out := .next (beginTraining p.val s)

/-- LANE_TRAINING_COMPLETE (R197, R199, R202, R222): INIT with the width the lanes allow, or DOWN where no lane is good
or the reach classes differ. -/
def execLaneTrainingComplete (p : LinkId) (r : TrainResult) (s : State) : Out :=
  let k := p.val
  let q := s.port k
  .next (
    if q.state != .training then s
    else if k = 32 then
      if r.good = 0xFFFF then
        beginInit 32 (fun q => { q with
          lanesGood := r.good, lanesActive := 0xFFFF, reach := 0, trainedOnce := true, equalised := true
          margin := .replicate 4 128, tx := TxStream.reset, rxBlock := 0 }) s
      else portDown 32 (s.modPort 32 (fun q => { q with lanesGood := r.good }))
    else
      match reachWidth r.good.toNat with
      | none => portDown k (s.modPort k (fun q => { q with lanesGood := r.good }))
      | some w =>
        if q.reachCfg != r.partnerReach then portDown k (s.modPort k (fun q => { q with lanesGood := r.good }))
        else
          let act := activeLanes (max w r.partnerWidth.toNat) r.good.toNat
          beginInit k (fun q => { q with
            lanesGood := r.good, lanesActive := BitVec.ofNat 16 act, rate := r.rate, reach := q.reachCfg
            trainedOnce := true, equalised := true, margin := marginsFor act (.replicate 4 128)
            tx := TxStream.reset, rxBlock := 0 }) s)

/-! ## LINK blocks (R207, R208, R213, R218) -/

/-- A LINK block that counts: its CRC is good and its STATE is not reserved (R208). -/
def blockGood (w : Nat) : Bool := crc32c (leBytes 60 w) == fld w 480 32 && decide (fld w 0 8 ≤ 4)

/-- STATE of a LINK block. -/
def blockState (w : Nat) : Nat := fld w 0 8

/-- An acknowledgement taken (R213). -/
def takeAck (w : Nat) (q : Port) : Port :=
  let n := (fld w 16 12 + 4096 - q.txOldest.toNat + 1) % 4096
  if bitAt w 28 && decide (1 ≤ n) && decide (n ≤ q.replay.length) then
    { q with replay := q.replay.drop n, txOldest := BitVec.ofNat 12 (fld w 16 12 + 1)
             resend := min q.resend (q.replay.length - n), timeoutsRow := 0 }
  else q

/-- Credit returns taken (R218). -/
def takeReturns (w : Nat) (q : Port) : Port :=
  { q with credits := q.credits.mapIdx (fun c x =>
      let h := BitVec.ofNat 16 (fld w (32 + 32 * c) 16)
      let d := BitVec.ofNat 16 (fld w (48 + 32 * c) 16)
      { x with hdr := x.hdr + (h - x.lastHdr), data := x.data + (d - x.lastData), lastHdr := h, lastData := d }) }

/-- Credits that an INIT block advertises (R217). -/
def takeAdvertised (w : Nat) (q : Port) : Port :=
  { q with credits := q.credits.mapIdx (fun c x =>
      let h := BitVec.ofNat 16 (fld w (32 + 32 * c) 16)
      let d := BitVec.ofNat 16 (fld w (48 + 32 * c) 16)
      { x with partnerHdr := h, partnerData := d, hdr := h, data := d, lastHdr := 0, lastData := 0 }) }

/-- What every good LINK block carries: parsing resumes at its FIRST_HEAD where it names one (R205), DRAINED, RETRAIN_REQ,
the acknowledgement and, outside INIT, returns. -/
def takeBlock (w : Nat) (q : Port) : Port :=
  let q := takeAck w { q with
    skipping := q.skipping && fld w 8 8 == 0xFF, partnerDrained := bitAt w 128, partnerReq := bitAt w 129 }
  if blockState w = 0 then q else takeReturns w q

/-- A LINK block received while lanes run, the 25th block since the one before it (R203): ignored and counted where bad
(R208), else `act` where its STATE is `want`. -/
def receiveBlock (p want : Nat) (blk : BitVec 512) (act : State → State) (s : State) : State :=
  let w := blk.toNat
  let st := (s.port p).state
  if st == .down || st == .training then s
  else
  let s := s.modPort p (fun q => { q with rxBlock := q.rxBlock + 25 })
  if !blockGood w then s.modPort p (fun q => { q with ignored := q.ignored + 1 })
  else if blockState w = want then act (s.modPort p (takeBlock w))
  else s

/-- LINK_BLOCK (R207, R208, R213, R218): an ACTIVE block. Frames may start once one has come (R202). -/
def execLinkBlock (p : LinkId) (blk : BitVec 512) (s : State) : Out :=
  .next (receiveBlock p.val 1 blk (fun s => s.modPort p.val (fun q => { q with sawActive := true })) s)

/-! ## Retrains (R222 to R230) -/

/-- The narrower width and the slower rate of two targets (R230). -/
def mergeTarget (a b : RetrainReq) : RetrainReq :=
  ⟨BitVec.ofNat 2 (max a.width.toNat b.width.toNat), BitVec.ofNat 2 (max a.rate.toNat b.rate.toNat)⟩

/-- Whether a port's chip is between launch and drain, so that a retrain of a fabric port raises a hold (R226, R36). KCL raises
none, since no plan action depends on it (R410; log entry 30). -/
def holdsRetrain (s : State) (p : Nat) : Bool := decide (p < 32) && s.tt.inStep && !s.tt.draining

/-- The RETRAIN hold of a port that sends or receives PAUSE in a step, unless it stands already (R226). -/
def retrainHold (p : Nat) (s : State) : State :=
  if h : p < 32 then
    if holdsRetrain s p && !s.holdsOpen (.linkRetrain ⟨p, by omega⟩) (fun _ => true) then intrude (.linkRetrain ⟨p, by omega⟩) .retrain s
    else s
  else s

/-- A port whose retrain begins: it counts, and a margin's request is met by it. A LINK_RETRAIN that waits for its terminus goes on
waiting (R223, R225). -/
def beginRetrain (inside : Bool) (st : LinkState) (t : RetrainReq) (q : Port) : Port :=
  { q with state := st, target := t, request := if q.requestCmd.isSome then q.request else none, deferrals := 0
           retrainsIn := if inside then q.retrainsIn + 1 else q.retrainsIn
           retrainsOut := if inside then q.retrainsOut else q.retrainsOut + 1 }

/-- A retrain that this end starts (R224, R226, R230): it finishes its frame and sends PAUSE, and in a step it raises a RETRAIN
hold. During the resume stage the cause waits; during a retrain it is merged. -/
def startRetrain (p : Nat) (t : RetrainReq) (s : State) : State :=
  let q := s.port p
  match q.state with
  | .active => retrainHold p (tellState p (s.modPort p (beginRetrain (holdsRetrain s p) .pausing t)))
  | .resuming => s.modPort p (fun q => { q with again := some (mergeTarget t (q.again.getD t)) })
  | .pausing | .retraining => s.modPort p (fun q => { q with target := mergeTarget q.target t })
  | _ => s

/-- The width and rate in use, as a retrain's target. -/
def Port.same (q : Port) : RetrainReq := ⟨BitVec.ofNat 2 q.width, q.rate⟩

/-- The port is ACTIVE: a cause that arose during the resume stage starts a new retrain (R230). -/
def becomeActive (p : Nat) (s : State) : State :=
  let s := s.modPort p (fun q => { q with state := .active })
  match (s.port p).again with
  | some t => startRetrain p t (s.modPort p (fun q => { q with again := none }))
  | none => linkCmdEnd p s

/-- GID field of a PORT_NOTICE body: GID and GID VALID (R253). -/
def gidField (s : State) : Nat := s.fab.gid.toNat + bit s.fab.gidValid * 2 ^ 31

/-- A PORT_NOTICE sent to the partner of a port (R253). -/
def sendNotice (p notice : Nat) (s : State) : State :=
  let keys := sumOf ((s.port p).keys.toList.mapIdx (fun i k => k.toNat * 2 ^ (16 * i)))
  let body := notice + p * 2 ^ 8 + gidField s * 2 ^ 32 + keys * 2 ^ 64 + s.now * 2 ^ 128
  sendCtrl p (controlPacket 0x20 0 ⟨BitVec.ofNat 84 p, 1⟩ body) none s

/-- READY after INIT (R202): the port sends a PORT_NOTICE (R253); KCL posts KCL_RESTORED when it was DOWN (R410). -/
def portReady (p : Nat) (s : State) : State :=
  let was := (s.port p).ready
  let s := becomeActive p (s.modPort p (fun q => { q with ready := true }))
  if p = 32 then
    if s.kcl.wasDown then
      postEvent evKclRestored s.kcl.downLines s.kcl.downCmds s.kcl.downAt.toNat { s with kcl.wasDown := false }
    else s
  else if was then s
  else sendNotice p 3 s

/-- INIT_BLOCK (R202, R217, R229): in INIT it brings the partner's credits and the port goes ACTIVE and READY; of a port
already in service it says that the partner has restarted. -/
def execInitBlock (p : LinkId) (blk : BitVec 512) (s : State) : Out :=
  let k := p.val
  let w := blk.toNat
  .next (
    if (s.port k).state == .init then
      receiveBlock k 0 blk (fun s => portReady k (s.modPort k (fun q => { takeAdvertised w q with sawInit := true }))) s
    else
      receiveBlock k 0 blk (fun s =>
        let s := dropBuffers k s
        let s := beginInit k (fun q => { q with downEvents := satInc q.downEvents }) s
        if k = 32 then s else stepFault fcDiscard (128 + k) s) s)

/-- TARGET of a PAUSE block (R207). -/
def blockTarget (w : Nat) : RetrainReq := ⟨BitVec.ofNat 2 (fld w 136 2), BitVec.ofNat 2 (fld w 138 2)⟩

/-- An ACTIVE end answers PAUSE (R224, R226): it finishes its frame, sends PAUSED and retrains; in a step it raises a RETRAIN
hold. It does not send PAUSE itself. -/
def answerPause (p : Nat) (t : RetrainReq) (s : State) : State :=
  retrainHold p (tellState p (s.modPort p (beginRetrain (holdsRetrain s p) .retraining t)))

/-- PAUSE (R223, R224, R226, R230): the port answers PAUSED and retrains; in a step it raises a RETRAIN hold, also where this end
sent its own PAUSE before the launch. An end that is itself sending PAUSE takes it as PAUSED. -/
def execPause (p : LinkId) (blk : BitVec 512) (s : State) : Out :=
  let k := p.val
  let w := blk.toNat
  .next (receiveBlock k 2 blk (fun s =>
    match (s.port k).state with
    | .pausing => retrainHold k (s.modPort k (fun q => { q with state := .retraining, target := mergeTarget q.target (blockTarget w) }))
    | .active => answerPause k (blockTarget w) s
    | .retraining => retrainHold k (startRetrain k (blockTarget w) s)
    | _ => startRetrain k (blockTarget w) s) s)

/-- PAUSED (R224): both ends have stopped frames and the lanes retrain. -/
def execPaused (p : LinkId) (blk : BitVec 512) (s : State) : Out :=
  .next (receiveBlock p.val 3 blk (fun s =>
    s.modPort p.val (fun q => if q.state == .pausing then { q with state := .retraining } else q)) s)

/-- RESUME (R214, R219, R224): the block's acknowledgement and credits are taken, every frame still outstanding is sent
again, and the port is ACTIVE. -/
def execResume (p : LinkId) (blk : BitVec 512) (s : State) : Out :=
  let k := p.val
  .next (receiveBlock k 4 blk (fun s =>
    if (s.port k).state == .resuming then becomeActive k (s.modPort k (fun q => { q with resend := q.replay.length, sawActive := true }))
    else s) s)

/-- What follows the relocking of a port's lanes: RESUME blocks, or INIT after a warm reset of this module (R224, R229). -/
def retrained (p : Nat) (s : State) : State :=
  if (s.port p).reinit then beginInit p id s else tellState p (s.modPort p (fun q => { q with state := .resuming }))

/-- RETRAIN_COMPLETE (R224, R227, R229): the lanes have relocked, at the narrower of the two widths reached and the slower of
the rate named and the common rate; the port resumes, or goes through INIT after a warm reset of this module. No good lane, or a lane of KCL lost: DOWN. -/
def execRetrainComplete (p : LinkId) (r : TrainResult) (s : State) : Out :=
  let k := p.val
  let q := s.port k
  .next (
    if q.state != .retraining then s
    else if k = 32 then
      if r.good = 0xFFFF then
        retrained 32 s
      else portDown 32 (s.modPort 32 (fun q => { q with lanesGood := r.good }))
    else
      match reachWidth r.good.toNat with
      | none => portDown k (s.modPort k (fun q => { q with lanesGood := r.good }))
      | some w =>
        let width := max (max w q.target.width.toNat) r.partnerWidth.toNat
        let act := activeLanes width r.good.toNat
        let (v, s) := s.draw
        retrained k (s.modPort k (fun q => { q with
          lanesGood := r.good, lanesActive := BitVec.ofNat 16 act, rate := BitVec.ofNat 2 (max q.target.rate.toNat r.rate.toNat)
          margin := q.margin.mapIdx (fun i x =>
            if !bitAt act i then 0 else if bitAt q.lanesActive.toNat i then x else BitVec.ofNat 8 (fld v.toNat (8 * i) 8)) })))

/-- RETRAIN_TIMEOUT (R228, R410): the retrain has taken more than twice its bound. -/
def execRetrainTimeout (p : LinkId) (s : State) : Out :=
  let st := (s.port p.val).state
  .next (if st == .pausing || st == .retraining || st == .resuming then portDown p.val s else s)

/-- MARGIN_BELOW_FLOOR (R222, R223, R230, R231): an active lane's margin has stayed below the floor for 1 ms, and the port
requests a terminus retrain. A retrain in progress takes the cause in; in the resume stage it starts a new one. -/
def execMarginBelowFloor (p : LinkId) (lane : Fin 16) (code : BitVec 8) (s : State) : Out :=
  let k := p.val
  .next (s.modPort k (fun q =>
    if !bitAt q.lanesActive.toNat lane.val then q
    else
      let q := { q with margin := vmod q.margin lane.val (fun _ => code) }
      if q.marginFloor.toNat ≤ code.toNat || q.state == .pausing || q.state == .retraining then q
      else if q.state == .resuming then { q with again := some (mergeTarget q.same (q.again.getD q.same)) }
      else { q with request := some (q.request.getD q.same) }))

/-- LOSS_OF_LOCK (R223): a retrain at once. -/
def execLossOfLock (p : LinkId) (s : State) : Out := .next (startRetrain p.val (s.port p.val).same s)

/-- UNCORRECTABLE_BURST (R223): the codewords are counted, and more than 256 within 1 ms start a retrain at once. They are counted
beside those of damaged frames, which FRAME_RECEIVED counts: DESIGN CHOICE, log entry 149, since R232 does not say whether the
codewords of a burst are among these. -/
def execUncorrectableBurst (p : LinkId) (count : BitVec 32) (s : State) : Out :=
  let s := s.modPort p.val (fun q => { q with fecUncorr := q.fecUncorr + count })
  .next (if 256 < count.toNat then startRetrain p.val (s.port p.val).same s else s)

/-- LINK_TERMINUS_RETRAIN (R225): a requested retrain starts at a terminus that leaves it time, is deferred otherwise,
and at the 16th deferral in a row runs at once, even during a step, which is where the terminus has left it (log entry
120). -/
def execLinkTerminusRetrain (p : LinkId) (s : State) : Out :=
  let k := p.val
  let q := s.port k
  .next (
    match q.request with
    | none => s
    | some t =>
      let start (s : State) : State := startRetrain k t (s.modPort k (fun q =>
        { q with request := none, requestCmd := none, runCmds := q.runCmds ++ q.requestCmd.toList }))
      if q.state != .active then s
      else if s.tt.inStep then (if 15 ≤ q.deferrals.toNat then start s else s)
      else
        let bound := retrainBound q.reach.toNat (t.width.toNat != q.width) (t.rate != q.rate)
        let room := match s.tt.nextLaunch with
          | none => true
          | some l => decide (s.now + bound + 2000 ≤ l.toNat)
        if q.partnerDrained && room then start s
        else if 15 ≤ q.deferrals.toNat then start s
        else s.modPort k (fun q => { q with deferrals := q.deferrals + 1 }))

/-- ACK_TIMER_EXPIRY (R214, R215): every frame outstanding is to be sent again; the fourth expiry in a row without
progress starts a retrain. The timer runs only while the port is ACTIVE with frames outstanding (R224). -/
def execAckTimerExpiry (p : LinkId) (s : State) : Out :=
  let k := p.val
  let q := s.port k
  .next (
    if q.state != .active || q.replay.isEmpty then s
    else
      let s := s.modPort k (fun q => { q with timeouts := q.timeouts + 1, timeoutsRow := q.timeoutsRow + 1, resend := q.replay.length })
      if 4 ≤ (s.port k).timeoutsRow then startRetrain k (s.port k).same (s.modPort k (fun q => { q with timeoutsRow := 0 }))
      else s)

/-! ## Receiving frames (R204, R205, R212, R221) -/

/-- Whether a frame head and its packet agree: a permitted KIND and CLASS pair, reserved fields zero, the length that
KIND and UNITS give, and a good CRC (R204, R205, R400). -/
def frameGood (p : Nat) (f : Frame) : Bool :=
  let h := f.head.toNat
  let kind := fld h 0 2
  let cls := fld h 2 2
  let pair := if p = 32 then (kind == 1 && decide (cls ≤ 2)) || (kind == 2 && decide (cls ≤ 1))
    else (kind == 1 && decide (cls ≤ 1)) || (kind == 2 && (cls == 1 || cls == 2))
  let len := if kind = 1 then 32 else (if p = 32 then 32 else 64) + 64 * (fld h 20 7 + 1)
  !f.fecBad && pair && fld h 5 3 == 0 && fld h 27 5 == 0 && f.packet.length == len
    && (kind == 2 || fld h 20 7 == 0) && (kind == 1 || decide (fld h 20 7 < (if p = 32 then 16 else 64)))
    && crc32c (leBytes 4 h ++ f.packet) == fld h 32 32

/-- The messages that the companion may send (R402). -/
def kclKnown (msg : Nat) : Bool := (decide (1 ≤ msg) && decide (msg ≤ 8)) || msg == 0x21 || msg == 0x24 || msg == 0x25 || msg == 0x26

/-- A packet accepted into its receive buffer. A control packet with more than 6 hops to go is discarded there (R209),
and so is an unknown message of KCL, answered with ERROR where it is a request (R402). -/
def acceptPacket (p cls : Nat) (pkt : List Byte) (s : State) : State :=
  let r : RxPacket := ⟨BitVec.ofNat 2 cls, pkt, false, none, false⟩
  let s := s.modPort p (fun q => { q with rx := q.rx ++ [r], rxExpected := q.rxExpected + 1, ackValid := true })
  if p = 32 then
    if kclKnown (leAt pkt 0 1) then s
    else
      let s := rxTake 32 (fun x => x == r) s
      if cls = 0 then kclSend ⟨0x21, true, BitVec.ofNat 16 (leAt pkt 2 2), 0, [], 0⟩ s
      else { s with kcl.badMessage := satInc s.kcl.badMessage }
  else if isControl pkt && decide (6 < pkHops pkt) then
    rxTake p (fun x => x == r) (s.modPort p (fun q => { q with badControl := satInc q.badControl }))
  else s

/-- The codewords of a frame in LINK_FEC (R232): those with symbols corrected, and an uncorrectable one. -/
def fecCount (f : Frame) (q : Port) : Port :=
  { q with fecCorrected := q.fecCorrected + f.corrected.setWidth 32
           fecUncorr := if f.fecBad then q.fecUncorr + 1 else q.fecUncorr }

/-- FRAME_RECEIVED (R204, R205, R212, R221). A port that a warm reset of this module takes through a retrain and INIT takes no
frame before (R229, R461). -/
def execFrameReceived (p : LinkId) (f : Frame) (s : State) : Out :=
  let k := p.val
  let q := s.port k
  let cls := fld f.head.toNat 2 2
  .next (
    if (q.state != .active && q.state != .pausing) || q.reinit then s
    else
    let s := s.modPort k (fecCount f)
    if q.skipping then s
    else if !frameGood k f then s.modPort k (fun q => { q with discarded := q.discarded + 1, skipping := true })
    else
      let d := (fld f.head.toNat 8 12 + 4096 - q.rxExpected.toNat) % 4096
      if d = 0 then
        if rxRoom k cls f.packet q then acceptPacket k cls f.packet s
        else portDown k (s.modPort k (fun q => { q with breaches := satInc q.breaches }))
      else if 3072 ≤ d then s.modPort k (fun q => { q with duplicates := q.duplicates + 1 })
      else if d ≤ 1023 then s.modPort k (fun q => { q with gaps := q.gaps + 1 })
      else s.modPort k (fun q => { q with outOfWindow := satInc q.outOfWindow }))

end Sys2Proof.Machine
end

