-- ==== Sys2Proof/Machine/Despatch.lean ====
section
/-! DEFINITION. Points lists and despatchers (R243 to R247), and the fabric's processing of packets (R236 to R240,
R249 to R255). -/

namespace Sys2Proof.Machine

open Sys2Proof

/-! ## Despatchers (R243, R245, R246) -/

/-- The points list of a port in the variant in force. -/
def State.pointsList (s : State) (p : Nat) : List (BitVec 64) := (s.port p).lists.getD s.tt.variant.toNat []

/-- A despatcher that may pass its mark passes it. -/
def despGo (p : Nat) (s : State) : State :=
  s.modPort p (fun q =>
    let w := walkRelease s true q.walk
    if q.walk.mark.isSome && w.mark.isNone then { q with walk := w, desp := .running } else q)

/-- The record at a despatcher's position: KIND, and the record as a number. It takes none before its own launch (R285). -/
def despRecord (p : Nat) (s : State) : Option (Nat × Nat) :=
  let w := (s.port p).walk
  if walkFree s w && s.portLaunched p then ((s.pointsList p)[w.idx]?).map (fun r => (fld r.toNat 60 4, r.toNat)) else none

/-- The next FLOW_SEQ of a flow that a port releases. -/
def Port.nextSeq (q : Port) (flow : Nat) : Nat := (kget q.next flow).getD 0

/-- Whether a queued packet is the next of the flow of the slot in hand, of the attempt in progress (R245). -/
def isNext (s : State) (q : Port) (o : OutPacket) : Bool :=
  !o.released && o.flow == q.flow.toNat && o.flowSeq == q.nextSeq q.flow.toNat
    && pkStep o.packet == s.tt.step.toNat && pkAttempt o.packet == s.tt.attempt.toNat

/-- Whether the slot in hand finds its next packet present. -/
def despPresent (p : Nat) (s : State) : Bool := (s.port p).txData.any (isNext s (s.port p))

/-- Credits and replay room for one more released packet beside those released and not yet started (R220, R245). -/
def releaseRoom (p : Nat) (pkt : List Byte) (q : Port) : Bool :=
  let rel := q.txData.filter (fun o => o.released)
  let c := vget q.credits 2 Credit.reset
  decide (rel.length + 1 ≤ c.hdr.toNat)
    && decide (sumOf (rel.map (fun o => portCredits p o.packet)) + portCredits p pkt ≤ c.data.toNat)
    && decide (q.replay.length + rel.length < 1024)
    && decide (q.replayBytes + sumOf (rel.map (fun o => frameBytes o.packet)) + frameBytes pkt ≤ 2 ^ 20)

/-- The slot in hand passed over as if its packets had been released (R246). -/
def despSkip (q : Port) : Port :=
  { q with next := kset q.flow.toNat (q.nextSeq q.flow.toNat + q.walk.left) q.next, walk := walkNext q.walk, desp := .running }

/-- The slot in hand with one packet released. -/
def despCount (q : Port) : Port :=
  { q with next := kset q.flow.toNat (q.nextSeq q.flow.toNat + 1) q.next, desp := .running
           walk := if q.walk.left ≤ 1 then walkNext q.walk else { q.walk with left := q.walk.left - 1 } }

/-- POINTS_SLOT (R245): the despatcher takes a slot. In fault run-out it passes over one whose packets are absent. -/
def execPointsSlot (p : PortId) (s : State) : Out :=
  let k := p.val
  let s := despGo k s
  .next (
    match despRecord k s with
    | some (0, r) =>
      if (s.port k).walk.busy then s
      else
        let s := s.modPort k (fun q =>
          { q with flow := BitVec.ofNat 16 (fld r 44 16), record := BitVec.ofNat 15 q.walk.idx, desp := .running
                   walk := { q.walk with busy := true, left := fld r 32 12 + 1 } })
        if s.tt.runout && !despPresent k s then s.modPort k despSkip else s
    | _ => s)

/-- PACKET_RELEASE (R245, R220, R228): the next packet of the slot is released when it is present with its credits and
replay room. A port that is not READY discards it at once. -/
def execPacketRelease (p : PortId) (s : State) : Out :=
  let k := p.val
  let q := s.port k
  .next (
    if !(walkFree s q.walk && q.walk.busy) then s
    else
      match takeFirst (isNext s q) q.txData with
      | none =>
        if s.tt.runout then s.modPort k despSkip else s.modPort k (fun q => { q with desp := .waitPacket })
      | some (o, rest) =>
        if !q.ready then
          stepFault fcDiscard (128 + k)
            (viaSent o (s.modPort k (fun q => despCount { q with txData := rest, framesLost := satInc q.framesLost })))
        else if releaseRoom k o.packet q then
          s.modPort k (fun q => despCount { q with
            txData := rest.filter (fun x => x.released) ++ [{ o with released := true }] ++ rest.filter (fun x => !x.released) })
        else s.modPort k (fun q => { q with desp := .waitCredit }))

/-- POINTS_MARK (R245): a DEPART mark; the despatcher is ready for it when every earlier slot has released its packets. -/
def execPointsMark (p : PortId) (s : State) : Out :=
  let k := p.val
  let s := despGo k s
  match despRecord k s with
  | some (1, r) => .next (despGo k (s.modPort k (fun q =>
      { q with walk := walkMark (fld r 0 40) none q.walk, record := BitVec.ofNat 15 q.walk.idx, desp := .markWait })))
  | _ => .next s

/-- POINTS_LOOP (R134, R243). -/
def execPointsLoop (p : PortId) (s : State) : Out :=
  let k := p.val
  let s := despGo k s
  match despRecord k s with
  | some (2, r) => .next (s.modPort k (fun q =>
      { q with walk := walkLoop (fld r 0 12 + 1) (fld r 12 16 + 1) (fld r 28 28) q.walk, record := BitVec.ofNat 15 q.walk.idx }))
  | _ => .next s

/-- POINTS_END (R243). -/
def execPointsEnd (p : PortId) (s : State) : Out :=
  let k := p.val
  let s := despGo k s
  match despRecord k s with
  | some (3, _) => .next (s.modPort k (fun q =>
      { q with walk := { q.walk with ended := true }, record := BitVec.ofNat 15 q.walk.idx, desp := .ended }))
  | _ => .next s

/-! ## Partitions (R249 to R252) -/

/-- Whether a port is fenced (R252). -/
def Port.fenced (q : Port) : Bool := q.fence || q.keys.toList.all (fun k => k == 0)

/-- Whether a port accepts a packet: the management key outside PLAN traffic, or an installed key at a port that is not
fenced (R250). While FABRIC_GID is not VALID only the management key passes (R20). -/
def keyAccepted (gid : Bool) (q : Port) (key : Nat) (plan : Bool) : Bool :=
  (key == 0 && !plan && q.state != .down) || (gid && key != 0 && !q.fenced && q.keys.toList.any (fun k => k.toNat == key))

/-- The counter of a packet that a port does not accept (R250). -/
def countKey (q : Port) (fenced : Bool) : Port :=
  if fenced then { q with fencedCount := satInc q.fencedCount } else { q with partition := satInc q.partition }

/-! ## Per-hop processing (R237) -/

/-- The packet in a port's receive buffer that a row processes; a row that brings a packet no frame has brought puts it
there first (log entry 31). -/
def ensureRx (p : Nat) (cls : Nat) (pkt : List Byte) (s : State) : State :=
  if (s.port p).rx.any (fun r => !r.processed && r.packet == pkt) then s
  else s.modPort p (fun q => { q with rx := q.rx ++ [⟨BitVec.ofNat 2 cls, pkt, false, none, false⟩] })

/-- A packet discarded at its input port and counted there; a PLAN packet in a step records PACKET_DISCARD, but for one
that is STALE (R237, R255). -/
def fabricDiscard (p : Nat) (pkt : List Byte) (fault : Bool) (count : Port → Port) (s : State) : State :=
  let s := (rxTake p (fun r => !r.processed && r.packet == pkt) s).modPort p count
  if fault then stepFault fcDiscard (128 + p) s else s

/-- The entries of a PLAN packet sent across the concourse to its press (R240); the packet counts among those that the forme
expects (R41). -/
def deliverPlan (p : Nat) (pkt : List Byte) (s : State) : State :=
  match s.slotPress (pkTarget pkt) with
  | none => s
  | some t =>
    if h : t < 96 then
      let es := toEntries (pkPayload pkt)
      { s with conc := s.conc ++ es.mapIdx (fun i e =>
                 ⟨⟨t, h⟩, 130 + p, ⟨pkLanding pkt, pkTarget pkt, pkPlatform pkt, pkOffset pkt + i⟩, e, 0⟩)
               fab.landed := kset (pkFlow pkt) ((kget s.fab.landed (pkFlow pkt)).getD 0 + 1) s.fab.landed }
    else s

/-- What R240 says of the delivery of a PLAN packet. -/
inductive Delivery where
  | bad | now | held | stale
  deriving DecidableEq, Repr

/-- A PLAN packet of a receive buffer whose delivery, or whose copy's, waits: for the launch that it names, or for its lane's
credit. -/
def planWaits (r : RxPacket) : Bool := r.copyWaits && !isControl r.packet && pkType r.packet == 0x40

/-- Whether the lane from port `p` takes a packet's entries now (R172). -/
def State.planRoom (s : State) (p : Nat) (pkt : List Byte) : Bool := match s.slotPress (pkTarget pkt) with
  | some t => s.laneRoom (130 + p) t
  | none => true

/-- Whether an earlier packet of port `p` for the same press still waits: entries of one source keep their order (R173). -/
def State.planBehind (s : State) (p : Nat) (pkt : List Byte) : Bool :=
  (s.port p).rx.any (fun r => planWaits r && pkTarget r.packet == pkTarget pkt)

/-- The checks of R240 on a packet at port `p`. A target slot that the forme lacks is a bad destination. -/
def planDelivery (p : Nat) (pkt : List Byte) (tee : Bool) (s : State) : Delivery :=
  if (!tee && pkDestGid pkt != s.fab.gid.toNat) || (s.slotPress (pkTarget pkt)).isNone then .bad
  else if s.tt.inStep && pkStep pkt == s.tt.step.toNat && pkAttempt pkt == s.tt.attempt.toNat then
    if s.planRoom p pkt && !s.planBehind p pkt then .now else .held
  else if s.tt.nextLaunch.isSome && pkStep pkt == s.tt.nextStep.toNat && pkAttempt pkt == s.tt.nextAttempt.toNat then .held
  else .stale

/-- The delivery of a packet that has reached its final chip. -/
def planFinal (p : Nat) (pkt : List Byte) (s : State) : State :=
  match planDelivery p pkt false s with
  | .bad => fabricDiscard p pkt true (fun q => { q with badRoute := satInc q.badRoute }) s
  | .stale => fabricDiscard p pkt false (fun q => { q with stale := satInc q.stale }) s
  | .now => rxTake p (fun r => !r.processed && r.packet == pkt) (deliverPlan p pkt s)
  | .held => s.modPort p (fun q =>
      { q with rx := mapIf (fun r => !r.processed && r.packet == pkt) (fun r => { r with processed := true, copyWaits := true }) q.rx })

/-- A packet queued for its output port, one hop taken; it stays in the receive buffer until it has been sent (R238). A
tee copy is delivered at once, or waits with it for launch (R239, R240). -/
def planForward (p out : Nat) (pkt : List Byte) (s : State) : State :=
  let tee := bitAt (pkRoute pkt) 5
  let del := if tee then planDelivery p pkt true s else .stale
  let s := match del with
    | .now => deliverPlan p pkt s
    | .bad => if tee then stepFault fcDiscard (128 + p) (s.modPort p (fun q => { q with badRoute := satInc q.badRoute })) else s
    | .stale => if tee then s.modPort p (fun q => { q with stale := satInc q.stale }) else s
    | .held => s
  let hop := pkHop pkt
  if h : p < 32 ∧ out < 32 then
    let mark (r : RxPacket) : RxPacket := { r with processed := true, packet := hop, out := some ⟨out, h.2⟩, copyWaits := del == .held }
    let s := s.modPort p (fun q => { q with rx := mapIf (fun r => !r.processed && r.packet == pkt) mark q.rx })
    sendPlan out hop (some ⟨p, h.1⟩) s
  else s

/-- PLAN_PACKET (R237, R239, R240). -/
def execPlanPacket (p : PortId) (pkt : List Byte) (s : State) : Out :=
  let k := p.val
  let s := ensureRx k 2 pkt s
  let q := s.port k
  let out := pkRoute pkt % 32
  .next (
    if crc32c (pkPayload pkt) != pkCrc pkt then
      fabricDiscard k pkt true (fun q => { q with payloadCrc := satInc q.payloadCrc }) s
    else if !keyAccepted s.fab.gidValid q (pkKey pkt) true then fabricDiscard k pkt true (fun x => countKey x q.fenced) s
    else if pkHops pkt = 0 then planFinal k pkt s
    else if decide (14 < pkHops pkt) || out == k then
      fabricDiscard k pkt true (fun q => { q with badRoute := satInc q.badRoute }) s
    else if !keyAccepted s.fab.gidValid (s.port out) (pkKey pkt) true then
      fabricDiscard k pkt true (fun x => countKey x (s.port out).fenced) s
    else if !(s.port out).transit.contains (pkFlow pkt) then
      fabricDiscard k pkt true (fun q => { q with stray := satInc q.stray }) s
    else planForward k out pkt s)

/-- A packet that waits is delivered: it leaves the receive buffer, but for one that its output port has still to send
(R238, R240). -/
def deliverOne (p : Nat) (r : RxPacket) (s : State) : State :=
  let s := deliverPlan p r.packet s
  if r.out.isSome then
    match takeFirst (· == r) (s.port p).rx with
    | some (x, rest) => s.modPort p (fun q => { q with rx := { x with copyWaits := false } :: rest })
    | none => s
  else rxTake p (· == r) s

/-- The packets of port `p` that wait for delivery in the step, in order, each as its lane takes it. -/
def deliverEach (p : Nat) : List RxPacket → List Nat → State → State
  | [], _, s => s
  | r :: l, stopped, s =>
    if !stopped.contains (pkTarget r.packet) && s.planRoom p r.packet then deliverEach p l stopped (deliverOne p r s)
    else deliverEach p l (pkTarget r.packet :: stopped) s

/-- What waits at port `p` and may land goes on (R172, R240). -/
def deliverPort (p : Nat) (s : State) : State :=
  if s.tt.inStep then deliverEach p ((s.port p).rx.filter planWaits) [] s else s

/-- Packets held for the launch that has come are delivered (R240). -/
def deliverHeld (s : State) : State := (List.range 32).foldl (fun s p => deliverPort p s) s

/-- The class that a packet's TYPE gives it, `none` where TYPE is reserved (R210, R234). -/
def typeClass (pkt : List Byte) : Option Nat :=
  let t := pkType pkt
  if !isControl pkt then if t = 0x41 then some 1 else none
  else if t = 1 || t = 2 || t = 3 then some 0
  else if t = 0x10 || t = 0x11 || t = 0x12 || t = 0x20 || t = 0x30 then some 1
  else none

/-- CONTROL_PACKET_FORWARD (R209, R210, R233, R237, R239): a control packet, or a SERVICE data packet, takes its next hop; a
tee copy, and a packet that has reached its final chip, is left for the unit that its TYPE names, or discarded where its
TYPE, class or destination is wrong. A reserved TYPE is one of these: DESIGN CHOICE, log entry 154. -/
def execControlPacketForward (p : PortId) (pkt : List Byte) (s : State) : Out :=
  let k := p.val
  let cls := (typeClass pkt).getD 1
  let s := ensureRx k cls pkt s
  let q := s.port k
  let out := pkRoute pkt % 32
  let held := ((s.port k).rx.find? (fun r => !r.processed && r.packet == pkt)).map (fun r => r.cls.toNat)
  .next (
    if isControl pkt && decide (6 < pkHops pkt) then
      fabricDiscard k pkt false (fun q => { q with badControl := satInc q.badControl }) s
    else if !isControl pkt && crc32c (pkPayload pkt) != pkCrc pkt then
      fabricDiscard k pkt false (fun q => { q with payloadCrc := satInc q.payloadCrc }) s
    else if !keyAccepted s.fab.gidValid q (pkKey pkt) false then fabricDiscard k pkt false (fun x => countKey x q.fenced) s
    else if pkHops pkt = 0 then
      if typeClass pkt != held then fabricDiscard k pkt false (fun q => { q with badControl := satInc q.badControl }) s
      else if !isControl pkt && pkDestGid pkt != s.fab.gid.toNat then
        fabricDiscard k pkt false (fun q => { q with badRoute := satInc q.badRoute }) s
      else s
    else if decide (14 < pkHops pkt) || out == k then
      fabricDiscard k pkt false (fun q => { q with badRoute := satInc q.badRoute }) s
    else if !keyAccepted s.fab.gidValid (s.port out) (pkKey pkt) false then
      fabricDiscard k pkt false (fun x => countKey x (s.port out).fenced) s
    else
    let tee := bitAt (pkRoute pkt) 5
    let bad := tee && typeClass pkt != held
    let s := if bad then s.modPort k (fun q => { q with badControl := satInc q.badControl }) else s
    if !(s.port out).ready && tee && !bad then
      let keep (r : RxPacket) : RxPacket := { r with processed := true, copyWaits := true }
      (s.modPort k (fun q => { q with rx := mapIf (fun r => !r.processed && r.packet == pkt) keep q.rx })).modPort out
        (fun q => { q with framesLost := satInc q.framesLost })
    else if !(s.port out).ready then
      (fabricDiscard k pkt false (fun q => q) s).modPort out (fun q => { q with framesLost := satInc q.framesLost })
    else
      let hop := pkHop pkt
      if h : k < 32 ∧ out < 32 then
        let mark (r : RxPacket) : RxPacket :=
          { r with processed := true, packet := hop, out := some ⟨out, h.2⟩, copyWaits := tee && !bad }
        let s := s.modPort k (fun q => { q with rx := mapIf (fun r => !r.processed && r.packet == pkt) mark q.rx })
        if held == some 0 then sendTime out hop (some ⟨k, h.1⟩) s else sendCtrl out hop (some ⟨k, h.1⟩) s
      else s)

/-! ## Messages taken from receive buffers -/

/-- Whether a packet of a receive buffer is for a unit of this chip: it has reached its final chip, or its tee copy waits
(R239, R240). -/
def rxHere (r : RxPacket) : Bool := (!r.processed && pkHops r.packet == 0) || r.copyWaits

/-- The first such packet that satisfies `f` is taken by its unit: it leaves, but for one that its output port has still to
send, which keeps its place until then (R238). -/
def rxDeliver (p : Nat) (f : RxPacket → Bool) (s : State) : State :=
  let here (r : RxPacket) : Bool := rxHere r && f r
  match (s.port p).rx.find? here with
  | none => s
  | some r =>
    if r.out.isSome then
      match takeFirst here (s.port p).rx with
      | some (x, rest) => s.modPort p (fun q => { q with rx := { x with copyWaits := false } :: rest })
      | none => s
    else rxTake p here s

/-- A control packet with this TYPE and body leaves the port's receive buffer: its unit has taken it. -/
def controlTake (p type : Nat) (body : BitVec 192) (s : State) : State :=
  rxDeliver p (fun r => isControl r.packet && pkType r.packet == type && pkBody r.packet == body) s

/-- The same for a message whose row names no port. -/
def controlTakeAny (type : Nat) (body : BitVec 192) (s : State) : State :=
  (List.range 32).foldl (fun s p => controlTake p type body s) s

/-- A SERVICE packet with this payload leaves the receive buffer that holds it: its box has taken it. -/
def serviceTake (payload : List Byte) (s : State) : State :=
  (List.range 32).foldl (fun s p =>
    rxDeliver p (fun r => pkType r.packet == 0x41 && !isControl r.packet
      && (pkPayload r.packet).take payload.length == payload) s) s

/-- A message of the companion leaves KCL's receive buffer: it has been performed. -/
def kclTake (msg : Nat) (tag : BitVec 16) (s : State) : State :=
  rxTake 32 (fun r => leAt r.packet 0 1 == msg && leAt r.packet 2 2 == tag.toNat) s

/-! ## Register writes of the companion (R402, R407, R411, R471) -/

/-- Whether an access of the companion writes near memory. -/
def HostAccess.writes : HostAccess → Bool
  | .bulkWrite _ _ _ _ | .writeback _ _ _ => true
  | .readShared _ _ | .readOwn _ _ | .bulkRead _ _ _ | .snpData _ _ _ | .evict _ _ => false

/-- Whether a waiting request is a write, to a window or to control space. -/
def Held.writes : Held → Bool
  | .read _ _ => false
  | .write _ _ => true
  | .window h => h.writes

/-- Whether a write of the companion, to any window, has not been performed (R407). -/
def State.writesWait (s : State) : Bool :=
  s.kcl.reqs.any Held.writes || s.near.channels.toList.any (fun c => c.host.any HostAccess.writes)

/-- Whether a CS_WR is of 8 aligned bytes, those of its offset (R402, R411). -/
def csAligned (w : CsWr) (off : Nat) : Bool := off % 8 == 0 && w.mask == (0xFF : BitVec 64) <<< (off % 64)

/-- A CS_WR received (R402, R407, R411): performed and answered by an ACK, after every earlier write to any window; one of another size or
alignment is answered with ERROR. Control space is served from the end of option loading (R471), and over KCL while it is READY. -/
def behindWrites (off : Nat) (w : CsWr) (run : State → State) (s : State) : State :=
  if !s.kclUp || !s.pastOptions then s
  else
    let s := kclTake 0x02 w.tag s
    if !csAligned w off then respond 0x21 true w.tag [] s
    else if s.writesWait then { s with kcl.reqs := s.kcl.reqs ++ [.write off w] }
    else respond 0x21 false w.tag [] (run s)

end Sys2Proof.Machine
end

