-- ==== Sys2Proof/Machine/FabricCmds.lean ====
section
/-! DEFINITION. The fabric commands and registers (R201, R228, R242, R249 to R254, R422): link state, retrains, partition
keys and their installation, the route table, port notices, FABRIC_GID and LINK_CONFIG. -/

namespace Sys2Proof.Machine

open Sys2Proof

/-! ## Two registers that commands report -/

/-- The code of a port's state (LINK_STATUS.STATE). -/
def stateCode : LinkState → Nat
  | .down => 0
  | .training => 1
  | .init => 2
  | .active => 3
  | .pausing => 4
  | .retraining => 5
  | .resuming => 6

/-- LINK_STATUS. -/
def linkStatus (q : Port) : Nat :=
  stateCode q.state + bit q.ready * 2 ^ 7 + bit q.partnerDrained * 2 ^ 8 + q.reach.toNat * 2 ^ 16 + q.rate.toNat * 2 ^ 18
    + q.lanesActive.toNat % 16 * 2 ^ 24 + q.lanesGood.toNat % 16 * 2 ^ 32 + q.deferrals.toNat * 2 ^ 40

/-- PORT_PARTNER. -/
def portPartner (q : Port) : Nat := q.partnerGid.toNat + bit q.partnerValid * 2 ^ 20 + q.notice.toNat * 2 ^ 22

/-! ## LINK_STATE and LINK_RETRAIN (R422) -/

/-- A LINK_STATE command of one ACTION on a fabric port. -/
def linkCommand (d : Descriptor) (action : Nat) (run : Nat → State → State) (s : State) : State :=
  command d [(24, 2)] (fun s =>
    if 31 < pArg d 24 1 || pArg d 25 1 != action then finish d stBadParam 0 s else run (pArg d 24 1) s) s

/-- The single completion of LINK_STATE. -/
def linkReport (d : Descriptor) (p : Nat) (s : State) : State :=
  finish d stDone (resAt 16 (linkStatus (s.port p)) + resAt 24 (portPartner (s.port p))) s

/-- LINK_STATE READ. -/
def execLinkStateRead (d : Descriptor) (s : State) : Out := .next (linkCommand d 0 (linkReport d) s)

/-- LINK_CONFIG.ENABLE set or cleared (R201, R228). -/
def setEnable (p : Nat) (on : Bool) (s : State) : State :=
  let was := (s.port p).enable
  let s := s.modPort p (fun q => { q with enable := on })
  if on then (if was then s else beginTraining p s)
  else if (s.port p).state == .down then s.modPort p (fun q => { q with tryWaits := false })
  else portDown p s

/-- LINK_STATE ENABLE (R201). -/
def execLinkStateEnable (d : Descriptor) (s : State) : Out :=
  .next (linkCommand d 1 (fun p s => linkReport d p (setEnable p true s)) s)

/-- LINK_STATE DISABLE (R422): BUSY for a port in the loaded forme's port mask. -/
def execLinkStateDisable (d : Descriptor) (s : State) : Out :=
  .next (linkCommand d 2 (fun p s =>
    if s.portUsed p then finish d stBusy 0 s else linkReport d p (setEnable p false s)) s)

/-- LINK_RETRAIN (R201, R223, R225, R227, R230): a training try of a port that is DOWN; a retrain at once of a port that no
loaded forme uses, and at a terminus, after a first completion, of one it uses. A retrain in progress takes its TARGET in,
and in the resume stage it starts a new one. A second one that would have to wait beside the first is BUSY (log entry 25). -/
def execLinkRetrain (d : Descriptor) (s : State) : Out :=
  .next (command d [(24, 2)] (fun s =>
    let p := pArg d 24 1
    let t := pArg d 25 1
    let q := s.port p
    let target : RetrainReq := ⟨BitVec.ofNat 2 (t % 4), BitVec.ofNat 2 (t / 4 % 4)⟩
    if 31 < p || 15 < t || t % 4 = 3 || t / 4 % 4 = 3 then finish d stBadParam 0 s
    else
      let waits := s.modPort p (fun q => { q with requestCmd := some d })
      let runs := s.modPort p (fun q => { q with runCmds := q.runCmds ++ [d] })
      match q.state with
      | .down =>
        if q.requestCmd.isSome then finish d stBusy 0 s
        else
          let s := beginTraining p waits
          if (s.port p).state == .training then s
          else if (s.port p).tryWaits then queued d 0 s
          else linkCmdEnd p s
      | .active =>
        if !s.portUsed p then startRetrain p target runs
        else if q.requestCmd.isSome then finish d stBusy 0 s
        else queued d 0 (waits.modPort p (fun q => { q with request := some target }))
      | _ => startRetrain p target runs) s)

/-! ## Partition keys (R249 to R253, R258) -/

/-- Whether a port is drained, as far as this end sees (R251; log entry 33). -/
def portDrained (s : State) (p : Nat) : Bool :=
  let q := s.port p
  q.replay.isEmpty && q.rx.isEmpty && !s.tt.inStep && q.partnerDrained

/-- Ports of a 32-bit mask. -/
def portsOf (mask : Nat) : List Nat := (List.range 32).filter (bitAt mask)

/-- One port of a PARTITION_SET installed: the command completes with the last of its ports, with the edition where it
takes effect at a commit (R415). -/
def partProgress (p : Nat) (atCommit : Bool) (s : State) : State :=
  s.fab.partCmds.foldl (fun s x =>
    if !x.2.getLsbD p then s
    else
      let left := x.2 ^^^ BitVec.ofNat 32 (2 ^ p)
      let rest := s.fab.partCmds.filter (fun y => y.1 != x.1)
      if left = 0 then
        let s := { s with fab.partCmds := rest }
        let r := resAt 16 (portsOf (pArg x.1 24 4)).length
        if atCommit then finishAtEdition x.1 stDone r s else finish x.1 stDone r s
      else { s with fab.partCmds := mapIf (fun y => y.1 == x.1) (fun _ => (x.1, left)) s.fab.partCmds }) s

/-- The pending setting of a port installed, with its notice (R251, R253). -/
def installKeys (p : Nat) (atCommit : Bool) (s : State) : State :=
  match (s.port p).pendKeys with
  | none => s
  | some k =>
    let s := s.modPort p (fun q => { q with keys := k.keys, fence := k.fence, pendKeys := none })
    partProgress p atCommit (sendNotice p (if (s.port p).fenced then 2 else 1) s)

/-- Every drained port that the loaded forme uses takes its pending setting: a part of the sixth commit action (R251). -/
def installUsed (s : State) : State :=
  (List.range 32).foldl (fun s p => if s.portUsed p && portDrained s p then installKeys p true s else s) s

/-- Whether a port may take its keys outside the sixth commit action: no loaded forme uses it (R251), or the one that does has
been stopped (R258). -/
def installsFreely (s : State) (p : Nat) : Bool := !s.portUsed p || (s.forme.torn && s.forme.state != .started)

/-- KEY_INSTALL (R251, R258): a pending setting of a drained port that no loaded forme uses, or that a stopped one used. -/
def execKeyInstall (p : PortId) (s : State) : Out :=
  .next (if portDrained s p.val && installsFreely s p.val then installKeys p.val false s else s)

/-- A pending setting recorded for a port; the command it replaces completes with BUSY (R251, R421). -/
def pendKeys (p : Nat) (k : PendKeys) (s : State) : State :=
  let old := if (s.port p).pendKeys.isSome then s.fab.partCmds.filter (fun x => x.2.getLsbD p) else []
  let s := { s with fab.partCmds := s.fab.partCmds.filter (fun x => !old.contains x) }
  let s := old.foldl (fun s x => finish x.1 stBusy 0 s) s
  s.modPort p (fun q => { q with pendKeys := some k })

/-- The fencing PARTITION_SET of a torn-down forme (R258): every port it used. -/
def fenceForme (s : State) : State :=
  (List.range 32).foldl (fun s p => if s.portUsed p then pendKeys p ⟨.replicate 4 0, true⟩ s else s) { s with forme.torn := true }

/-- Whether a setting takes a key of the loaded forme's table from one of its ports (R251; log entry 33). -/
def dropsKey (s : State) (mask : Nat) (keys : Vector (BitVec 16) 4) : Bool :=
  (portsOf mask).any (fun p => s.portUsed p)
    && (List.range 4).any (fun i => vget keys i 0 == 0 && vget s.forme.keys i 0 != 0)

/-- PARTITION_SET (R251, R252, R422). -/
def execPartitionSet (d : Descriptor) (s : State) : Out :=
  .next (command d [(24, 13)] (fun s =>
    let mask := pArg d 24 4
    let keys : Vector (BitVec 16) 4 := Vector.ofFn (fun i => BitVec.ofNat 16 (pArg d (28 + 2 * i.val) 2))
    if 1 < pArg d 36 1 then finish d stBadParam 0 s
    else if dropsKey s mask keys then finish d stPartition 0 s
    else
      let s := queued d 0 s
      let s := (portsOf mask).foldl (fun s p => pendKeys p ⟨keys, pArg d 36 1 == 1⟩ s) s
      if mask = 0 then finish d stDone 0 s
      else { s with fab.partCmds := s.fab.partCmds ++ [(d, BitVec.ofNat 32 mask)] }) s)

/-- Whether two sets of key slots hold different keys: which slot holds a key, and an empty slot, do not count (R250, R254;
log entry 67). -/
def keysDiffer (a b : List Nat) : Bool :=
  a.any (fun x => x != 0 && !b.contains x) || b.any (fun x => x != 0 && !a.contains x)

/-- PORT_NOTICE (R253, R254): stored, compared with the port's own keys, and posted as an event. A notice of a reserved NOTICE is
ignored: DESIGN CHOICE, log entry 155. -/
def execPortNotice (p : PortId) (body : BitVec 192) (s : State) : Out :=
  let k := p.val
  let b := body.toNat
  let s := controlTake k 0x20 body s
  let n := fld b 0 8
  .next (if n = 0 || 3 < n then s
    else
      let s := s.modPort k (fun q =>
        { q with notice := BitVec.ofNat 2 n, partnerValid := bitAt b 63, partnerGid := BitVec.ofNat 20 (fld b 32 20)
                 keyMismatch := keysDiffer (q.keys.toList.map (·.toNat)) ((List.range 4).map (fun i => fld b (64 + 16 * i) 16)) })
      postEvent evPortNotice k (fld b 0 64) (fld b 64 64) s)

/-! ## The route table (R242) -/

/-- The base of the route-table overflow, in bytes (R187). -/
def routeBase : Nat := 4210688 * 1024

/-- An entry of the table as it is held: reserved bits zero. -/
def routeEntryOf (blk : List Byte) (i : Nat) : Nat := leAt blk (16 * i) 16 % 2 ^ 89

/-- Whether a table entry is one of R242: tee bits zero, and 1 to 14 hops where VALID. -/
def routeEntryOk (e : Nat) : Bool :=
  (List.range 14).all (fun i => !bitAt e (6 * i + 5)) && (!bitAt e 88 || (decide (1 ≤ fld e 84 4) && decide (fld e 84 4 ≤ 14)))

/-- One entry written to both copies. -/
def putRoute (g e : Nat) (s : State) : State :=
  let s := nearPut (routeBase + 16 * g) (leBytes 16 e) s
  if g / 65536 = s.fab.dieBlock.toNat then
    { s with fab.dieTable := if e = 0 then kdel (g % 65536) s.fab.dieTable else kset (g % 65536) (BitVec.ofNat 128 e) s.fab.dieTable }
  else s

/-- The on-die copy read again from the near tier, for the present DIE_BLOCK. -/
def reloadDie (s : State) : State :=
  let lo := routeBase + 16 * 65536 * s.fab.dieBlock.toNat
  let cells := s.boxMem.filter (fun c => decide (lo ≤ c.1) && decide (c.1 < lo + 16 * 65536))
  { s with fab.dieTable := cells.foldl (fun m c =>
      let g := (c.1 - lo) / 16
      kset g ((kget m g).getD 0 ||| BitVec.ofNat 128 (c.2.toNat * 256 ^ ((c.1 - lo) % 16))) m) [] }

/-- ROUTE_TABLE_LOAD (R242, R422). -/
def execRouteTableLoad (d : Descriptor) (blk : List Byte) (s : State) : Out :=
  let first := pArg d 24 4
  let n := pArg d 28 4
  .next (commandBlk d [(24, 8)] blk (fun s =>
    if s.forme.state == .started then finish d stBusy 0 s
    else if 2 ^ 20 < first + n || d.blockLength.toNat != 16 * n
        || (List.range n).any (fun i => !routeEntryOk (routeEntryOf blk i)) then finish d stBadParam 0 s
    else
      let s := (List.range n).foldl (fun s i => putRoute (first + i) (routeEntryOf blk i) s) s
      finish d stDone (resAt 16 ((List.range n).filter (fun i => bitAt (routeEntryOf blk i) 88)).length) s) s)

/-! ## FABRIC_GID and LINK_CONFIG -/

/-- A write of FABRIC_GID (R20, R21, R253): ignored while a forme is loaded, and for the reserved GID. Every change is told to
the partners. -/
def fabricGidWrite (value : Reg) (s : State) : State :=
  let v := value.toNat
  if s.loaded || (bitAt v 32 && fld v 0 20 = 0xFFFFF) then s
  else
    let t := { s with fab.gid := BitVec.ofNat 20 (fld v 0 20), fab.gidValid := bitAt v 32 }
    if t.fab.gid = s.fab.gid && t.fab.gidValid = s.fab.gidValid then t
    else (List.range 32).foldl (fun s p =>
      if (s.port p).ready then sendNotice p (if (s.port p).fenced then 2 else 1) s else s) t

/-- FABRIC_GID_WRITE (R20, R21, R253). -/
def execFabricGidWrite (w : CsWr) (s : State) : Out := .next (behindWrites 0x3200000 w (fabricGidWrite w.value) s)

/-- A write of a port's LINK_CONFIG (R199, R201, R228): a reserved REACH is ignored; a gated port ignores the write (R264).
KCL, port 32, has no gate and no reach class (R231, R501). -/
def linkConfigWrite (k : Nat) (value : Reg) (s : State) : State :=
  let v := value.toNat
  if k < 32 && !s.clk.enLink.getLsbD k then s
  else
    setEnable k (bitAt v 16) (s.modPort k (fun q =>
      { q with marginFloor := BitVec.ofNat 8 (fld v 8 8)
               reachCfg := if fld v 0 2 = 3 || k = 32 then q.reachCfg else BitVec.ofNat 2 (fld v 0 2) }))

/-- LINK_CONFIG_WRITE (R199, R201, R228). -/
def execLinkConfigWrite (p : PortId) (w : CsWr) (s : State) : Out :=
  .next (behindWrites (0x3000008 + 0x10000 * p.val) w (linkConfigWrite p.val w.value) s)

end Sys2Proof.Machine
end

