-- ==== Sys2Proof/Machine/Power.lean ====
section
/-! DEFINITION. Operating points (R286 to R288, R472 to R474), press and chip states (R151 to R154, R475 to R478), the
departure stagger, and the power limit and brake (R479 to R481). -/

namespace Sys2Proof.Machine

open Sys2Proof

/-! ## Operating points (R286, R287, R474) -/

/-- Whether the loaded forme permits a point (R57, R286). -/
def pointPermitted (s : State) (p : Nat) : Bool := match s.forme.forme with
  | some f => bitAt f.tt.points.toNat p
  | none => true

/-- Whether a step is already committed at or beyond step S - 1 (R286). -/
def stepPast (s : State) (step : Nat) : Bool := match s.tt.committed with
  | some c => decide (step ≤ c.toNat + 1)
  | none => false

/-- The completion of a change of point that has been applied, with the point in force (R422). -/
def pointDone (s : State) : State :=
  match s.power.applyCmd with
  | some d => finish d stDone (resAt 24 s.power.point.toNat) { s with power.applying := none, power.applyCmd := none }
  | none => { s with power.applying := none }

/-- The regulators begin the pending change (R287). -/
def beginChange (s : State) : State :=
  { s with power.changing := true, power.applying := s.power.pendingPoint, power.applyCmd := s.power.pointCmd
           power.pendingPoint := none, power.pointCmd := none, power.switchAt := none, power.regions := 15
           power.pointQuiet := false }

/-- Whether the regulators of every region have begun the change in progress (R287). -/
def regionsIn (s : State) : Bool := s.power.regions == 15

/-- SET_OPERATING_POINT (R156, R286, R421, R474). -/
def execSetOperatingPoint (d : Descriptor) (s : State) : Out :=
  .next (command d [(24, 1), (32, 8)] (fun s =>
    let p := pArg d 24 1
    let step := pArg d 32 8
    let r := resAt 24 s.power.point.toNat
    if 2 < p || !pointPermitted s p || (s.dbg.enabled && p != 0) then finish d stBadParam r s
    else if s.loaded && stepPast s step then finish d stExpired r s
    else
      let s := match s.power.pointCmd with
        | some old => finish old stBusy r { s with power.pointCmd := none }
        | none => s
      let s := { s with power.pendingPoint := some (BitVec.ofNat 2 p, BitVec.ofNat 64 step), power.pointCmd := some d
                        power.switchAt := if s.power.changing && !regionsIn s then s.power.switchAt else none
                        power.pointQuiet := s.power.chipState != 0 }
      let s := queued d r s
      if !s.loaded && s.power.chipState = 0 && !s.power.changing then beginChange s else s) s)

/-- The regions whose local station time, that of their repeater, has reached a count (R271, R287). -/
def regionsAt (s : State) (count : Nat) : BitVec 4 :=
  BitVec.ofNat 4 (sumOf ((List.range 4).map (fun i => if count * 256 ≤ vget s.time.repCode i 0 then 2 ^ i else 0)))

/-- OPERATING_POINT_SWITCH (R287): the regulators of each region whose local station time has reached the switch count begin
their change, outside a step. The change begins with the first of them. -/
def execOperatingPointSwitch (s : State) : Out :=
  .next (match s.power.switchAt with
    | some t =>
      let begun := if s.power.changing then s.power.regions else 0
      let regions := begun ||| regionsAt s t.toNat
      if s.tt.inStep || regions == begun then s
      else
        { (if s.power.changing then s else beginChange s) with
          power.regions := regions, power.switchAt := if regions = 15 then none else some t }
    | none => s)

/-- The change of point has ended: the target is in force (R474). -/
def endChange (s : State) : State :=
  let s := { s with power.changing := false, power.copyAfter := false, power.regions := 0 }
  match s.power.applying with
  | some (p, _) => { s with power.point := p }
  | none => s

/-- OPERATING_POINT_CHANGE_END (R474), once every region has begun the change. With no forme loaded the command completes and a new edition is written (R426);
otherwise it completes when step S launches (R422). A change asked for meanwhile then begins. -/
def execOperatingPointChangeEnd (s : State) : Out :=
  .next (if !s.power.changing || !regionsIn s then s
    else
      let s := endChange s
      if s.loaded then s
      else
        let s := writeEdition (pointDone s)
        if s.power.pendingPoint.isSome then beginChange s else s)

/-- The switch count of an announced launch, and whether the announcement came after it (R287, R288). -/
def switchAtLaunch (launch : Nat) (s : State) : State :=
  { s with power.switchAt := some (BitVec.ofNat 64 (launch - 10000)), power.copyAfter := decide (launch - 10000 ≤ s.now) }

/-- The sixth commit action of a pending change that names the next step: the switch count (R287). -/
def pointSwitchCount (step : Nat) (launch : Nat) (s : State) : State :=
  match s.power.pendingPoint with
  | some (_, st) =>
    if st.toNat = step + 1 then switchAtLaunch launch s else s
  | none => s

/-! ## Press states (R151 to R154) -/

/-- A press enters Shed: its planes and its banks lose their contents (R71). -/
def shedPress (p : Press) : Press :=
  { p with power := .shed, plane0 := none, plane1 := none, bankA := Bank.reset, bankB := Bank.reset }

/-- A dormant press stands again (R153). -/
def wakePress (p : Press) : Press :=
  if p.power == .stand then p else { p with power := .stand, wakes := p.wakes + 1 }

/-- The mark at which an idle stream waits: the value of a DEPART mark, or the end count at END; `none` of a stream that
is not idle (R41, R151). -/
def idleMark (s : State) (st : Stream) : Option Nat :=
  match st.state, st.mark with
  | .ended, _ => some s.tt.endCount
  | .markWait, some m => if m.due.isNone then some m.value else none
  | _, _ => none

/-- The lowest mark that an idle press awaits; `none` where it is not idle (R151). -/
def pressMark (s : State) (p : Press) : Option Nat :=
  match idleMark s p.m, idleMark s p.v, idleMark s p.x with
  | some a, some b, some c => some (min a (min b c))
  | _, _, _ => none

/-- The time at which a press must stand again: its mark in TT within a step, the announced launch outside (R151, R154). -/
def pressDue (s : State) (p : Press) : Option (Nat × Nat) :=
  if s.tt.inStep then (pressMark s p).map (fun m => (m, s.tt.tt.toNat))
  else match s.tt.nextLaunch with
    | some l => if s.tt.copied then some (l.toNat, s.now) else none
    | none => none

/-- Whether Shed is open to an idle press: every row EMPTY and the gap-map bit of the M stream's mark set (R151). Between drain
and launch that mark is the END at which the stream stands, whose bit the map holds too (R152, R154): log entry 116. -/
def shedAllowed (p : Press) : Bool := p.bankA.rows.isEmpty && p.bankB.rows.isEmpty && p.gap.getLsbD p.m.pc

/-- Whether a part is under self-test: its READY bit reads 0 (R397, R469). -/
def State.underTest (s : State) (part : Nat) : Bool := (vget s.health.test part SelfTest.reset).state == 2

/-- PRESS_IDLE (R151, R154): an idle press enters the deepest state its gap allows; one that the loaded forme does not use
stays in Shed. -/
def execPressIdle (p : PressId) (s : State) : Out :=
  let k := p.val
  let pr := s.press k
  .next (
    if s.loaded && (s.pressSlot k).isNone then
      if pr.power == .shed || s.underTest k then s else s.modPress k shedPress
    else if pr.power != .stand then s
    else match pressDue s pr with
      | some (m, now) =>
        if m < now + 32 && s.tt.inStep then s
        else if now + 24000 + 128 ≤ m && shedAllowed pr then s.modPress k shedPress
        else if now + 1500 + 128 ≤ m then s.modPress k (fun x => { x with power := .layover })
        else s
      | none => s)

/-- PRESS_WAKE (R153): a dormant press wakes when the time comes to m - w - 64. -/
def execPressWake (p : PressId) (s : State) : Out :=
  let k := p.val
  let pr := s.press k
  let w := if pr.power == .shed then 24000 else 1500
  .next (if pr.power == .stand || (s.loaded && (s.pressSlot k).isNone) then s
    else match pressDue s pr with
      | some (m, now) => if m ≤ now + w + 64 then s.modPress k wakePress else s
      | none => s)

/-! ## The departure stagger (R477, R478) -/

/-- The column of a departure group (R477). -/
def groupColumn (g : Nat) : Nat := if g % 2 = 0 then g / 2 else 11 - g / 2

/-- Occasions of the stagger (R478): first launch, wake, entry to Shed, make-ready self-test. -/
def occLaunch : Nat := 0
def occWake : Nat := 1
def occShed : Nat := 2
def occTest : Nat := 3

/-- A stagger begun at group 0. -/
def startStagger (occ : Nat) (s : State) : State := { s with power.stagger := some (occ, 0) }

/-- What one press of a group does on an occasion. A press that the loaded forme leaves out stays in Shed (R154). -/
def departPress (s : State) (occ k : Nat) (p : Press) : Press :=
  if occ = occShed then shedPress p
  else if occ = occTest then p
  else if s.loaded && (s.pressSlot k).isNone then p
  else wakePress p

/-- DEPARTURE_GROUP (R477, R478): the next group of the stagger in progress acts; before a first launch, not before its
own count. At make-ready it starts its test, whose end is a command of its own. -/
def execDepartureGroup (g : Fin 12) (s : State) : Out :=
  .next (match s.power.stagger with
    | none => s
    | some (occ, next) =>
      let early := occ == occLaunch && (match s.tt.nextLaunch with
        | some l => decide (s.now + 24064 + 1000 * (11 - g.val) < l.toNat)
        | none => true)
      if next != g.val || early then s
      else
        let s := (List.range 8).foldl (fun s r =>
          let k := 12 * r + groupColumn g.val
          s.modPress k (departPress s occ k)) s
        { s with power.stagger := if g.val = 11 then none else some (occ, g.val + 1) })

/-! ## Chip states (R475, R476) -/

/-- Whether a copy by SB3 is in progress (R475). -/
def sb3Busy (s : State) : Bool :=
  s.forme.fabricLoad.isSome || s.forme.broadcast.isSome || !s.mirror.backlog.isEmpty || !s.mirror.logDue.isEmpty || !s.mirror.fetches.isEmpty
    || s.liv.slots.any (fun x => x.2.copying)
    || s.eng.parked.any (fun x => !x.2.done) || !s.eng.restores.isEmpty

/-- Whether a self-test is running, those of make-ready among them (R397, R470). -/
def testRunning (s : State) : Bool := s.power.testing != 0 || s.health.test.toList.any (fun t => t.state == 2)

/-- Entry conditions that Quiet and Deep quiet share (R475): firmware ready, no step, commit actions, copies and self-test runs
finished, no launch near. -/
def quietGap (s : State) : Bool :=
  s.power.phase == .running && !s.tt.inStep && s.rings.commit.isNone && !testRunning s && !sb3Busy s && !s.power.waking
    && (match s.tt.nextLaunch with
      | some l => s.tt.copied && decide (s.now + 50000 ≤ l.toNat)
      | none => true)

/-- QUIET_ENTRY (R475, R478). -/
def execQuietEntry (s : State) : Out :=
  .next (if s.power.chipState = 0 && s.power.quietAllow && quietGap s then
      startStagger occShed { s with power.chipState := 1 }
    else s)

/-- DEEP_QUIET_ENTRY (R475, R476): the devices go into self-refresh, and PLL_NEAR_PHY is off. -/
def execDeepQuietEntry (s : State) : Out :=
  .next (if s.power.chipState != 2 && s.power.deepAllow && quietGap s && s.forme.state != .started
      && decide (10000000 ≤ s.power.windowIdle) then
      let s := if s.power.chipState = 0 then startStagger occShed s else s
      { s with power.chipState := 2, near.selfRefresh := true, near.refreshing := false
               clk.locked := s.clk.locked &&& 0xF7 }
    else s)

/-- A wake begins (R476, R478). -/
def startWake (s : State) : State :=
  let departing := match s.power.stagger with
    | some (occ, _) => occ == occWake
    | none => false
  if s.power.chipState = 0 || (s.power.waking && departing) then s
  else startStagger occWake { s with power.waking := true }

/-- Whether an announced launch is so near that the wake begins for it: 40 µs from Quiet, 3 ms from Deep quiet (R476). -/
def launchNear (s : State) : Bool := match s.tt.nextLaunch with
  | some l => decide (l.toNat ≤ s.now + if s.power.chipState = 2 then 3000000 else 40000)
  | none => false

/-- WAKE (R476, R478): the wake that a launch, a command or an access asks for begins its departures. -/
def execWake (s : State) : Out := .next (if s.power.waking || launchNear s then startWake s else s)

/-- A change of point accepted in Quiet or Deep quiet is applied during the wake (R474). With no forme loaded its command completes;
with one it completes at the launch of its step (R422). -/
def wakePoint (s : State) : State :=
  if !s.power.pointQuiet || s.power.pendingPoint.isNone then s
  else
    let s := endChange (beginChange s)
    if s.loaded then s else writeEdition (pointDone s)

/-- WAKE_COMPLETE (R474 to R476): the chip is ACTIVE, the channels of Deep quiet have retrained, a change of point that
waited has been applied, and what waited for the near tier goes on. -/
def execWakeComplete (s : State) : Out :=
  .next (if !s.power.waking || s.power.chipState = 0 then s
    else
      let deep := s.power.chipState == 2
      let chan (c : Channel) : Channel :=
        if deep && c.ready then { c with retrains := c.retrains + 1, lastRetrain := s.time.ns, tempAt := c.temp, due := false } else c
      let s := { s with
        near.channels := s.near.channels.map chan, near.selfRefresh := false
        clk.locked := if deep then s.clk.locked ||| 8 else s.clk.locked
        power.chipState := 0, power.waking := false, power.stagger := none
        presses := s.presses.mapIdx (fun k p => departPress s occWake k p) }
      kclPump (wakePoint s))

/-! ## The power limit (R479 to R481) -/

/-- One measurement of the input power, and the hottest sensor (R479). The mean is compared exactly: MEAN_W shows it in whole
watts. -/
def powerSample (watts : BitVec 12) (junction : BitVec 8) (s : State) : State :=
  let w := watts.toNat
  let samples := (w :: s.power.samples).take 1000
  let sum := sumOf samples
  let limit := s.power.limit.toNat
  let s := { s with power.samples := samples, power.sampleW := watts, power.meanW := BitVec.ofNat 12 (sum / 1000)
                    power.junction := junction }
  let peak := decide (2150 < w)
  let over' := decide (limit * 1000 < sum)
  let s := if peak && !s.power.brakePeak then { s with power.brakePeak := true, power.brakesPeak := s.power.brakesPeak + 1 } else s
  let s := if over' && !s.power.brakeMean then { s with power.brakeMean := true, power.brakesMean := s.power.brakesMean + 1 } else s
  let quiet := (!s.power.brakePeak || decide (w < 2000)) && (!s.power.brakeMean || decide (sum * 100 < limit * 98000))
  if !s.power.braking then
    if s.power.brakePeak || s.power.brakeMean then intrude .power .brake { s with power.braking := true, power.calm := 0 }
    else s
  else if !quiet then { s with power.calm := 0 }
  else if s.power.calm + 1 < 2 then { s with power.calm := s.power.calm + 1 }
  else
    releaseHolds (fun h => h.unit == .power && h.cause == .brake)
      { s with power.braking := false, power.brakePeak := false, power.brakeMean := false, power.calm := 0 }

end Sys2Proof.Machine
end

