-- ==== Sys2Proof/Machine/Commit.lean ====
section
/-! DEFINITION. Announcements as bodies (R46), and what a chip does at a COMMIT or COMMIT_STOP (R48, R347, R395, R426). -/

namespace Sys2Proof.Machine

open Sys2Proof

/-! ## Announcements (R46) -/

/-- Decisions (R46). -/
def decCommit : Nat := 1
def decAbort : Nat := 2
def decStop : Nat := 3
def decCommitStop : Nat := 4
def decStart : Nat := 5

/-- Fields of a BARRIER_ANNOUNCE body. -/
def annStep (b : BitVec 192) : Nat := fld b.toNat 0 64
def annAttempt (b : BitVec 192) : Nat := fld b.toNat 64 8
def annDecision (b : BitVec 192) : Nat := fld b.toNat 72 8
def annLaunch (b : BitVec 192) : Nat := fld b.toNat 128 64

/-- A BARRIER_ANNOUNCE body. -/
def announcement (step attempt decision launch : Nat) : BitVec 192 :=
  BitVec.ofNat 192 (step + attempt * 2 ^ 64 + decision * 2 ^ 72 + launch * 2 ^ 128)

/-- The children of this chip in the barrier tree (R57). -/
def State.children (s : State) : List Nat := match s.forme.forme with
  | some f => (f.tt.parent.mapIdx (fun c p => (c, p))).filterMap (fun x => if x.2 = s.chipIndex && x.1 != s.chipIndex then some x.1 else none)
  | none => []

/-- A control packet of the barrier sent to a chip of the tree, with the forme's first key (R209, R249, R360). -/
def treeSend (type chip : Nat) (body : Nat) (s : State) : State := match s.forme.tree.lookup chip with
  | some r => sendControl type (vget s.forme.keys 0 0).toNat r body s
  | none => s

/-- An announcement passed down the tree. -/
def passDown (body : BitVec 192) (s : State) : State := s.children.foldl (fun s c => treeSend 0x11 c body.toNat s) s

/-! ## The straggle record (R395) -/

/-- TOP_CAUSE: the cause with the largest share, the lowest code of those that tie; 0xFF where TT never stood. -/
def topCause (l : List (BitVec 64)) : Nat :=
  let m := maxOf (l.map (·.toNat))
  if m = 0 then 0xFF else (l.findIdx? (fun x => x.toNat == m)).getD 0xFF

/-- The straggle record of the attempt that is committed. PACE depends on the speed of the arrays: a free value where a
press of the forme carried work. -/
def straggle (s : State) : BitVec 128 × State :=
  let worked := s.slots.any (fun p => (s.press p).periods != (s.press p).periodsAt)
  let (v, s) := if worked then s.draw else (0xFFFF, s)
  (BitVec.ofNat 128 (satNat 32 s.tt.stepHoldNs.toNat + topCause s.tt.causeNs.toList * 2 ^ 32
    + v.toNat % 2 ^ 16 * 2 ^ 48 + s.tt.slip.toNat * 2 ^ 64 + s.tt.aborts.toNat * 2 ^ 96), s)

/-! ## The actions of R48 -/

/-- Every press of the forme swaps the sides of its platforms (R43). -/
def swapSides (s : State) : State := s.slots.foldl (fun s p => s.modPress p (fun x => { x with parity := !x.parity })) s

/-- A step of the sixth action that follows the edition: a FORME_STOP has taken effect, or a pending handover begins
(R258, R439, R478). -/
def commitEnd (stop : Bool) (s : State) : State :=
  let s := if s.fw.handoverPending then beginHandover s else s
  let s := match s.dbg.pendingCmd with
    | some (d, on) =>
      let s := { s with dbg.pendingCmd := none }
      if on && s.power.point != 0 then finish d stBadParam (resAt 16 (bit s.dbg.enabled)) s
      else finish d stDone (resAt 16 (bit on)) { s with dbg.enabled := on }
    | none => s
  if stop then startStagger occShed (fenceForme s) else s

/-- Completions of the cancellations whose records waited for room, once a commit has published them (R301, R415). -/
def finishLate (s : State) : State :=
  s.eng.late.foldl (fun (s : State) x => match x.cmd with
    | some d => finishAtEdition d stCancelled (resAt 16 x.st) s
    | none => s) { s with eng.late := [] }

/-- The end of the sixth action. Its changes show in the table window once the commit is complete (R296), and in the edition page
of the next terminus. -/
def commitRest (body : BitVec 192) (stop : Bool) (s : State) : State :=
  let s := installUsed { s with rings.commit := none }
  let s := if stop then s else pointSwitchCount (annStep body) (annLaunch body) s
  commitEnd stop { showTable s with rings.edTable := s.rings.edition }

/-- The desk's admission, from where it stands, and what follows; a breakpoint may stop it before a candidate (R157, R303). -/
def commitAdmit (body : BitVec 192) (stop : Bool) (s : State) : State :=
  match s.serving, s.eng.walk with
  | some v, some w =>
    let (w, hit, s) := admitGo v w w.visits s
    match hit with
    | some k => breakHit k .engine 0 { s with eng.walk := some w, rings.commit := some (body, 6, stop) }
    | none => commitRest body stop (deskSettle v w s)
  | _, _ => commitRest body stop s

/-- The pending commands of the sixth action, from where they stand, and what follows them (R158, R301, R315). -/
def commitApply (body : BitVec 192) (stop : Bool) (s : State) : State :=
  let ref := if stop then 0 else annLaunch body
  match worksGo (if s.isDesk then ref else 0) s.eng.todo s with
    | (some n, s) => breakHit n .engine 0 { s with rings.commit := some (body, 5, stop) }
    | (none, s) => if s.isDesk then commitAdmit body stop (deskWalk (annStep body) ref s) else commitRest body stop (stageApply (annStep body) s)

/-- The fourth to sixth actions of R48. -/
def commitFinish (body : BitVec 192) (stop : Bool) (s : State) : State :=
  let step := annStep body
  let ref := if stop then 0 else annLaunch body
  let s := writeLedger step s
  let (rec', s) := straggle s
  let s := { s with rings.edTerminus := BitVec.ofNat 64 step, rings.edAttempt := BitVec.ofNat 8 (annAttempt body)
                    rings.edStation := s.time.ns, rings.edLaunch := BitVec.ofNat 64 ref
                    rings.straggle := rec', tt.aborts := 0 }
  let s := if stop then
      let s := { s with forme.state := .imposed, barrier.stopPending := false, barrier.stopped := false }
      match s.barrier.stopCmd with
      | some d => finishAtEdition d stDone 0 { s with barrier.stopCmd := none, forme.reason := 0 }
      | none => s
    else s
  let s := writeEdition (showTable (reportTerminus (finishLate s)))
  if s.serving.isNone then commitRest body stop s else commitApply body stop (pendingWorks (if s.isDesk then deskApply s else s))

/-- The third action (R346, R347): the commit waits here while an output ring lacks room. `first` says that it has not
waited yet. -/
def commitPublish (body : BitVec 192) (stop first : Bool) (s : State) : State :=
  let l := if s.isDesk then publishList s (annStep body) else []
  if publishFits s l then commitFinish body stop (publishAll (annStep body) l s)
  else { s with rings.commit := some (body, 3, stop)
                smp.stallCommits := if first then s.smp.stallCommits + 1 else s.smp.stallCommits }

/-- The rows of the ended pass handled in turn, as far as a breakpoint lets it go; the breakpoint that stops the engine before one
(R157, R315). -/
def handleRows : List (Nat × Berth) → State → Option Nat × State
  | [], s => (none, s)
  | (k, b) :: l, s => match engineStops b.waybill s with
    | some n => (some n, s)
    | none => handleRows l (handleRow k b (engineHandles s))

/-- The closes of the second action, from where they stand, and what follows them (R158, R315). -/
def commitClose (body : BitVec 192) (stop : Bool) (s : State) : State :=
  match worksGo (if stop then 0 else annLaunch body) s.eng.todo s with
  | (some n, s) => breakHit n .engine 0 { s with rings.commit := some (body, 4, stop) }
  | (none, s) => commitPublish body stop true s

/-- The engine's part of the second action, from where it stands, and what follows it (R158, R315). -/
def commitAccept (body : BitVec 192) (stop : Bool) (s : State) : State :=
  match handleRows ((endedRows s).drop s.eng.handled) s with
  | (some n, s) => breakHit n .engine 0 { s with rings.commit := some (body, 2, stop) }
  | (none, s) => if s.isDesk then commitClose body stop (deskCloses s) else commitPublish body stop true s

/-- A commit's actions as far as they go now. What they write comes before the rest of the gap's work (R48, R179). -/
def asCommit (run : State → State) (s : State) : State :=
  boxesGo { run { s with near.commits := true } with near.commits := false }

/-- The actions of R48 on a decision COMMIT or COMMIT_STOP. -/
def commitActions (body : BitVec 192) (stop : Bool) (s : State) : State :=
  let step := annStep body
  let s := { s with
    tt.outcome := if stop then 4 else 1
    tt.nextLaunch := if stop then none else some (BitVec.ofNat 64 (annLaunch body))
    tt.nextStep := BitVec.ofNat 64 (step + 1), tt.nextAttempt := 0, tt.committed := some (BitVec.ofNat 64 step)
    barrier.decided := none, barrier.reported := false, barrier.reports := [], eng.handled := 0 }
  let s := commitLog step (commitRankings (commitHeads (resendMirror (commitRestores (countSampler (swapSides s))))))
  let s := if s.isDesk then deskBegin (if stop then 0 else annLaunch body) s else s
  commitAccept body stop s

/-- The actions of R48 on a decision COMMIT or COMMIT_STOP, its writes first. -/
def commit (body : BitVec 192) (stop : Bool) (s : State) : State := asCommit (commitActions body stop) s

/-- A commit that waits goes on, if what it waits for has come: RESUME for the engine, room for output records. -/
def commitGoOn (s : State) : State := match s.rings.commit with
  | some (body, 2, stop) => if s.dbg.stopped.contains .engine then s else asCommit (commitAccept body stop) s
  | some (body, 4, stop) => if s.dbg.stopped.contains .engine then s else asCommit (commitClose body stop) s
  | some (body, 5, stop) => if s.dbg.stopped.contains .engine then s else asCommit (commitApply body stop) s
  | some (body, 6, stop) => if s.dbg.stopped.contains .engine then s else asCommit (commitAdmit body stop) s
  | some (body, _, stop) => asCommit (commitPublish body stop false) s
  | none => s

end Sys2Proof.Machine
end

