-- ==== Sys2Proof/Machine/Barrier.lean ====
section
/-! DEFINITION. The barrier tree (R45 to R47, R51 to R56): reports, the root's decision, announcements, timeouts, and the
ends of a step other than a commit (R49, R381). -/

namespace Sys2Proof.Machine

open Sys2Proof

/-! ## Reports (R45) -/

/-- STATUS of a report (R45). -/
def rsOk : Nat := 0
def rsFault : Nat := 1
def rsReady : Nat := 2
def rsStop : Nat := 3

/-- A BARRIER_REPORT body. -/
def reportBody (step attempt : Nat) (r : Report) : Nat :=
  step + attempt * 2 ^ 64 + r.status.toNat * 2 ^ 72 + r.fault.toNat * 2 ^ 80 + r.chips.toNat * 2 ^ 96
    + r.maxHold.toNat * 2 ^ 128 + r.faultChip.toNat * 2 ^ 160

/-- The report that a body carries, from a child. -/
def reportOf (child : BitVec 32) (body : BitVec 192) : Report :=
  let b := body.toNat
  ⟨child, BitVec.ofNat 8 (fld b 72 8), BitVec.ofNat 8 (fld b 80 8), BitVec.ofNat 32 (fld b 96 32), BitVec.ofNat 32 (fld b 128 32),
   BitVec.ofNat 32 (fld b 160 32)⟩

/-- The aggregate of reports: FAULT if any reports it, else STOP_REQUEST if any does; the fault is that of the
lowest-numbered faulting chip (R45, R47). -/
def aggregate (l : List Report) : Report :=
  let faulty := l.filter (fun r => r.status.toNat == rsFault)
  let first := (sortBy (fun a b => decide (a.faultChip.toNat ≤ b.faultChip.toNat)) faulty).head?
  let status := if !faulty.isEmpty then rsFault else if l.any (fun r => r.status.toNat == rsStop) then rsStop
    else if l.any (fun r => r.status.toNat == rsReady) then rsReady else rsOk
  ⟨0, BitVec.ofNat 8 status, match first with
    | some r => r.fault
    | none => 0,
   BitVec.ofNat 32 (sumOf (l.map (fun r => r.chips.toNat))), BitVec.ofNat 32 (maxOf (l.map (fun r => r.maxHold.toNat))),
   match first with
    | some r => r.faultChip
    | none => 0xFFFFFFFF⟩

/-- This chip's own index in a list of reports. -/
def State.self32 (s : State) : BitVec 32 := BitVec.ofNat 32 s.chipIndex

/-- Whether reports of this chip and of every child are in. -/
def allIn (s : State) (l : List Report) : Bool :=
  (s.chipIndex :: s.children).all (fun c => l.any (fun r => r.child.toNat == c))

/-! ## The root's decisions (R46, R51, R53) -/

/-- The launch count that the root announces (R53): its station time, the launch margin, and the change time where its own
pending change names the step to launch, rounded up to a multiple of 32 ns. -/
def launchCount (step : Nat) (s : State) : Nat :=
  let margin := match s.forme.forme with
    | some f => orDefault f.tt.launchMargin 20000
    | none => 20000
  let change := match s.power.pendingPoint with
    | some (_, st) => if st.toNat = step then 10000 else 0
    | none => 0
  ceilDiv (s.now + margin + change) 32 * 32

/-- ABORT_LIMIT of the forme (R57, R504). -/
def abortLimit (s : State) : Nat := match s.forme.forme with
  | some f => orDefault f.tt.abortLimit 3
  | none => 3

/-- The root decides: the announcement goes down the tree, and the root's own row performs it. -/
def decideAs (body : BitVec 192) (s : State) : State := passDown body { s with barrier.decided := some body }

/-- The root's decision on the aggregate of every chip (R46, R51, R53). -/
def decide' (r : Report) (s : State) : State :=
  let step := s.tt.step.toNat
  let att := s.tt.attempt.toNat
  let s := { s with tt.rootFault := r.fault, barrier.faultChip := r.faultChip, barrier.reports := [] }
  if r.status.toNat = rsFault then
    if abortLimit s ≤ s.tt.aborts.toNat || att = 255 then decideAs (announcement step att decStop 0) s
    else decideAs (announcement step att decAbort (launchCount step s)) s
  else if r.status.toNat = rsStop then decideAs (announcement step att decCommitStop 0) s
  else decideAs (announcement step att decCommit (launchCount (step + 1) s)) s

/-- With every report in, the chip sends its aggregate to its parent, or decides as root (R45). -/
def tryReport (s : State) : State :=
  if s.barrier.reported || s.barrier.decided.isSome || !allIn s s.barrier.reports then s
  else
    let r := aggregate s.barrier.reports
    match s.forme.forme.bind (fun f => parentOf f.tt s.chipIndex) with
    | none => decide' r s
    | some p => treeSend 0x10 p (reportBody s.tt.step.toNat s.tt.attempt.toNat r)
        { s with barrier.reported := true, barrier.reports := [] }

/-- With this chip and every child READY, READY goes to the parent, or the root announces START (R47, R53). -/
def tryReady (s : State) : State :=
  if !s.barrier.ready || s.barrier.readySent || s.barrier.decided.isSome || !allIn s s.barrier.readies then s
  else
    let step := s.tt.nextStep.toNat
    let att := s.tt.nextAttempt.toNat
    let r := aggregate s.barrier.readies
    match s.forme.forme.bind (fun f => parentOf f.tt s.chipIndex) with
    | none => decideAs (announcement step att decStart (launchCount step s)) { s with barrier.readies := [], barrier.readySent := true }
    | some p => treeSend 0x10 p (reportBody step att r) { s with barrier.readySent := true, barrier.readies := [] }

/-- Whether a report for a step and attempt belongs to the attempt in progress or just drained, or to the one announced. -/
def reportFits (s : State) (step att : Nat) : Bool :=
  (step == s.tt.step.toNat && att == s.tt.attempt.toNat && (s.tt.inStep || (s.tt.drained && !s.barrier.reported && s.tt.nextLaunch.isNone)))
    || (step == s.tt.nextStep.toNat && att == s.tt.nextAttempt.toNat && s.tt.nextLaunch.isSome)

/-- A report added, one for each child. -/
def addReport (r : Report) (l : List Report) : List Report := l.filter (fun x => x.child != r.child) ++ [r]

/-- BARRIER_REPORT (R45, R47): a child's report. A READY report for another step or attempt than the one this chip will
launch is discarded, and so is a report with a reserved STATUS or of an attempt that this chip does not hold. -/
def execBarrierReport (child : BitVec 32) (body : BitVec 192) (s : State) : Out :=
  let s := controlTakeAny 0x10 body s
  let r := reportOf child body
  let step := fld body.toNat 0 64
  let att := fld body.toNat 64 8
  .next (if !s.loaded || !s.children.contains child.toNat || rsStop < r.status.toNat then s
    else if r.status.toNat = rsReady then
      if step = s.tt.nextStep.toNat && att = s.tt.nextAttempt.toNat && !s.barrier.readySent then
        tryReady { s with barrier.readies := addReport r s.barrier.readies }
      else s
    else if reportFits s step att then tryReport { s with barrier.reports := addReport r s.barrier.reports }
    else s)

/-! ## STOP (R47, R51, R56, R257, R381) -/

/-- A FORME_STOP that was pending takes effect at the stop: the forme becomes IMPOSED and its ports are fenced (R47). The
next start launches the stopped step at attempt 0 (R52). A handover that waited for a commit begins (R439). -/
def stopForme (s : State) : State :=
  let s := pageChange s
    (fenceForme { s with forme.state := .imposed, barrier.stopPending := false, barrier.stopped := false, tt.nextAttempt := 0 })
  let s := match s.barrier.stopCmd with
    | some d => formeDone d 0 { s with barrier.stopCmd := none }
    | none => s
  if s.fw.handoverPending then beginHandover s else s

/-- The chip stays at the terminus with its last committed state, and posts STEP_STOPPED (R51, R381). A start that still
awaits its first launch completes with EXPIRED (R257). -/
def stopAt (step att fault faultChip : Nat) (s : State) : State :=
  let launched := s.barrier.startCmd.isNone
  let s := { s with
    tt.nextLaunch := none
    tt.nextStep := BitVec.ofNat 64 step, tt.nextAttempt := BitVec.ofNat 8 (if launched then att + 1 else att)
    barrier.stopped := true, barrier.decided := none, barrier.reported := false, barrier.reports := []
    barrier.readies := [], barrier.ready := false, barrier.readySent := false, barrier.startCount := none }
  let s := match s.barrier.startCmd with
    | some d => formeRefuse d stExpired frState { s with barrier.startCmd := none }
    | none => s
  let s := postEvent evStepStopped att step (fault + faultChip * 2 ^ 32) s
  if s.barrier.stopPending then stopForme s else s

/-- The root's FAULT and FAULT_CHIP, for the event of R381: known at the root; elsewhere a free value, since no announcement
carries them (R46; log entry 56). -/
def rootCause (s : State) : Nat × Nat × State :=
  if s.isRoot then (s.tt.rootFault.toNat, s.barrier.faultChip.toNat, s)
  else
    let (v, s) := s.draw
    (fld v.toNat 0 8, fld v.toNat 8 32, s)

/-- A STOP announcement performed. -/
def performStop (body : BitVec 192) (s : State) : State :=
  let (fault, chip, s) := rootCause s
  stopAt (annStep body) (annAttempt body) fault chip { s with tt.outcome := 3, health.stops := s.health.stops + 1 }

/-! ## Announcements (R46, R47, R49) -/

/-- Whether an announcement is the one this chip waits for: at the root its own decision, elsewhere one for the attempt it
has reported. -/
def annFits (body : BitVec 192) (decision : Nat) (s : State) : Bool :=
  annDecision body == decision && (if s.isRoot then s.barrier.decided == some body
    else s.barrier.reported && annStep body == s.tt.step.toNat && annAttempt body == s.tt.attempt.toNat)

/-- An announcement taken from its port, and passed to the children; the root sent it when it decided. -/
def annTake (body : BitVec 192) (s : State) : State :=
  if s.isRoot then s else passDown body (controlTakeAny 0x11 body s)

/-- ANNOUNCE_COMMIT (R48). -/
def execAnnounceCommit (body : BitVec 192) (s : State) : Out :=
  .next (if annFits body decCommit s then commit body false (annTake body s) else s)

/-- ANNOUNCE_COMMIT_STOP (R47, R48). -/
def execAnnounceCommitStop (body : BitVec 192) (s : State) : Out :=
  .next (if annFits body decCommitStop s then commit body true (annTake body s) else s)

/-- ANNOUNCE_ABORT (R49): nothing of the attempt is kept, and the next attempt is announced. -/
def execAnnounceAbort (body : BitVec 192) (s : State) : Out :=
  .next (if annFits body decAbort s then
      let s := annTake body s
      { s with
        tt.outcome := 2, tt.aborts := satInc s.tt.aborts, tt.nextLaunch := some (BitVec.ofNat 64 (annLaunch body))
        tt.nextStep := BitVec.ofNat 64 (annStep body), tt.nextAttempt := BitVec.ofNat 8 (annAttempt body + 1)
        health.aborts := s.health.aborts + 1
        barrier.decided := none, barrier.reported := false, barrier.reports := [] }
    else s)

/-- A STOP at a chip whose own start has expired (R257): passed down the tree, and told as every STOP is (R381). The chip has no
step to stop. -/
def stopUnstarted (step att : Nat) (s : State) : State :=
  let (fault, chip, s) := rootCause s
  postEvent evStepStopped att step (fault + chip * 2 ^ 32) { s with tt.outcome := 3, health.stops := s.health.stops + 1 }

/-- ANNOUNCE_STOP (R47, R51, R257): at the terminus, or before a first launch that is still awaited. One that comes while the
step still runs takes effect when the step has drained. -/
def execAnnounceStop (body : BitVec 192) (s : State) : Out :=
  let step := annStep body
  let att := annAttempt body
  .next (if annDecision body != decStop then s
    else if s.forme.state != .started then
      if !s.isRoot && s.loaded && step = s.tt.nextStep.toNat && att = s.tt.nextAttempt.toNat then
        stopUnstarted step att (annTake body s)
      else s
    else if s.isRoot then if s.barrier.decided = some body then performStop body s else s
    else if s.barrier.startCmd.isSome && step = s.tt.nextStep.toNat && att = s.tt.nextAttempt.toNat && s.tt.nextLaunch.isNone then
      performStop body (annTake body s)
    else if step = s.tt.step.toNat && att = s.tt.attempt.toNat && s.tt.nextLaunch.isNone then
      if s.barrier.reported then performStop body (annTake body s)
      else if s.tt.inStep || s.tt.drained then
        let s := annTake body s
        if s.tt.inStep then { s with barrier.decided := some body } else performStop body s
      else s
    else s)

/-- ANNOUNCE_START (R47, R53, R478): the launch count of the first step. A change of point that names that step is to begin
its change time before it (R53). -/
def execAnnounceStart (body : BitVec 192) (s : State) : Out :=
  .next (if annDecision body = decStart && s.barrier.startCmd.isSome && annStep body = s.tt.nextStep.toNat
      && annAttempt body = s.tt.nextAttempt.toNat
      && (if s.isRoot then s.barrier.decided == some body else s.barrier.readySent) then
      let s := annTake body s
      let s := { s with tt.outcome := 5, tt.nextLaunch := some (BitVec.ofNat 64 (annLaunch body))
                        barrier.decided := none, barrier.ready := false, barrier.readySent := false, barrier.readies := []
                        barrier.startCount := none }
      let s := match s.power.pendingPoint with
        | some (_, st) => if st = s.tt.nextStep then switchAtLaunch (annLaunch body) s else s
        | none => s
      startStagger occLaunch s
    else s)

/-! ## Timers (R47, R56) -/

/-- START_COUNT_REACHED (R47): station time has reached the start count, and this chip's fetches are complete (R387). -/
def execStartCountReached (s : State) : Out :=
  .next (match s.barrier.startCount with
    | some t =>
      if s.barrier.startCmd.isNone || s.barrier.ready || s.now < t.toNat || !s.mirror.fetches.isEmpty then s
      else tryReady { s with barrier.ready := true
                             barrier.readies := addReport ⟨s.self32, BitVec.ofNat 8 rsReady, 0, 1, 0, 0xFFFFFFFF⟩ s.barrier.readies }
    | none => s)

/-- BARRIER_TIMEOUT (R47, R56): the root lacks reports, or READY, of some chip. -/
def execBarrierTimeout (s : State) : Out :=
  let missing (step att : Nat) (s : State) : State :=
    decideAs (announcement step att decStop 0)
      { s with tt.rootFault := BitVec.ofNat 8 fcMissing, barrier.faultChip := 0xFFFFFFFF, barrier.reports := [], barrier.readies := [] }
  .next (if !s.isRoot || s.forme.state != .started || s.barrier.decided.isSome then s
    else if s.barrier.startCmd.isSome && s.tt.nextLaunch.isNone && !s.barrier.readySent then
      match s.barrier.startCount with
      | some t => if s.now < t.toNat then s else missing s.tt.nextStep.toNat s.tt.nextAttempt.toNat s
      | none => s
    else if s.tt.drained && !s.tt.inStep && s.tt.nextLaunch.isNone && !s.barrier.stopped then
      let s := if s.tt.fault = 0 then
          { s with tt.fault := BitVec.ofNat 8 fcMissing, health.fault := ⟨false, BitVec.ofNat 8 fcMissing, 0xFF, 0⟩ }
        else { s with health.fault.more := true }
      missing s.tt.step.toNat s.tt.attempt.toNat s
    else s)

/-- ANNOUNCE_TIMEOUT (R56, R381): a chip that has reported hears nothing. -/
def execAnnounceTimeout (s : State) : Out :=
  .next (if s.barrier.reported && !s.isRoot then
      let (fault, chip, s) := rootCause s
      stopAt s.tt.step.toNat s.tt.attempt.toNat fault chip (postEvent evBarrierSilent 0 s.tt.step.toNat 0 s)
    else s)

end Sys2Proof.Machine
end

