-- ==== Sys2Proof/Machine/Clocks.lean ====
section
/-! DEFINITION. Clock enables, spread spectrum and clock domains (R264 to R269). -/

namespace Sys2Proof.Machine

open Sys2Proof

/-! ## Clock enables (R264 to R266) -/

/-- A near channel gated: refresh stops, its contents are lost and READY clears (R266). -/
def gateNear (c : Nat) (s : State) : State :=
  { s.modChan c (fun x => { x with ready := false, trained := false }) with
    near.mem := s.near.mem.filter (fun m => m.1 / 1024 % 32 != c) }

/-- The level of CXL_PERSTf_L, once SB3 has taken the pin: low until SB3 releases the port for training, and low while
CLKEN_MISC gates the port (R463, R467). -/
def farPin (f : Nat) (s : State) : State :=
  if s.power.taken.getLsbD (5 + f) then s.setPin (5 + f) (if s.power.readyBox.getLsbD 3 && s.clk.enMisc.getLsbD f then .high else .low)
  else s

/-- A CXL port gated: READY clears, and the pin goes low (R266, R463). -/
def gateFar (f : Nat) (s : State) : State := farPin f (s.modFar f (fun x => { x with ready := false }))

/-- Whether CLKEN bit `i` of register `r` may not be cleared (R265). A near channel holds contents that the module
depends on while it is READY, since every area of R187 is striped over all of them (R174). -/
def clkHeld (s : State) (r i : Nat) : Bool :=
  if r = 0 then s.loaded || (s.chan i).ready
  else if r = 1 then s.portUsed i
  else decide (i < 2) && s.farUsed i

/-- The effect of one CLKEN bit written (R265, R266). A bit that may not be cleared is left alone, and the other bits of the
same write take their effect: DESIGN CHOICE, log entry 147, since R265 does not say what becomes of the rest of the write. -/
def clkBit (r : Nat) (v : Nat) (s : State) (i : Nat) : State :=
  let old := if r = 0 then s.clk.enNear.getLsbD i else if r = 1 then s.clk.enLink.getLsbD i else s.clk.enMisc.getLsbD i
  let want := bitAt v i
  if old == want then s
  else if !want && clkHeld s r i then { s with clk.refused := true }
  else if r = 0 then
    let s := { s with clk.enNear := s.clk.enNear ^^^ BitVec.ofNat 32 (2 ^ i) }
    if want then s else gateNear i s
  else if r = 1 then
    let s := { s with clk.enLink := s.clk.enLink ^^^ BitVec.ofNat 32 (2 ^ i) }
    if want then beginTraining i s else portDownWith false i s
  else
    let s := { s with clk.enMisc := s.clk.enMisc ^^^ BitVec.ofNat 3 (2 ^ i) }
    if i = 2 then
      if want then s
      else
        let s := { s with time.ppsHigh := 0, time.ppsDue := false }
        if s.power.taken.getLsbD 4 then s.setPin 4 .low else s
    else if want then farPin i s else gateFar i s

/-- A write of CLKEN_NEAR, CLKEN_LINK or CLKEN_MISC (R264 to R266). -/
def clkenWrite (r : Nat) (value : Reg) (s : State) : State :=
  (List.range (if r = 2 then 3 else 32)).foldl (clkBit r value.toNat) s

/-- CLKEN_WRITE (R264 to R266). -/
def execClkenWrite (r : Fin 3) (w : CsWr) (s : State) : Out :=
  .next (behindWrites (0x40000 + 8 * r.val) w (clkenWrite r.val w.value) s)

/-! ## Domains (R268, R269) -/

/-- A new target for a domain's source and divider (R268, R269). A change of SOURCE on NEAR_CTL is ignored while a channel
is READY; a reserved SOURCE and a divider outside 1 to 64 must not be written and are ignored. -/
def domainCtlWrite (d : Fin 4) (value : Reg) (s : State) : State :=
  let src := fld value.toNat 0 2
  let div := fld value.toNat 8 8
  let x := s.clk.domains[d]
  let src := if d.val = 1 && src != x.source.toNat && s.near.channels.toList.any (fun c => c.ready) then x.source.toNat else src
  if src = 3 || div = 0 || 64 < div then s
  else
    let x := { x with source := BitVec.ofNat 2 src, div := BitVec.ofNat 8 div
                      ramping := x.sourceNow.toNat != src || x.divNow.toNat != div }
    { s with clk.domains := s.clk.domains.set d x }

/-- DOMAIN_CTL_WRITE (R268, R269). -/
def execDomainCtlWrite (d : Fin 4) (w : CsWr) (s : State) : Out :=
  .next (behindWrites (0x40040 + 8 * d.val) w (domainCtlWrite d w.value) s)

/-- One microsecond of a ramp (R269): with another source to come, the divider rises to 16 and the source changes; then
the divider moves to its target, one step at a time. -/
def rampStep (x : Domain) : Domain :=
  if !x.ramping then x
  else
    let x :=
      if x.sourceNow != x.source && decide (x.divNow.toNat < 16) then
        { x with divNow := x.divNow + 1, sourceNow := if 15 ≤ x.divNow.toNat then x.source else x.sourceNow }
      else
        { x with sourceNow := x.source
                 divNow := if x.divNow.toNat < x.div.toNat then x.divNow + 1
                   else if x.div.toNat < x.divNow.toNat then x.divNow - 1 else x.divNow }
    { x with ramping := x.sourceNow != x.source || x.divNow != x.div }

/-- DOMAIN_RAMP_STEP (R269). -/
def execDomainRampStep (d : Fin 4) (s : State) : Out :=
  .next { s with clk.domains := s.clk.domains.set d (rampStep s.clk.domains[d]) }

/-! ## Spread spectrum (R267) -/

/-- A write of SSC_CTL (R267): a DEPTH above 10 is ignored. A new RATE comes into force at the next turn. -/
def sscCtlWrite (j : Fin 2) (value : Reg) (s : State) : State :=
  let depth := fld value.toNat 0 4
  { s with clk.sscDepth := if depth ≤ 10 then s.clk.sscDepth.set j (BitVec.ofNat 4 depth) else s.clk.sscDepth
           clk.sscRate := s.clk.sscRate.set j (BitVec.ofNat 2 (fld value.toNat 8 2)) }

/-- SSC_CTL_WRITE (R267). -/
def execSscCtlWrite (j : Fin 2) (w : CsWr) (s : State) : Out :=
  .next (behindWrites (0x40080 + 8 * j.val) w (sscCtlWrite j w.value) s)

/-- One nanosecond of a modulation profile (R267): a triangle of 30 to 33 kHz turns twice in its period, and at a turn the
RATE that was written comes into force. -/
def sscTick (s : State) : State :=
  let step (j : Nat) (x : Nat) : Nat := x + 2 * (30 + (vget s.clk.sscRateNow j 0).toNat)
  let turns (j : Nat) : Bool := decide (1000000 ≤ step j (vget s.clk.sscPhase j 0))
  { s with clk.sscPhase := s.clk.sscPhase.mapIdx (fun j x => step j x % 1000000)
           clk.sscRateNow := s.clk.sscRateNow.mapIdx (fun j r => if turns j then vget s.clk.sscRate j 0 else r) }

/-- SSC_DEPTH_STEP (R267): the depth in force moves one code toward DEPTH. -/
def execSscDepthStep (j : Fin 2) (s : State) : Out :=
  let now := s.clk.sscNow[j]
  let want := s.clk.sscDepth[j]
  let next := if now.toNat < want.toNat then now + 1 else if want.toNat < now.toNat then now - 1 else now
  .next { s with clk.sscNow := s.clk.sscNow.set j next }

end Sys2Proof.Machine
end

