-- ==== Sys2Proof/Machine/Entries.lean ====
section
/-! DEFINITION. Ledger entries read back (R297, R298, R324): a waybill from its 128 bytes, and what the module keeps with a
waybill beside its entry, as the mirror carries it. -/

namespace Sys2Proof.Machine

open Sys2Proof

/-- The state of a code (R299). -/
def wbOfCode : Nat → WbState
  | 1 => .queued
  | 2 => .prefill
  | 3 => .decode
  | 4 => .stabled
  | 5 => .cancelled
  | 6 => .expired
  | 7 => .done
  | 8 => .faulted
  | _ => .free

/-- The waybill that an entry's 128 bytes spell (R297, R298). What is kept beside the entry is at its value for a new
waybill. -/
def readEntry (b : List Byte) : Waybill :=
  let f (off n : Nat) : Nat := leAt b off n
  let fl := f 1 1
  let state := wbOfCode (f 0 1 % 16)
  { state := state, priority := BitVec.ofNat 4 fl, colophon := bitAt fl 4, expireStable := bitAt fl 5, restoring := bitAt fl 6
    stablePending := bitAt fl 7, tenant := BitVec.ofNat 16 (f 2 2), ring := BitVec.ofNat 12 (f 4 2)
    livery := if bitAt (f 6 2) 15 then some (BitVec.ofNat 12 (f 6 2)) else none
    deadline := BitVec.ofNat 64 (f 8 8), ttl := BitVec.ofNat 32 (f 16 4), committed := f 20 3, inputLength := f 23 3
    generated := f 26 3, proofDepth := BitVec.ofNat 5 (f 29 1)
    berth := if bitAt (f 30 2) 15 then some (BitVec.ofNat 12 (f 30 2)) else none
    microbatch := BitVec.ofNat 8 (f 32 1), timingChoices := BitVec.ofNat 32 (f 34 4), ticket := BitVec.ofNat 48 (f 38 6)
    inputStore := BitVec.ofNat 32 (f 44 4), directory := BitVec.ofNat 32 (f 48 4), opened := BitVec.ofNat 48 (f 52 6)
    closeStatus := BitVec.ofNat 16 (f 58 2), clientTag := BitVec.ofNat 32 (f 60 4), params := BitVec.ofNat 512 (f 64 64)
    held := [], owed := 0, voided := false, back := if state == .decode then .decode else .prefill, closing := false
    inPlace := false, rebuilt := true, reserved := 0, tail := [], storeKiB := 0, headed := 0, fresh := [], lastGen := 0
    stop := 0, ticketEnd := none }

/-- What the module keeps beside an entry, as the mirror carries it: 256 bytes. DESIGN CHOICE: log entry 41. -/
def keptBytes (w : Waybill) : List Byte :=
  sliceBytes (leBytes 1 (wbCode w.back) ++ leBytes 1 w.owed ++ leBytes 1 (bit w.voided) ++ leBytes 1 w.tail.length
    ++ leBytes 4 w.lastGen ++ leBytes 4 w.storeKiB ++ leBytes 4 w.headed
    ++ sliceBytes ((w.tail.take 16).flatMap (leBytes 4)) 0 64 ++ leBytes 1 w.held.length ++ leBytes 1 w.stop.toNat ++ zeros 2
    ++ (w.held.take 15).flatMap (fun x => leBytes 4 x.1 ++ leBytes 4 x.2)) 0 256

/-- A waybill with what its 256 kept bytes spell. -/
def withKept (b : List Byte) (w : Waybill) : Waybill :=
  let f (off n : Nat) : Nat := leAt b off n
  { w with
    back := wbOfCode (f 0 1), owed := f 1 1, voided := bitAt (f 2 1) 0, lastGen := f 4 4, storeKiB := f 8 4, headed := f 12 4
    tail := (List.range (min 16 (f 3 1))).map (fun k => f (16 + 4 * k) 4), stop := BitVec.ofNat 8 (f 81 1)
    held := (List.range (min 15 (f 80 1))).map (fun k => (f (84 + 8 * k) 4, f (88 + 8 * k) 4)) }

/-- A waybill of a ledger copy with what the module still keeps beside the entry of the same opening (R325). -/
def withCurrent (old w : Waybill) : Waybill :=
  if old.opened = w.opened then
    { w with held := old.held, owed := old.owed, voided := old.voided, back := old.back, tail := old.tail, storeKiB := old.storeKiB
             headed := old.headed, lastGen := old.lastGen, inPlace := old.inPlace, stop := old.stop, ticketEnd := old.ticketEnd, rebuilt := old.rebuilt }
  else w

end Sys2Proof.Machine
end

