-- ==== Sys2Proof/Machine/Flags.lean ====
section
/-! DEFINITION. What the lanes of a vector operation leave in VEC_STATUS and VEC_EVENTS: NAN_IN, OVERFLOW, INVALID_OP
and the count of invalid lanes (R109, R110). -/

namespace Sys2Proof.Machine

open Sys2Proof

/-- The result of one lane: its bits, and whether it read a NaN, overflowed, or met an invalid case. -/
structure LaneRes where
  bits : Nat
  nan : Bool
  ovf : Bool
  invalid : Bool
  deriving DecidableEq, Repr

/-- A lane that delivers bits without arithmetic. -/
def laneCopy (bits : Nat) (nan : Bool) : LaneRes := ⟨bits, nan, false, false⟩

/-- A lane from an exact calculation, rounded once to the format (R108, R109, R110). -/
def laneCalc (f : Fmt) (nan : Bool) (c : Calc) : LaneRes :=
  let (w, o) := f.encode c.1
  ⟨w, nan, o, c.2⟩

/-- A lane from an estimate (R115). -/
def laneEst (nan : Bool) (r : Nat × Bool × Bool) : LaneRes := ⟨r.1, nan, r.2.1, r.2.2⟩

/-- The lanes of an entry gathered: inactive lanes are +0 and raise nothing (R106, R110). -/
def gatherLanes (format active : Nat) (lane : Nat → LaneRes) : VRes :=
  let rs := (List.range (lanesOf format)).map (fun i => if i < active then lane i else laneCopy 0 false)
  ⟨[], [entryOfLanes format (rs.map LaneRes.bits)], rs.any LaneRes.nan, rs.any LaneRes.ovf,
   (rs.filter LaneRes.invalid).length⟩

/-- What several results met together. -/
def mergeFlags (rs : List LaneRes) : Bool × Bool × Nat :=
  (rs.any LaneRes.nan, rs.any LaneRes.ovf, (rs.filter LaneRes.invalid).length)

end Sys2Proof.Machine
end

