-- ==== Sys2Proof/Machine/VectorOps.lean ====
section
/-! DEFINITION. The operations of the vector unit (R104 to R123, R140, R141). -/

namespace Sys2Proof.Machine

open Sys2Proof

/-! ## Element-wise operations (R105, R111) -/

/-- Active lanes of entry `round` of an operation of COUNT elements (R105). -/
def usedLanes (format count round : Nat) : Nat := min (lanesOf format) (count - round * lanesOf format)

/-- An element-wise operation over its sources; `lane` takes the source bits of a lane. -/
def elementOp (w : PressWord) (srcs : List VSrc) (lane : List Nat → LaneRes) : VecOp where
  srcs := srcs
  rounds := ceilDiv (wCount w) (lanesOf (wFormat w))
  active := usedLanes (wFormat w) (wCount w)
  step := fun r _ es => gatherLanes (wFormat w) (usedLanes (wFormat w) (wCount w) r)
    (fun i => lane ((srcs.zip es).map (fun x => srcLane (wFormat w) x.1 x.2 i)))
  paced := false

/-- The values of two source lanes. -/
def lanes2 (f : Fmt) (l : List Nat) : Val × Val := (f.decode (l.getD 0 0), f.decode (l.getD 1 0))

/-- a + b (R111). -/
def laneAdd (f : Fmt) (l : List Nat) : LaneRes :=
  let (a, b) := lanes2 f l; laneCalc f (a.isNan || b.isNan) (vAdd a b)

/-- a × b (R111). -/
def laneMul (f : Fmt) (l : List Nat) : LaneRes :=
  let (a, b) := lanes2 f l; laneCalc f (a.isNan || b.isNan) (vMul a b)

/-- a × b + c (R111). -/
def laneFma (f : Fmt) (l : List Nat) : LaneRes :=
  let (a, b) := lanes2 f l
  let c := f.decode (l.getD 2 0)
  laneCalc f (a.isNan || b.isNan || c.isNan) (vFma a b c)

/-- The lesser (R111). -/
def laneMin (f : Fmt) (l : List Nat) : LaneRes :=
  let (a, b) := lanes2 f l; laneCalc f (a.isNan || b.isNan) (vMin a b, false)

/-- The greater (R111). -/
def laneMax (f : Fmt) (l : List Nat) : LaneRes :=
  let (a, b) := lanes2 f l; laneCalc f (a.isNan || b.isNan) (vMax a b, false)

/-- A mask lane: all ones or all zeros (R112). -/
def laneCmp (f : Fmt) (pred : Nat) (l : List Nat) : LaneRes :=
  let (a, b) := lanes2 f l
  laneCopy (if vCmp pred a b then 2 ^ f.width - 1 else 0) (a.isNan || b.isNan)

/-- Whether a lane read as a mask is true (R112). -/
def maskTrue (f : Fmt) (w : Nat) : Bool := bitAt w (f.width - 1)

/-- The bits of a, or of b (R111). -/
def laneSelect (f : Fmt) (l : List Nat) : LaneRes :=
  let (a, b) := lanes2 f l
  laneCopy (if maskTrue f (l.getD 2 0) then l.getD 0 0 else l.getD 1 0) (a.isNan || b.isNan)

/-- a × 2^n (R113). -/
def laneScale (f : Fmt) (k : Int) (l : List Nat) : LaneRes :=
  let (a, b) := lanes2 f l; laneCalc f (a.isNan || b.isNan) (vScale k a b)

/-- EXPONENT (R114). -/
def laneExponent (f : Fmt) (l : List Nat) : LaneRes :=
  let a := f.decode (l.getD 0 0); laneCalc f a.isNan (vExponent a)

/-- MANTISSA (R114). -/
def laneMantissa (f : Fmt) (l : List Nat) : LaneRes :=
  let a := f.decode (l.getD 0 0); laneCalc f a.isNan (vMantissa a)

/-- RCP (R115). -/
def laneRcp (f : Fmt) (l : List Nat) : LaneRes :=
  let a := f.decode (l.getD 0 0); laneEst a.isNan (vRcp f a)

/-- RSQRT (R115). -/
def laneRsqrt (f : Fmt) (l : List Nat) : LaneRes :=
  let a := f.decode (l.getD 0 0); laneEst a.isNan (vRsqrt f a)

/-- A unary operation on source A. -/
def unaryAct (lane : Fmt → List Nat → LaneRes) (i : Issue) (s : State) : Act :=
  runVec (elementOp i.word [srcA i.word] (lane (vecFmt (wFormat i.word)))) i s

/-- An operation on sources A and B. -/
def binaryAct (lane : Fmt → List Nat → LaneRes) (i : Issue) (s : State) : Act :=
  runVec (elementOp i.word [srcA i.word, srcB i.word] (lane (vecFmt (wFormat i.word)))) i s

/-- An operation on sources A, B and C. -/
def ternaryAct (lane : Fmt → List Nat → LaneRes) (i : Issue) (s : State) : Act :=
  runVec (elementOp i.word [srcA i.word, srcB i.word, srcC i.word] (lane (vecFmt (wFormat i.word)))) i s

def addAct : Issue → State → Act := binaryAct laneAdd
def mulAct : Issue → State → Act := binaryAct laneMul
def fmaAct : Issue → State → Act := ternaryAct laneFma
def minAct : Issue → State → Act := binaryAct laneMin
def maxAct : Issue → State → Act := binaryAct laneMax
def cmpAct (i : Issue) (s : State) : Act := binaryAct (fun f => laneCmp f (wFld i.word 27 3)) i s
def selectAct : Issue → State → Act := ternaryAct laneSelect
def scaleAct (i : Issue) (s : State) : Act := binaryAct (fun f => laneScale f (signedOf 11 (wFld i.word 27 11))) i s
def exponentAct : Issue → State → Act := unaryAct laneExponent
def mantissaAct : Issue → State → Act := unaryAct laneMantissa
def rcpAct : Issue → State → Act := unaryAct laneRcp
def rsqrtAct : Issue → State → Act := unaryAct laneRsqrt

/-! ## Conversions (R116) -/

/-- Elements an entry of a format holds in a conversion (R95, R116). -/
def cvtLanes (format : Nat) : Nat :=
  if format = 0 then 256 else if format = 1 || format = 2 || format = 9 || format = 12 then 512 else 256

/-- Element `i` of an entry in a source format, and whether it is a NaN; INVALID operands read as NaN (R76, R116). A zero of a
matrix format keeps its sign bit: DESIGN CHOICE, log entry 152. -/
def cvtElem (format : Nat) (e : Entry) (i : Nat) : Val × Bool :=
  if format ≤ 2 then let v := (vecFmt format).decode (laneBits format e i); (v, v.isNan)
  else
    let paired := format = 9 || format = 12
    let v := activation format (if paired then 2 else 0) e (i % 256) (i / 256)
    match v with
    | .nan => (.nan, true)
    | .inf _ => (.nan, false)
    | v => (v, false)

/-- The elements of an entry of the source, inactive ones +0 (R106, R116). -/
def cvtElems (format count round : Nat) (e : Entry) : List (Val × Bool) :=
  (List.range (cvtLanes format)).map (fun i =>
    if round * cvtLanes format + i < count then cvtElem format e i else (.fin false 0 0, false))

/-- A wave of 8-bit or narrower elements, one to a byte, or two halves of 4 bits to a byte (R82). -/
def waveBytes (format : Nat) (els : List Nat) : List Byte :=
  if format = 9 || format = 12 then
    (List.range 256).map (fun r => BitVec.ofNat 8 (els.getD r 0 + 16 * els.getD (r + 256) 0))
  else (List.range 256).map (fun r => BitVec.ofNat 8 (els.getD r 0))

/-- An entry of values encoded in the destination format: entry and overflow (R77, R78, R82, R108). -/
def cvtEncode (format : Nat) (vs : List Val) : Entry × Bool :=
  if format ≤ 2 then
    let rs := vs.map (vecFmt format).encode
    (entryOfLanes format (rs.map (·.1)), rs.any (·.2))
  else if hasScale format then
    let blocks := (chunks 32 16 vs).map (mxConvert format)
    let els := (blocks.map (·.2)).flatten
    let body := waveBytes format els
    (entryOf (body ++ zeros (1008 - body.length) ++ blocks.map (fun b => BitVec.ofNat 8 b.1)), false)
  else (entryOf (waveBytes format (vs.map (matConvert format))), false)

/-- One round of a conversion: a source entry of fewer elements than the destination holds waits for its fellow (R116). -/
def cvtStep (src dst count round : Nat) (held : List Entry) (e : Entry) : VRes :=
  let last := decide (count ≤ (round + 1) * cvtLanes src)
  if cvtLanes src < cvtLanes dst && round % 2 == 0 && !last then ⟨[e], [], false, false, 0⟩
  else
    let before : List (Val × Bool) := match held with
      | [] => []
      | h :: _ => cvtElems src count (round - 1) h
    let els := before ++ cvtElems src count round e
    let first := round * cvtLanes src - before.length
    let pieces := (chunks (cvtLanes dst) 2 els).mapIdx (fun k c => (first + k * cvtLanes dst, c))
    let pieces := pieces.filter (fun x => decide (x.1 < count))
    let rs := pieces.map (fun x =>
      let vs := x.2.map (·.1)
      cvtEncode dst (vs ++ List.replicate (cvtLanes dst - vs.length) (.fin false 0 0)))
    ⟨[], rs.map (·.1), els.any (·.2), rs.any (·.2), 0⟩

/-- CVT (R116, R141). -/
def cvtAct (i : Issue) (s : State) : Act :=
  let w := i.word
  let src := wFormat w
  let n := wCount w
  runVec ⟨[srcA w], ceilDiv n (cvtLanes src), fun r => min (cvtLanes src) (n - r * cvtLanes src),
    fun r held es => cvtStep src (wFld w 27 4) n r held (es.getD 0 0), true⟩ i s

/-! ## Reductions (R117 to R119) -/

/-- One level of the pairwise tree (R61, R119). -/
def treeLevel (op : LaneRes → LaneRes → LaneRes) : List (Option LaneRes) → List (Option LaneRes)
  | a :: b :: l => (match a, b with
      | none, b => b
      | a, none => a
      | some x, some y => some (op x y)) :: treeLevel op l
  | l => l

/-- The pairwise tree over values that may be absent (R119). -/
def tree (op : LaneRes → LaneRes → LaneRes) : Nat → List (Option LaneRes) → Option LaneRes
  | 0, _ => none
  | fuel + 1, l =>
    match l with
    | [] => none
    | [x] => x
    | l => tree op fuel (treeLevel op l)

/-- The combining step of RSUM, RMAX and RMIN on FP32 values; what it met goes on with its result. -/
def reduceOp (op : Nat) (x y : LaneRes) : LaneRes :=
  let a := fp32.decode x.bits
  let b := fp32.decode y.bits
  let c : Calc := if op = 0x2D then vAdd a b else if op = 0x2E then (vMax a b, false) else (vMin a b, false)
  let (w, o) := fp32.encode c.1
  ⟨w, x.nan || y.nan, x.ovf || y.ovf || o, x.invalid || y.invalid || c.2⟩

/-- What a reduction over no value gives (R119). -/
def reduceNone (op : Nat) : Nat := if op = 0x2D then 0 else if op = 0x2E then fp32.infinity true else fp32.infinity false

/-- An input lane as FP32, absent where it is inactive or masked off (R117, R118). -/
def reduceIn (format : Nat) (active : Bool) (maskOn : Bool) (bits : Nat) : Option LaneRes :=
  if active && maskOn then
    let v := (vecFmt format).decode bits
    some ⟨(fp32.encode v).1, v.isNan, false, false⟩
  else none

/-- The tile of a reduction, entry by entry: input lanes with their masks (R117, R118). -/
def tileLanes (w : PressWord) (srcs : List VSrc) (es : List (List Entry)) : List (List (Option LaneRes)) :=
  let format := wFormat w
  let f := vecFmt format
  let last := wFld w 29 9 + 1
  es.mapIdx (fun k e => (List.range (lanesOf format)).map (fun i =>
    let on := match srcs[1]? with
      | some c => maskTrue f (srcLane format c (e.getD 1 0) i)
      | none => true
    reduceIn format (k + 1 < es.length || decide (i < last)) on (laneBits format (e.getD 0 0) i)))

/-- The results of a reduction in order (R117). -/
def reduceTile (w : PressWord) (tile : List (List (Option LaneRes))) : List LaneRes :=
  let op := wOp w
  let format := wFormat w
  let red (l : List (Option LaneRes)) : LaneRes := (tree (reduceOp op) 16 l).getD (laneCopy (reduceNone op) false)
  if wFld w 27 1 = 0 then
    (List.range (lanesOf format)).map (fun i => red (tile.map (fun e => e.getD i none)))
  else
    let g := 2 ^ wFld w 38 4
    (tile.map (fun e => (chunks g (lanesOf format) e).map red)).flatten

/-- FP32 results packed 256 to an entry (R117). -/
def packResults (rs : List LaneRes) : List Entry :=
  (chunks 256 rs.length rs).map (fun c => entryOfLanes 0 (c.map LaneRes.bits))

/-- One round of a reduction: the entries are kept until the tile is whole (R117). -/
def reduceStep (w : PressWord) (srcs : List VSrc) (round : Nat) (held es : List Entry) : VRes :=
  let held := held ++ es
  if round + 1 < wCount w then ⟨held, [], false, false, 0⟩
  else
    let rs := reduceTile w (tileLanes w srcs (chunks srcs.length (wCount w) held))
    let (n, o, k) := mergeFlags rs
    ⟨[], packResults rs, n, o, k⟩

/-- Active lanes of an entry of the tile (R117). -/
def tileActive (w : PressWord) (round : Nat) : Nat :=
  if round + 1 < wCount w then lanesOf (wFormat w) else wFld w 29 9 + 1

/-- RSUM, RMAX and RMIN: source A, and C as masks when MASKED (R117 to R119). -/
def reduceAct (i : Issue) (s : State) : Act :=
  let w := i.word
  let srcs := if wFld w 28 1 = 1 then [srcA w, srcC w] else [srcA w]
  runVec ⟨srcs, wCount w, tileActive w, fun r held es => reduceStep w srcs r held es, false⟩ i s

/-! ## ACC_CVT (R123) -/

/-- A cell scaled and rounded once; a zero cell gives +0 whatever the sign of the scale (R123). Only the scale is a source value that can be a NaN (R110, R120): DEDUCED, log entry 53. -/
def accLane (f : Fmt) (cell scale : Val) : LaneRes :=
  let c := vMul cell scale
  let v : Val := match cell, scale with
    | .fin _ 0 _, .fin _ _ _ => .fin false 0 0
    | _, _ => c.1
  laneCalc f scale.isNan (v, c.2)

/-- The lanes of one row at the result format, inactive cells +0 (R106, R123). -/
def accRowLanes (f : Fmt) (r : AccRow) (active : Nat) (scale : Nat → Val) : List LaneRes :=
  (List.range 256).map (fun c => if c < active then accLane f (cellVal r c) (scale c) else laneCopy 0 false)

/-- The scale of cell `c` from the entry of source B (R123). -/
def accScale (w : PressWord) (e : Entry) (c : Nat) : Val :=
  if wFld w 27 1 = 1 then fp32.decode (srcLane 0 (srcB w) e c) else .fin false 1 0

/-- Source B of a scaled ACC_CVT, and all its sources: A pops a row of its bank at each round (R104, R107, R123). -/
def accScales (w : PressWord) : List VSrc := if wFld w 27 1 = 1 then [srcB w] else []
def accSrcs (w : PressWord) : List VSrc := ⟨wSrcA w, false, 0, 0, false⟩ :: accScales w

/-- Rows of ACC_CVT in order: each waits for its row, its scales and room for its result (R101, R123). -/
def accCvtLoop : Nat → Issue → State → Act
  | 0, _, s => .done s
  | fuel + 1, i, s =>
    let w := i.word
    let p := i.press.val
    let q := wSrcA w
    let f := vecFmt (wFormat w)
    let scales := accScales w
    let srcs := accSrcs w
    let rows := ceilDiv (wCount w) 256
    let pr := s.prog i
    match pr.out with
    | e :: rest =>
      if canPush s p (wDst w) then accCvtLoop fuel i (pushBy i e (setProg i { pr with out := rest } s))
      else .wait false true s
    | [] =>
      if rows ≤ pr.round then .done ((lastQueues srcs).foldl (fun s q => popSrc p q s) s)
      else
        match if (lacking s p srcs pr.round).isEmpty then ((s.press p).bank q).oldest else none with
        | none => waitSources i (lacking s p srcs pr.round) s
        | some (k, r) =>
            let active := min 256 (wCount w - 256 * pr.round)
            let (r, s) := readBank i pr.round q k r s
            let (es, s) := readAll i srcs pr.round active 1 scales s
            let ls := accRowLanes f r active (accScale w (es.getD 0 0))
            let (n, o, k) := mergeFlags ls
            let bits := ls.map LaneRes.bits
            let res : VRes :=
              if wFormat w = 0 then ⟨[], [entryOfLanes 0 bits], n, o, k⟩
              else match pr.held with
                | h :: _ => ⟨[], [entryOfLanes 1 ((List.range 256).map (laneBits 1 h) ++ bits)], n, o, k⟩
                | [] => if pr.round + 1 < rows then ⟨[entryOfLanes 1 bits], [], n, o, k⟩
                  else ⟨[], [entryOfLanes 1 bits], n, o, k⟩
            let s := (eachQueues srcs).foldl (fun s q => popSrc p q s) s
            accCvtLoop fuel i (setProg i ⟨pr.round + 1, res.held, res.outs, pr.pushed⟩ (s.modPress p (noteVec 1 res)))

/-- ACC_CVT (R123). -/
def accCvtAct (i : Issue) (s : State) : Act := accCvtLoop 200 i s

/-! ## The commands -/

/-- The issue of an operation of the V stream with operation code `op` (R130). -/
def issueV (op : Nat) (run : Issue → State → Act) (i : Issue) (s : State) : Out :=
  .next (issue (wOp i.word == op && i.stream == .v) run i s)

/-- ADD (R111). -/
def execAdd (i : Issue) (s : State) : Out := issueV 0x20 addAct i s
/-- MUL (R111). -/
def execMul (i : Issue) (s : State) : Out := issueV 0x21 mulAct i s
/-- FMA (R111). -/
def execFma (i : Issue) (s : State) : Out := issueV 0x22 fmaAct i s
/-- MIN (R111). -/
def execMin (i : Issue) (s : State) : Out := issueV 0x23 minAct i s
/-- MAX (R111). -/
def execMax (i : Issue) (s : State) : Out := issueV 0x24 maxAct i s
/-- CMP (R112). -/
def execCmp (i : Issue) (s : State) : Out := issueV 0x25 cmpAct i s
/-- SELECT (R111). -/
def execSelect (i : Issue) (s : State) : Out := issueV 0x26 selectAct i s
/-- SCALE (R113). -/
def execScale (i : Issue) (s : State) : Out := issueV 0x27 scaleAct i s
/-- EXPONENT (R114). -/
def execExponent (i : Issue) (s : State) : Out := issueV 0x28 exponentAct i s
/-- MANTISSA (R114). -/
def execMantissa (i : Issue) (s : State) : Out := issueV 0x29 mantissaAct i s
/-- RCP (R115). -/
def execRcp (i : Issue) (s : State) : Out := issueV 0x2A rcpAct i s
/-- RSQRT (R115). -/
def execRsqrt (i : Issue) (s : State) : Out := issueV 0x2B rsqrtAct i s
/-- CVT (R116). -/
def execCvt (i : Issue) (s : State) : Out := issueV 0x2C cvtAct i s
/-- RSUM (R117). -/
def execRsum (i : Issue) (s : State) : Out := issueV 0x2D reduceAct i s
/-- RMAX (R117). -/
def execRmax (i : Issue) (s : State) : Out := issueV 0x2E reduceAct i s
/-- RMIN (R117). -/
def execRmin (i : Issue) (s : State) : Out := issueV 0x2F reduceAct i s
/-- ACC_CVT (R123). -/
def execAccCvt (i : Issue) (s : State) : Out := issueV 0x30 accCvtAct i s

end Sys2Proof.Machine
end

