-- ==== Sys2Proof/Machine/LoadRules.lean ====
section
/-! DEFINITION. The load rules of FORME_LOAD (R29, R57, R98, R129 to R135, R152, R163 to R178, R192, R209, R243, R244,
R293, R327, R329, R356): what step 4 of R355 checks of the sections a chip loads. -/

namespace Sys2Proof.Machine

open Sys2Proof

/-! ## Lists of items: loops, ends and marks (R29, R134, R135) -/

/-- Whether a list's loops have whole bodies without LOOP or END, and its last item is its only END (R131, R134). -/
def itemsOk : List Item → Bool
  | [] => false
  | .fin :: l => l.isEmpty
  | .loop b _ _ :: l => (l.take b).length == b && (l.take b).all (fun x => match x with
      | .loop _ _ _ => false
      | .fin => false
      | _ => true) && itemsOk l
  | _ :: l => itemsOk l

/-- A list with its loops unrolled, at most `cap` trips each: each element with the trip it is in and what the stride adds
to a mark. -/
def unroll {α : Type} (item : α → Item) (cap : Nat) : Nat → List α → List (α × Nat × Nat)
  | _, [] => []
  | k + 1, _ :: l => unroll item cap k l
  | 0, x :: l =>
    match item x with
    | .loop b t st => (x, 0, 0) :: (List.range (min t cap)).flatMap (fun i => (l.take b).map (fun y => (y, i, i * st)))
        ++ unroll item cap b l
    | _ => (x, 0, 0) :: unroll item cap 0 l

/-- The trips each element of a list makes: the count of the loop it lies in, else 1. -/
def tripCounts {α : Type} (item : α → Item) : Nat → Nat → List α → List (α × Nat)
  | _, _, [] => []
  | k + 1, t, x :: l => (x, t) :: tripCounts item k t l
  | 0, _, x :: l =>
    match item x with
    | .loop b t _ => (x, 1) :: tripCounts item b t l
    | _ => (x, 1) :: tripCounts item 0 1 l

/-- The trips of an unbounded unrolling (R134). -/
def allTrips : Nat := 65536

/-- Values of the marks of an unrolled list. -/
def markValues {α : Type} (item : α → Item) (l : List α) : List Nat :=
  (unroll item allTrips 0 l).filterMap (fun x => match item x.1 with
    | .mark v _ => some (v + x.2.2)
    | _ => none)

/-- Whether marks keep 32 ticks apart. -/
def gapsOk : List Nat → Bool
  | [] => true
  | [_] => true
  | a :: b :: l => decide (a + 32 ≤ b) && gapsOk (b :: l)

/-- R29 for the marks of one unit, with `e` the end count. -/
def marksOk (e : Nat) (ms : List Nat) : Bool :=
  ms.all (fun v => decide (32 ≤ v) && decide (v + 32 ≤ e)) && gapsOk ms

/-- A unit's list with its loops, its end and its marks (R29, R134, R135). -/
def listOk {α : Type} (item : α → Item) (e : Nat) (l : List α) : Bool :=
  itemsOk (l.map item) && marksOk e (markValues item l)

/-! ## Fields of an instruction (R129 to R145) -/

/-- Whether bits `[hi - 1 : lo]` of an instruction are zero. -/
def zeroBits (w : PressWord) (lo hi : Nat) : Bool := wFld w lo (hi - lo) == 0

/-- Whether the format of an operation that takes none is zero, with the reserved bits of MODE (R128, R129). -/
def modeOk (w : PressWord) (formats : List Nat) (pairedFor : List Nat) : Bool :=
  formats.contains (wFormat w) && (!wPaired w || pairedFor.contains (wFormat w)) && zeroBits w 101 104

/-- Whether unused queue fields hold Q63 (R129). -/
def nullQueues (w : PressWord) (a b c d : Bool) : Bool :=
  (!a || wSrcA w == 63) && (!b || wSrcB w == 63) && (!c || wSrcC w == 63) && (!d || wDst w == 63)

/-- Sources that a vector operation uses: A, B and C (R141). -/
def vecUses (w : PressWord) : Bool × Bool × Bool :=
  match wOp w with
  | 0x20 | 0x21 | 0x23 | 0x24 | 0x25 | 0x27 => (true, true, false)
  | 0x22 | 0x26 => (true, true, true)
  | 0x2D | 0x2E | 0x2F => (true, false, wFld w 28 1 == 1)
  | 0x30 => (true, wFld w 27 1 == 1, false)
  | _ => (true, false, false)

/-- First reserved bit at or above bit 27 of a vector operation (R141). -/
def vecEnd (w : PressWord) : Nat :=
  match wOp w with
  | 0x25 => 30
  | 0x27 => 38
  | 0x2C => 31
  | 0x2D | 0x2E | 0x2F => 42
  | 0x30 => 28
  | _ => 27

/-- A source's settings: shape, SPLAT lane, and zero where it is not used (R140, R141). -/
def settingOk (used : Bool) (lanes : Nat) (w : PressWord) (q keep lo : Nat) : Bool :=
  if used then
    let shape := wFld w lo 2
    shape != 3 && (if shape = 2 then decide (wFld w (lo + 2) 9 < lanes) else wFld w (lo + 2) 9 == 0)
  else q == 63 && wFld w keep 1 == 0 && wFld w lo 12 == 0

/-- Conversions that CVT makes (R116). -/
def cvtPair (a b : Nat) : Bool :=
  (decide (a ≤ 2) && decide (b ≤ 2) && a != b) || (decide (a ≤ 2) && decide (3 ≤ b) && decide (b ≤ 12))
    || (decide (3 ≤ a) && decide (a ≤ 12) && b == 0)

/-- Fields of a vector operation (R96, R104, R107, R117, R120, R140, R141). -/
def vecOk (w : PressWord) : Bool :=
  let op := wOp w
  let (_, ub, uc) := vecUses w
  let lanes := if op = 0x30 then 256 else lanesOf (wFormat w)
  let srcs := [srcA w] ++ (if ub then [srcB w] else []) ++ (if uc then [srcC w] else [])
  let banks := srcs.filter (fun v => v.q == 48 || v.q == 49)
  modeOk w (if op = 0x2C then List.range 13 else [0, 1, 2]) []
    && settingOk ub lanes w (wSrcB w) 1 3 && settingOk uc lanes w (wSrcC w) 2 15 && zeroBits w (vecEnd w) 60
    && srcs.all (fun v => srcs.all (fun u => v.q != u.q || v.shape == u.shape))
    && banks.all (fun v => !v.keep && v.shape != 1)
    && (banks.isEmpty || op == 0x30 || wFormat w == 0)
    && (op != 0x2C || cvtPair (wFormat w) (wFld w 27 4))
    && (op != 0x30 || wSrcA w == 48 || wSrcA w == 49)
    && (!(op == 0x2D || op == 0x2E || op == 0x2F) ||
      (decide (wCount w ≤ 256) && decide (wFld w 29 9 < lanesOf (wFormat w))
        && (if wFld w 27 1 = 0 then wFld w 38 4 == 0
            else decide (1 ≤ wFld w 38 4) && decide (2 ^ wFld w 38 4 ≤ lanesOf (wFormat w)))))

/-- Fields of a mover operation (R142 to R145, R192). `farIndirect`: whether an indirect far request is permitted with a
RUN, under R192. -/
def moverOk (farIndirect : Nat → Bool) (w : PressWord) : Bool :=
  let op := wOp w
  let plain := modeOk w [0] []
  match op with
  | 0x40 => plain && nullQueues w true true true false && zeroBits w 42 60
  | 0x41 => plain && nullQueues w false true true true && zeroBits w 42 60
  | 0x42 =>
    let bank := wSrcA w == 48 || wSrcA w == 49
    plain && nullQueues w false true true false && zeroBits w 2 60
      && (if wFld w 0 1 = 1 then bank && wFld w 1 1 == 0 && decide (wCount w ≤ 256) else !bank)
  | 0x43 => plain && nullQueues w true true true false && zeroBits w 32 60
  | 0x44 => plain && nullQueues w false true true true && zeroBits w 32 60
  | _ =>
    let ind := reqIndirect w
    let far := op == 0x47 || op == 0x48
    let write := op == 0x46 || op == 0x48
    plain && zeroBits w 1 2 && zeroBits w 57 60 && wSrcC w == 63
      && (if write then wDst w == 63 && (ind || wSrcB w == 63) else wDst w == 52 && wSrcB w == 63 && (ind || wSrcA w == 63))
      && (far || decide (wFld w 2 32 < 134217728))
      && (if ind then wCount w % reqRun w == 0 && (if far then farIndirect (reqRun w) else reqRun w % 32 == 0)
          else wFld w 48 9 == 0)

/-- Fields of an instruction of a stream (1 V, 2 X, 3 M as R97 codes them) (R130 to R145). -/
def wordOk (farIndirect : Nat → Bool) (stream : Nat) (w : PressWord) : Bool :=
  let plain := modeOk w [0] []
  match wOp w with
  | 0x00 => plain && wCount w == 1 && nullQueues w true true true true && zeroBits w 0 60
  | 0x01 => plain && nullQueues w false true true true && zeroBits w 44 60
      && (if wFld w 40 1 = 0 then wSrcA w == 63 && wCount w == 1 && wFld w 41 3 == 0
          else wSrcA w != 63 && decide (wFld w 41 3 ≤ 4))
  | 0x02 => plain && wCount w == 1 && nullQueues w true true true true && zeroBits w 56 60
  | 0x03 => plain && wCount w == 1 && nullQueues w true true true true && zeroBits w 0 60
  | 0x10 => stream == 3 && modeOk w ((List.range 13).drop 1) [9, 12] && decide (wCount w ≤ 256) && wSrcA w == 50
      && nullQueues w false true true true && zeroBits w 1 60
  | 0x11 => stream == 3 && modeOk w ((List.range 13).drop 1) [] && decide (wCount w ≤ 256) && wSrcA w == 51
      && nullQueues w false true true false && (wDst w == 48 || wDst w == 49) && zeroBits w 21 60
      && decide (wFld w 0 8 + wCount w ≤ 256)
  | 0x12 => stream == 3 && plain && nullQueues w false true true false && (wDst w == 48 || wDst w == 49)
      && zeroBits w 9 60 && decide (wFld w 0 8 + wCount w ≤ 256)
  | 0x20 | 0x21 | 0x22 | 0x23 | 0x24 | 0x25 | 0x26 | 0x27 | 0x28 | 0x29 | 0x2A | 0x2B | 0x2C | 0x2D | 0x2E | 0x2F | 0x30 =>
    stream == 1 && vecOk w
  | 0x40 | 0x41 | 0x42 | 0x43 | 0x44 | 0x45 | 0x46 | 0x47 | 0x48 => stream == 2 && moverOk farIndirect w
  | _ => false

/-! ## What an instruction pushes and pops (R98, R105, R116, R117, R123) -/

/-- Entries a vector or mover operation delivers. -/
def pushCount (w : PressWord) : Nat :=
  let n := wCount w
  match wOp w with
  | 0x2C => ceilDiv n (cvtLanes (wFld w 27 4))
  | 0x2D | 0x2E | 0x2F =>
    if wFld w 27 1 = 0 then (if wFormat w = 0 then 1 else 2)
    else ceilDiv (n * (lanesOf (wFormat w) / 2 ^ wFld w 38 4)) 256
  | 0x30 => ceilDiv n (lanesOf (wFormat w))
  | 0x40 | 0x43 => n
  | 0x42 => if wFld w 0 1 = 1 then 3 * n else n
  | 0x41 | 0x44 | 0x45 | 0x46 | 0x47 | 0x48 => 0
  | op => if 0x20 ≤ op && op ≤ 0x2B then ceilDiv n (lanesOf (wFormat w)) else 0

/-- Entries that a FULL source of a vector operation supplies. -/
def fullReads (w : PressWord) : Nat :=
  match wOp w with
  | 0x2C => ceilDiv (wCount w) (cvtLanes (wFormat w))
  | 0x2D | 0x2E | 0x2F => wCount w
  | 0x30 => ceilDiv (wCount w) 256
  | _ => ceilDiv (wCount w) (lanesOf (wFormat w))

/-- The queues an instruction reads: queue, entries read, and whether it keeps them. -/
def wordReads (w : PressWord) : List (Nat × Nat × Bool) :=
  let op := wOp w
  if 0x20 ≤ op && op ≤ 0x30 then
    let (_, ub, uc) := vecUses w
    let one (v : VSrc) : Nat × Nat × Bool := (v.q, if v.shape = 0 then fullReads w else 1, v.keep)
    [one (srcA w)] ++ (if ub then [one (srcB w)] else []) ++ (if uc then [one (srcC w)] else [])
  else match op with
    | 0x01 => if wFld w 40 1 = 1 then [(wSrcA w, 1, false)] else []
    | 0x10 | 0x11 | 0x12 | 0x41 | 0x44 => [(wSrcA w, 1, false)]
    | 0x42 => [(wSrcA w, wCount w, wFld w 1 1 == 1)]
    | 0x45 | 0x47 => if reqIndirect w then [(wSrcA w, 1, false)] else []
    | 0x46 | 0x48 => (wSrcA w, 1, false) :: (if reqIndirect w then [(wSrcB w, 1, false)] else [])
    | _ => []

/-- Whether an instruction pushes into its DST itself (R98, R100). -/
def wordPushes (w : PressWord) : Bool :=
  let op := wOp w
  (0x20 ≤ op && op ≤ 0x30) || op == 0x40 || op == 0x42 || op == 0x43

/-! ## The queue table (R97, R98, R100) -/

/-- Whether the rows of a queue table fit R98, but for the uses that instructions make of them. The row of Q63, for which R97 has no
code, may hold any: DESIGN CHOICE, log entry 151. -/
def queueTableOk (rows : List QueueRow) : Bool :=
  let row (q : Nat) : QueueRow := rows.getD q ⟨0, 0, 0⟩
  let vx (x : Nat) : Bool := x == 1 || x == 2
  rows.length == 64
    && decide (sumOf ((List.range 55).map (fun q => if q = 48 || q = 49 then 0 else (row q).cap)) ≤ 2048)
    && rows.all (fun r => decide (r.cap ≤ 2048))
    && ([48, 49] ++ (List.range 9).map (55 + ·)).all (fun q => (row q).cap == 0)
    && (List.range 48).all (fun q =>
      let r := row q
      (vx r.producer && (vx r.consumer || r.consumer == 3)) || (r.cap == 0 && r.producer == 0 && r.consumer == 0))
    && [48, 49].all (fun q => (row q).producer == 4 && vx (row q).consumer)
    && [50, 51].all (fun q => (row q).consumer == 3 && (vx (row q).producer || (row q).cap == 0 && (row q).producer == 0))
    && (row 52).producer == 5 && (vx (row 52).consumer || (row 52).consumer == 3 || (row 52).cap == 0 && (row 52).consumer == 0)
    && (row 53).consumer == 6 && (vx (row 53).producer || (row 53).cap == 0 && (row 53).producer == 0)
    && (row 54).consumer == 7 && (vx (row 54).producer || (row 54).cap == 0 && (row 54).producer == 0)
    && (List.range 8).all (fun k => (row (55 + k)).producer == 0 && (row (55 + k)).consumer == 0)

/-- Whether the queues an instruction names have its stream at the right end, and hold what it keeps (R98). A KEEP read of Q63,
which has no capacity, passes: DESIGN CHOICE, log entry 151. -/
def wordQueues (rows : List QueueRow) (stream : Nat) (w : PressWord) : Bool :=
  let row (q : Nat) : QueueRow := rows.getD q ⟨0, 0, 0⟩
  (wordReads w).all (fun x => x.1 == 63 || ((row x.1).consumer == stream && (!x.2.2 || decide (x.2.1 ≤ (row x.1).cap))))
    && (!wordPushes w || wDst w == 63 || (row (wDst w)).producer == stream)

/-- Whether consumer M of a queue among Q0 to Q47 feeds a wide add in some variant (R98). -/
def wideFed (rows : List QueueRow) (progs : List Program) : Bool :=
  (List.range 48).all (fun q => (rows.getD q ⟨0, 0, 0⟩).consumer != 3
    || progs.any (fun p => p.m.any (fun w => wOp w == 0x12 && wSrcA w == q)))

/-! ## Programs (R72, R131, R142, R143, R147, R152) -/

/-- The matrix stream's loops need two trips to show every order of loads and passes. -/
def mUnrolled (m : List PressWord) : List (Nat × PressWord) :=
  (unroll (fun x => wordItem x.2) 2 0 (m.mapIdx (fun i w => (i, w)))).map (fun x => x.1)

/-- Whether every pass's activation format belongs with the mode of the last load into its plane (R72). -/
def passModes : Option Nat → Option Nat → List (Nat × PressWord) → Bool
  | _, _, [] => true
  | a, b, (_, w) :: l =>
    if wOp w = 0x10 then
      let m := some (planeMode (wFormat w) (wPaired w) + 3 * (if wPaired w then wFormat w else 0))
      if wFld w 0 1 = 0 then passModes m b l else passModes a m l
    else if wOp w = 0x11 then
      let ok (x : Option Nat) : Bool := match x with
        | none => true
        | some v =>
          let f := wFormat w
          if v % 3 = 2 then f == v / 3 else if v % 3 = 1 then f == 1 || f == 2
          else f != 1 && f != 2 && f != 9 && f != 12
      ok (if wFld w 8 1 = 0 then a else b) && passModes a b l
    else passModes a b l

/-- Whether no pass of a list reads a plane before a WLOAD into it. -/
def loadsFirst : Bool → Bool → List (Nat × PressWord) → Bool
  | _, _, [] => true
  | a, b, (_, w) :: l =>
    if wOp w = 0x10 then (if wFld w 0 1 = 0 then loadsFirst true b l else loadsFirst a true l)
    else if wOp w = 0x11 then (if wFld w 8 1 = 0 then a else b) && loadsFirst a b l
    else loadsFirst a b l

/-- Gap-map bits lie only on marks after which each plane is loaded before it is read, and on END (R152). -/
def gapOk (gap : BitVec 4096) : List (Nat × PressWord) → Bool
  | [] => true
  | (i, w) :: l =>
    (!gap.getLsbD i || (wOp w == 3) || (wOp w == 1 && wFld w 40 1 == 0 && loadsFirst false false l)) && gapOk gap l

/-- The gap map of a program (R152). -/
def gapMapOk (m : List PressWord) (gap : BitVec 4096) : Bool :=
  gapOk gap (mUnrolled m) && (List.range 4096).all (fun i => !gap.getLsbD i || decide (i < m.length))

/-- Whether a range that moves with the trips stays within `[0, size)`: first address, entries, and what each trip adds. -/
def rangeOk (size : Nat) (first : Int) (n : Nat) (adv : Int) (trips : Nat) : Bool :=
  [first, first + adv * ((trips : Int) - 1)].all (fun a => decide (0 ≤ a) && decide (a + (n : Int) ≤ (size : Int)))

/-- Size of a platform of a press slot. -/
def sideSize (plats : List PlatformRec) (n : Nat) : Nat := match plats.find? (fun r => r.number == n) with
  | some r => r.size
  | none => 0

/-- Addresses of a mover operation over its trips (R142, R143, R145, R163). -/
def addrOk (near far : Nat) (plats : List PlatformRec) (w : PressWord) (trips : Nat) : Bool :=
  let n := wCount w
  match wOp w with
  | 0x40 | 0x41 => rangeOk 9600 (wFld w 0 14 : Nat) ((n - 1) * wFld w 14 14 + 1) (signedOf 14 (wFld w 28 14)) trips
  | 0x43 | 0x44 => rangeOk (sideSize plats (wFld w 0 4)) (wFld w 4 14 : Nat) n (signedOf 14 (wFld w 18 14)) trips
  | 0x45 | 0x46 => reqIndirect w || rangeOk near (wFld w 2 32 : Nat) n (signedOf 14 (wFld w 34 14)) trips
  | 0x47 | 0x48 => reqIndirect w || rangeOk far (wFld w 2 32 : Nat) n (signedOf 14 (wFld w 34 14)) trips
  | _ => true

/-- Fields of a send-list record (R147, R241). -/
structure SendRec where
  n : Nat
  fabric : Bool
  landing : Nat
  target : Nat
  flow : Nat
  platform : Nat
  offset : Nat
  high : Nat

/-- A send-list record read (R147). -/
def sendRec (r : BitVec 64) : SendRec :=
  let v := r.toNat
  ⟨fld v 0 12 + 1, bitAt v 12, fld v 13 2, fld v 15 7, fld v 22 16, fld v 38 4, fld v 42 14, fld v 56 8⟩

/-- Whether a send-list record of press slot `k` is legal (R147, R163, R244). -/
def sendOk (f : Forme) (chip k : Nat) (r : BitVec 64) : Bool :=
  let x := sendRec r
  decide (x.landing ≤ 1) && x.high == 0
    && (if x.fabric then match f.flows[x.flow]? with
          | some y => y.sourceSlot == k && y.sourceChip == chip
          | none => false
        else x.flow == 0 && decide (x.target < f.chip.presses.length)
          && (x.landing == 0 || decide (x.offset + x.n ≤ sideSize (f.chip.platforms.getD x.target []) x.platform)))
    && (x.landing == 1 || (x.platform == 0 && x.offset == 0))

/-- Whether the program of press slot `k` keeps the rules of R131, R147, R152 and R163 with end count `e`. -/
def programOk (f : Forme) (chip k e near far : Nat) (farIndirect : Nat → Bool) (p : Program) : Bool :=
  let rows := f.chip.queues.getD k []
  let plats := f.chip.platforms.getD k []
  let stream (code : Nat) (l : List PressWord) : Bool :=
    decide (l.length ≤ 4096) && l.all (wordOk farIndirect code) && l.all (wordQueues rows code) && listOk wordItem e l
  let pushed (l : List PressWord) : Nat := sumOf ((tripCounts wordItem 0 1 l).map (fun x =>
    if wordPushes x.1 && wDst x.1 == 53 then x.2 * pushCount x.1 else 0))
  stream 3 p.m && stream 1 p.v && stream 2 p.x
    && passModes none none (mUnrolled p.m) && gapMapOk p.m p.gap
    && (tripCounts wordItem 0 1 p.x).all (fun x => addrOk near far plats x.1 x.2)
    && decide (p.send.length ≤ 1024) && p.send.all (sendOk f chip k)
    && pushed p.v + pushed p.x == sumOf (p.send.map (fun r => (sendRec r).n))

/-! ## Sequencer and far streams (R175 to R178, R192) -/

/-- Whether a record is one of R175; `far` excludes the HOST class (R192). -/
def seqRecOk (slots : Nat) (far : Bool) (r : BitVec 64) : Bool :=
  let v := r.toNat
  match fld v 60 4 with
  | 0 => fld v 58 2 != 3 && (!far || fld v 58 2 != 1) && (fld v 58 2 != 0 || decide (fld v 51 7 < slots))
  | 1 => fld v 40 20 == 0
  | 2 => fld v 56 4 == 0
  | 3 => true
  | _ => false

/-- Positions of the HOST slots of at least four entries: the value of the last mark before each (R178). -/
def hostAt : Nat → List (BitVec 64 × Nat × Nat) → List Nat
  | _, [] => []
  | at', (r, _, st) :: l =>
    let v := r.toNat
    if fld v 60 4 = 1 then hostAt (fld v 0 40 + st) l
    else if fld v 60 4 = 0 && fld v 58 2 = 1 && 4 ≤ fld v 38 12 + 1 then at' :: hostAt at' l
    else hostAt at' l

/-- Whether no two neighbours of a list lie further apart than 16,384. -/
def spansOk : List Nat → Bool
  | [] => true
  | [_] => true
  | a :: b :: l => decide (b ≤ a + 16384) && spansOk (b :: l)

/-- HOST slots in every span of 16,384 ticks (R178). -/
def hostOk (e : Nat) (l : List (BitVec 64)) : Bool :=
  let at' := hostAt 0 (unroll recItem allTrips 0 l)
  !at'.isEmpty && spansOk (0 :: at' ++ [e])

/-- How the far tier serves a forme's far region under a placement (R191, R192): the root port of each of its entries, what part
of an indirect request falls to a port, and whether an indirect request with a RUN is permitted. -/
structure FarView where
  port : Nat → Nat
  share : Nat → Nat → Nat
  indirect : Nat → Bool

/-- Portions that a press's requests give to one unit, in order: write, entries (R174, R176, R177, R192). `rd` and `wr` are the
opcodes of the requests, `mine` says which entries fall to the unit, and `share` how many of an indirect request do. -/
def portionsOf (rd wr : Nat) (mine : Nat → Bool) (share : Nat → Nat) (x : List PressWord) : List (Bool × Nat) :=
  (unroll wordItem allTrips 0 x).filterMap (fun y =>
    let w := y.1
    let op := wOp w
    if op = rd || op = wr then
      let n := wCount w
      let a := ((wFld w 2 32 : Nat) : Int) + signedOf 14 (wFld w 34 14) * (y.2.1 : Int)
      let count := if reqIndirect w then share n else ((List.range n).filter (fun (j : Nat) => mine (a + (j : Int)).toNat)).length
      if count = 0 then none else some (op == wr, count)
    else none)

/-- PRESS slots of a sequencer stream or of a far stream for a press slot, in order. -/
def slotsOf (k : Nat) (l : List (BitVec 64)) : List (Bool × Nat) :=
  (unroll recItem allTrips 0 l).filterMap (fun y =>
    let v := y.1.toNat
    if fld v 60 4 = 0 && fld v 58 2 = 0 && fld v 51 7 = k then some (bitAt v 50, fld v 38 12 + 1) else none)

/-- Whether a variant's sequencer streams keep R175 to R178. -/
def sequencersOk (slots e : Nat) (v : VariantPart) : Bool :=
  v.sequencers.length == 32
    && (v.sequencers.mapIdx (fun q l => (q, l))).all (fun (x : Nat × List (BitVec 64)) =>
      x.2.all (seqRecOk slots false) && listOk recItem e x.2 && hostOk e x.2
        && (List.range slots).all (fun k => slotsOf k x.2
          == portionsOf 0x45 0x46 (fun a => a % 32 == x.1) (fun n => n / 32) ((v.programs.getD k ⟨[], [], [], 0, []⟩).x)))

/-- Whether a variant's far streams keep R192: one for each root port that the forme uses, whose slots match the portions of the
far requests (R176, R177). No request reaches a port without a stream. -/
def farStreamsOk (view : FarView) (slots e : Nat) (mask : BitVec 2) (v : VariantPart) : Bool :=
  (List.range 2).all (fun q =>
    let l := v.farStreams.getD q []
    (if bitAt mask.toNat q then l.all (seqRecOk slots true) && listOk recItem e l else l.isEmpty)
      && (List.range slots).all (fun k => slotsOf k l
        == portionsOf 0x47 0x48 (fun a => view.port a == q) (view.share q) ((v.programs.getD k ⟨[], [], [], 0, []⟩).x)))

/-! ## Points lists and flows (R241, R243, R244) -/

/-- Whether a record is one of R243. -/
def pointRecOk (flows : Nat) (r : BitVec 64) : Bool :=
  let v := r.toNat
  match fld v 60 4 with
  | 0 => decide (fld v 44 16 < flows) && fld v 0 32 == 0
  | 1 => fld v 40 20 == 0
  | 2 => fld v 56 4 == 0
  | 3 => true
  | _ => false

/-- Flows that a points list names. -/
def pointFlows (l : List (BitVec 64)) : List Nat :=
  l.filterMap (fun r => if fld r.toNat 60 4 = 0 then some (fld r.toNat 44 16) else none)

/-- Packets that a points list names for a flow in a step. -/
def pointPackets (flow : Nat) (l : List (BitVec 64)) : Nat :=
  sumOf ((tripCounts recItem 0 1 l).map (fun x =>
    let v := x.1.toNat
    if fld v 60 4 = 0 && fld v 44 16 = flow then x.2 * (fld v 32 12 + 1) else 0))

/-- Packets that a press's send list forms for a flow (R235, R244). -/
def sentPackets (flow : Nat) (p : Program) : Nat :=
  sumOf (p.send.map (fun r => let x := sendRec r; if x.fabric && x.flow == flow then ceilDiv x.n 4 else 0))

/-- Whether a flow record is legal (R241, R244). -/
def flowOk (f : Forme) (x : FlowRec) : Bool :=
  decide (1 ≤ x.route.hops) && decide (x.route.hops ≤ 14) && !bitAt x.route.path.toNat 5
    && decide (x.sourceSlot < f.tt.pressCount) && decide (x.sourceChip < f.tt.chipCount) && decide (x.keyIndex < f.keyCount)

/-- Whether a variant's points lists keep R243 and R244, as far as this chip's part shows. -/
def pointsOk (f : Forme) (chip e : Nat) (v : VariantPart) : Bool :=
  (List.range 32).all (fun q =>
      let l := v.points.getD q []
      if bitAt f.chip.portMask.toNat q then l.all (pointRecOk f.flows.length) && listOk recItem e l else l.isEmpty)
    && (f.flows.mapIdx (fun i x => (i, x))).all (fun (y : Nat × FlowRec) =>
      y.2.sourceChip != chip
        || pointPackets y.1 (v.points.getD (y.2.route.path.toNat % 32) [])
            == sentPackets y.1 (v.programs.getD y.2.sourceSlot ⟨[], [], [], 0, []⟩))

/-! ## Lanes (R170, R171) -/

/-- Row and column of the router of a press or a sequencer (R15, R170). -/
def nodeAt : Node → Option (Nat × Nat)
  | .press p => some (pressAt p.val)
  | .seq k => some (seqAt k.val)
  | _ => none

/-- The edge link of a sequencer, toward it or from it; other nodes have none. -/
def edgeLink (n : Node) (out : Bool) : List (Nat × Nat) := match n with
  | .seq k =>
    let a := seqAt k.val
    [if out then (12 * a.1 + a.2, 100 + k.val) else (100 + k.val, 12 * a.1 + a.2)]
  | _ => []

/-- The routers of the part of a path that a lane table fixes, in dimension order (R171): the whole path between presses and
sequencers, and the row of a press that sends to a die-to-die interface, to the interface's column. The row in which an interface's
entries enter is not in a forme, and eight lanes cannot keep the host flows of a row's sequencers apart: of these flows no mesh
link is compared. DESIGN CHOICE, log entry 42. -/
def laneRouters (x : LaneRec) : List Nat := match x.src, x.dst with
  | .press p, .west => pathRouters (pressAt p.val) ((pressAt p.val).1, 0)
  | .press p, .east => pathRouters (pressAt p.val) ((pressAt p.val).1, 11)
  | a, b => match nodeAt a, nodeAt b with
    | some a, some b => pathRouters a b
    | _, _ => []

/-- Directed links of a path, by the routers they join; the link of a sequencer is named by 100 plus its number (R171). -/
def pathLinks (x : LaneRec) : List (Nat × Nat) :=
  edgeLink x.src false ++ (laneRouters x).zip ((laneRouters x).drop 1) ++ edgeLink x.dst true

/-- Whether two flows share a lane on a link. -/
def laneClash (x y : LaneRec) : Bool := x.lane == y.lane && (pathLinks x).any (fun l => (pathLinks y).contains l)

/-- The lane table (R171): lanes 0 to 7, one for each flow, none shared on a link, and a lane for each host flow. -/
def lanesOk : List LaneRec → Bool
  | [] => true
  | x :: l => decide (x.lane < 8) && l.all (fun y => !(x.src == y.src && x.dst == y.dst) && !laneClash x y) && lanesOk l

/-- Host flows between each die-to-die interface and each sequencer (R171). -/
def hostLanes (l : List LaneRec) : Bool :=
  [Node.west, Node.east].all (fun d => (List.finRange 32).all (fun k =>
    l.any (fun x => x.src == d && x.dst == .seq k) && l.any (fun x => x.src == .seq k && x.dst == d)))

/-! ## Areas of a press store (R163 to R165, R173) -/

/-- Whether ranges, given as first KiB and size, are pairwise apart. -/
def apart : List (Nat × Nat) → Bool
  | [] => true
  | x :: l => l.all (fun y => decide (x.1 + x.2 ≤ y.1) || decide (y.1 + y.2 ≤ x.1)) && apart l

/-- KiB of a tile or of a scale entry of a tensor (R363). -/
def tileKiB (t : Tensor) (tile : Nat) : Nat :=
  if tile = 0xFFFFFFFF then 1
  else elemEntries t.format t.paired 256 + scaleEntries t.format t.paired 256

/-- Tiles of a tensor: along K and along N (R362). -/
def tensorTiles (t : Tensor) : Nat × Nat := (ceilDiv t.k (if t.paired then 512 else 256), ceilDiv t.n 256)

/-- The tensor table (R362). -/
def tensorsOk : List Tensor → Bool
  | [] => true
  | t :: l =>
    decide (1 ≤ t.format) && decide (t.format ≤ 12) && (!t.paired || t.format == 9 || t.format == 12)
      && (!t.tensorScale || [3, 4, 11, 12].contains t.format) && decide (1 ≤ t.k) && decide (1 ≤ t.n)
      && (match l with
        | [] => true
        | u :: _ => decide (t.id < u.id)) && tensorsOk l

/-- Whether a placement record is legal (R163, R364). -/
def placeOk (f : Forme) (near far : Nat) (r : PlaceRec) : Bool :=
  match f.tensors.find? (fun t => t.id == r.tensor) with
  | none => false
  | some t =>
    let tiles := tensorTiles t
    let n := tileKiB t r.tile
    (if r.tile = 0xFFFFFFFF then t.tensorScale else decide (r.tile < tiles.1 * tiles.2))
      && (match r.cls with
        | 0 => decide (r.slot < f.chip.presses.length) && decide (r.addr + n ≤ 9600)
        | 1 => r.slot == 0 && decide (r.addr + n ≤ near)
        | 2 => r.slot == 0 && t.farPermitted && decide (r.addr + n ≤ far)
        | _ => false)

/-- Where the landing list of press slot `k` lies in its press store: 32-bit records (R164, R173). -/
def landingArea (pl : Placement) (k : Nat) : List (Nat × Nat) :=
  let n := (pl.landing.getD k []).length
  if n = 0 then [] else [(pl.landingAt.getD k 0, ceilDiv n 256)]

/-- Areas of press slot `k` of a placement: held tiles, both sides of its platforms, its scratch areas and its landing list
(R164, R165). -/
def slotAreas (f : Forme) (pl : Placement) (k : Nat) : List (Nat × Nat) :=
  (pl.place.filterMap (fun r => if r.cls = 0 && r.slot = k then
      (f.tensors.find? (fun t => t.id == r.tensor)).map (fun t => (r.addr, tileKiB t r.tile)) else none))
    ++ (f.chip.platforms.getD k []).flatMap (fun x => [(x.base0, x.size), (x.base1, x.size)])
    ++ f.chip.scratch.getD k [] ++ landingArea pl k

/-- Platforms, scratch areas, held tiles and landing list of a press slot (R163, R165). -/
def slotAreasOk (f : Forme) (pl : Placement) (k : Nat) : Bool :=
  let plats := f.chip.platforms.getD k []
  plats.all (fun x => decide (x.number ≤ 15) && decide (1 ≤ x.size) && decide (x.size ≤ 4096))
    && ((plats.map (·.number)).dedup.length == plats.length)
    && (slotAreas f pl k).all (fun x => decide (x.1 + x.2 ≤ 9600)) && apart (slotAreas f pl k)

/-- A place in a platform (R293, R327). -/
def platRefOk (f : Forme) (r : PlatRef) : Bool :=
  decide (r.slot < f.chip.presses.length) && decide (r.offset < sideSize (f.chip.platforms.getD r.slot []) r.platform)

/-- A landing list (R173). -/
def landingOk (slots : Nat) (l : List (Nat × Nat)) : Bool :=
  decide (l.length ≤ 4096) && l.all (fun x => (decide (x.1 < slots) || (decide (96 ≤ x.1) && decide (x.1 ≤ 161)))
    && decide (1 ≤ x.2) && decide (x.2 ≤ 4096))

/-! ## The sampler's plan and lists (R327, R329) -/

/-- Whether a record is one of R329. A mark of kind DUE has SOURCE 0, ON_CHIP. -/
def samplerRecOk (r : BitVec 64) : Bool :=
  let v := r.toNat
  match fld v 60 4 with
  | 0 => decide (fld v 0 13 < 4096)
  | 1 => fld v 41 19 == 0
  | 2 => fld v 56 4 == 0
  | 3 => true
  | _ => false

/-- Rows that a mark list takes in a pass (R329). -/
def samplerRowsIn (l : List (BitVec 64)) : Nat :=
  sumOf ((tripCounts recItem 0 1 l).map (fun x =>
    if fld x.1.toNat 60 4 = 0 then x.2 * (fld x.1.toNat 0 13 + 1) else 0))

/-- The sampler mark list of a variant (R329). -/
def samplerListOk (berths e : Nat) (l : List (BitVec 64)) : Bool :=
  l.all samplerRecOk && listOk recItem e l && samplerRowsIn l == berths

/-- Whether picker slices follow one another from 0 to VOCAB_SIZE (R327). -/
def pickersCover : Nat → List Picker → Nat → Bool
  | next, [], vocab => next == vocab
  | next, p :: l, vocab => p.first == next && decide (1 ≤ p.ids) && pickersCover (next + p.ids) l vocab

/-- The sampler plan (R327). -/
def samplerPlanOk (f : Forme) (p : SamplerPlan) (desk : Bool) : Bool :=
  decide (1 ≤ p.vocabSize) && decide (p.vocabSize ≤ 1048576)
    && decide (1 ≤ p.pickers.length) && decide (p.pickers.length ≤ 96)
    && p.pickers.all (fun x => decide (x.slot < f.tt.pressCount)
      && (!desk || decide (0 < ((f.chip.queues.getD x.slot []).getD 54 ⟨0, 0, 0⟩).cap)))
    && gapless p.pickers && pickersCover 0 p.pickers p.vocabSize
    && decide (f.serving.liveryLimit ≤ p.stageSlots) && decide (p.stageSlots ≤ 4096)
    && decide (1024 ≤ p.stageBytes) && decide (p.stageBytes ≤ 1073741824) && p.stageBytes % 1024 == 0
    && platRefOk f p.liveryList
where
  /-- slots in strictly ascending order -/
  gapless : List Picker → Bool
    | [] => true
    | [_] => true
    | a :: b :: l => decide (a.slot < b.slot) && gapless (b :: l)

/-! ## The timetable and serving fields (R57, R209, R293) -/

/-- Whether a chip of the tree reaches the root (R57). -/
def reachesRoot (parent : List Nat) : Nat → Nat → Bool
  | 0, _ => false
  | n + 1, c => match parent[c]? with
    | none => false
    | some p => p == 0xFFFFFFFF || reachesRoot parent n p

/-- Operating points a forme permits (R57). -/
def permitted (t : Timetable) : List Nat := (List.range 3).filter (fun v => bitAt t.points.toNat v)

/-- The timetable section (R57). -/
def timetableOk (t : Timetable) : Bool :=
  let within (v lo hi : Nat) : Bool := v == 0 || (decide (lo ≤ v) && decide (v ≤ hi))
  let ends := (permitted t).map (fun v => t.endCount.getD v 0)
  decide (1 ≤ t.pressCount) && decide (t.pressCount ≤ 96) && decide (1 ≤ t.chipCount) && decide (t.chipCount ≤ 65536)
    && t.points != 0 && ends.all (fun e => decide (64 ≤ e) && decide (e < 2 ^ 40))
    && t.envelope.all (fun r => r.all (fun x => decide (x < 65536)))
    && within t.launchMargin 1000 1000000 && within t.planWatchdog 1 100000 && within t.barrierTimeout 1 1000000
    && within t.drainLimit 1 10000 && decide (t.abortLimit ≤ 15)
    && t.parent.length == t.chipCount && t.parent.count 0xFFFFFFFF == 1
    && (List.range t.chipCount).all (fun c => reachesRoot t.parent t.chipCount c && decide (t.parent.count c ≤ 31))
    && decide (1000 * orDefault t.planWatchdog 500 + 2 * maxOf ends ≤ 1000 * orDefault t.barrierTimeout 5000)

/-- A control route (R209, R244). -/
def controlRouteOk (r : Route) : Bool := decide (1 ≤ r.hops) && decide (r.hops ≤ 6)

/-- The serving section (R293), on logical chip `c`. -/
def servingOk (f : Forme) (c : Nat) : Bool :=
  let v := f.serving
  let slice := 128 * v.positionBytes / max 1 v.kvHeads
  decide (v.desk < f.tt.chipCount) && v.stage.length == f.tt.chipCount
    && v.stage.all (fun x => decide (x < v.stages)) && v.stage.getD v.desk 0 + 1 == v.stages
    && decide (1 ≤ v.stages) && decide (v.stages ≤ 256) && decide (1 ≤ v.berths) && decide (v.berths ≤ 4096)
    && decide (1 ≤ v.chunk) && decide (v.chunk ≤ 256) && decide (v.proofMax ≤ 16)
    && v.layers.length == f.tt.chipCount && v.layers.all (fun x => decide (1 ≤ x) && decide (x ≤ 255))
    && decide (256 ≤ v.positionBytes) && decide (v.positionBytes ≤ 65536) && v.positionBytes % 256 == 0
    && decide (1 ≤ v.kvHeads) && decide (v.kvHeads ≤ 16) && decide (1 ≤ v.headDim) && decide (v.headDim ≤ 256)
    && decide (1 ≤ v.frames) && decide (v.frames < 2 ^ 32) && decide (1 ≤ v.sliceSlots) && decide (v.sliceSlots < 2 ^ 32)
    && decide (v.sparseN ≤ 1024) && decide (v.sparseSlots ≤ v.berths)
    && decide (1 ≤ v.liveryLimit) && decide (v.liveryLimit ≤ 64) && decide (v.admitScan ≤ 65535)
    && v.voidRoute.all (fun r => decide (r.hops ≤ 6))
    && (128 * v.positionBytes) % max 1 v.kvHeads == 0 && slice % 1024 == 0 && (v.sparseN == 0 || slice % 32768 == 0)
    && (match v.sheet[c]? with
      | some r => platRefOk f r
      | none => false)

/-! ## Placements (R356) -/

/-- Whether a tensor that is HELD or FAR in one placement is so as R356 permits in every other. -/
def placementsOk (f : Forme) : Bool :=
  let held (pl : Placement) : List Nat := ((pl.place.filter (fun r => r.cls == 0)).map (·.tensor)).dedup
  f.chip.placements.all (fun a => f.chip.placements.all (fun b => (held a).all (fun t => (held b).contains t)))
    && f.chip.placements.all (fun a => a.place.all (fun r => r.cls != 2
      || f.tensors.any (fun t => t.id == r.tensor && t.farPermitted)))

/-- The placement and its variants (R131, R163 to R178, R192, R243, R329). `view` is how the far
tier serves it. -/
def placementOk (f : Forme) (chip : Nat) (view : Placement → FarView) (pl : Placement) : Bool :=
  let slots := f.chip.presses.length
  let near := nearEnd - 4259840
  let far := pl.farMiB * 1024
  let lists (g : VariantPart → Nat) : Nat := sumOf (pl.variants.map (fun v => match v with
    | some x => g x
    | none => 0))
  let desk := f.serving.desk == chip
  pl.place.all (placeOk f pl.nearKiB far) && (List.range slots).all (slotAreasOk f pl)
    && lanesOk pl.lanes && hostLanes pl.lanes
    && pl.landing.length == slots && pl.landing.all (landingOk slots) && pl.landingAt.length == slots
    && (List.range 3).all (fun v =>
      let e := f.tt.endCount.getD v 0
      match pl.variants.getD v none with
      | none => !(permitted f.tt).contains v
      | some x =>
        (permitted f.tt).contains v && x.programs.length == slots
          && (x.programs.mapIdx (fun k p => (k, p))).all (fun (y : Nat × Program) =>
            programOk f chip y.1 e near far (view pl).indirect y.2)
          && sequencersOk slots e x && farStreamsOk (view pl) slots e f.chip.farMask x && pointsOk f chip e x
          && (if desk then samplerListOk f.serving.berths e x.samplerMarks else x.samplerMarks.isEmpty))
    && (List.range slots).all (fun k => wideFed (f.chip.queues.getD k [])
      (pl.variants.filterMap (fun v => v.map (fun x => x.programs.getD k ⟨[], [], [], 0, []⟩))))
    && (List.range 32).all (fun q => decide (lists (fun x => (x.sequencers.getD q []).length) ≤ 65536)
      && decide (lists (fun x => (x.points.getD q []).length) ≤ 32768))
    && decide (lists (fun x => x.samplerMarks.length) ≤ 4096)

/-- Step 4 of R355, but for R376: every load rule, on logical chip `c`. -/
def loadRules (f : Forme) (c : Nat) (view : Placement → FarView) : Bool :=
  timetableOk f.tt && servingOk f c && tensorsOk f.tensors
    && f.flows.all (flowOk f) && decide (f.flows.length ≤ 65536)
    && f.dests.length == f.flows.length && f.dests.all (fun d => decide (d < f.tt.chipCount))
    && decide (1 ≤ f.keyCount) && decide (f.keyCount ≤ 4) && f.treeRoutes.all (fun r => controlRouteOk r.2)
    && f.chip.presses.length == f.tt.pressCount && f.chip.presses.all (fun p => decide (p < 96))
    && f.chip.presses.dedup.length == f.chip.presses.length
    && f.chip.queues.length == f.chip.presses.length && f.chip.queues.all queueTableOk
    && (match f.sampler with
      | some p => samplerPlanOk f p (f.serving.desk == c)
      | none => false)
    && placementsOk f && f.chip.placements.all (placementOk f c view)

/-! ## Index, parts and directories (R351, R353, R354) -/

/-- Whether `n` bytes from `off` are zero. -/
def zeroAt (bs : List Byte) (off n : Nat) : Bool := (sliceBytes bs off n).all (· == 0)

/-- The index header (R351). -/
def indexOk (index : List Byte) : Bool :=
  let n := leAt index 12 4
  index.length == 64 + 32 * n && leAt index 0 4 == 0x4D524F46 && leAt index 4 2 == 1 && zeroAt index 6 2
    && decide (1 ≤ n) && decide (n ≤ 65536) && zeroAt index 16 16

/-- One record of a section directory: type, placement, variant, offset, length. -/
def dirRec (part : List Byte) (i : Nat) : Nat × Nat × Nat × Nat × Nat :=
  let o := 16 + 16 * i
  (leAt part o 2, leAt part (o + 2) 1, leAt part (o + 3) 1, leAt part (o + 4) 4, leAt part (o + 8) 4)

/-- The scopes that a part must hold, as type, placement and variant (R354). -/
def scopesOf (f : Forme) (desk : Bool) (common : Bool) : List (Nat × Nat × Nat) :=
  if common then [1, 2, 3, 4, 5, 6, 7].map (fun t => (t, 0xFF, 0xFF))
  else
    [0x10, 0x11, 0x12, 0x13, 0x14].map (fun t => (t, 0xFF, 0xFF))
      ++ (List.range f.chip.placements.length).flatMap (fun k => [0x20, 0x21, 0x22, 0x23].map (fun t => (t, k, 0xFF)))
      ++ (List.range f.chip.placements.length).flatMap (fun k => (permitted f.tt).flatMap (fun v =>
        ([0x24, 0x25, 0x26, 0x27] ++ (if desk then [0x28] else [])).map (fun t => (t, k, v))))

/-- A part's header and section directory (R353, R354). -/
def partOk (f : Forme) (desk common : Bool) (part : List Byte) : Bool :=
  let n := leAt part 0 2
  let recs := (List.range n).map (dirRec part)
  let keys := recs.map (fun r => (r.1, r.2.1, r.2.2.1))
  decide (1 ≤ n) && decide (n ≤ 4096) && decide (16 + 16 * n ≤ part.length)
    && decide (1 ≤ f.chip.placements.length) && decide (f.chip.placements.length ≤ 4) && leAt part 2 1 == (if common then 0 else f.chip.placements.length) && zeroAt part 3 13
    && (List.range n).all (fun i => zeroAt part (16 + 16 * i + 12) 4)
    && recs.all (fun r => r.2.2.2.1 % 64 == 0 && decide (r.2.2.2.1 + r.2.2.2.2 ≤ part.length))
    && keys.dedup.length == keys.length && keys.all (fun k => (scopesOf f desk common).contains k)
    && (scopesOf f desk common).all (fun k => keys.contains k)

end Sys2Proof.Machine
end

