-- ==== Sys2Proof/Machine/Sections.lean ====
section
/-! DEFINITION. The sections of a forme whose layout the spec gives, read from the bytes of the parts (R241, R329, R354, R362, R364,
R376). The fields of the other sections come beside the bytes (log entry 12). -/

namespace Sys2Proof.Machine

open Sys2Proof

/-- The bytes of a section of a part: those of its first directory record (R353). -/
def sectionOf (part : List Byte) (type placement variant : Nat) : List Byte :=
  match ((List.range (leAt part 0 2)).map (dirRec part)).find? (fun r => r.1 == type && r.2.1 == placement && r.2.2.1 == variant) with
  | some r => sliceBytes part r.2.2.2.1 r.2.2.2.2
  | none => []

/-- The records of `n` bytes of a section, read one by one; none where one of them breaks its layout or bytes are left. -/
def readRecords {α : Type} (n : Nat) (read : List Byte → Option α) (bs : List Byte) : Option (List α) :=
  if bs.length % n != 0 then none
  else (List.range (bs.length / n)).foldr (fun i acc => match read (sliceBytes bs (n * i) n), acc with
    | some x, some l => some (x :: l)
    | _, _ => none) (some [])

/-- A record of the tensor table (R362). -/
def readTensorRec (b : List Byte) : Option Tensor :=
  let flags := leAt b 5 1
  if 8 ≤ flags || !zeroAt b 6 2 || !zeroAt b 16 16 then none
  else some ⟨leAt b 0 4, leAt b 4 1, bitAt flags 0, bitAt flags 1, bitAt flags 2, leAt b 8 4, leAt b 12 4⟩

/-- A record of the route list (R241). -/
def readFlowRec (b : List Byte) : Option FlowRec :=
  let v := leAt b 0 16
  if bitAt v 95 || fld v 113 13 != 0 then none
  else some ⟨⟨BitVec.ofNat 84 (fld v 0 84), fld v 84 4⟩, fld v 88 7, fld v 96 17, fld v 126 2⟩

/-- The destination of a flow (R354). -/
def readDestRec (b : List Byte) : Option Nat := if leAt b 0 4 < 2 ^ 17 then some (leAt b 0 4) else none

/-- A placement record (R364). -/
def readPlaceRec (b : List Byte) : Option PlaceRec :=
  if 128 ≤ leAt b 9 1 || !zeroAt b 10 2 then none else some ⟨leAt b 0 4, leAt b 4 4, leAt b 8 1, leAt b 9 1, leAt b 12 4⟩

/-- A record of a sampler mark list (R329). -/
def readMarkRec (b : List Byte) : Option (BitVec 64) := some (BitVec.ofNat 64 (leAt b 0 8))

/-- A variant's part with its sampler mark list as its section spells it (R329). -/
def readVariant (chip : List Byte) (k v : Nat) (x : Option VariantPart) : Option (Option VariantPart) := match x with
  | none => some none
  | some y => (readRecords 8 readMarkRec (sectionOf chip 0x28 k v)).map (fun l => some { y with samplerMarks := l })

/-- Every element of a list read, or none. -/
def readEach {α β : Type} (read : Nat → α → Option β) : Nat → List α → Option (List β)
  | _, [] => some []
  | i, x :: l => match read i x, readEach read (i + 1) l with
    | some y, some r => some (y :: r)
    | _, _ => none

/-- A placement with its placement records and its mark lists as their sections spell them (R329, R364). -/
def readPlacement (chip : List Byte) (desk : Bool) (k : Nat) (pl : Placement) : Option Placement := do
  let place ← readRecords 16 readPlaceRec (sectionOf chip 0x21 k 0xFF)
  let variants ← if desk then readEach (readVariant chip k) 0 pl.variants else some pl.variants
  some { pl with place := place, variants := variants }

/-- The forme of a chip as its parts spell it (R354): none where a section breaks its layout, or where the tensor table or the route
list is too long. -/
def readForme (parts : FormeParts) (desk : Bool) : Option Forme := do
  let f := parts.forme
  let common (type : Nat) : List Byte := sectionOf parts.common type 0xFF 0xFF
  let chip (type : Nat) : List Byte := sectionOf parts.chip type 0xFF 0xFF
  let tensors ← readRecords 32 readTensorRec (common 4)
  let flows ← readRecords 16 readFlowRec (common 5)
  let dests ← readRecords 4 readDestRec (common 6)
  let placements ← readEach (readPlacement parts.chip desk) 0 f.chip.placements
  if (common 7).isEmpty || (chip 0x11).length < 5 || decide (65536 < tensors.length) || decide (65536 < flows.length) then none
  else some { f with
    tensors := tensors, flows := flows, dests := dests, keyCount := leAt (common 7) 0 1
    chip := { f.chip with
      presses := (chip 0x10).map (·.toNat), portMask := BitVec.ofNat 32 (leAt (chip 0x11) 0 4)
      farMask := BitVec.ofNat 2 (leAt (chip 0x11) 4 1), placements := placements } }

end Sys2Proof.Machine
end

