-- ==== Sys2Proof/Machine/Serving.lean ====
section
/-! DEFINITION. The serving commands (R292, R301, R316 to R323, R330, R331, R340, R341, R421, R424, R505), writes to CANCEL,
and VOID (R317, R318). -/

namespace Sys2Proof.Machine

open Sys2Proof

/-! ## Who may be asked (R292) -/

/-- A command of the desk chip: BUSY with no forme loaded, BAD_PARAM on a stage chip (R292). -/
def deskCommand (d : Descriptor) (run : State → State) (s : State) : State :=
  if !s.loaded then finish d stBusy 0 s else if !s.isDesk then finish d stBadParam 0 s else run s

/-- Whether this chip is a stage chip of a loaded forme. -/
def State.isStage (s : State) : Bool := s.loaded && !s.isDesk

/-- Whether a forme is started (R301). -/
def State.started (s : State) : Bool := s.forme.state == .started

/-- VOCAB_SIZE of the loaded forme. -/
def State.vocab (s : State) : Nat := match s.samplerPlan with
  | some p => p.vocabSize
  | none => 0

/-! ## WAYBILL_OPEN (R330, R331, R424) -/

/-- An FP32 word as a number that keeps the order of the values, both zeros at 0; none for a NaN. -/
def f32Key (w : Nat) : Option Int :=
  let m : Nat := w % 2 ^ 31
  if 0x7F800000 < m then none else some (if 2 ^ 31 ≤ w then -(m : Int) else (m : Int))

/-- Whether an FP32 word is a number that satisfies `p`. -/
def f32Ok (w : Nat) (p : Int → Bool) : Bool := match f32Key w with
  | some k => p k
  | none => false

/-- The order keys of 1 and of 100. -/
def keyOne : Int := 0x3F800000
def keyHundred : Int := 0x42C80000

/-- The parameter section's fields are within R330. -/
def paramsOk (vocab : Nat) (w : Waybill) : Bool :=
  f32Ok w.temperature (fun k => decide (0 ≤ k) && decide (k ≤ keyHundred))
    && f32Ok w.topP (fun k => decide (0 < k) && decide (k ≤ keyOne))
    && f32Ok w.minP (fun k => decide (0 ≤ k) && decide (k < keyOne))
    && f32Ok w.repetition (fun k => decide (0 < k) && decide (k ≤ keyHundred))
    && f32Ok w.presence (fun k => decide (-keyHundred ≤ k) && decide (k ≤ keyHundred))
    && f32Ok w.frequency (fun k => decide (-keyHundred ≤ k) && decide (k ≤ keyHundred))
    && decide (w.topK ≤ 1024) && decide (w.arg 22 1 ≤ 8) && decide (w.flags ≤ 7) && decide (1 ≤ w.maxNew)
    && decide (w.biasCount ≤ 256) && w.arg 46 2 == 0 && w.arg 43 1 == 0 && decide (w.arg 40 3 < 2 ^ 20)
    && (!bitAt w.flags 0 || decide (w.eosId < vocab))

/-- Bias ids strictly ascend. -/
def ascending : List Nat → Bool
  | a :: b :: l => decide (a < b) && ascending (b :: l)
  | _ => true

/-- The extra block is within R331. -/
def extraOk (vocab : Nat) (w : Waybill) (x : List Byte) : Bool :=
  (List.range 8).all (fun k =>
    let n := leAt x (68 * k) 4
    (if k < w.stopCount then decide (1 ≤ n) && decide (n ≤ 16) else n == 0)
      && (List.range 16).all (fun t =>
        let tok := leAt x (68 * k + 4 + 4 * t) 4
        if t < n then decide (tok < vocab) else tok == 0))
    && (biasList x w.biasCount).all (fun b => decide (b.1 < vocab) && f32Ok b.2 (fun k => decide (k < 0x7F800000)))
    && ascending ((biasList x w.biasCount).map (·.1))

/-- The token ids of a block. -/
def tokenIds (blk : List Byte) (off n : Nat) : List Nat := (List.range n).map (fun k => leAt blk (off + 4 * k) 4)

/-- The waybill that an open record describes (R424). -/
def openRecord (blk : List Byte) (tokens : Nat) : Waybill where
  state := .queued
  priority := BitVec.ofNat 4 (fld (leAt blk 1 1) 0 4)
  colophon := bitAt (leAt blk 1 1) 4
  expireStable := bitAt (leAt blk 1 1) 5
  restoring := false
  stablePending := false
  tenant := BitVec.ofNat 16 (leAt blk 2 2)
  ring := BitVec.ofNat 12 (leAt blk 4 2)
  livery := if bitAt (leAt blk 6 2) 15 then some (BitVec.ofNat 12 (leAt blk 6 2)) else none
  deadline := BitVec.ofNat 64 (leAt blk 8 8)
  ttl := BitVec.ofNat 32 (leAt blk 16 4)
  committed := 0
  inputLength := tokens
  generated := 0
  proofDepth := BitVec.ofNat 5 (leAt blk 29 1)
  berth := none
  microbatch := 0
  timingChoices := 0
  ticket := 0
  inputStore := 0
  directory := 0
  opened := 0
  closeStatus := 0
  clientTag := BitVec.ofNat 32 (leAt blk 60 4)
  params := BitVec.ofNat 512 (leAt blk 64 64)
  held := []
  owed := 0
  voided := false
  back := .prefill
  closing := false
  inPlace := false
  rebuilt := true
  reserved := 0
  tail := []
  storeKiB := 0
  headed := 0
  fresh := []
  lastGen := 0
  stop := 0
  ticketEnd := none

/-- KiB of an input store for an input length (R339). -/
def storeSize (w : Waybill) (n : Nat) : Nat := 65 + w.extraKiB + ceilDiv (4 * n) 1024

/-- An input store's running digest written for the input it holds (R339). -/
def putDigest (w : Waybill) (s : State) : State :=
  let input := digestInput s w
  nearPut (w.storeByte + (64 + w.extraKiB) * 1024) ((List.range 1024).map (fun i => Config.digestState input i)) s

/-- Indexes that pending opens have reserved (R424). -/
def reservedOpens (s : State) : List Nat := s.eng.pending.filterMap (fun p => match p.change with
  | .opened i _ => some i
  | _ => none)

/-- The lowest index that is FREE and not reserved. -/
def freeIndex (s : State) : Option Nat :=
  let used := reservedOpens s
  (List.range 65535).find? (fun i => (kget s.eng.table i).isNone && !used.contains i)

/-- Whether an open record's own fields are ones that R424 accepts. -/
def openFields (s : State) (v : Serving) (blk : List Byte) (w : Waybill) : Bool :=
  decide (leAt blk 4 2 < 4096) && (ringTenant s w.ring.toNat).isSome && decide (leAt blk 29 1 ≤ v.proofMax)
    && (match w.livery with
      | some k => (match kget s.liv.slots k.toNat with
        | some x => x.valid
        | none => false)
      | none => true)

/-- WAYBILL_OPEN (R292, R323, R330, R331, R424). -/
def execWaybillOpen (d : Descriptor) (blk : List Byte) (s : State) : Out :=
  let n := pArg d 24 4
  .next (commandBlk d [(24, 4)] blk (deskCommand d (fun s =>
    match s.serving with
    | none => finish d stBusy 0 s
    | some v =>
      let w := openRecord blk n
      let extra := sliceBytes blk 128 w.extraBytes
      let toks := tokenIds blk (128 + w.extraBytes) n
      let tokensOk := toks.all (fun t => decide (t < s.vocab))
      if n = 0 || d.blockLength.toNat != 128 + w.extraBytes + 4 * n || !paramsOk s.vocab w || !extraOk s.vocab w extra || !tokensOk
          || !openFields s v blk w || lengthLimit < n + w.maxNew + v.proofMax then finish d stBadParam 0 s
      else if !fenceOk s w then finish d stPartition 0 s
      else
        let kib := storeSize w n
        match freeIndex s, inputRoom kib s with
        | some i, some a =>
          if v.frames < frameNeed v w 0 then finish d stNoRoom 0 s
          else if sliceBytes (sha256 extra) 0 16 != leBytes 16 (w.arg 48 16) then finish d stVerifyFail 0 s
          else
            let w := { w with inputStore := BitVec.ofNat 32 a, storeKiB := kib, opened := s.eng.opened + 1 }
            let s := allocInput i a kib { s with eng.opened := s.eng.opened + 1 }
            let s := nearZero a kib s
            let s := nearPut (w.storeByte + 65536) extra s
            let s := putDigest w (nearPut (w.tokenByte 0) (toks.flatMap (leBytes 4)) s)
            queued d (resAt 16 i + resAt 18 w.opened.toNat)
              { s with eng.pending := s.eng.pending ++ [⟨.opened i w, some d⟩] }
        | _, _ => finish d stNoRoom 0 s)) s)

/-! ## WAYBILL_APPEND (R505) -/

/-- The latest input store of a waybill and the input length it holds, pending appends counted (R505). -/
def latestStore (s : State) (i : Nat) (w : Waybill) : Nat × Nat :=
  s.eng.pending.foldl (fun acc p => match p.change with
    | .appended j a _ n => if j = i then (a, acc.2 + n) else acc
    | _ => acc) (w.inputStore.toNat, w.inputLength)

/-- WAYBILL_APPEND (R292, R330, R505). -/
def execWaybillAppend (d : Descriptor) (blk : List Byte) (s : State) : Out :=
  let i := pArg d 24 2
  let n := pArg d 28 4
  .next (commandBlk d [(24, 2), (28, 4)] blk (deskCommand d (fun s =>
    match s.serving, kget s.eng.table i with
    | some v, some w =>
      let toks := tokenIds blk 0 n
      let (a, len) := latestStore s i w
      if !(w.state == .queued || w.state == .prefill || w.state == .decode) || n = 0 || d.blockLength.toNat != 4 * n
          || !(toks.all (fun t => decide (t < s.vocab))) || lengthLimit < len + n + w.maxNew + v.proofMax then finish d stBadParam 0 s
      else
        let kib := storeSize w (len + n)
        match inputRoom kib s with
        | none => finish d stNoRoom 0 s
        | some b =>
          let w' := { w with inputStore := BitVec.ofNat 32 b, inputLength := len + n }
          let old := memRead blank s.boxMem (a * 1024) (1024 * storeSize w len)
          let s := nearPut (b * 1024) old (nearZero b kib (allocInput i b kib s))
          let s := putDigest w' (nearPut (w'.tokenByte len) (toks.flatMap (leBytes 4)) s)
          queued d 0 { s with eng.pending := s.eng.pending ++ [⟨.appended i b kib n, some d⟩] }
    | _, _ => finish d stBadParam 0 s)) s)

/-! ## Cancellation (R301, R316, R317, R421) -/

/-- The VOID body of a waybill (R318). -/
def voidBody (s : State) (i : Nat) (w : Waybill) : Nat :=
  i + w.tenant.toNat * 2 ^ 16 + s.now * 2 ^ 64 + (if s.tt.inStep then s.tt.step.toNat else 0) * 2 ^ 128

/-- A VOID sent along this chip's VOID_ROUTE (R293, R317). -/
def sendVoid (body : Nat) (s : State) : State :=
  if s.forme.voidRoute.hops = 0 then s else sendControl 0x12 (vget s.forme.keys 0 0).toNat s.forme.voidRoute body s

/-- A waybill's shadow marked VOIDED, and its row void where the chip runs it in the attempt in progress (R317). -/
def markVoid (i : Nat) (s : State) : State :=
  let rows := ((passRows s.eng.sheet).filter (fun b => b.waybill == i)).map (·.row)
  { s with eng.shadows := kmod i (fun x => { x with voided := true }) s.eng.shadows
           eng.voidRows := if s.tt.inStep then s.eng.voidRows ++ rows.filter (fun r => !s.eng.voidRows.contains r) else s.eng.voidRows }

/-- Acceptance of a cancellation while a forme is started: a berthed waybill's row is void, and VOID is sent (R317). -/
def acceptCancel (i : Nat) (w : Waybill) (cmd : Option Descriptor) (s : State) : State :=
  let s := { s with eng.pending := s.eng.pending ++ [⟨.cancel i (wbCode w.state), cmd⟩] }
  if w.state == .prefill || w.state == .decode then
    let s := markVoid i (modWb i (fun w => { w with voided := true }) s)
    if s.oneChip then s else sendVoid (voidBody s i w) s
  else s

/-- The edition of a change that takes effect at once, and the completion of its command (R301, R426): it reports the close, if
there is one, with its CANCELLATION timing choice. -/
def cancelEdition (i : Nat) (closed : Bool) (cmd : Option Descriptor) (code : BitVec 16) (st : Nat) (s : State) : State :=
  let s := modWb i (fun w => { w with closing := true }) s
  let s := writeEdition (showEntry i { s with
    eng.closedShown := if closed then [i] else [], eng.admittedShown := 0, eng.choicesShown := bit closed
    eng.closedNow := s.eng.closedNow.erase i })
  match cmd with
  | some d => finish d code (resAt 16 st) s
  | none => s

/-- What a cancellation at once publishes, with its edition; or the cancellation waits for room in its ring (R301, R347). -/
def cancelPublish (i : Nat) (cmd : Option Descriptor) (st : Nat) (s : State) : State := match kget s.eng.table i with
  | none => s
  | some w =>
    let step := s.rings.edTerminus.toNat
    let (r, w') := recordsOf s step i w true
    let l := [(i, w.ring.toNat, r, w')]
    if publishFits s l then cancelEdition i true cmd stCancelled st (publishAll step l s)
    else { s with eng.late := s.eng.late ++ [⟨i, cmd, st⟩] }

/-- A cancellation that takes effect at once, with no forme started: the close, what it publishes and a new edition; then
its completion (R301). A stage chip's stabled copies are given up by a release record, in the first sheet to come (R316). -/
def cancelNow (i : Nat) (w : Waybill) (cmd : Option Descriptor) (s : State) : State :=
  let st := wbCode w.state
  if w.state == .expired then cancelEdition i false cmd stDone st (dropTicket i true (leaveBerth i kRelease s))
  else
    let n := s.eng.choicesNow
    let s := countChoices (timingChoice tcCancel i s)
    let s := leaveBerth i kRelease { s with eng.choicesNow := n }
    cancelPublish i cmd st (fenceClosed i (closeWb i .cancelled stCancelled (dropTicket i true s)))

/-- Cancellations that wait for room are tried again, in order, while no commit is under way (R301, R347). -/
def cancelGoOn (s : State) : State :=
  s.eng.late.foldl (fun (s : State) x => cancelPublish x.waybill x.cmd x.st s) { s with eng.late := [] }

/-- Whether a cancellation of a waybill in a state has an effect (R316). -/
def cancels (w : Waybill) : Bool := !w.state.closed || w.parkedExpired

/-- WAYBILL_CANCEL (R292, R301, R316, R421). -/
def execWaybillCancel (d : Descriptor) (s : State) : Out :=
  let i := pArg d 24 2
  .next (command d [(24, 2)] (fun s =>
    if s.isStage || i = 65535 then finish d stBadParam 0 s
    else match kget s.eng.table i with
      | none => finish d stDone 0 s
      | some w =>
        let st := resAt 16 (wbCode w.state)
        if !cancels w then finish d stDone st s
        else if s.started then acceptCancel i w (some d) (queued d st s)
        else cancelNow i w (some d) s) s)

/-- The bits of a 64-bit word. -/
def setBits (v : Nat) : List Nat := (List.range 64).filter (bitAt v)

/-- A write of CANCEL[w] (R316, R317, R326): one bit per waybill; ignored on a stage chip. -/
def cancelWrite (w : Nat) (value : Reg) (s : State) : State :=
  if s.isStage then { s with eng.cancelIgnored := true }
  else (setBits value.toNat).foldl (fun s b =>
    let i := 64 * w + b
    match kget s.eng.table i with
    | none => s
    | some x => if !cancels x then s else if s.started then acceptCancel i x none s else cancelNow i x none s) s

/-- CANCEL_WRITE (R316, R317, R326, R421). -/
def execCancelWrite (w : BitVec 10) (wr : CsWr) (s : State) : Out :=
  .next (behindWrites (0x200000 + 8 * w.toNat) wr (cancelWrite w.toNat wr.value) s)

/-- VOID (R317, R318): the shadow and the row are marked, and the packet goes on, but for the chip before the desk in stage
order. -/
def execVoid (p : PortId) (body : BitVec 192) (s : State) : Out :=
  let s := controlTake p.val 0x12 body s
  .next (match s.serving with
    | none => s
    | some v =>
      let s := markVoid (fld body.toNat 0 16) s
      if s.isDesk || nextInStage v s.chipIndex = v.desk then s else sendVoid body.toNat s)

/-! ## Stabling, resume and query (R301, R320 to R323) -/

/-- WAYBILL_STABLE (R320, R322, R421). -/
def execWaybillStable (d : Descriptor) (s : State) : Out :=
  let i := pArg d 24 2
  .next (command d [(24, 2)] (deskCommand d (fun s =>
    match kget s.eng.table i with
    | some w =>
      if w.state == .prefill || w.state == .decode then
        queued d 0 (modWb i (fun w => { w with stablePending := true })
          { s with eng.pending := s.eng.pending ++ [⟨.stable i, some d⟩] })
      else finish d stBadParam 0 s
    | none => finish d stBadParam 0 s)) s)

/-- WAYBILL_RESUME (R321, R323, R421). -/
def execWaybillResume (d : Descriptor) (s : State) : Out :=
  let t := pArg d 24 6
  let i := t % 65536
  .next (command d [(24, 6), (32, 8), (40, 1)] (fun s => if 15 < pArg d 40 1 then finish d stBadParam 0 s else deskCommand d (fun s =>
    match kget s.eng.table i with
    | some w =>
      if t = 0 || w.ticket.toNat != t || !(w.state == .stabled || w.state == .expired) then finish d stBadParam 0 s
      else if !fenceOk s w then finish d stPartition 0 s
      else queued d 0 { s with eng.pending := s.eng.pending ++
          [⟨.resumed (BitVec.ofNat 48 t) (BitVec.ofNat 64 (pArg d 32 8)) (BitVec.ofNat 4 (pArg d 40 1)), some d⟩] }
    | none => finish d stBadParam 0 s) s) s)

/-- WAYBILL_QUERY (R292, R301): the entry as of the last commit. -/
def execWaybillQuery (d : Descriptor) (s : State) : Out :=
  let i := pArg d 24 2
  .next (commandReply d [(24, 2)] 1 (fun s =>
    if s.isStage || i = 65535 then finish d stBadParam 0 s
    else
      let e := shownEntry s i
      finishReply d stDone (resAt 16 (leAt e 0 1) + resAt 17 (leAt e 20 3) + resAt 20 s.rings.edTable.toNat) e s) s)

/-! ## Liveries (R340, R341) -/

/-- Whether a livery image's header and sections are within R340. -/
def liveryOk (x : List Byte) : Bool :=
  let fmt := leAt x 5 1
  let n := leAt x 6 2
  leAt x 0 2 == 1 && decide (1 ≤ leAt x 4 1) && decide (leAt x 4 1 ≤ 128) && decide (1 ≤ fmt) && decide (fmt ≤ 6)
    && decide (1 ≤ n) && decide (n ≤ 1024) && leAt x 12 4 == 0 && leAt x 48 16 == 0 && decide (64 + 16 * n ≤ x.length)
    && (List.range n).all (fun k =>
      let o := 64 + 16 * k
      leAt x (o + 2) 2 == 0 && leAt x (o + 12) 4 == 0 && leAt x (o + 4) 4 % 1024 == 0
        && decide (leAt x (o + 4) 4 + leAt x (o + 8) 4 ≤ x.length))

/-- Bytes of a chip's section of a livery image (R340; log entry 40). -/
def sectionBytes (layers : Nat) (x : List Byte) : Nat :=
  sumOf ((List.range (leAt x 6 2)).map (fun k =>
    let o := 64 + 16 * k
    if leAt x o 1 < layers then 1024 * ceilDiv (leAt x (o + 8) 4) 1024 else 0))

/-- The lowest free place of the LIVERY_BANK area, in MiB (R193, R341). -/
def bankRoom (bytes : Nat) (s : State) : Option Nat :=
  let (base, size) := farArea s 4
  let used := (s.liv.slots.map (fun x => (⟨x.2.bank.toNat, ceilDiv x.2.length 1048576, x.1, .root⟩ : Alloc))).foldl
    (fun l a => insertAlloc a l) []
  if size = 0 then none else lowestFree 1 (ceilDiv bytes 1048576) ((base + size) / 1024) used (base / 1024)

/-- LIVERY_LOAD (R340, R341). -/
def execLiveryLoad (d : Descriptor) (blk : List Byte) (s : State) : Out :=
  let k := pArg d 24 2
  .next (commandBlk d [(24, 2), (32, 32)] blk (fun s =>
    let x := blk.take d.blockLength.toNat
    if 4096 ≤ k then finish d stBadParam 0 s
    else if (kget s.liv.slots k).isSome then finish d stBusy 0 s
    else if !liveryOk x || !s.forme.sealed || leAt x 16 32 != s.forme.weightDigest.toNat then finish d stBadParam 0 s
    else
      let big := match s.samplerPlan with
        | some p => decide (p.stageBytes < sectionBytes s.pool.layers x)
        | none => false
      match if big || !areaUp s 4 then none else bankRoom x.length s with
      | none => finish d stNoRoom 0 s
      | some a =>
        let dig := sha256 x
        if leNat dig != pArg d 32 32 then finish d stVerifyFail 0 s
        else
          let slot : LiverySlot :=
            { bank := BitVec.ofNat 32 a, rank := BitVec.ofNat 8 (leAt x 4 1), format := BitVec.ofNat 4 (leAt x 5 1), staged := none
              valid := !s.started, tenant := BitVec.ofNat 16 (leAt x 2 2), alpha := BitVec.ofNat 32 (leAt x 8 4)
              weightDigest := BitVec.ofNat 256 (leAt x 16 32), digest := BitVec.ofNat 256 (leNat dig), length := x.length
              copying := false }
          finish d stDone (resAt 16 a)
            { farWrite (a * 1048576) x s with liv.slots := kset k slot s.liv.slots }) s)

/-- LIVERY_FREE (R341): at the next commit, or at once with no forme started. -/
def execLiveryFree (d : Descriptor) (s : State) : Out :=
  let k := pArg d 24 2
  .next (command d [(24, 2)] (fun s =>
    if 4096 ≤ k then finish d stBadParam 0 s
    else if s.eng.table.any (fun x => x.2.state != .free && x.2.livery.map (·.toNat) == some k) then finish d stBusy 0 s
    else if s.started then queued d 0 { s with eng.pending := s.eng.pending ++ [⟨.liveryFree k, some d⟩] }
    else finish d stDone 0 { s with liv.slots := kdel k s.liv.slots }) s)

end Sys2Proof.Machine
end

