-- ==== Sys2Proof/Machine/Concourse.lean ====
section
/-! DEFINITION. Landing from the concourse (R146, R153, R159, R166, R172, R173): platform write sides and FIN. -/

namespace Sys2Proof.Machine

open Sys2Proof

/-- The source of an entry that has left the concourse goes on with what waited for its lane's credit: FOUT of a press, or the
packets of a fabric port (R172). -/
def laneFreed (src : Nat) (s : State) : State :=
  if src < 96 then match s.slotPress src with
    | some p => foutPump ((s.press p).queue 53).entries.length p s
    | none => s
  else if 130 ≤ src then deliverPort (src - 130) s
  else s

/-- The first entry that satisfies `f` leaves the concourse. -/
def concTake (f : Arrival → Bool) (s : State) : State :=
  match takeFirst f s.conc with
  | some (a, rest) => laneFreed a.source { s with conc := rest }
  | none => s

/-- An entry written into the write side of a platform (R28, R147). One whose platform the forme lacks goes nowhere. -/
def landPlatform (p : Nat) (l : Landing) (e : Entry) (s : State) : State :=
  match s.sideBase p l.platform true with
  | none => s
  | some b => (touchLanding p (b + l.offset) (16 * (b + l.offset)) true s).modPress p (fun x => { x with store := memPutEntry x.store (b + l.offset) e })

/-- A stray entry is discarded and counted (R50, R173). -/
def landStray (p : Nat) (s : State) : State := s.modPress p (fun x => { x with stray := satInc x.stray })

/-- The largest landing-buffer occupancy of the attempt. -/
def lbCount (p : Press) : Press := { p with lbHigh := BitVec.ofNat 8 (max p.lbHigh.toNat p.landBuf.length) }

/-- An entry for FIN: visible at once where the current landing record names its source and FIN has room; buffered
otherwise while the landing buffer has room, one of the record's own source too where earlier ones of it stand there (DEDUCED, log
entry 144); `none` where it waits on its lane (R172, R173). -/
def landFin (src : Nat) (e : Entry) (p : Nat) (s : State) : Option State :=
  let pr := s.press p
  let current := match pr.landing with
    | some (x, _) => x == src
    | none => false
  let ahead := pr.landBuf.any (fun x => x.1 == src)
  if current && !ahead then
    if finRoom pr then
      let s := landInto p e s
      some (landPump (s.press p).landBuf.length p s)
    else none
  else if pr.landBuf.length < 64 then some (s.modPress p (fun x => lbCount { x with landBuf := x.landBuf ++ [(src, e)] }))
  else none

/-- Entries that the landing records still cover of a source, beyond those that wait in the landing buffer. -/
def landCovers (p : Press) (src : Nat) : Bool :=
  decide ((p.landBuf.filter (fun x => x.1 == src)).length < sumOf ((p.landRecords.filter (fun x => x.1 == src)).map (·.2)))

/-- LANDING_ARRIVAL (R28, R50, R172, R173): the oldest entry from a source reaches its press. A FIN entry that no remaining
record covers is stray; one that arrives late for a zero entry of run-out is discarded too. -/
def execLandingArrival (p : PressId) (source : LandingCase) (s : State) : Out :=
  let k := p.val
  let mine (a : Arrival) : Bool := a.press == p && a.source == source.source.toNat
  .next (match s.conc.find? mine with
    | none => s
    | some a =>
      if a.landing.kind = 1 then concTake mine (landPlatform k a.landing a.data s)
      else
        let pr := s.press k
        match takeFirst (fun x => x.1 == a.source) pr.owed with
        | some (_, rest) => landStray k (concTake mine (s.modPress k (fun x => { x with owed := rest })))
        | none =>
          if !landCovers pr a.source then stepFault fcDiscard k (landStray k (concTake mine s))
          else
            let s := landRead k (s.modPress k (fun x => { x with landEcc := source.list }))
            match landFin a.source a.data k s with
            | some t => concTake mine t
            | none => laneStop a.source k s)

end Sys2Proof.Machine
end

