-- ==== Sys2Proof/Machine/StreamCtl.lean ====
section
/-! DEFINITION. The control instructions of the press streams and the ends of their waits (R26, R69, R101, R132 to
R136). -/

namespace Sys2Proof.Machine

open Sys2Proof

/-- NOP has no effect (R132). -/
def nopAct (_ : Issue) (s : State) : Act := .done s

/-- A MARK: the stream waits until its mark is released (R26, R133, R134). -/
def markAct (i : Issue) (s : State) : Act :=
  match wordItem i.word with
  | .mark v d => .done (s.modStream i (fun st => { st with mark := some ⟨v + strideOf st.loop, d⟩, state := .markWait }))
  | _ => .done s

/-- LOOP: the body that follows runs TRIPS times (R134). The instruction after it is the first of the body. -/
def loopAct (i : Issue) (s : State) : Act :=
  match wordItem i.word with
  | .loop b t st => .done (s.modStream i (fun x => { x with loop := some ⟨x.pc + 1, b, t, 0, st⟩ }))
  | _ => .done s

/-- END: the stream waits for the end count (R135). -/
def endAct (i : Issue) (s : State) : Act := .done (s.modStream i (fun st => { st with state := .ended }))

/-- STREAM_NOP (R132), and any word that is executed as a NOP (R149). -/
def execStreamNop (i : Issue) (s : State) : Out :=
  .next (issue (wOp i.word == 0 || i.fetch == .unreadable) nopAct i s)

/-- DEPART_MARK (R133). A mark whose TT has come is passed at once. -/
def execDepartMark (i : Issue) (s : State) : Out :=
  .next (streamRelease i.press.val i.stream (issue (wOp i.word == 1 && wFld i.word 40 1 == 0) markAct i s))

/-- A DUE mark that is not met at its test count raises its hold at once (R26, R30, R35). -/
def dueTest (p : Nat) (id : StreamId) (u : UnitId) (s : State) : State :=
  match ((s.press p).stream id).mark with
  | some ⟨v, some d⟩ =>
    if decide (v ≤ s.tt.tt.toNat) && !markMet s p (some d) && !(s.holdsOpen u (fun _ => true)) then
      raiseHold u (dueCause d.2.2) .due (v + 32) s
    else s
  | _ => s

/-- DUE_MARK (R133). -/
def execDueMark (i : Issue) (s : State) : Out :=
  .next (dueTest i.press.val i.stream (.stream i.press i.stream)
    (streamRelease i.press.val i.stream (issue (wOp i.word == 1 && wFld i.word 40 1 == 1) markAct i s)))

/-- LOOP (R134). -/
def execLoop (i : Issue) (s : State) : Out := .next (issue (wOp i.word == 2) loopAct i s)

/-- END (R135). -/
def execEndStream (i : Issue) (s : State) : Out := .next (issue (wOp i.word == 3) endAct i s)

/-- The effect of an instruction word (R130). -/
def wordAct (w : PressWord) : Issue → State → Act :=
  match wOp w with
  | 0x10 => wloadAct
  | 0x11 => passAct
  | 0x12 => waddAct
  | 0x20 => addAct
  | 0x21 => mulAct
  | 0x22 => fmaAct
  | 0x23 => minAct
  | 0x24 => maxAct
  | 0x25 => cmpAct
  | 0x26 => selectAct
  | 0x27 => scaleAct
  | 0x28 => exponentAct
  | 0x29 => mantissaAct
  | 0x2A => rcpAct
  | 0x2B => rsqrtAct
  | 0x2C => cvtAct
  | 0x2D => reduceAct
  | 0x2E => reduceAct
  | 0x2F => reduceAct
  | 0x30 => accCvtAct
  | 0x40 => loadAct
  | 0x41 => storeAct
  | 0x42 => if wFld w 0 1 = 1 then moveWideAct else moveAct
  | 0x43 => platRdAct
  | 0x44 => platWrAct
  | 0x45 => nearRdAct
  | 0x46 => nearWrAct
  | 0x47 => farRdAct
  | 0x48 => farWrAct
  | _ => nopAct

/-- The instruction that a stream waits with is tried again. -/
def retry (p : Nat) (id : StreamId) (row : Bool) (s : State) : State :=
  let st := (s.press p).stream id
  match st.waiting with
  | some i =>
    if st.state == .queueWait && st.rowWait == row && s.tt.inStep && (s.press p).power == .stand then
      settle i (wordAct i.word i (s.modStream i (fun st => { st with state := .running })))
    else s
  | none => s

/-- The load or pass that waits beside the M stream is tried again (R81); once it is done, an instruction that waits in the
stream's hand may take its place beside it. -/
def retrySide (p : Nat) (row : Bool) (s : State) : State :=
  let st := (s.press p).m
  match st.side with
  | some x =>
    let i := x.issue
    if x.rowWait == row && s.tt.inStep && (s.press p).power == .stand then
      let hand := s.modStream i (fun st =>
        { st with waiting := some i, rowWait := x.rowWait, waitAt := x.waitAt, prog := x.prog, icount := x.icount, side := none })
      match wordAct i.word i hand with
      | .done s =>
        let s := s.modStream i (fun _ => { st with side := none })
        match st.waiting with
        | some j => if st.state == .queueWait then stepAside j s else s
        | none => s
      | .wait r q s =>
        let s := noteWait i r q s
        let y := s.streamOf i
        s.modStream i (fun _ => { st with side := some ⟨i, x.icount, y.rowWait, y.waitAt, y.prog⟩ })
    else s
  | none => s

/-- What waits in a stream is tried again, in the order of its issue. -/
def retryAll (p : Nat) (id : StreamId) (row : Bool) (s : State) : State :=
  retry p id row (if id = .m then retrySide p row s else s)

/-- QUEUE_WAIT_END (R101): the queue has come to room or entries, and the instruction goes on. -/
def execQueueWaitEnd (p : PressId) (id : StreamId) (s : State) : Out := .next (retryAll p.val id false s)

/-- RELEASE_WAIT_END (R69): the row has been popped, and the pass or wide add goes on. -/
def execReleaseWaitEnd (p : PressId) (s : State) : Out := .next (retryAll p.val .m true s)

/-! ## What the registers show of the streams (R161) -/

/-- Whether the next word of a stream waits for a load or pass beside it (R81). -/
def Stream.blocked (x : Stream) : Bool := match x.side with
  | some y => match x.mem[x.pc]? with
    | some w => !proceeds y.issue.word w
    | none => true
  | none => false

/-- STATE of a stream in an attempt: one that has ended or waits at a mark, in a press that does not stand, is DORMANT (R151). -/
def streamStateCode (p : Press) (x : Stream) : Nat := match x.state with
  | .idle => 0
  | .running => if x.blocked then 2 else 1
  | .queueWait => 2
  | .markWait => if p.power == .stand then 3 else 6
  | .ended => if p.power == .stand then 4 else 6
  | .stopped => 5

/-- STREAM_STATUS of a stream in an attempt. -/
def streamStatus (p : Press) (x : Stream) : Nat :=
  x.icount.toNat + x.pc % 4096 * 2 ^ 32 + streamStateCode p x * 2 ^ 44 + x.tag.toNat * 2 ^ 48

/-- PROGRAM_STATUS in an attempt. -/
def programStatus (p : Press) : Nat :=
  p.mLen.toNat + p.vLen.toNat * 2 ^ 16 + p.xLen.toNat * 2 ^ 32 + p.variant.toNat * 2 ^ 48

/-- The registers as the attempt leaves them (R161). -/
def Press.show (p : Press) : Press :=
  { p with shown := #v[BitVec.ofNat 64 (streamStatus p p.m), BitVec.ofNat 64 (streamStatus p p.v), BitVec.ofNat 64 (streamStatus p p.x)]
           shownProgram := BitVec.ofNat 64 (programStatus p) }

end Sys2Proof.Machine
end

