-- ==== Sys2Proof/Machine/Timetable.lean ====
section
/-! DEFINITION. Launch and the copy before it (R24, R54, R55, R67, R93, R99, R125, R136, R148, R160), readiness tests,
holds and their ends (R30 to R36), the end count and drain (R41, R42, R247), and the watchdog of fault run-out (R50, R246). -/

namespace Sys2Proof.Machine

open Sys2Proof

/-! ## The copy of R148 -/

/-- The operating point in force at the announced launch: that of the change being applied, or of a pending change whose switch
count has been computed for it (R58, R287, R288). -/
def launchPoint (s : State) : Nat :=
  match s.power.applying, s.power.pendingPoint with
  | some (p, _), _ => p.toNat
  | none, some (p, _) => if s.power.switchAt.isSome then p.toNat else s.power.point.toNat
  | none, none => s.power.point.toNat

/-- The chosen placement of the loaded forme (R357). -/
def State.placed (s : State) : Option Placement := s.forme.forme.bind (fun f => f.chip.placements[s.forme.placement.toNat]?)

/-- The sections of the chosen placement in a variant. -/
def State.variantPart (s : State) (v : Nat) : Option VariantPart := s.placed.bind (fun p => (p.variants[v]?).join)

/-- First KiB of a variant's program image in press store, and of its parts: M, V, X, gap map and send list (R164). -/
def imageBase (v : Nat) : Nat := 9600 + 201 * v

/-- `n` instruction words from a KiB of press store. -/
def readWords (m : Memory) (kib n : Nat) : List PressWord :=
  (List.range n).map (fun i => BitVec.ofNat 128 (leNat (memRead blank m (kib * 1024 + 16 * i) 16)))

/-- The KiB of a variant's image among items that are KiB of press store. -/
def imageItems (v : Nat) (items : List Nat) : List Nat :=
  items.filter (fun a => decide (imageBase v ≤ a) && decide (a < imageBase v + 201))

/-- Press store as the copy reads a variant's image through the code: an entry beyond correction reads as zero (R167; log entry
145). -/
def imageRead (v : Nat) (e : Reads) (m : Memory) : Memory :=
  (imageItems v e.uncorrectable).foldl (fun m a => memClear (a * 1024) 1024 m) m

/-- One press's copy, with what the code found: the used lengths are those of the forme's program (R148, R167). -/
def copyProgram (v : Nat) (g : Program) (e : Reads) (p : Press) : Press :=
  let b := imageBase v
  let m := imageRead v e p.store
  { p with
    m := { p.m with mem := readWords m b g.m.length }
    v := { p.v with mem := readWords m (b + 64) g.v.length }
    x := { p.x with mem := readWords m (b + 128) g.x.length }
    gap := BitVec.ofNat 4096 (leNat (memRead blank m ((b + 192) * 1024) 512))
    send := (List.range g.send.length).map (fun i => BitVec.ofNat 64 (leNat (memRead blank m ((b + 193) * 1024 + 8 * i) 8)))
    corrected := p.corrected + BitVec.ofNat 32 (imageItems v e.corrected).length
    uncorrectable := if (imageItems v e.uncorrectable).isEmpty then p.uncorrectable else satInc p.uncorrectable
    mLen := BitVec.ofNat 13 g.m.length, vLen := BitVec.ofNat 13 g.v.length, xLen := BitVec.ofNat 13 g.x.length
    loads := p.loads + 1, variant := BitVec.ofNat 2 v }

/-- The copy of the press in a slot, where the variant has a program for it. -/
def copySlot (v : Nat) (part : VariantPart) (s : State) (x : Nat × Nat) : State := match part.programs[x.1]? with
  | some g =>
    let (e, s) := s.drawReads
    s.modPress x.2 (copyProgram v g e)
  | none => s

/-- Whether the copy waits for a change of point to end: one whose switch count had passed when the launch was announced
(R288). -/
def copyWaits (s : State) : Bool := s.power.copyAfter && (s.power.switchAt.isSome || s.power.changing)

/-- PROGRAM_COPY (R148, R154, R288, R479): after the announcement, once the chip has drained. A brake outside a step pauses
it. -/
def execProgramCopy (s : State) : Out :=
  .next (if s.tt.inStep || s.tt.nextLaunch.isNone || s.tt.copied || s.power.braking || copyWaits s then s
    else
      let v := launchPoint s
      let s := match s.variantPart v with
        | none => s
        | some part => (s.slots.mapIdx (fun k p => (k, p))).foldl (copySlot v part) s
      { s with tt.copied := true })

/-! ## Launch -/

/-- A stream at the start of an attempt: index 0, ICOUNT 0, and ended where its memory is empty (R135, R136). -/
def launchStream (st : Stream) : Stream :=
  { Stream.reset with
    mem := st.mem, state := if st.mem.isEmpty then .ended else .running
    tag := match st.mem.head? with
      | some w => wTag w
      | none => 0 }

/-- The array, the queues and the flags of any press at a launch: every row and plane EMPTY, every queue empty, and the flags as
R67, R93, R99, R125 and R160 say. -/
def clearAttempt (p : Press) : Press :=
  { p with
    sendPos := 0, sendIdx := 0, outHold := [], foutEcc := [], sampEcc := [], foutStop := false
    queues := p.queues.map (fun q => { q with entries := [], high := 0 })
    bankA := Bank.reset, bankB := Bank.reset, plane0 := none, plane1 := none, badRows := []
    landing := none, landFrom := 0, landLeft := 0, landEcc := Reads.clean, landBuf := [], owed := [], lbHigh := 0, activePlane := 3
    parityError := false, windowMismatch := false, accInvalid := false, accSat := false
    queueEcc := false, readInvalid := false, readSat := false, nanIn := false, overflow := false, invalidOp := false
    periodsAt := p.periods, hazards := 0, hazardRecs := [], touchLand := [], touchX := [] }

/-- A press of the forme at the start of an attempt: its streams run, and its landing list, of `n` records from a KiB of press
store, is whole (R136, R173). -/
def launchPress (kib n : Nat) (p : Press) : Press :=
  { clearAttempt p with m := launchStream p.m, v := launchStream p.v, x := launchStream p.x, landFrom := kib * 1024, landLeft := n }

/-- Where the landing list of press slot `k` begins in its press store, and how many records it has (R173). -/
def State.landingList (s : State) (k : Nat) : Nat × Nat := match s.placed with
  | some pl => (pl.landingAt.getD k 0, (pl.landing.getD k []).length)
  | none => (0, 0)

/-- A walk at the start of an attempt, ended where its list is empty. -/
def launchWalk (list : List (BitVec 64)) : Walk := { Walk.reset with ended := list.isEmpty }

/-- Whether every work of the engine and of SB3 that the announced launch waits for is done (R55, R313, R321, R342, R386). -/
def launchReady (s : State) : Bool :=
  let rows := passRows s.eng.sheet
  let copying (b : Berth) : Bool := match kget s.liv.slots b.livery.toNat with
    | some x => x.copying && x.staged.isSome && !b.group.getLsbD 7
    | none => false
  s.mirror.fetches.isEmpty && !(rows.any (fun b => b.kind != kRestore && s.eng.restores.contains b.waybill))
    && !(rows.any (fun b => b.sparse && s.eng.ranking.contains b.waybill))
    && !(rows.any copying)
    && !logWraps s

/-- Whether a launch may happen now: announced and due, the copy and the commit actions finished, no change of point, wake,
departure or handover in progress (R24, R54, R55, R288, R439, R476, R478). -/
def mayLaunch (s : State) : Bool :=
  s.forme.state == .started && !s.tt.inStep && s.tt.copied && s.rings.commit.isNone && !s.power.changing && s.power.switchAt.isNone
    && s.power.chipState == 0 && s.fw.boot == .running
    && (match s.power.stagger with
      | some (occ, _) => occ != occLaunch && occ != occWake
      | none => true)
    && (match s.tt.nextLaunch with
      | some l => decide (l.toNat ≤ s.now)
      | none => false)
    && !s.near.late.any (·.commit) && launchReady s

/-- The units of the chip at the start of an attempt. -/
def launchUnits (s : State) : State :=
  let s := (s.slots.mapIdx (fun k p => (k, p))).foldl (fun (s : State) (x : Nat × Nat) =>
    s.modPress x.2 (launchPress (s.landingList x.1).1 (s.landingList x.1).2)) (s.modPresses clearAttempt)
  let chan (c : Channel) : Channel :=
    { c with walk := launchWalk (c.streams.getD s.tt.variant.toNat []), coming := [], arrived := [], stepEdc := 0, slot := 0 }
  let far (f : FarPort) : FarPort := { f with walk := launchWalk (f.streams.getD s.tt.variant.toNat []), coming := [] }
  let port (k : Nat) (q : Port) : Port :=
    let q := { q with replayHigh := 0, next := [] }
    if s.portUsed k then
      let w := launchWalk (q.lists.getD s.tt.variant.toNat [])
      { q with walk := w, desp := if w.ended then .ended else .running, record := 0, flow := 0 }
    else { q with desp := .idle }
  { s with
    near.channels := s.near.channels.map chan, far.ports := s.far.ports.map far, ports := s.ports.mapIdx (fun k q => port k q)
    smp.walk := launchWalk s.smpList, smp.rowsTaken := 0, smp.buf := [], smp.outputs := [], smp.released := [], smp.stopped := false
    fab.flowSeq := [], fab.landed := [], dbg.passed := [], dbg.breaks := s.dbg.breaks.map (fun b => { b with hit := false }) }

/-- Rows of the pass whose void bit is set at launch (R317). -/
def launchVoids (s : State) : List Nat :=
  ((passRows s.eng.sheet).filter (fun b => b.voided || (match kget s.eng.shadows b.waybill with
    | some x => x.voided
    | none => false))).map (·.row)

/-- Counters of launches that a copy has delayed (R313, R342, R386). -/
def countWaits (s : State) : State :=
  { s with eng.rankLate := if s.tt.waitRank then s.eng.rankLate + 1 else s.eng.rankLate
           liv.late := if s.tt.waitStage then s.liv.late + 1 else s.liv.late
           mirror.logLate := if s.tt.waitLog then s.mirror.logLate + 1 else s.mirror.logLate
           tt.waitRank := false, tt.waitStage := false, tt.waitLog := false }

/-- The final completion of the FORME_START whose first launch this is (R422). -/
def startDone (s : State) : State := match s.barrier.startCmd with
  | some d => formeDone d (resAt 16 s.tt.step.toNat + resAt 24 s.tt.attempt.toNat)
      { s with barrier.startCmd := none }
  | none => s

/-- A change of point that named this step has been applied: its command completes (R422). -/
def pointLaunched (s : State) : State := match s.power.applying with
  | some (_, step) => if s.power.changing || s.tt.step < step then s else pointDone s
  | none => s

/-- LAUNCH (R24, R54, R285): TT starts at 0 at the moment of launch, and what the launch lost is added to the slip. A press
stream, a sequencer or a despatcher begins once its own local station time reaches the count. -/
def execLaunch (s : State) : Out :=
  .next (match s.tt.nextLaunch with
    | none => s
    | some l =>
      if !mayLaunch s then s
      else
        let late := s.now - l.toNat
        let v := s.power.point.toNat
        let e := match s.forme.forme with
          | some f => f.tt.endCount.getD v 0
          | none => 0
        let s := countWaits s
        let s := { s with
          tt.inStep := true, tt.draining := false, tt.drained := false, tt.runout := false, tt.runoutAt := 0, tt.tt := 0
          tt.step := s.tt.nextStep, tt.attempt := s.tt.nextAttempt, tt.holds := [], tt.launched := s.time.ns, tt.nextLaunch := none, tt.launchCount := l.toNat
          tt.late := if late = 0 then s.tt.late else s.tt.late + 1, tt.slip := BitVec.ofNat 32 (satNat 32 late)
          tt.fault := 0, tt.faultAt := 0, tt.stepHoldNs := 0, tt.causeNs := .replicate 9 0, tt.copied := false
          tt.endCount := e, tt.variant := s.power.point, tt.drainAt := 0
          health.fault.more := false, health.fault.tt := 0, barrier.stopped := false }
        let s := launchUnits (stopTraining s)
        let s := { s with eng.voidRows := launchVoids s }
        pointLaunched (startDone (deliverHeld s)))

/-! ## Readiness (R30, R35, R41) -/

/-- The next mark of a unit: value, and for a DUE mark its item; the implicit DEPART mark at the end count where no other is
left (R41). -/
def unitMark (s : State) : UnitId → Nat × Option (Nat × Nat × Nat)
  | .stream p i =>
    let st := (s.press p.val).stream i
    let e := (s.tt.endCount, none)
    match st.mark with
    | some m => (m.value, m.due)
    | none => if st.state == .ended then e else (nextMark (st.mem.map wordItem) st.pc st.loop).getD e
  | .seq c => (walkNextMark (s.seqList c.val) (s.chan c.val).walk).getD (s.tt.endCount, none)
  | .far f => (walkNextMark (s.farList f.val) (s.farPort f.val).walk).getD (s.tt.endCount, none)
  | .despatcher p => (walkNextMark (s.pointsList p.val) (s.port p.val).walk).getD (s.tt.endCount, none)
  | .sampler => match s.smp.walk.mark with
    | some m => (m.value, m.due)
    | none => (nextMark (s.smpList.map smpItem) s.smp.walk.idx s.smp.walk.loop).getD (s.tt.endCount, none)
  | _ => (s.tt.endCount, none)

/-- Whether a walk has done the work before its next mark. -/
def walkReady (w : Walk) : Bool := w.mark.isSome || w.ended

/-- Whether a unit has completed all the work it was given before its next mark (R30). -/
def workDone (s : State) : UnitId → Bool
  | .stream p i =>
    let st := (s.press p.val).stream i
    st.side.isNone && (st.mark.isSome || st.state == .ended)
  | .seq c => walkReady (s.chan c.val).walk && !s.sourceHeld (96 + c.val)
  | .far f => walkReady (s.farPort f.val).walk && !s.sourceHeld (128 + f.val)
  | .despatcher p => walkReady (s.port p.val).walk
  | .sampler => walkReady s.smp.walk
  | _ => true

/-- Whether the item that a unit's next mark awaits is present (R26, R30). -/
def itemPresent (s : State) (u : UnitId) : Bool := match u, (unitMark s u).2 with
  | .stream p _, due => markMet s p.val due
  | .sampler, some _ => s.smpDueMet
  | _, _ => true

/-- The cause of a hold of a unit that is not ready for its mark (R35, R246). -/
def lateCause (u : UnitId) (due : Option (Nat × Nat × Nat)) (absent : Bool) : Cause := match u with
  | .stream _ _ => if absent then dueCause ((due.map (fun d => d.2.2)).getD 0) else .envelope
  | .seq _ => .nearLate
  | .far _ => .farLate
  | .despatcher _ => .linkLate
  | _ => .envelope

/-- Every unit that may pass its mark passes it. -/
def unitGo (u : UnitId) (s : State) : State := match u with
  | .stream p i => streamRelease p.val i s
  | .seq c => seqGo c.val s
  | .far f => farGo f.val s
  | .despatcher p => despGo p.val s
  | .sampler => smpGo s
  | _ => s

/-- Whether the timetable moves a unit of this kind. -/
def followsMarks (s : State) : UnitId → Bool
  | .stream p _ => (s.pressSlot p.val).isSome
  | .seq _ => true
  | .far f => s.farUsed f.val
  | .despatcher p => s.portUsed p.val
  | .sampler => s.isDesk
  | _ => false

/-- A despatcher in fault run-out passes over a slot whose packets are absent (R246). -/
def skipAbsent (u : UnitId) (s : State) : State := match u with
  | .despatcher p =>
    if s.tt.runout && (s.port p.val).walk.busy && !despPresent p.val s then s.modPort p.val despSkip else s
  | _ => s

/-- READINESS_TEST (R30, R35, R41): a unit that is not ready at the test count of its next mark raises a hold. -/
def execReadinessTest (u : UnitId) (s : State) : Out :=
  let s := skipAbsent u (unitGo u s)
  let (v, due) := unitMark s u
  let t := testCount v due
  .next (if !s.tt.inStep || s.tt.draining || !followsMarks s u || s.tt.tt.toNat < t then s
    else
      let absent := due.isSome && !itemPresent s u
      if (workDone s u && !absent) || s.holdsOpen u (fun _ => true) then s
      else
        let s := raiseHold u (lateCause u due absent) (if absent then .due else .readiness) (t + 32) s
        match u with
        | .despatcher p => s.modPort p.val (fun q => { q with holds := q.holds + 1 })
        | _ => s)

/-! ## Releases (R32, R33) -/

/-- Whether the condition of a hold has ended (R33). -/
def holdOver (s : State) (h : Hold) : Bool := match h.kind, h.unit with
  | .due, u => itemPresent s u || (unitMark s u).2.isNone
  | .readiness, u => workDone s u
  | .intrusion, .refresh => !s.near.refreshing
  | .intrusion, .nearRetrain c => !(s.chan c.val).retraining
  | .intrusion, .linkRetrain p => let st := (s.port p.val).state
    st == .active || st == .down || st == .training
  | .intrusion, .power => !s.power.braking
  | .intrusion, .stream p i => ((s.press p.val).stream i).state != .stopped
  | .intrusion, .sampler => !s.smp.stopped
  | .intrusion, _ => true

/-- HOLD_RELEASE (R33): the condition of a unit's hold has ended. A signal box's service ends with its row. -/
def execHoldRelease (u : UnitId) (c : Cause) (s : State) : Out :=
  let s := skipAbsent u s
  .next (releaseHolds (fun h => h.unit == u && h.cause == c && holdOver s h) s)

/-- HOLD_RESUME (R32): a hold that has reached its resume time is no longer outstanding. A despatcher's hold adds to its
port's slip. -/
def execHoldResume (u : UnitId) (c : Cause) (s : State) : Out :=
  let ended (h : Hold) : Bool := h.unit == u && h.cause == c && !h.live s.now
  let gone := s.tt.holds.filter ended
  let s := { s with tt.holds := s.tt.holds.filter (fun h => !ended h) }
  .next (match u with
    | .despatcher p => s.modPort p.val (fun q =>
        { q with slipNs := wrapAdd q.slipNs (sumOf (gone.map (fun h => (h.resume.getD h.raised) - h.raised))) })
    | _ => unitGo u s)

/-- FIRMWARE_SERVICE_INTRUSION (R31, R35). -/
def execFirmwareServiceIntrusion (b : BoxId) (s : State) : Out :=
  .next (if s.holdsOpen (.box b) (fun _ => true) then s else intrude (.box b) .firmware s)

/-! ## The end count and drain (R41, R42, R246, R247) -/

/-- Whether every unit that follows marks has come to its end. -/
def unitsEnded (s : State) : Bool :=
  s.slots.all (fun p => let q := s.press p
    q.m.state == .ended && q.m.side.isNone && q.v.state == .ended && q.x.state == .ended)
    && s.near.channels.toList.all (fun c => c.walk.ended)
    && (List.range 2).all (fun f => !s.farUsed f || (s.farPort f).walk.ended)
    && (List.range 32).all (fun p => !s.portUsed p || (s.port p).walk.ended)
    && (!s.isDesk || s.smp.walk.ended)

/-- END_COUNT_REACHED (R41): TT has reached the end count and no hold is outstanding. The sampler's last outputs are
released with it (R329). -/
def execEndCountReached (s : State) : Out :=
  .next (if s.tt.inStep && !s.tt.draining && decide (s.tt.endCount ≤ s.tt.tt.toNat) && s.liveHolds.isEmpty && unitsEnded s then
      smpRelease { s with tt.draining := true, tt.drainAt := s.now, tt.holds := [] }
    else s)

/-- Whether a PLAN packet belongs to the attempt in progress. -/
def ofAttempt (s : State) (pkt : List Byte) : Bool :=
  !isControl pkt && pkType pkt == 0x40 && pkStep pkt == s.tt.step.toNat && pkAttempt pkt == s.tt.attempt.toNat

/-- Packets of the attempt that a despatcher has passed over: they find no place in its list (R246). -/
def passedOver (s : State) (o : OutPacket) : Bool := s.tt.runout && !o.released && ofAttempt s o.packet

/-- Whether a press has nothing left of the step (R41). -/
def pressDrained (q : Press) : Bool :=
  (List.range 55).all (fun k => (q.queue k).entries.isEmpty) && q.outHold.isEmpty && q.landBuf.isEmpty && q.landing.isNone && q.landLeft == 0
    && q.bankA.rows.isEmpty && q.bankB.rows.isEmpty

/-- Whether a port has nothing left of the attempt, but for packets passed over (R41, R246, R247). -/
def portEmpty (s : State) (q : Port) : Bool :=
  q.txData.all (fun o => !ofAttempt s o.packet || passedOver s o) && q.replay.all (fun f => !ofAttempt s f.packet)
    && q.rx.all (fun r => !ofAttempt s r.packet || (s.tt.runout && r.processed && r.out.isSome))

/-- Whether every inbound packet that the forme expects in the step has landed (R41): what it expects is a field of the chip
part, log entry 117. -/
def inboundLanded (s : State) : Bool := match s.forme.forme with
  | some f => f.chip.inbound.all (fun x => decide (x.2 ≤ (kget s.fab.landed x.1).getD 0))
  | none => true

/-- The conditions of R41. -/
def drainOver (s : State) : Bool :=
  s.slots.all (fun p => pressDrained (s.press p)) && s.conc.isEmpty && inboundLanded s
    && s.near.channels.toList.all (fun c => c.coming.isEmpty && c.arrived.isEmpty)
    && s.far.ports.toList.all (fun f => f.coming.isEmpty && f.writes == 0)
    && (List.range 32).all (fun p => portEmpty s (s.port p))

/-- PLAN packets of the attempt that are still here are discarded and counted STRAY, each at the port that holds it. With `note` the
first records PACKET_DISCARD (R247); at the drain limit the attempt's fault is DRAIN (R42). -/
def discardStray (note : Bool) (s : State) : State :=
  (List.range 32).foldl (fun s p =>
    let gone := (s.port p).txData.filter (fun o => ofAttempt s o.packet)
    let s := s.modPort p (fun q => { q with txData := q.txData.filter (fun o => !ofAttempt s o.packet)
                                            stray := satAdd q.stray (gone.filter (fun o => o.via.isNone)).length })
    let s := gone.foldl (fun s o => viaSent o s) s
    let held := (s.port p).rx.filter (fun r => ofAttempt s r.packet)
    let n := held.length + (gone.filter (fun o => o.via.isSome)).length
    let s := s.modPort p (fun q =>
      held.foldl (fun q r => returnCredits p r.cls.toNat r.packet q)
        { q with rx := q.rx.filter (fun r => !ofAttempt s r.packet), stray := satAdd q.stray n })
    if !note || (gone.isEmpty && held.isEmpty) then s else stepFault fcDiscard (128 + p) s) s

/-- Drain is complete: the chip is outside the step, tries and terminus work may begin, and its report joins those of its
children (R41, R45, R201). STREAM_STATUS keeps what the attempt left (R161). -/
def drained (s : State) : State :=
  let idle (st : Stream) : Stream := { st with mark := none, waiting := none, side := none }
  let s := s.modPresses Press.show
  let s := s.slots.foldl (fun s p => s.modPress p (fun q => { q with m := idle q.m, v := idle q.v, x := idle q.x })) s
  let fault := s.tt.fault
  let status := if fault != 0 then rsFault else if s.barrier.stopPending then rsStop else rsOk
  let own : Report := ⟨s.self32, BitVec.ofNat 8 status, fault, 1, BitVec.ofNat 32 (satNat 32 s.tt.stepHoldNs.toNat),
    if fault = 0 then 0xFFFFFFFF else s.self32⟩
  let s := waitingTries { s with
    tt.inStep := false, tt.draining := false, tt.drained := true, tt.tt := 0, tt.runout := false, tt.holds := [], tt.reported := fault
    barrier.reports := addReport own s.barrier.reports }
  match s.barrier.decided with
  | some body => if s.isRoot then s else performStop body s
  | none => tryReport s

/-- DRAIN_COMPLETE (R41). -/
def execDrainComplete (s : State) : Out :=
  .next (if s.tt.inStep && s.tt.draining && drainOver s then drained (discardStray true s) else s)

/-- DRAIN_LIMIT_EXPIRY (R42, R247): DRAIN is recorded, what remains is discarded, and drain completes. -/
def execDrainLimitExpiry (s : State) : Out :=
  .next (match s.forme.forme with
    | some f =>
      if !(s.tt.inStep && s.tt.draining) || s.now < s.tt.drainAt + 1000 * orDefault f.tt.drainLimit 100 then s
      else
        let s := stepFault fcDrain 0xFF s
        let clear (q : Press) : Press :=
          { q with queues := q.queues.map (fun x => { x with entries := [] }), outHold := [], foutEcc := [], sampEcc := [], foutStop := false, landBuf := []
                   landing := none, landLeft := 0, owed := [], bankA := Bank.reset, bankB := Bank.reset }
        let s := s.slots.foldl (fun s p => s.modPress p clear) s
        let s := { s with conc := [], near.channels := s.near.channels.map (fun c => { c with coming := [], arrived := [] })
                          far.ports := s.far.ports.map (fun x => { x with coming := [], writes := 0 }) }
        drained (discardStray false s)
    | none => s)

/-! ## The watchdog (R50, R246) -/

/-- PLAN_WATCHDOG in ns (R57, R504). -/
def planWatchdog (s : State) : Nat := match s.forme.forme with
  | some f => 1000 * orDefault f.tt.planWatchdog 500
  | none => 500000

/-- Zero entries put in the place of those that a waiting instruction lacks. -/
def feedZeros (p : Nat) (w : PressWord) (s : State) : State :=
  [wSrcA w, wSrcB w, wSrcC w].foldl (fun s q =>
    if q < 48 || q = 50 || q = 51 then
      s.modPress p (fun x => { x with queues := vmod x.queues q (fun y =>
        y.withEntries (y.entries ++ List.replicate (min (y.cap - y.entries.length) (wCount w - y.entries.length)) 0)) })
    else s) s

/-- The load or pass that waits beside the M stream is abandoned: it takes zero entries, and what still waits is dropped (R50). -/
def abandonSide (p : PressId) (s : State) : State :=
  match (s.press p.val).m.side with
  | none => s
  | some x => (retrySide p.val false (feedZeros p.val x.issue.word s)).modPress p.val (fun q => { q with m := { q.m with side := none } })

/-- A press stream abandons the instruction it waits with: it takes zero entries, and what still waits is dropped (R50). -/
def abandonStream (p : PressId) (id : StreamId) (s : State) : State :=
  let s := if id = .m then abandonSide p s else s
  match ((s.press p.val).stream id).waiting with
  | none => s
  | some i =>
    let s := retry p.val id false (feedZeros p.val i.word s)
    if ((s.press p.val).stream id).state == .queueWait then retire i s else s

/-- Zero entries for the reads of a portion that is given up. -/
def zeroReads (source : Nat) (r : Request) (s : State) : State :=
  if r.write then s else { s with conc := s.conc ++ r.addrs.map (fun _ => ⟨r.press, source, ⟨0, 0, 0, 0⟩, 0, 0⟩) }

/-- A unit abandons the work in hand, releases its remaining actions with zero entries, and runs on (R50). -/
def abandon (u : UnitId) (s : State) : State := match u with
  | .stream p i => abandonStream p i s
  | .seq c =>
    let s := match (s.chan c.val).arrived with
      | r :: rest => zeroReads (96 + c.val) r (s.modChan c.val (fun x => { x with arrived := rest }))
      | [] => s
    seqPass c.val s
  | .far f =>
    let s := match (s.farPort f.val).coming with
      | r :: rest => zeroReads (128 + f.val) r (s.modFar f.val (fun x => { x with coming := rest }))
      | [] => s
    farPass f.val s
  | .despatcher p => s.modPort p.val despSkip
  | .sampler =>
    let n := s.smp.walk.left
    { s with smp.outputs := s.smp.outputs ++ (List.range n).map (fun k => emptyRow (s.smp.rowsTaken + k) 0)
             smp.rowsTaken := s.smp.rowsTaken + n, smp.walk := walkNext s.smp.walk }
  | _ => s

/-- Whether a unit is a signal box: the hold of its service is a readiness hold (R35, R50). -/
def isBox : UnitId → Bool
  | .box _ => true
  | _ => false

/-- Whether a unit is a despatcher. -/
def isDespatcher : UnitId → Bool
  | .despatcher _ => true
  | _ => false

/-- PLAN_WATCHDOG_EXPIRY (R50, R246): a DUE hold, or a despatcher's, has lasted too long and the chip goes into run-out; a
readiness hold in run-out, a signal box's service among them (R35), ends, and its unit abandons its work. -/
def execPlanWatchdogExpiry (u : UnitId) (s : State) : Out :=
  .next (match s.tt.holds.find? (fun h => h.unit == u && h.resume.isNone && (h.kind != .intrusion || isBox u)) with
    | none => s
    | some h =>
      let wd := planWatchdog s
      if !s.tt.inStep || s.tt.draining then s
      else if !s.tt.runout then
        if (h.kind == .due || isDespatcher u) && decide (h.raised + wd < s.now) then
          let s := stepFault 3 (unitFault u) s
          let s := skipAbsent u s
          releaseHolds (fun x => x == h && holdOver s x) s
        else s
      else if decide (max h.raised s.tt.runoutAt + wd ≤ s.now) then
        releaseHolds (fun x => x == h) (abandon u s)
      else s)

end Sys2Proof.Machine
end

