-- ==== Sys2Proof/Machine/Forme.lean ====
section
/-! DEFINITION. The forme commands (R350 to R361, R376 to R378, R381 to R383, R386, R387, R391): loading, imposition, start,
stop and unloading. -/

namespace Sys2Proof.Machine

open Sys2Proof

/-! ## What every forme and weight command does (R350, R377, R419) -/

/-- A forme or weight command: BAD_PARAM on a reserved field, or a reserved value of a field where `ok` is false, and BUSY
while another runs (R8, R350, R419). -/
def formeCommandIf (ok : Bool) (d : Descriptor) (used : List (Nat × Nat)) (run : State → State) (s : State) : State :=
  let busy := earlierRuns d s
  let s := cmdBegin d s
  if !(descOk d used && ok) then formeRefuse d stBadParam frStructure s
  else if busy then formeRefuse d stBusy frState s
  else run s

/-- A forme or weight command of whose fields none has a reserved value. -/
def formeCommand (d : Descriptor) (used : List (Nat × Nat)) (run : State → State) (s : State) : State :=
  formeCommandIf true d used run s

/-- A forme or weight command with a block: BAD_PARAM without one, INTERNAL where it could not be read (R410, R419). -/
def formeBlk (d : Descriptor) (used : List (Nat × Nat)) (blk : List Byte) (run : State → State) (s : State) : State :=
  formeCommand d used (fun s =>
    if !hasBlock d then formeRefuse d stBadParam frStructure s
    else if blk.length < d.blockLength.toNat then formeRefuse d stInternal frStructure s
    else run s) s

/-- A command that needs presses or the sampler wakes the chip (R476). -/
def wakeFor (s : State) : State := if s.power.chipState = 0 then s else startWake s

/-! ## The latency sheet (R37 to R39) -/

/-- The maximum of a sheet entry in 0.25 ns, at Stopping, Semi-fast and Express (R38). -/
def sheetCap (b1 : Bool) (cls point : Nat) : Nat :=
  let row := match cls with
    | 0 => [1164, 800, 640]
    | 1 => if b1 then [73, 50, 40] else [88, 60, 48]
    | 2 => [30, 20, 16]
    | 3 => [19, 13, 10]
    | 4 => if b1 then [32, 32, 32] else [36, 36, 36]
    | 5 => if b1 then [1640, 1560, 1520] else [1800, 1720, 1680]
    | 6 => [4656, 3200, 2560]
    | _ => [192, 192, 192]
  row.getD point 0

/-- The latency sheet's entry of a class at a point (R38). -/
def sheetEntry (cls point : Nat) : Nat := max 1 (min (Config.sheetRaw cls point) (sheetCap Config.isB1 cls point))

/-- Whether every sheet entry lies within the forme's envelope at every point it permits (R39). -/
def envelopeOk (t : Timetable) : Bool :=
  (List.range 8).all (fun c => (permitted t).all (fun p => decide (sheetEntry c p ≤ (t.envelope.getD c []).getD p 0)))

/-! ## FORME_LOAD (R355 to R357) -/

/-- Whether R192 permits an indirect far request with a RUN: with INTERLEAVE and RUN a multiple of 8, or with the forme's far
region wholly on one port. -/
def farIndirectOk (s : State) (pl : Placement) (run : Nat) : Bool :=
  if s.far.interleave then run % 8 == 0
  else
    let (base, _) := farArea s 0
    pl.farMiB == 0 || farOf s base == farOf s (base + pl.farMiB * 1024 - 1)

/-- How the far tier serves the far region of a placement, which lies at the start of the FORME area (R191, R192, R359): an
interleaved indirect request falls half to each port. -/
def farView (s : State) (pl : Placement) : FarView :=
  let base := (farArea s 0).1
  { port := fun a => farOf s (base + a)
    share := fun q n => if s.far.interleave then n / 2 else if farOf s base = q then n else 0
    indirect := farIndirectOk s pl }

/-- Whether the presses, ports and channels that the forme names are available (R376). -/
def formeAvailable (s : State) (f : Forme) : Bool :=
  f.chip.presses.all (fun p => s.power.readyPress.getLsbD p && !s.underTest p)
    && (portsOf f.chip.portMask.toNat).all (fun p => (s.port p).enable && !s.underTest (128 + p))
    && (List.range 2).all (fun q => !bitAt f.chip.farMask.toNat q || ((s.farPort q).ready && !s.underTest (160 + q)))
    && (List.range 32).all (fun c => (s.chan c).ready && !s.underTest (96 + c))

/-- KiB of the livery staging area of a forme (R187, R327). -/
def stagingKiB (f : Forme) : Nat := match f.sampler with
  | some p => p.stageSlots * (p.stageBytes / 1024)
  | none => 0

/-- The cache pool's base under a placement (R187). -/
def poolBaseOf (f : Forme) (pl : Placement) : Nat := nearFormeBase + pl.nearKiB + stagingKiB f

/-- Whether a placement fits (R357). -/
def placementFits (s : State) (f : Forme) (c : Nat) (pl : Placement) : Bool :=
  (poolOf f.serving c (poolBaseOf f pl)).fits && decide (pl.farMiB ≤ (vget s.far.areaSize 0 0).toNat)

/-- The bytes of instruction words, as a press store holds them (R128). -/
def wordBytes (l : List PressWord) : List Byte := l.flatMap (fun w => leBytes 16 w.toNat)

/-- A program image written into press store (R164). -/
def putImage (v : Nat) (g : Program) (m : Memory) : Memory :=
  let b := imageBase v
  let m := memWrite blank (b * 1024) (wordBytes g.m) m
  let m := memWrite blank ((b + 64) * 1024) (wordBytes g.v) m
  let m := memWrite blank ((b + 128) * 1024) (wordBytes g.x) m
  let m := memWrite blank ((b + 192) * 1024) (leBytes 512 g.gap.toNat) m
  memWrite blank ((b + 193) * 1024) (g.send.flatMap (fun r => leBytes 8 r.toNat)) m

/-- A landing list written into press store, 32 bits to a record (R164, R173). -/
def putLanding (kib : Nat) (l : List (Nat × Nat)) (m : Memory) : Memory :=
  memWrite blank (kib * 1024) (l.flatMap (fun x => leBytes 4 (x.1 + (x.2 - 1) * 256))) m

/-- Zeroed KiB ranges of a memory. -/
def zeroRanges (l : List (Nat × Nat)) (m : Memory) : Memory := l.foldl (fun m x => memClear (x.1 * 1024) (x.2 * 1024) m) m

/-- Both sides of every platform of a press slot (R165). -/
def sideRanges (f : Forme) (k : Nat) : List (Nat × Nat) :=
  (f.chip.platforms.getD k []).flatMap (fun r => [(r.base0, r.size), (r.base1, r.size)])

/-- A stream at rest, with what its instruction memory holds: only the copy of R148 and self-test change that (R150). -/
def restStream (st : Stream) : Stream := { Stream.reset with mem := st.mem }

/-- A press of a forme as FORME_LOAD leaves it: queue table, images, landing list, zeroed platforms and scratch areas (R97, R164,
R165, R173). -/
def loadPress (f : Forme) (pl : Placement) (k : Nat) (p : Press) : Press :=
  let queue (q : Nat) (r : QueueRow) : Queue := ⟨r.cap, BitVec.ofNat 4 r.producer, BitVec.ofNat 4 r.consumer, [], (p.queue q).high⟩
  let rows := f.chip.queues.getD k []
  let store := zeroRanges (sideRanges f k ++ f.chip.scratch.getD k []) p.store
  let images := (pl.variants.mapIdx (fun v x => (v, x))).foldl (fun (m : Memory) (x : Nat × Option VariantPart) => match x.2 with
    | some part => match part.programs[k]? with
      | some g => putImage x.1 g m
      | none => m
    | none => m) store
  { p with
    queues := .ofFn (fun (q : Fin 64) => queue q.val (rows.getD q.val ⟨0, 0, 0⟩)), store := putLanding (pl.landingAt.getD k 0) (pl.landing.getD k []) images, parity := false, leftOut := false
    bankA := Bank.reset, bankB := Bank.reset, plane0 := none, plane1 := none, landing := none, landLeft := 0, landBuf := [], owed := []
    m := restStream p.m, v := restStream p.v, x := restStream p.x, variant := 3, mLen := 0, vLen := 0, xLen := 0 }

/-- A press that a forme leaves out stays in Shed, but while its self-test runs (R154, R376). -/
def leavePress (testing : Bool) (p : Press) : Press := { (if testing then p else shedPress p) with leftOut := true }

/-- A press with no forme loaded. HIGH_WATER, the instruction memories, the send list and the gap map stay (R125, R150). -/
def unloadPress (p : Press) : Press :=
  { p with queues := p.queues.map (fun q => { Queue.reset with high := q.high }), leftOut := false, variant := 3, mLen := 0, vLen := 0, xLen := 0
           m := restStream p.m, v := restStream p.v, x := restStream p.x, landing := none, landLeft := 0, landBuf := [], owed := [] }

/-- The lists of a unit, one for each variant. -/
def variantLists (pl : Placement) (get : VariantPart → List (BitVec 64)) : List (List (BitVec 64)) :=
  pl.variants.map (fun v => match v with
    | some x => get x
    | none => [])

/-- Streams, lists and transit maps of a placement filled (R175, R192, R243, R244, R329). -/
def fillLists (pl : Placement) (s : State) : State :=
  let chan (k : Nat) (c : Channel) : Channel := { c with streams := variantLists pl (fun x => x.sequencers.getD k []) }
  let far (k : Nat) (c : FarPort) : FarPort := { c with streams := variantLists pl (fun x => x.farStreams.getD k []) }
  let port (k : Nat) (q : Port) : Port :=
    if 32 ≤ k then q
    else
      let l := variantLists pl (fun x => x.points.getD k [])
      { q with lists := l, transit := (l.flatMap pointFlows).dedup }
  { s with near.channels := s.near.channels.mapIdx (fun k c => chan k c), far.ports := s.far.ports.mapIdx (fun k c => far k c)
           ports := s.ports.mapIdx (fun k q => port k q), smp.lists := variantLists pl (fun x => x.samplerMarks) }

/-- Streams, lists and transit maps emptied. -/
def clearLists (s : State) : State :=
  let port (q : Port) : Port := { q with lists := [], transit := [], walk := Walk.reset }
  { s with near.channels := s.near.channels.map (fun c => { c with streams := [], walk := Walk.reset, coming := [], arrived := [] })
           far.ports := s.far.ports.map (fun c => { c with streams := [], walk := Walk.reset, coming := [] })
           ports := s.ports.map port, smp.lists := [], smp.walk := Walk.reset }

/-! ## Pages that a forme leaves behind (R320, R322, R325) -/

/-- One waybill of the desk chip stabled as R325 says, or closed FAULTED where its pages do not fit: the state, and how many
were stabled and faulted. -/
def parkEntry (i : Nat) (acc : State × Nat × Nat) : State × Nat × Nat :=
  let (s, n, k) := acc
  match kget s.eng.table i with
  | none => acc
  | some w =>
    let active := w.state == .prefill || w.state == .decode
    if !active && !(s.holdsPages i && (w.state == .stabled || w.state == .queued || (w.state == .expired && w.ticket != 0))) then acc
    else if stableFits s i (pagesOf w.committed) then
      let s := stablingCopy i (startStable i w.committed (reachLength i w.committed s))
      let s := modWb i (fun w => { w with berth := none, reserved := 0, inPlace := false }) s
      (if active then issueTicketLater i (modWb i (fun w => { w with back := w.state, state := .stabled }) s) else s, n + 1, k)
    else
      let s := closeWb i .faulted stInternal (freePages i s)
      (modWb i (fun w => { w with berth := none, reserved := 0, inPlace := false }) s, n, k + 1)

/-- One shadow of a stage chip: every page that it holds stabled, since the length that the desk has committed may lie beyond
that of the last sheet; or discarded where they do not fit (R322, R325). -/
def parkShadow (i : Nat) (acc : State × Nat × Nat) : State × Nat × Nat :=
  let (s, n, k) := acc
  if !s.holdsPages i then acc
  else if stableFits s i (framesOf s i) then (stablingCopy i (startStable i (128 * framesOf s i) s), n + 1, k)
  else (freePages i s, n, k + 1)

/-- Every waybill's pages on this chip leave the page reserve (R325); `desk` says whether entries are kept here. -/
def parkAll (desk : Bool) (s : State) : State × Nat × Nat :=
  let s := (s.eng.parked.map (·.1)).foldl (fun s i => stablingCopy i s) s
  let (s, n, k) := if desk then (s.eng.table.map (·.1)).foldl (fun acc i => parkEntry i acc) (s, 0, 0)
    else (s.eng.shadows.map (·.1)).foldl (fun acc i => parkShadow i acc) (s, 0, 0)
  ({ s with
      eng.allocs := s.eng.allocs.filter (fun a => a.kind == .input)
      eng.shadows := s.eng.shadows.filter (fun x => (kget s.eng.parked x.1).isSome)
      eng.sheet := [], eng.release := [], eng.nextSheet := [], eng.nextRelease := [], eng.sent := []
      eng.releases := s.eng.releases.filter (fun b => b.2.kind == kRelease)
      eng.restores := [], eng.ranking := [], eng.voidRows := [], mirror.backlog := [], mirror.unsent := [], mirror.logDue := []
      mirror.logRing := 0, mirror.moves := s.mirror.moves.filter (fun m => m.job != .log) }, n, k)

/-- Whether this chip keeps waybill entries. -/
def State.hasEntries (s : State) : Bool := !s.eng.table.isEmpty

/-- Pages that a warm reset left in place are adopted by the same forme; any other first moves them out (R325). -/
def adoptPages (digest : Digest) (f : Forme) (c : Nat) (s : State) : State := match s.eng.adopt with
  | none => { s with eng.adopted := false }
  | some a =>
    let same := decide (a = (digest, f.serving, c))
    let s := if same then s else (parkAll s.hasEntries s).1
    { s with eng.adopt := none, eng.adopted := same }

/-! ## The command -/

/-- Liveries stand outside the staging area until a row names them again (R342, R349). -/
def restage (l : Liv) : Liv :=
  { l with slots := l.slots.map (fun x => (x.1, { x.2 with staged := none, copying := false })), freed := [] }

/-- Step 7 of R355. -/
def storeForme (f : Forme) (c : Nat) (digest : Digest) (k : Nat) (pl : Placement) (s : State) : State :=
  let s := adoptPages digest f c s
  let press (n : Nat) (p : Press) : Press := match f.chip.presses.findIdx? (· == n) with
    | some slot => loadPress f pl slot p
    | none => leavePress (s.underTest n) p
  let s := fillLists pl { s with
    presses := s.presses.mapIdx (fun n p => press n p)
    near.formeSize := BitVec.ofNat 32 pl.nearKiB, near.poolBase := BitVec.ofNat 32 (poolBaseOf f pl)
    liv := restage s.liv
    forme := { FormeSt.reset with
      state := .loaded, chip := BitVec.ofNat 17 c, placement := BitVec.ofNat 2 k, digest := digest, forme := some f
      bytes := s.forme.bytes, strayCopies := s.forme.strayCopies }
    tt.nextStep := 0, tt.nextAttempt := 0, tt.committed := none, tt.aborts := 0
    tt.nextLaunch := none, tt.copied := false, tt.drained := false
    barrier := Barrier.reset }
  nearZero s.near.poolBase.toNat s.pool.slice s

/-- FORME_LOAD (R355). -/
def execFormeLoad (d : Descriptor) (parts : FormeParts) (s : State) : Out :=
  .next (formeCommandIf (decide (pArg d 28 1 < 2)) d [(24, 4), (28, 1)] (fun s =>
    let c := pArg d 24 4
    let digest := digestOf parts.index
    let desk := parts.forme.serving.desk == c
    if !hasBlock d || d.blockLength.toNat < 48 then formeRefuse d stBadParam frStructure s
    else if s.loaded then formeRefuse d stBusy frState s
    else if !s.fab.gidValid then formeRefuse d stBadParam frGid s
    else if leAt parts.index 12 4 ≤ c then formeRefuse d stBadParam frChip s
    else if !indexOk parts.index then formeRefuse d stBadParam frStructure s
    else if leAt parts.index 8 4 != s.fw.running.toNat then formeRefuse d stBadParam frRelease s
    else if sha256 parts.common != sliceBytes parts.index 32 32 || sha256 parts.chip != sliceBytes parts.index (64 + 32 * c) 32 then
      formeRefuse d stVerifyFail frDigest s
    else if parts.forme.tt.chipCount != leAt parts.index 12 4 || !partOk parts.forme desk true parts.common
        || !partOk parts.forme desk false parts.chip then formeRefuse d stBadParam frStructure s
    else match readForme parts desk with
      | none => formeRefuse d stBadParam frRule s
      | some f =>
        if !loadRules f c (farView s) then formeRefuse d stBadParam frRule s
        else if !formeAvailable s f then formeRefuse d stBadParam frUnavailable s
        else if pArg d 28 1 = 0 && !envelopeOk f.tt then formeRefuse d stEnvelope frEnvelope s
        else match (f.chip.placements.mapIdx (fun k p => (k, p))).find? (fun x => placementFits s f c x.2) with
          | none => formeRefuse d stNoRoom frPlacement s
          | some (k, pl) =>
            formeDone d (resAt 16 k + resAt 24 (leNat ((sha256 parts.index).take 8))) (pageChange s (storeForme f c digest k pl (wakeFor s)))) s)

/-! ## FORME_IMPOSE (R358 to R361, R382) -/

/-- Entry `i` of a route: port and tee bit. -/
def routeHop (r : Route) (i : Nat) : Nat := fld r.path.toNat (6 * i) 6

/-- Why a route cannot be patched. -/
inductive PatchFail where
  | noRoute | length | mismatch
  deriving DecidableEq, Repr

/-- The reason of R377 for a failed patch. -/
def patchReason : PatchFail → Nat
  | .noRoute => frNoRoute
  | .length => frRouteLength
  | .mismatch => frRouteMismatch

/-- A route patched from the table entry of the bound destination (R360): the imposed route and whether a port changed. -/
def patchRoute (entry : Nat) (strict control : Bool) (r : Route) : Except PatchFail (Route × Bool) :=
  match entryRoute entry with
  | none => .error .noRoute
  | some t =>
    let port (x : Route) (i : Nat) : Nat := routeHop x i % 32
    let same (i : Nat) : Bool := port t i == port r i
    if t.hops != r.hops then .error .length
    else if !same 0 then .error .mismatch
    else if control && 6 < r.hops then .error .length
    else if strict && !(List.range r.hops).all same then .error .mismatch
    else
      let path := sumOf ((List.range r.hops).map (fun i => (port t i + 32 * (routeHop r i / 32)) * 2 ^ (6 * i)))
      .ok (⟨BitVec.ofNat 84 path, r.hops⟩, !(List.range r.hops).all same)

/-- Routes patched in order; the first that fails ends it. -/
def patchAll (entry : Nat → Nat) (strict control : Bool) : List (Nat × Nat × Route) → Except PatchFail (List (Nat × Route × Bool))
  | [] => .ok []
  | (k, dest, r) :: l => do
    let x ← patchRoute (entry dest) strict control r
    let rest ← patchAll entry strict control l
    .ok ((k, x) :: rest)

/-- The imposed record of a flow, 16 B (R241, R361). No bits of it are given to the destination's GID: DESIGN CHOICE, log entry
153. -/
def flowBytes (x : FlowRec) (r : Route) : List Byte :=
  leBytes 16 (r.path.toNat + r.hops * 2 ^ 84 + x.sourceSlot * 2 ^ 88 + x.sourceChip * 2 ^ 96 + x.keyIndex * 2 ^ 126)

/-- Whether the key slots hold the keys that a forme needs (R358). -/
def keySlotsOk (n : Nat) (keys : List Nat) : Bool :=
  let used := keys.take n
  used.all (fun k => decide (1 ≤ k)) && used.dedup.length == used.length && (keys.drop n).all (· == 0)

/-- Whether a partner table is legal (R382). -/
def partnersOk (n : Nat) (l : List Nat) : Bool :=
  let named := l.filter (· != 0xFFFFFFFF)
  (l.mapIdx (fun c p => (c, p))).all (fun (x : Nat × Nat) => x.2 == 0xFFFFFFFF || (x.2 != x.1 && decide (x.2 < n)))
    && named.dedup.length == named.length

/-- The tables of an imposition. -/
structure Impose where
  binding : List Nat
  partners : List Nat
  keys : List Nat
  strict : Bool

/-- The three actions of imposition (R359, R360), with the routes patched. -/
def imposeWith (f : Forme) (m : Impose) (blk : List Byte) (flows tree void : List (Nat × Route × Bool)) (s : State) : State :=
  let farMiB := match s.placed with
    | some p => p.farMiB
    | none => 0
  let keys : Vector (BitVec 16) 4 := .ofFn (fun i => BitVec.ofNat 16 (m.keys.getD i.val 0))
  let recs := flows.flatMap (fun x => match f.flows[x.1]? with
    | some y => flowBytes y x.2.1
    | none => [])
  let n := f.tt.chipCount
  let gid (c : Nat) : BitVec 20 := BitVec.ofNat 20 (m.binding.getD c 0)
  let source := match m.partners.findIdx? (· == s.chipIndex) with
    | some c => gid c
    | none => 0
  let partner := match m.partners[s.chipIndex]? with
    | some p => if p = 0xFFFFFFFF then 0 else gid p
    | none => 0
  { s with
    forme := { s.forme with
      state := .imposed, strict := m.strict, rerouted := BitVec.ofNat 16 (satNat 16 (flows.filter (fun x => x.2.2)).length)
      patched := BitVec.ofNat 17 (flows.length + tree.length + void.length)
      imposeDigest := digestOf (blk.take (4 * n) ++ m.keys.flatMap (fun k => leBytes 2 k) ++ recs)
      regionNear := BitVec.ofNat 32 (nearEnd - nearFormeBase), regionNearBase := BitVec.ofNat 32 nearFormeBase
      regionFar := BitVec.ofNat 32 farMiB, regionFarBase := vget s.far.areaBase 0 0
      binding := m.binding.map (fun g => BitVec.ofNat 20 g), partners := m.partners.map (fun p => BitVec.ofNat 32 p), keys := keys
      flows := flows.map (fun x => (x.1, x.2.1)), tree := tree.map (fun x => (x.1, x.2.1))
      voidRoute := match void with
        | x :: _ => x.2.1
        | [] => ⟨0, 0⟩ }
    mirror.sourceGid := source, mirror.partnerGid := partner }

/-- FORME_IMPOSE (R358). -/
def execFormeImpose (d : Descriptor) (blk : List Byte) (s : State) : Out :=
  .next (formeCommandIf (decide (pArg d 32 1 < 2)) d [(24, 8), (32, 1)] (fun s =>
    match s.forme.forme with
    | none => formeRefuse d stBusy frState s
    | some f =>
      let n := f.tt.chipCount
      let word (k : Nat) : Nat := leAt blk (4 * k) 4
      let m : Impose := ⟨(List.range n).map word, (List.range n).map (fun c => word (n + c)),
        (List.range 4).map (fun k => pArg d (24 + 2 * k) 2), pArg d 32 1 == 1⟩
      let c := s.chipIndex
      let entry (chip : Nat) : Nat := s.routeEntry (m.binding.getD chip 0)
      if s.forme.state = .started then formeRefuse d stBusy frState s
      else if !hasBlock d || d.blockLength.toNat != 8 * n then formeRefuse d stBadParam frBinding s
      else if blk.length < d.blockLength.toNat then formeRefuse d stInternal frStructure s
      else if m.binding.any (fun g => decide (2 ^ 20 ≤ g)) then formeRefuse d stBadParam frBinding s
      else if m.binding.getD c 0 != s.fab.gid.toNat then formeRefuse d stBadParam frSelf s
      else if m.binding.dedup.length != n || m.binding.contains 0xFFFFF || !partnersOk n m.partners then
        formeRefuse d stBadParam frBinding s
      else if !keySlotsOk f.keyCount m.keys then formeRefuse d stBadParam frKeys s
      else
        let mine := ((f.flows.mapIdx (fun i x => (i, x))).filter (fun (x : Nat × FlowRec) => x.2.sourceChip == c)).map
          (fun (x : Nat × FlowRec) => (x.1, f.dests.getD x.1 0, x.2.route))
        let tree := f.treeRoutes.map (fun x => (x.1, x.1, x.2))
        let void := match f.serving.voidRoute[c]? with
          | some r => if r.hops = 0 then [] else [(0, nextInStage f.serving c, r)]
          | none => []
        let all : Except PatchFail (List (Nat × Route × Bool) × List (Nat × Route × Bool) × List (Nat × Route × Bool)) := do
          let a ← patchAll entry m.strict false mine
          let b ← patchAll entry m.strict true tree
          let v ← patchAll entry m.strict true void
          .ok (a, b, v)
        match all with
        | .error e => formeRefuse d stBadParam (patchReason e) s
        | .ok (a, b, v) =>
          let s := pageChange s (imposeWith f m blk a b v s)
          formeDone d (resAt 16 s.forme.patched.toNat + resAt 20 s.forme.rerouted.toNat
            + resAt 24 (s.forme.imposeDigest.toNat % 2 ^ 64)) s) s)

/-! ## FORME_START (R52, R252, R256, R257, R376, R383, R386, R387, R391, R473) -/

/-- Ports that the forme's points lists or its route entries name. -/
def namedPorts (s : State) (f : Forme) : List Nat :=
  (List.range 32).filter (fun p => bitAt f.chip.portMask.toNat p
    || s.forme.flows.any (fun x => routePort x.2 == p) || s.forme.tree.any (fun x => routePort x.2 == p)
    || (s.forme.voidRoute.hops != 0 && routePort s.forme.voidRoute == p))

/-- Whether every port that the forme names is unfenced and holds every key of the forme's table (R252). -/
def keysInstalled (s : State) (f : Forme) : Bool :=
  (namedPorts s f).all (fun p => !(s.port p).fenced
    && s.forme.keys.all (fun k => k == 0 || (s.port p).keys.any (fun x => x == k)))

/-- KiB that the MIRROR area must hold for the source of this chip (R383): FRAMES × LAYERS slots, and for the desk chip the
ledger and 1 MiB for each waybill in use. -/
def mirrorNeed (s : State) (f : Forme) : Nat :=
  match s.forme.partners.findIdx? (fun p => p.toNat == s.chipIndex) with
  | none => 0
  | some c =>
    let m := poolOf f.serving c 0
    f.serving.frames * m.layers * (m.frame + 1 + m.head)
      + (if f.serving.desk = c then 8192 + 1024 * s.eng.shadows.length else 0)

/-- KiB of the log staging ring, four passes deep (R385). -/
def ringKiB (v : Serving) (m : LogMap) : Nat := 4 * v.berths * logDepth v * m.rowKiB

/-- Whether the far areas hold what mirroring and the input log need (R383, R386). -/
def startRoom (s : State) (f : Forme) : Bool :=
  decide (mirrorNeed s f ≤ (farArea s 3).2)
    && (match f.chip.pageMap.log with
      | none => true
      | some m => decide (65535 * logSpan s f.serving * m.rowKiB ≤ (farArea s 2).2)
          && (s.mirror.logRing != 0 || (inputRoom (ringKiB f.serving m) s).isSome))

/-- The log staging ring allocated in the cache pool (R385). -/
def allocRing (f : Forme) (s : State) : State := match f.chip.pageMap.log with
  | none => s
  | some m =>
    if s.mirror.logRing != 0 then s
    else match inputRoom (ringKiB f.serving m) s with
      | some a => allocInput 65535 a (ringKiB f.serving m) { s with mirror.logRing := a }
      | none => s

/-- Every platform of the chip zeroed (R387). -/
def zeroPlatforms (f : Forme) (s : State) : State :=
  (f.chip.presses.mapIdx (fun k p => (k, p))).foldl (fun (s : State) (x : Nat × Nat) =>
    s.modPress x.2 (fun p => { p with store := zeroRanges (sideRanges f x.1) p.store })) s

/-- The desk's waybills at a recovery (R387, R391): those in flight, and those that a warm reset stabled in place, become
QUEUED with RESTORING set. -/
def restoreEntry (w : Waybill) : Waybill :=
  if w.state == .prefill || w.state == .decode then
    { w with back := w.state, state := .queued, restoring := true, rebuilt := false, berth := none, reserved := 0 }
  else if w.state == .stabled && w.inPlace then
    { w with state := .queued, restoring := true, rebuilt := false, inPlace := false, ticket := 0, berth := none, reserved := 0 }
  else if w.state == .queued && w.restoring then { w with rebuilt := false, berth := none, reserved := 0 }
  else w

/-- The step after the terminus of the ledger copy in force (R324, R391). -/
def stepAfterLedger (s : State) : BitVec 64 := match ledgerInForce s with
  | some c => BitVec.ofNat 64 (copyTerminus s c + 1)
  | none => s.tt.nextStep

/-- Whether this chip holds its pages in place, as after a warm reset (R391). -/
def pagesInPlace (s : State) : Bool := s.eng.adopted || s.eng.shadows.any (fun x => x.2.committed != 0)

/-- What a start that names a rebuilt chip does on this chip (R387, R391). -/
def beginRecovery (f : Forme) (c : Nat) (s : State) : State :=
  let next := match s.tt.committed with
    | some k => k + 1
    | none => if s.tt.nextStep = 0 && c = s.chipIndex && pagesInPlace s then stepAfterLedger s else s.tt.nextStep
  let s := zeroPlatforms f { s with
    eng.sheet := [], eng.release := [], eng.nextSheet := [], eng.nextRelease := []
    tt.nextStep := next, tt.nextAttempt := 0
    mirror.rebuilding := c == s.chipIndex }
  let s := if s.isDesk then { sendAgain s with eng.table := s.eng.table.map (fun x => (x.1, restoreEntry x.2)) } else s
  if c != s.chipIndex then s
  else if s.isDesk then
    if pagesInPlace s then
      let owed := (s.eng.table.filter (fun x => x.2.restoring)).map (·.1)
      settleRebuild owed.length { s with
        mirror.owed := owed, eng.shadows := s.eng.shadows.map (fun x => (x.1, { x.2 with start := x.2.committed })) }
    else beginFetches [⟨0xFFFF, 1, 0, 0⟩] s
  else beginFetches [⟨0xFFFF, 0, 0, 0⟩] s

/-- The lists, spans and windows of a first pass that serves no waybill (R295, R308). -/
def prepareFirst (f : Forme) (s : State) : State :=
  if s.eng.sheet.isEmpty then processSheet ((List.range f.serving.berths).map emptyBerth) [] s else s

/-- A start accepted (R47, R52, R422, R426). -/
def acceptStart (d : Descriptor) (f : Forme) (count rebuilt : Nat) (old : State) : State :=
  let s := { old with
    forme.state := .started, tt.aborts := 0
    barrier := { old.barrier with
      startCmd := some d, startCount := some (BitVec.ofNat 64 count), stopped := false, ready := false, readySent := false
      reported := false, decided := none, reports := []
      rebuilt := if rebuilt = 0xFFFFFFFF then none else some (BitVec.ofNat 32 rebuilt) } }
  let s := if rebuilt = 0xFFFFFFFF then { s with mirror.rebuilding := false } else beginRecovery f rebuilt s
  formeQueued d (pageChange old (prepareFirst f (allocRing f s)))

/-- FORME_START (R422). -/
def execFormeStart (d : Descriptor) (s : State) : Out :=
  .next (formeCommand d [(24, 8), (32, 4)] (fun s =>
    let count := pArg d 24 8
    let rebuilt := pArg d 32 4
    match s.forme.forme with
    | none => formeRefuse d stBusy frState s
    | some f =>
      if s.forme.state != .imposed && !(s.forme.state == .started && s.barrier.stopped) then formeRefuse d stBusy frState s
      else if count ≤ s.now then formeRefuse d stExpired frState s
      else if s.barrier.stopped && s.tt.attempt = 255 && s.tt.nextStep = s.tt.step && s.tt.nextAttempt = 0 then
        formeRefuse d stBusy frState s
      else if rebuilt != 0xFFFFFFFF && f.tt.chipCount ≤ rebuilt then formeRefuse d stBadParam frRule s
      else if !pointPermitted s s.power.point.toNat then formeRefuse d stBadParam frRule s
      else if !s.forme.sealed then formeRefuse d stBusy frState s
      else if !(portsOf f.chip.portMask.toNat).all (fun p => (s.port p).ready) then formeRefuse d stBusy frUnavailable s
      else if !keysInstalled s f then formeRefuse d stPartition frState s
      else if !startRoom s f then formeRefuse d stNoRoom frState s
      else acceptStart d f count rebuilt (wakeFor s)) s)

/-! ## FORME_STOP and FORME_UNLOAD (R47, R258, R325, R373, R381, R398) -/

/-- FORME_STOP (R47, R381, R422). -/
def execFormeStop (d : Descriptor) (s : State) : Out :=
  .next (formeCommand d [] (fun s =>
    if s.forme.state != .started || s.barrier.stopCmd.isSome then formeRefuse d stBusy frState s
    else if s.barrier.stopped then
      formeDone d 0 (stopForme { s with forme.reason := 0 })
    else formeQueued d { s with barrier.stopCmd := some d, barrier.stopPending := true }) s)

/-- READY of a part cleared (R398): presses, near channels, fabric ports, far ports, and the engine with the sampler. -/
def clearReady (part : Nat) (s : State) : State :=
  if part < 96 then { s with power.readyPress := s.power.readyPress &&& ~~~(BitVec.ofNat 96 (2 ^ part)) }
  else if part < 128 then s.modChan (part - 96) (fun c => { c with ready := false })
  else if part < 160 then s.modPort (part - 128) (fun q => { q with ready := false })
  else if part < 162 then s.modFar (part - 160) (fun q => { q with ready := false })
  else { s with power.readyEngine := false, power.readySampler := false }

/-- Parts of the loaded forme whose latest self-test failed lose READY (R398). -/
def clearFailed (s : State) : State :=
  (s.health.test.toList.mapIdx (fun i t => (i, t))).foldl (fun (s : State) (x : Nat × SelfTest) => if x.2.state = 4 then clearReady x.1 s else s) s

/-- FORME_UNLOAD (R325, R373, R398, R422). -/
def execFormeUnload (d : Descriptor) (s : State) : Out :=
  .next (formeCommand d [] (fun s =>
    if s.forme.state = .started then formeRefuse d stBusy frState s
    else if !s.loaded then formeDone d 0 s
    else
      let old := s
      let (s, n, k) := parkAll s.isDesk s
      let s := clearFailed (clearLists s)
      let s := { s with
        forme := { FormeSt.reset with bytes := s.forme.bytes, strayCopies := s.forme.strayCopies }
        near.formeSize := 0, near.poolBase := BitVec.ofNat 32 nearFormeBase
        presses := s.presses.map unloadPress, tt.nextLaunch := none, tt.copied := false, liv := restage s.liv, eng.adopted := false
        barrier := Barrier.reset, mirror.rebuilding := false, mirror.fetches := [] }
      formeDone d (resAt 16 n + resAt 20 k) (startStagger occShed (pageChange old (showTable s)))) s)

end Sys2Proof.Machine
end

