-- ==== Sys2Proof/Machine/Weights.lean ====
section
/-! DEFINITION. Weight sets (R362 to R375): sources, arrival transforms, the packed format, loading, broadcast, digests and
sealing. -/

namespace Sys2Proof.Machine

open Sys2Proof

/-- Refusal reasons of the weight commands (R377). -/
def frTensor : Nat := 0x30
def frFormatPair : Nat := 0x31
def frLength : Nat := 0x32
def frSourceDigest : Nat := 0x33
def frPacked : Nat := 0x34
def frIncomplete : Nat := 0x35
def frIndex : Nat := 0x36
def frLivery : Nat := 0x37

/-! ## Sources (R365) -/

/-- Bits that an element of a plain source takes (R365): a 6-bit element takes a byte. -/
def sourceBits (src : Nat) : Nat := if src = 0 then 32 else match elemBits src with
  | 6 => 8
  | b => b

/-- Whether a source format is permitted for a tensor (R365). -/
def pairOk (t : Tensor) (src : Nat) : Bool := decide (src ≤ 2) || (src == t.format && !t.tensorScale)

/-- Whether a source is copied unchanged (R365). -/
def copied (t : Tensor) (src : Nat) : Bool := src == t.format

/-- Bytes of the element array of a plain source. -/
def elementBytes (t : Tensor) (src : Nat) : Nat := ceilDiv (t.n * t.k * sourceBits src) 8

/-- Bytes of a plain source (R365). -/
def plainSize (t : Tensor) (src : Nat) : Nat :=
  elementBytes t src + (if copied t src && hasScale src then t.n * ceilDiv t.k 32 else 0)

/-- Element `i` of a plain source. -/
def sourceElem (src : Nat) (a : Array Byte) (i : Nat) : Nat :=
  let at' (k : Nat) : Nat := (a.getD k 0).toNat
  match sourceBits src with
  | 32 => at' (4 * i) + 256 * at' (4 * i + 1) + 65536 * at' (4 * i + 2) + 16777216 * at' (4 * i + 3)
  | 16 => at' (2 * i) + 256 * at' (2 * i + 1)
  | 4 => fld (at' (i / 2)) (4 * (i % 2)) 4
  | _ => at' i % 2 ^ elemBits src

/-- The value of an element of an FP32, BF16 or FP16 source. -/
def sourceVal (src : Nat) (a : Array Byte) (i : Nat) : Val := (vecFmt src).decode (sourceElem src a i)

/-! ## Arrival transforms (R366, R367) -/

/-- EMAX of R367. -/
def scaleEmax (format : Nat) : Int := match format with
  | 3 => 8
  | 4 => 15
  | 11 => 6
  | _ => 2

/-- The exponent of the tensor scale (R367). -/
def scaleExp (t : Tensor) (vs : List Val) : Int :=
  if !t.tensorScale then 0
  else match mxTop vs with
    | none => 0
    | some x => max (-126) (min 127 (x - scaleEmax t.format))

/-- A value divided by 2 to the `e`. -/
def valShift (e : Int) : Val → Val
  | .fin neg m f => .fin neg m (f - e)
  | v => v

/-- A tensor transformed: its scale exponent, its encoded elements at n × K + k, and its block scales at
n × ceil(K / 32) + b. -/
structure Transformed where
  exp : Int
  elems : Array Nat
  scales : Array Nat

/-- The blocks of an MX target (R78, R366). -/
def mxBlocks (t : Tensor) (src : Nat) (a : Array Byte) : List (Nat × List Nat) :=
  (List.range (t.n * ceilDiv t.k 32)).map (fun i =>
    let n := i / ceilDiv t.k 32
    let b := i % ceilDiv t.k 32
    mxConvert t.format ((List.range (min 32 (t.k - 32 * b))).map (fun j => sourceVal src a (n * t.k + 32 * b + j))))

/-- The transform of a plain source (R365 to R367). -/
def transform (t : Tensor) (src : Nat) (bytes : List Byte) : Transformed :=
  let a := bytes.toArray
  let count := t.n * t.k
  if copied t src then
    ⟨0, ((List.range count).map (sourceElem src a)).toArray,
      if hasScale src then (bytes.drop (elementBytes t src)).toArray.map (·.toNat) else #[]⟩
  else if hasScale t.format then
    let blocks := mxBlocks t src a
    ⟨0, (blocks.flatMap (·.2)).toArray, (blocks.map (·.1)).toArray⟩
  else
    let vs := (List.range count).map (sourceVal src a)
    if t.format ≤ 2 then ⟨0, (vs.map (fun v => ((vecFmt t.format).encode v).1)).toArray, #[]⟩
    else
      let e := scaleExp t vs
      ⟨e, (vs.map (fun v => matConvert t.format (valShift e v))).toArray, #[]⟩

/-! ## The tensor image (R363) -/

/-- Element (k, n) as encoded; zero beyond K or N. -/
def Transformed.elem (x : Transformed) (t : Tensor) (k n : Nat) : Nat :=
  if k < t.k && n < t.n then x.elems.getD (n * t.k + k) 0 else 0

/-- The block scale of K index k of column n; 0x7F for a block beyond K or N, which holds only zeros. -/
def Transformed.scale (x : Transformed) (t : Tensor) (k n : Nat) : Nat :=
  if k < t.k && n < t.n then x.scales.getD (n * ceilDiv t.k 32 + k / 32) 0x7F else 0x7F

/-- Row `r` of the element entries of tile (i, j) (R79, R363). -/
def tileRow (x : Transformed) (t : Tensor) (i j r : Nat) : List Byte :=
  let cell (k c : Nat) : Nat := x.elem t k (256 * j + c)
  if t.paired then (List.range 256).map (fun c => BitVec.ofNat 8 (cell (512 * i + r) c + 16 * cell (512 * i + 256 + r) c))
  else
    let k := 256 * i + r
    match elemBits t.format with
    | 16 => (List.range 256).flatMap (fun c => leBytes 2 (cell k c))
    | 4 => (List.range 128).map (fun c => BitVec.ofNat 8 (cell k (2 * c) + 16 * cell k (2 * c + 1)))
    | _ => (List.range 256).map (fun c => BitVec.ofNat 8 (cell k c))

/-- The image of tile (i, j): the WIN entries of a load of 256 rows (R79, R80, R363). -/
def tileImage (x : Transformed) (t : Tensor) (i j : Nat) : List Byte :=
  let span := if t.paired then 512 else 256
  (List.range 256).flatMap (tileRow x t i j)
    ++ (if hasScale t.format then (List.range (span / 32)).flatMap (fun b =>
          (List.range 256).map (fun c => BitVec.ofNat 8 (x.scale t (span * i + 32 * b) (256 * j + c))))
        else [])

/-- The scale entry (R363): FP32 2^e in lane 0. -/
def scaleEntry (e : Int) : List Byte := leBytes 4 ((e + 127).toNat * 2 ^ 23) ++ zeros 1020

/-- The image of a tensor from its plain source (R363): tiles by j, then by i. -/
def tensorImage (t : Tensor) (src : Nat) (bytes : List Byte) : List Byte :=
  let x := transform t src bytes
  let (ki, nj) := tensorTiles t
  (if t.tensorScale then scaleEntry x.exp else [])
    ++ (List.range nj).flatMap (fun j => (List.range ki).flatMap (fun i => tileImage x t i j))

/-- Bytes of a tensor's image. -/
def imageLength (t : Tensor) : Nat :=
  let (ki, nj) := tensorTiles t
  1024 * ((if t.tensorScale then 1 else 0) + ki * nj * tileKiB t 0)

/-- First byte in the image, and bytes, of a tile or of the scale entry. -/
def imageSpan (t : Tensor) (tile : Nat) : Nat × Nat :=
  if tile = 0xFFFFFFFF then (0, 1024)
  else (1024 * ((if t.tensorScale then 1 else 0) + tile * tileKiB t 0), 1024 * tileKiB t 0)

/-! ## The packed format (R368, R369) -/

/-- Symbols of each length from 1 to 15, in order of symbol value: the canonical order of codes. -/
def canonical (lens : List Nat) : List (List Nat) :=
  (List.range 15).map (fun l => (List.range lens.length).filter (fun s => lens.getD s 0 == l + 1))

/-- Whether code lengths fit in the code space. -/
def lengthsFit (lens : List Nat) : Bool :=
  decide (sumOf (lens.map (fun l => if l = 0 then 0 else 2 ^ (15 - l))) ≤ 2 ^ 15)

/-- One symbol read from a bitstream: at each length, the symbols of that length and the first code of that length. -/
def huffSymbol : List (List Nat) → Nat → Nat → List Bool → Option (Nat × List Bool)
  | [], _, _, _ => none
  | _, _, _, [] => none
  | syms :: more, first, code, b :: bits =>
    let code := 2 * code + bit b
    let first := 2 * first
    if code < first + syms.length then (syms[code - first]?).map (fun s => (s, bits))
    else huffSymbol more (first + syms.length) code bits

/-- `n` symbols read from a bitstream. -/
def huffSymbols (table : List (List Nat)) : Nat → List Bool → Option (List Nat)
  | 0, _ => some []
  | n + 1, bits => match huffSymbol table 0 0 bits with
    | none => none
    | some (s, bits) => (huffSymbols table n bits).map (s :: ·)

/-- The bits of bytes, each from its least significant. -/
def lsbBits (bs : List Byte) : List Bool := bs.flatMap (fun b => (List.range 8).map b.getLsbD)

/-- The nibbles of bytes, low first. -/
def nibbles (bs : List Byte) : List Nat := bs.flatMap (fun b => [b.toNat % 16, b.toNat / 16])

/-- The body of a block decoded to `n` bytes (R369). -/
def blockBody (method n : Nat) (body : List Byte) : Option (List Byte) :=
  let coded (tableBytes symbols : Nat) : Option (List Nat) :=
    let lens := nibbles (body.take tableBytes)
    if body.length < tableBytes || !lengthsFit lens then none
    else huffSymbols (canonical lens) symbols (lsbBits (body.drop tableBytes))
  match method with
  | 0 => if body.length = n then some body else none
  | 1 => (coded 8 (2 * n)).map (fun l => (chunks 2 (2 * n) l).map (fun p => BitVec.ofNat 8 (p.getD 0 0 + 16 * p.getD 1 0)))
  | 2 => (coded 128 n).map (fun l => l.map (BitVec.ofNat 8))
  | _ => none

/-- The blocks of a packed source, until `left` bytes have been decoded (R368, R369). -/
def unpackBlocks : Nat → Nat → List Byte → Option (List Byte)
  | 0, _, _ => none
  | fuel + 1, left, bs =>
    if left = 0 then if bs.isEmpty then some [] else none
    else
      let n := leAt bs 4 4
      let coded := leAt bs 8 4
      let body := (bs.drop 16).take coded
      if bs.length < 16 + coded || leAt bs 1 3 != 0 || n = 0 || 65536 < n || left < n then none
      else match blockBody (leAt bs 0 1) n body with
        | none => none
        | some out =>
          if out.length != n || crc32c out != leAt bs 12 4 then none
          else (unpackBlocks fuel (left - n) (bs.drop (16 + coded))).map (out ++ ·)

/-- Decoded length that a packed source gives (R368). -/
def packedLength (bs : List Byte) : Nat := leAt bs 8 8

/-- A packed source decoded (R368, R369). -/
def unpack (bs : List Byte) : Option (List Byte) :=
  if bs.length < 16 || leAt bs 0 4 != 0x3157504B || leAt bs 4 4 != 0 then none
  else unpackBlocks (bs.length + 1) (packedLength bs) (bs.drop 16)

/-! ## Places (R17, R364) -/

/-- Image bytes of a tensor written at the addresses of one PLACE record, as far as the record covers them. -/
def putPlace (t : Tensor) (off : Nat) (bs : List Byte) (r : PlaceRec) (s : State) : State :=
  let (first, n) := imageSpan t r.tile
  let lo := max first off
  let hi := min (first + n) (off + bs.length)
  if hi ≤ lo then s
  else
    let data := (bs.drop (lo - off)).take (hi - lo)
    let a := 1024 * r.addr + (lo - first)
    match r.cls with
    | 0 => match s.slotPress r.slot with
      | some p => s.modPress p (fun q => { q with store := memWrite blank a data q.store })
      | none => s
    | 1 => nearPut (1024 * nearFormeBase + a) data s
    | _ => farWrite (1024 * (farArea s 0).1 + a) data s

/-- The PLACE records of a tensor in the placement chosen. -/
def State.placesOf (s : State) (tensor : Nat) : List PlaceRec := match s.placed with
  | some p => p.place.filter (fun r => r.tensor == tensor)
  | none => []

/-- Image bytes of a tensor written at every address the PLACE records give (R371, R375). -/
def putImageAt (t : Tensor) (off : Nat) (bs : List Byte) (s : State) : State :=
  (s.placesOf t.id).foldl (fun s r => putPlace t off bs r s) s

/-- The tensor table's record of a tensor. -/
def State.tensor (s : State) (id : Nat) : Option Tensor := match s.forme.forme with
  | some f => f.tensors.find? (fun t => t.id == id)
  | none => none

/-- Bytes counted in WEIGHT_COUNTS. -/
def countBytes (n : Nat) (s : State) : State := { s with forme.bytes := wrapAdd s.forme.bytes n }

/-! ## Load records (R370, R371) -/

/-- A load record (R370). -/
structure LoadRec where
  tensor : Nat
  source : Nat
  flags : Nat
  addr : Nat
  length : Nat
  digest : List Byte
  zero : Bool

/-- A load record read from its 64 bytes. -/
def loadRec (b : List Byte) : LoadRec where
  tensor := leAt b 0 4
  source := leAt b 4 1
  flags := leAt b 5 1
  addr := leAt b 8 8
  length := leAt b 16 8
  digest := sliceBytes b 24 32
  zero := leAt b 6 2 == 0 && leAt b 56 8 == 0

def LoadRec.packed (r : LoadRec) : Bool := bitAt r.flags 0
def LoadRec.fabric (r : LoadRec) : Bool := bitAt r.flags 1

/-- Why a list of load records is refused: the status and the reason, if it is (R371). `placed` asks for a PLACE record. -/
def recordFault (s : State) (placed : Bool) (r : LoadRec) (src : List Byte) : Option Nat :=
  match s.tensor r.tensor with
  | none => some frTensor
  | some t =>
    if placed && (s.placesOf r.tensor).isEmpty then some frTensor
    else if r.fabric then none
    else if !pairOk t r.source then some frFormatPair
    else if (if r.packed then packedLength src else r.length) != plainSize t r.source then some frLength
    else none

/-- A record's source verified and transformed (R371): the image, or the reason of a VERIFY_FAIL. -/
def recordImage (t : Tensor) (r : LoadRec) (src : List Byte) : Except Nat (List Byte) :=
  if r.digest.any (· != 0) && sha256 src != r.digest then .error frSourceDigest
  else if r.packed then match unpack src with
    | some plain => .ok (tensorImage t r.source plain)
    | none => .error frPacked
  else .ok (tensorImage t r.source src)

/-- The records of a list whose images come with them, verified in order; the first failure ends it. -/
def recordImages (s : State) : List (LoadRec × List Byte) → Except Nat (List (Tensor × List Byte × List Byte))
  | [] => .ok []
  | (r, src) :: l => match s.tensor r.tensor with
    | none => .error frTensor
    | some t => do
      let image ← recordImage t r src
      let rest ← recordImages s l
      .ok ((t, src, image) :: rest)

/-- A tensor's image placed, and the tensor present if the chip keeps any of it (R371). -/
def makePresent (x : Tensor × List Byte × List Byte) (s : State) : State :=
  let (t, src, image) := x
  let s := putImageAt t 0 image s
  if (s.placesOf t.id).isEmpty then s
  else { s with forme.present := kset t.id ⟨digestOf image, digestOf src, image.length⟩ s.forme.present }

/-- What both loading commands check and do first (R371): with the images of the records whose sources came, or the
command refused, with no tensor of its list present. -/
def withImages (d : Descriptor) (recs : List LoadRec) (sources : List (List Byte)) (placed : Bool)
    (go : List (Tensor × List Byte × List Byte) → State → State) (s : State) : State :=
  let rows := recs.mapIdx (fun i r => (r, sources.getD i []))
  let names := recs.map LoadRec.tensor
  let plain := rows.filter (fun x => !x.1.fabric)
  let fault := rows.findSome? (fun x => recordFault s placed x.1 x.2)
  if recs.any (fun r => !r.zero || 4 ≤ r.flags) then formeRefuse d stBadParam frStructure (dropTensors names s)
  else if plain.any (fun x => x.2.length != x.1.length) then formeRefuse d stInternal frStructure (dropTensors names s)
  else match fault with
    | some reason => formeRefuse d stBadParam reason (dropTensors names s)
    | none =>
      if names.dedup.length != names.length then formeRefuse d stBadParam frTensor (dropTensors names s)
      else
        let s := countBytes (sumOf (plain.map (fun x => x.2.length))) s
        match recordImages s plain with
        | .error reason => formeRefuse d stVerifyFail reason (dropTensors names s)
        | .ok images => go images (dropTensors names s)

/-- BUSY unless a forme is loaded, is not started, and its weight set is not sealed (R371). -/
def weightCommand (d : Descriptor) (run : State → State) (s : State) : State :=
  if !s.loaded || s.forme.state == .started || s.forme.sealed then formeRefuse d stBusy frState s else run s

/-- Result of a load: tensors made present and bytes received (R422). -/
def loadResult (n bytes : Nat) : Nat := resAt 16 n + resAt 24 bytes

/-- WEIGHTS_LOAD (R371). -/
def execWeightsLoad (d : Descriptor) (blk : List Byte) (sources : List (List Byte)) (s : State) : Out :=
  .next (formeBlk d [] blk (weightCommand d (fun s =>
    let n := d.blockLength.toNat / 64
    let recs := (List.range n).map (fun i => loadRec (sliceBytes blk (64 * i) 64))
    if d.blockLength.toNat % 64 != 0 || 4096 < n then formeRefuse d stBadParam frStructure s
    else withImages d recs sources true (fun images s =>
      let s := images.foldl (fun s x => makePresent x s) (wakeFor s)
      let bytes := sumOf (images.map (fun x => x.2.1.length))
      let open' := (recs.filter LoadRec.fabric).map LoadRec.tensor
      if open'.isEmpty then formeDone d (loadResult images.length bytes) s
      else formeQueued d { s with
        forme.fabricLoad := some ⟨d, recs.map LoadRec.tensor, open', [], images.length, false, bytes⟩ }) s)) s)

/-! ## Broadcast (R374) -/

/-- A broadcast route: the route, and the final GID. -/
def broadcastRoute (b : List Byte) : Route × Nat := (⟨BitVec.ofNat 84 (leAt b 0 11), leAt b 11 1 % 16⟩, leAt b 12 3)

/-- Whether the fields of a broadcast route are legal. -/
def broadcastRouteOk (b : List Byte) : Bool :=
  let (r, g) := broadcastRoute b
  decide (leAt b 0 11 < 2 ^ 84) && decide (leAt b 11 1 < 16) && decide (1 ≤ r.hops) && decide (r.hops ≤ 14) && decide (g < 2 ^ 20)
    && leAt b 15 1 == 0

/-- A service head of R374. -/
def weightHead (kind tensor off len : Nat) (digest : List Byte) : List Byte :=
  leBytes 1 kind ++ leBytes 1 3 ++ zeros 2 ++ leBytes 4 tensor ++ leBytes 8 off ++ leBytes 4 len ++ zeros 12 ++ sliceBytes digest 0 32

/-- The payloads of a tensor's broadcast, WEIGHT_END last (R374). -/
def broadcastPayloads (x : Tensor × List Byte × List Byte) : List (List Byte) :=
  let (t, src, image) := x
  (chunks 4032 image.length image).mapIdx (fun i b => weightHead 1 t.id (4032 * i) b.length [] ++ b)
    ++ [weightHead 2 t.id image.length 0 (sha256 image) ++ sha256 src ++ zeros 32]

/-- A SERVICE packet sent on a broadcast route as given (R374). -/
def sendOn (payload : List Byte) (s : State) (x : Route × Nat) : State :=
  sendCtrl (routePort x.1) (dataPacket 0x41 0 0 x.1 0 0 0 0 s.fab.gid.toNat x.2 0 0 0 payload) none s

/-- The packets of a broadcast queued on every route, and what still awaits their departure (R374). A port that is not READY drops
what is sent to it (R228). -/
def beginBroadcast (d : Descriptor) (routes : List (Route × Nat)) (recs : List LoadRec) (images : List (Tensor × List Byte × List Byte))
    (s : State) : State :=
  let n := (images.filter (fun x => (kget s.forme.present x.1.id).isSome)).length
  let lost := routes.any (fun x => !(s.port (routePort x.1)).ready)
  let s := images.foldl (fun s x => (broadcastPayloads x).foldl (fun s p => routes.foldl (sendOn p) s) s) s
  { s with forme.broadcast := some ⟨d, loadResult n (sumOf (images.map (fun x => x.2.1.length))), recs.map LoadRec.tensor, lost⟩ }

/-- WEIGHTS_BROADCAST (R374). -/
def execWeightsBroadcast (d : Descriptor) (blk : List Byte) (sources : List (List Byte)) (s : State) : Out :=
  .next (formeBlk d [(24, 1)] blk (weightCommand d (fun s =>
    let routes := pArg d 24 1
    let size := d.blockLength.toNat - 16 * routes
    let rows := (List.range routes).map (fun i => sliceBytes blk (16 * i) 16)
    let recs := (List.range (size / 64)).map (fun i => loadRec (sliceBytes blk (16 * routes + 64 * i) 64))
    if routes = 0 || 16 < routes || d.blockLength.toNat < 16 * routes + 64 || size % 64 != 0 || 4096 < size / 64
        || !rows.all broadcastRouteOk || recs.any LoadRec.fabric then formeRefuse d stBadParam frStructure s
    else withImages d recs sources false (fun images s =>
      castGo (beginBroadcast d (rows.map broadcastRoute) recs images (images.foldl (fun s x => makePresent x s) (wakeFor s)))) s)) s)

/-! ## Arrival of a broadcast (R375) -/

/-- A copy that no open FABRIC load awaits: discarded and counted. -/
def strayCopy (s : State) : State := { s with forme.strayCopies := satInc s.forme.strayCopies }

/-- Whether a copy for a tensor is awaited by the open FABRIC load. -/
def awaitsCopy (s : State) (tensor : Nat) : Bool := match s.forme.fabricLoad with
  | some l => l.open'.contains tensor
  | none => false

/-- WEIGHT_DATA (R375). -/
def execWeightData (payload : List Byte) (s : State) : Out :=
  let s := serviceTake payload s
  let id := leAt payload 4 4
  let off := leAt payload 8 8
  let data := sliceBytes payload 64 (min (leAt payload 16 4) (payload.length - 64))
  match s.tensor id with
  | none => .next (strayCopy s)
  | some t =>
    if !awaitsCopy s id then .next (strayCopy s)
    else
      let keep (l : FabricLoad) : FabricLoad :=
        { l with received := kset id ((off, data) :: (kget l.received id).getD []) l.received, bytes := l.bytes + data.length }
      .next (putImageAt t off data (countBytes data.length { s with forme.fabricLoad := s.forme.fabricLoad.map keep }))

/-- The image that the portions of a tensor spell, if every byte of it has arrived. -/
def assembled (n : Nat) (parts : List (Nat × List Byte)) : Option (List Byte) :=
  let parts := sortBy (fun a b => decide (a.1 ≤ b.1)) parts.reverse
  let image := parts.foldl (fun (acc : Option (List Byte)) x => match acc with
    | none => none
    | some bs => if bs.length < x.1 then none else some (bs.take x.1 ++ x.2 ++ bs.drop (x.1 + x.2.length))) (some [])
  image.bind (fun bs => if bs.length = n then some bs else none)

/-- The FABRIC load completes once every tensor of it has reached WEIGHT_END (R375). -/
def fabricDone (s : State) : State := match s.forme.fabricLoad with
  | none => s
  | some l =>
    if !l.open'.isEmpty then s
    else
      let s := { s with forme.fabricLoad := none }
      if l.failed then formeRefuse l.cmd stVerifyFail frIncomplete (dropTensors l.tensors s)
      else formeDone l.cmd (loadResult l.present l.bytes) s

/-- WEIGHT_END (R375). -/
def execWeightEnd (payload : List Byte) (s : State) : Out :=
  let s := serviceTake payload s
  let id := leAt payload 4 4
  match s.tensor id, s.forme.fabricLoad with
  | some t, some l =>
    if !l.open'.contains id then .next (strayCopy s)
    else
      let image := assembled (imageLength t) ((kget l.received id).getD [])
      let good := match image with
        | some bs => leAt payload 8 8 == imageLength t && sha256 bs == sliceBytes payload 32 32
        | none => false
      let l := { l with open' := l.open'.erase id, received := kdel id l.received, present := l.present + bit good
                        failed := l.failed || !good }
      let s := { s with forme.fabricLoad := some l }
      let s := match good, image with
        | true, some bs => { s with
            forme.present := kset id ⟨digestOf bs, BitVec.ofNat 256 (leAt payload 64 32), bs.length⟩ s.forme.present }
        | _, _ => s
      .next (fabricDone s)
  | _, _ => .next (strayCopy s)

/-- BROADCAST_TIMEOUT (R375). -/
def execBroadcastTimeout (s : State) : Out := .next (match s.forme.fabricLoad with
  | none => s
  | some l => formeRefuse l.cmd stExpired frIncomplete (dropTensors l.tensors { s with forme.fabricLoad := none }))

/-! ## Digests and sealing (R372, R373) -/

/-- The index record of a tensor present (R372). -/
def indexRecord (s : State) (x : Nat × Present) : List Byte :=
  let (format, paired) := match s.tensor x.1 with
    | some t => (t.format, t.paired)
    | none => (0, false)
  leBytes 4 x.1 ++ leBytes 1 format ++ leBytes 1 (bit paired) ++ zeros 2 ++ leBytes 8 x.2.length ++ digestBytes x.2.image

/-- WEIGHTS_DIGEST, READ (R372). -/
def execWeightsDigestRead (d : Descriptor) (s : State) : Out :=
  .next (formeCommandIf (decide (pArg d 24 1 = 0)) d [(24, 1)] (fun s =>
    let n := s.forme.present.length
    if n != 0 && !replyOk s d (ceilDiv (80 * n) 1024) then formeRefuse d stBadParam frStructure s
    else if n = 0 then formeDone d 0 s
    else finishReply d stDone (resAt 16 n) (s.forme.present.flatMap (fun x => indexRecord s x ++ digestBytes x.2.source))
      (showPresent d { s with forme.reason := 0 })) s)

/-- Tensors that the chip's PLACE section names. -/
def State.neededTensors (s : State) : List Nat := match s.placed with
  | some p => (p.place.map PlaceRec.tensor).dedup
  | none => []

/-- Whether a weight index agrees with what the chip holds (R372). -/
def sealOk (s : State) (recs : List (List Byte)) : Bool :=
  ascending (recs.map (fun r => leAt r 0 4))
    && s.neededTensors.all (fun t => match kget s.forme.present t with
      | some p => recs.contains (indexRecord s (t, p))
      | none => false)

/-- WEIGHTS_DIGEST, SEAL (R372). -/
def execWeightsDigestSeal (d : Descriptor) (blk : List Byte) (s : State) : Out :=
  .next (formeCommandIf (decide (pArg d 24 1 = 1)) d [(24, 1)] (fun s =>
    let n := d.blockLength.toNat / 48
    let recs := (List.range n).map (fun i => sliceBytes blk (48 * i) 48)
    let digest := digestOf (blk.take (48 * n))
    if d.blockLength.toNat % 48 != 0 || (d.blockLength != 0 && d.block == 0) then
      formeRefuse d stBadParam frStructure s
    else if blk.length < d.blockLength.toNat then formeRefuse d stInternal frStructure s
    else if !sealOk s recs then formeRefuse d stVerifyFail frIndex s
    else if s.liv.slots.any (fun x => x.2.valid && x.2.weightDigest != digest) then formeRefuse d stBusy frLivery s
    else formeDone d (resAt 16 (digest.toNat % 2 ^ 128)) (pageChange s { s with forme.sealed := true, forme.weightDigest := digest })) s)

/-- WEIGHTS_FREE (R373). -/
def execWeightsFree (d : Descriptor) (s : State) : Out :=
  .next (formeCommand d [] (fun s =>
    if s.forme.state == .started then formeRefuse d stBusy frState s
    else if s.liv.slots.any (fun x => x.2.valid) then formeRefuse d stBusy frLivery s
    else formeDone d 0 (pageChange s { s with forme.present := [], forme.sealed := false, forme.weightDigest := 0 })) s)

end Sys2Proof.Machine
end

