-- ==== Sys2Proof/Machine/Registers.lean ====
section
/-! DEFINITION. Reads of control space (R5, R7, R264, R411): the value of every register, field by field, at its offset. -/

namespace Sys2Proof.Machine

open Sys2Proof

/-- The index of an element of a register array: `n` elements from `base`, `stride` apart. -/
def regIndex (off base stride n : Nat) : Option Nat :=
  if base ≤ off && (off - base) % stride == 0 && decide ((off - base) / stride < n) then some ((off - base) / stride) else none

/-- The first of some register arrays that holds an offset: base, stride, elements, and the value of an element. -/
def regFind (off : Nat) : List (Nat × Nat × Nat × (Nat → Nat)) → Option Nat
  | [] => none
  | (base, stride, n, f) :: l => match regIndex off base stride n with
    | some i => some (f i)
    | none => regFind off l

/-- A single register. -/
def reg1 (base v : Nat) : Nat × Nat × Nat × (Nat → Nat) := (base, 8, 1, fun _ => v)

/-- Bits set for the elements of a range that satisfy a condition. -/
def bitsOf (n : Nat) (p : Nat → Bool) : Nat := sumOf ((List.range n).map (fun i => bit (p i) * 2 ^ i))

/-- 64 bits of a digest, as register `i` of four. -/
def digestReg (d : Digest) (i : Nat) : Nat := fld d.toNat (64 * i) 64

/-! ## IDENT, READY/RESET, STATION, TIMETABLE, CLOCKS, POWER, HEALTH, DEBUG -/

/-- IDENT_PART. -/
def identPart : Nat := 0x96 + (if Config.isB1 then 0xB1 else 0xB0) * 2 ^ 16 + 96 * 2 ^ 24 + Config.romVersion.toNat * 2 ^ 32

/-- LATENCY_SHEET[c] (R38). -/
def latencySheet (c : Nat) : Nat := sheetEntry c 0 + sheetEntry c 1 * 2 ^ 16 + sheetEntry c 2 * 2 ^ 32

/-- IDENT_KEY_ID[i]. -/
def identKey (i : Nat) : Nat := if i < 4 then digestReg edKeyId i else digestReg mldsaKeyId (i - 4)

/-- READY_MISC. -/
def readyMisc (s : State) : Nat :=
  bit s.power.readyStation + 2 * bit ((s.farPort 0).ready && !s.underTest 160) + 4 * bit ((s.farPort 1).ready && !s.underTest 161)
    + 8 * bit s.kclUp + 16 * bit (s.power.readyEngine && !s.underTest 163) + 32 * bit (s.power.readySampler && !s.underTest 163)
    + 256 * s.power.readyBox.toNat

/-- The code of a full reset's source (RESET_CAUSE.FULL). -/
def sourceCode : FullSource → Nat
  | .powerOn => 0
  | .underVoltage => 1
  | .modReset => 2
  | .lossOfReference => 3
  | .thermalTrip => 4

/-- PIN_FUSE (R463, R464). -/
def pinFuse : Nat := 0b01_01_11_00_01_00_00

/-- TT_STATUS. -/
def ttStatus (s : State) : Nat :=
  let cause := if s.tt.inStep then (match causeOf s.stopping with
      | some c => causeCode c
      | none => 0xF) else 0xF
  s.tt.tt.toNat + bit s.tt.inStep * 2 ^ 40 + bit (!s.liveHolds.isEmpty) * 2 ^ 41 + bit s.tt.draining * 2 ^ 42
    + bit s.tt.runout * 2 ^ 43 + cause * 2 ^ 44 + s.tt.attempt.toNat * 2 ^ 48

/-- POWER_POINT: the change that waits, or else the one being applied. -/
def powerPoint (s : State) : Nat :=
  s.power.point.toNat + bit s.power.changing * 64 + (match (if s.power.pendingPoint.isSome then s.power.pendingPoint else if s.power.changing then s.power.applying else none) with
    | some (p, step) => p.toNat * 16 + 128 + step.toNat % 2 ^ 40 * 256
    | none => 0)

/-- A BREAK register. -/
def breakBits (b : Break) : Nat :=
  b.value.toNat + b.mask.toNat * 2 ^ 32 + bit b.once * 2 ^ 48 + b.press.toNat * 2 ^ 49 + b.unit.toNat * 2 ^ 56
    + b.stream.toNat * 2 ^ 60 + bit b.tagKind * 2 ^ 62 + bit b.armed * 2 ^ 63

/-- Registers below 0x0010_0000. -/
def readSystem (s : State) (off : Nat) : Option Nat := regFind off [
  -- IDENT
  reg1 0x0 identPart, reg1 0x8 Config.serial.toNat, (0x40, 8, 8, identKey), (0x100, 8, 8, latencySheet),
  -- READY/RESET
  reg1 0x10000 (bitsOf 64 (fun n => s.power.readyPress.getLsbD n && !s.underTest n)),
  reg1 0x10008 (bitsOf 32 (fun n => s.power.readyPress.getLsbD (64 + n) && !s.underTest (64 + n))),
  reg1 0x10010 (bitsOf 32 (fun c => (s.chan c).ready && !s.underTest (96 + c))),
  reg1 0x10018 (bitsOf 32 (fun p => (s.port p).ready && !s.underTest (128 + p))),
  reg1 0x10020 (readyMisc s), reg1 0x10040 (s.power.causeFull.toNat + s.power.causeWarm.toNat * 256),
  reg1 0x10048 (s.power.warmResets.toNat + s.power.deferrals.toNat * 2 ^ 16), reg1 0x10080 pinFuse,
  -- STATION
  reg1 0x20000 s.now,
  reg1 0x20008 (s.time.role.toNat + s.time.port.toNat * 32 + s.time.altPort.toNat * 2 ^ 10 + bit s.time.ppsDiscipline * 2 ^ 15
    + s.time.period.toNat * 2 ^ 16),
  reg1 0x20010 (bit s.time.locked + 2 * bit s.time.holdover + 4 * bit s.time.usingAlt + 8 * bit s.time.ppsLocked
    + 16 * bit s.time.stepped + 32 * bit s.time.setRefused + min 15 s.time.steps.toNat * 2 ^ 12 + s.time.errorBound.toNat * 2 ^ 16
    + s.time.master.toNat * 2 ^ 32),
  reg1 0x20018 (s.time.offset.toNat + s.time.delay.toNat * 2 ^ 32),
  reg1 0x20020 (s.time.done.toNat + s.time.lost.toNat * 2 ^ 32 + s.time.replayed.toNat * 2 ^ 48), reg1 0x20028 0,
  (0x20100, 8, 32, fun p => (vget s.time.asym p 0).toNat),
  reg1 0x20200 (s.time.ppsFrac.toNat + s.time.ppsNs.toNat * 256),
  reg1 0x20208 (s.time.ppsEdges.toNat + s.time.ppsIgnored.toNat * 2 ^ 32),
  (0x20300, 8, 6, fun i => (vget s.time.repeater i 0).toNat),
  -- TIMETABLE
  reg1 0x30000 (ttStatus s), reg1 0x30008 s.tt.step.toNat, reg1 0x30010 s.tt.launched.toNat,
  reg1 0x30018 (match s.tt.nextLaunch with
    | some l => l.toNat
    | none => 0),
  reg1 0x30020 (s.tt.slip.toNat + s.tt.late.toNat * 2 ^ 32),
  reg1 0x30028 (s.tt.outcome.toNat + s.tt.reported.toNat * 256 + (if s.isRoot then s.tt.rootFault.toNat else 0) * 2 ^ 24 + s.tt.aborts.toNat * 2 ^ 32),
  reg1 0x30030 s.tt.stepHoldNs.toNat,
  (0x30100, 8, 9, fun c => (vget s.tt.holdNs c 0).toNat), (0x30180, 8, 9, fun c => (vget s.tt.holdCount c 0).toNat),
  reg1 0x30200 s.tt.timingChoice.toNat, (0x30208, 8, 4, fun j => (vget s.tt.tcKind j 0).toNat),
  -- CLOCKS
  reg1 0x40000 s.clk.enNear.toNat, reg1 0x40008 s.clk.enLink.toNat, reg1 0x40010 s.clk.enMisc.toNat,
  reg1 0x40018 (s.clk.refGaps.toNat + s.clk.longestGap.toNat * 2 ^ 16 + s.clk.locked.toNat * 2 ^ 32 + bit s.clk.refused * 2 ^ 48),
  (0x40040, 8, 4, fun d =>
    let x := vget s.clk.domains d Domain.reset
    x.source.toNat + x.div.toNat * 256 + x.divNow.toNat * 2 ^ 24 + bit x.ramping * 2 ^ 32),
  (0x40080, 8, 2, fun j => (vget s.clk.sscDepth j 0).toNat + (vget s.clk.sscRate j 0).toNat * 256 + (vget s.clk.sscNow j 0).toNat * 2 ^ 16),
  -- POWER
  reg1 0x50000 (powerPoint s),
  reg1 0x50008 (s.power.limit.toNat + bit s.power.quietAllow * 2 ^ 16 + bit s.power.deepAllow * 2 ^ 17),
  reg1 0x50010 (s.power.chipState.toNat + 4 * bit s.power.waking + 8 * bit s.power.braking + s.power.sampleW.toNat * 2 ^ 16
    + s.power.meanW.toNat * 2 ^ 28 + s.power.junction.toNat * 2 ^ 40),
  reg1 0x50018 (s.power.brakesPeak.toNat + s.power.brakesMean.toNat * 2 ^ 32),
  reg1 0x50020 s.power.quietNs.toNat, reg1 0x50028 s.power.deepNs.toNat,
  -- HEALTH
  (0x60000, 8, 164, fun i => (vget s.health.score i 0).toNat + (vget s.health.points i 0).toNat * 2 ^ 10),
  reg1 0x60800 s.health.floor.toNat, (0x60810, 8, 3, fun j => fld s.health.alerts.toNat (64 * j) 64),
  reg1 0x60900 (s.health.fault.tt.toNat + s.health.fault.unit.toNat * 2 ^ 40 + s.health.fault.code.toNat * 2 ^ 48
    + bit s.health.fault.more * 2 ^ 63),
  reg1 0x60A00 (satNat 20 s.mirror.backlog.length + s.mirror.partnerGid.toNat * 2 ^ 20 + s.mirror.sourceGid.toNat * 2 ^ 41
    + bit s.mirror.full * 2 ^ 61),
  reg1 0x60A08 (s.mirror.received.toNat + s.mirror.acked.toNat * 2 ^ 32), reg1 0x60A10 s.mirror.logConfig.toNat,
  reg1 0x60A18 (s.mirror.logPositions.toNat + s.mirror.logLate.toNat * 2 ^ 32),
  reg1 0x60A20 (bit s.mirror.rebuilding + s.mirror.rebuilt.toNat * 2 ^ 32 + s.mirror.faulted.toNat * 2 ^ 48),
  (0x60C00, 8, 164, fun i =>
    let x := vget s.health.test i SelfTest.reset
    x.state.toNat + x.progress.toNat * 16 + x.failed.toNat * 2 ^ 20),
  -- DEBUG
  reg1 0x70000 (bit s.dbg.enabled + 2 * bit (!s.dbg.stopped.isEmpty)),
  (0x70100, 8, 8, fun i => breakBits (vget s.dbg.breaks i Break.reset)),
  reg1 0x70180 (s.dbg.hitTt.toNat + s.dbg.hitIndex.toNat * 2 ^ 40 + bit s.dbg.hitValid * 2 ^ 43)]

/-! ## RINGS and KCL, CANCEL, EDITION -/

/-- A ring's configuration register; `auxLo` is where CPL, VECTOR or TENANT lies. -/
def ringCfgBits (c : RingCfg) : Nat :=
  c.base.toNat + c.size.toNat * 2 ^ 24 + c.aux.toNat * 2 ^ 32 + bit c.intr * 2 ^ 62 + bit c.enable * 2 ^ 63

/-- A 16-bit index pair with the driver's index low: CPL_INDEX and EVT_INDEX. -/
def ringIndexBits (r : Ring) : Nat := r.consumer.toNat % 65536 + r.producer.toNat % 65536 * 2 ^ 16

/-- The link-layer registers of a port block (R501). -/
def readLinkLayer (q : Port) (off : Nat) : Option Nat :=
  let credit (c : Nat) : Credit := vget q.credits c Credit.reset
  regFind off [
    reg1 0x0 (linkStatus q),
    reg1 0x8 (q.reachCfg.toNat + q.marginFloor.toNat * 256 + bit q.enable * 2 ^ 16),
    reg1 0x10 (q.txNext.toNat + q.txOldest.toNat * 2 ^ 12 + q.rxExpected.toNat * 2 ^ 24 + q.replay.length % 2 ^ 11 * 2 ^ 36),
    reg1 0x18 (sumOf (q.replay.map (fun f => frameBytes f.packet)) % 2 ^ 21 + q.replayHigh.toNat * 2 ^ 32),
    (0x20, 8, 3, fun c => (credit c).data.toNat + (credit c).hdr.toNat * 2 ^ 16 + (credit c).partnerData.toNat * 2 ^ 32
      + (credit c).partnerHdr.toNat * 2 ^ 48),
    reg1 0x40 (q.fecUncorr.toNat + q.fecCorrected.toNat * 2 ^ 32),
    reg1 0x48 (q.ignored.toNat + q.duplicates.toNat * 2 ^ 16 + q.gaps.toNat * 2 ^ 32 + q.discarded.toNat * 2 ^ 48),
    reg1 0x50 (q.sentAgain.toNat + q.timeouts.toNat * 2 ^ 32),
    reg1 0x58 (q.framesLost.toNat + q.retrainsOut.toNat * 2 ^ 16 + q.retrainsIn.toNat * 2 ^ 32 + q.downEvents.toNat * 2 ^ 48),
    reg1 0x60 (sumOf ((List.range 4).map (fun k => (vget q.margin k 0).toNat * 2 ^ (8 * k)))),
    reg1 0x68 (q.breaches.toNat + q.outOfWindow.toNat * 2 ^ 16 + q.badControl.toNat * 2 ^ 32)]

/-- An output ring's registers. -/
def outRing (s : State) (r : Nat) : Ring := (kget s.rings.out r).getD Ring.reset

/-- Registers from 0x0010_0000 below 0x0100_0000. KCL's block holds the link-layer registers and no others (R501). -/
def readRings (s : State) (off : Nat) : Option Nat :=
  let sub (i : Nat) : Ring := vget s.rings.sub i Ring.reset
  let cpl (j : Nat) : Ring := vget s.rings.cpl j Ring.reset
  if 0x121000 ≤ off && off < 0x122000 then readLinkLayer (s.port 32) (off - 0x121000)
  else regFind off [
    (0x100000, 16, 64, fun i => ringCfgBits (sub i).cfg),
    (0x100008, 16, 64, fun i => (sub i).producer.toNat % 65536 + (sub i).consumer.toNat % 65536 * 2 ^ 16),
    (0x100400, 16, 64, fun j => ringCfgBits (cpl j).cfg), (0x100408, 16, 64, fun j => ringIndexBits (cpl j)),
    reg1 0x100800 (ringCfgBits s.rings.evt.cfg), reg1 0x100808 (ringIndexBits s.rings.evt), reg1 0x100810 s.rings.evtLost.toNat,
    (0x108000, 16, 4096, fun r => ringCfgBits (outRing s r).cfg), (0x108008, 16, 4096, fun r => (outRing s r).consumer.toNat),
    reg1 0x120000 (stateCode (s.port 32).state + bit s.kclUp * 128 + s.kcl.lines.length % 2 ^ 21 * 2 ^ 20 + bit s.kcl.cfgError * 2 ^ 41),
    reg1 0x120008 s.kcl.sharedSize.toNat,
    reg1 0x120010 (s.kcl.recalls.toNat + s.kcl.badMessage.toNat * 2 ^ 16 + s.kcl.snoopTimeouts.toNat * 2 ^ 32
      + s.kcl.unmapped.toNat * 2 ^ 48),
    (0x200000, 8, 1024, fun _ => 0),
    reg1 0x300000 (s.rings.edBase.toNat + bit s.rings.edEnable * 2 ^ 63), reg1 0x300008 s.rings.edMirror.toNat]

/-! ## PRESS n -/

/-- The code of a press's idle state (PRESS_POWER.STATE). -/
def pressStateCode : PressState → Nat
  | .stand => 0
  | .layover => 1
  | .shed => 2

/-- A hazard record's two registers. -/
def hazardA (h : Hazard) : Nat := h.tt.toNat + h.kind.toNat * 2 ^ 40 + h.stream.toNat * 2 ^ 44 + h.tag.toNat * 2 ^ 48
def hazardB (h : Hazard) : Nat := h.icount.toNat + h.location.toNat * 2 ^ 32 + h.other.toNat * 2 ^ 50

/-- A register of a hazard record, 0 where there is no record. -/
def hazardReg (p : Press) (i : Nat) (f : Hazard → Nat) : Nat := match p.hazardRecs[i]? with
  | some h => f h
  | none => 0

/-- QUEUE_STATE (R97): Q48 and Q49 read their banks. -/
def queueState (loaded : Bool) (p : Press) (q : Nat) : Nat :=
  let x := vget p.queues q Queue.reset
  let bank := q = 48 || q = 49
  let held := if q = 48 then p.bankA.queue.length else if q = 49 then p.bankB.queue.length else x.entries.length
  (if bank then if loaded then 256 else 0 else x.cap % 4096) + held % 4096 * 2 ^ 16 + x.high.toNat * 2 ^ 32
    + x.producer.toNat * 2 ^ 44 + x.consumer.toNat * 2 ^ 48

/-- Registers of a press; between drain and launch those of R161 read as the last attempt left them. -/
def readPress (loaded inStep : Bool) (p : Press) (off : Nat) : Option Nat := regFind off [
  (0x100, 8, 3, fun i =>
    if inStep then streamStatus p (if i = 0 then p.m else if i = 1 then p.v else p.x) else (vget p.shown i 0).toNat),
  reg1 0x118 (if inStep then programStatus p else p.shownProgram.toNat),
  reg1 0x120 (p.loads.toNat + p.refetches.toNat * 2 ^ 32),
  reg1 0x200 (p.wakes.toNat + pressStateCode p.power * 2 ^ 32 + bit p.leftOut * 2 ^ 34),
  reg1 0x208 p.layoverNs.toNat, reg1 0x210 p.shedNs.toNat, reg1 0x300 p.hazards.toNat,
  (0x310, 16, 8, fun i => hazardReg p i hazardA), (0x318, 16, 8, fun i => hazardReg p i hazardB),
  reg1 0x400 (bit p.accSat + 2 * bit p.accInvalid + 4 * bit p.windowMismatch + 8 * bit p.parityError + p.activePlane.toNat * 16
    + 64 * bit p.plane0.isSome + 128 * bit p.plane1.isSome),
  reg1 0x408 (p.satCells.toNat + p.invalidCells.toNat * 2 ^ 32), reg1 0x410 p.periods.toNat,
  reg1 0x500 (bit p.invalidOp + 2 * bit p.overflow + 4 * bit p.nanIn + 8 * bit p.readSat + 16 * bit p.readInvalid
    + 32 * bit p.queueEcc),
  reg1 0x508 (p.invalidLanes.toNat + p.readSatCells.toNat * 2 ^ 32), reg1 0x510 p.vecPeriods.toNat,
  reg1 0x600 (bit p.parity + p.scrubPasses.toNat * 2 + p.scrubAddr.toNat * 2 ^ 32),
  reg1 0x608 (p.corrected.toNat + p.uncorrectable.toNat * 2 ^ 32 + p.scrubUncorr.toNat * 2 ^ 48),
  reg1 0x700 (p.laneStops.toNat + p.lbHigh.toNat * 2 ^ 40 + p.stray.toNat * 2 ^ 48),
  (0x800, 8, 64, queueState loaded p), reg1 0xA00 (p.popWaits.toNat + p.pushWaits.toNat * 2 ^ 32)]

/-! ## Near sequencers, FAR, LINK ports, FABRIC -/

/-- A near sequencer's registers. -/
def readSeq (s : State) (c : Nat) (off : Nat) : Option Nat :=
  let x := s.chan c
  regFind off [
    reg1 0x0 (x.retrains.toNat + x.slot.toNat * 2 ^ 16 + bit (x.ready && !s.underTest (96 + c)) * 2 ^ 33 + bit x.trained * 2 ^ 34
      + bit s.near.hotInterval * 2 ^ 35 + x.deferrals.toNat * 2 ^ 40 + x.rate.toNat * 2 ^ 48 + x.temp.toNat * 2 ^ 56),
    reg1 0x8 (x.eccCorrected.toNat + x.edcRead.toNat * 2 ^ 16 + x.edcWrite.toNat * 2 ^ 32 + x.uncorrectable.toNat * 2 ^ 48)]

/-- Registers of the near and far tiers; a gated channel or CXL port reads zero (R264). -/
def readTiers (s : State) (off : Nat) : Option Nat :=
  if off < 0x2020000 && off != 0x2000F00 then
    let c := (off - 0x2000000) / 0x1000
    (readSeq s c ((off - 0x2000000) % 0x1000)).map (fun v => if s.clk.enNear.getLsbD c then v else 0)
  else
    let gated (p v : Nat) : Nat := if s.clk.enMisc.getLsbD p then v else 0
    regFind off [
      reg1 0x2000F00 ((if s.loaded then s.near.poolBase.toNat else 0) * 2 ^ 32 + s.near.formeSize.toNat),
      (0x2100000, 8, 2, fun p =>
        let x := s.farPort p
        gated p (bit (x.ready && !s.underTest (160 + p)) + x.speed.toNat * 256 + x.width.toNat * 2 ^ 16 + x.capacity.toNat * 2 ^ 24)),
      reg1 0x2100010 (bit s.far.interleave + 2 * bit s.far.areaError),
      (0x2100020, 8, 2, fun p =>
        let x := s.farPort p
        gated p (x.retries.toNat + x.poison.toNat * 2 ^ 32 + x.timeouts.toNat * 2 ^ 48)),
      (0x2100100, 8, 5, fun i => (vget s.far.areaBase i 0).toNat + (vget s.far.areaSize i 0).toNat * 2 ^ 32)]

/-- The code of a despatcher's state. -/
def despCode : DespState → Nat
  | .idle => 0
  | .running => 1
  | .waitPacket => 2
  | .waitCredit => 3
  | .markWait => 4
  | .ended => 5

/-- The fabric registers of a port block. -/
def readPortFabric (q : Port) (off : Nat) : Option Nat := regFind off [
  reg1 0x100 (q.partition.toNat + q.fencedCount.toNat * 2 ^ 16 + q.stray.toNat * 2 ^ 32 + q.stale.toNat * 2 ^ 48),
  reg1 0x108 (q.badRoute.toNat + q.payloadCrc.toNat * 2 ^ 16), reg1 0x110 q.slipNs.toNat,
  reg1 0x118 (q.ctrlUnits.toNat + q.holds.toNat * 2 ^ 32),
  reg1 0x120 (q.record.toNat + despCode q.desp * 2 ^ 32 + q.flow.toNat * 2 ^ 48)]

/-- Four key slots as a register. -/
def keyBits (k : Vector (BitVec 16) 4) : Nat := sumOf ((List.range 4).map (fun i => (vget k i 0).toNat * 2 ^ (16 * i)))

/-- PORT_PART. -/
def portPart (s : State) (p : Nat) : Nat :=
  let q := s.port p
  bit q.fenced + 2 * bit q.pendKeys.isSome + 4 * bit (portDrained s p) + 8 * bit q.keyMismatch

/-- Registers of the link ports and of the fabric; the block of a gated port reads zero (R264). -/
def readFabric (s : State) (off : Nat) : Option Nat :=
  if off < 0x3200000 then
    let p := (off - 0x3000000) / 0x10000
    let o := (off - 0x3000000) % 0x10000
    let q := s.port p
    let q := if s.underTest (128 + p) then { q with ready := false } else q
    ((readLinkLayer q o).orElse (fun _ => readPortFabric q o)).map (fun v => if s.clk.enLink.getLsbD p then v else 0)
  else regFind off [
    reg1 0x3200000 (s.fab.gid.toNat + bit s.fab.gidValid * 2 ^ 32), reg1 0x3200008 s.fab.dieBlock.toNat,
    (0x3200100, 8, 32, fun p => keyBits (s.port p).keys),
    (0x3200200, 8, 32, fun p => match (s.port p).pendKeys with
      | some k => keyBits k.keys
      | none => 0),
    (0x3200300, 8, 32, portPart s), (0x3200400, 8, 32, fun p => portPartner (s.port p)),
    (0x3300000, 8, 131072, fun k => match kget s.fab.dieTable (k / 2) with
      | some e => fld e.toNat (64 * (k % 2)) 64
      | none => 0)]

/-! ## WAYBILL engine, SAMPLER, FIRMWARE, forme and weights -/

/-- Registers of the waybill engine and of the table window (R296). -/
def readWaybills (s : State) (off : Nat) : Option Nat := regFind off [
  (0x4000000, 8, 9, fun i => (vget s.eng.counts i 0).toNat),
  reg1 0x4000080 (bit s.isDesk + 2 * bit s.eng.shownRanking + 4 * bit s.eng.cancelIgnored + s.eng.microbatch.toNat * 2 ^ 16
    + s.eng.freeRows.toNat * 2 ^ 32),
  reg1 0x4000088 ((match s.serving with
    | some v => v.layers.getD s.chipIndex 0 * v.frames - s.eng.shownHeld
    | none => 0) % 2 ^ 32 + (if s.isDesk then s.eng.reserved.toNat else 0) * 2 ^ 32),
  reg1 0x4000090 (s.eng.passedRoom.toNat + s.eng.passedLivery.toNat * 2 ^ 16 + s.eng.admitted.toNat * 2 ^ 32),
  reg1 0x4000098 (s.eng.refused.toNat + s.eng.voidedLanes.toNat * 2 ^ 32),
  reg1 0x40000A0 (s.eng.rankings.toNat + s.eng.rankLate.toNat * 2 ^ 32), reg1 0x40000A8 s.eng.serial.toNat,
  (0x4800000, 8, 1048560, fun k => leAt (shownEntry s (k / 16)) (8 * (k % 16)) 8)]

/-- LIVERY_SLOT[i]: a slot that a commit has not yet made VALID reads as before (R349). -/
def liveryReg (s : State) (i : Nat) : Nat := match kget s.liv.slots i with
  | none => 0
  | some x => if !x.valid then 0 else x.tenant.toNat + bit x.valid * 2 ^ 16 + bit x.staged.isSome * 2 ^ 17 + x.format.toNat * 2 ^ 20 + x.rank.toNat * 2 ^ 24
      + x.bank.toNat * 2 ^ 32

/-- Registers of the sampler and of the livery slots. -/
def readSampler (s : State) (off : Nat) : Option Nat := regFind off [
  reg1 0x5000000 (s.smp.greedy.toNat + s.smp.draws.toNat * 2 ^ 32),
  reg1 0x5000008 (s.smp.noCandidate.toNat + s.smp.nanLogits.toNat * 2 ^ 16 + s.smp.rows.toNat * 2 ^ 32),
  reg1 0x5000010 (s.smp.eos.toNat + s.smp.stopSequence.toNat * 2 ^ 16 + s.smp.maxNew.toNat * 2 ^ 32
    + s.smp.lengthLimit.toNat * 2 ^ 48),
  reg1 0x5000018 (s.smp.accepted.toNat + s.smp.offered.toNat * 2 ^ 32), reg1 0x5000020 s.smp.tallyFull.toNat,
  reg1 0x5000028 (s.smp.stallCommits.toNat + s.smp.stallUs.toNat * 2 ^ 32),
  reg1 0x5000030 (s.liv.stagings.toNat + s.liv.late.toNat * 2 ^ 16
    + (s.liv.slots.filter (fun x => x.2.staged.isSome)).length % 2 ^ 13 * 2 ^ 32),
  (0x5008000, 8, 4096, liveryReg s)]

/-- FW_BOOT.STATE. -/
def bootCode : BootState → Nat
  | .rom => 0
  | .recovery => 1
  | .running => 2
  | .handover => 3

/-- Registers of the firmware, of the option block, of the forme and of the weight set. -/
def readFirmware (s : State) (off : Nat) : Option Nat := regFind off [
  reg1 0x6000000 (bootCode s.fw.boot + s.fw.failStep.toNat * 256 + s.fw.source.toNat * 2 ^ 11 + bit s.fw.runningSlot * 2 ^ 14
    + bit s.fw.optionDefault * 2 ^ 15),
  reg1 0x6000008 s.fw.recoveryAddr.toNat, reg1 0x6000010 (s.fw.recoveryLen.toNat + bit s.fw.recoveryGo * 2 ^ 63),
  reg1 0x6000018 (s.fw.running.toNat + s.nv.rollback % 256 * 2 ^ 56),
  (0x6000100, 8, 6, fun b =>
    let x := vget s.fw.boxes b SbState.reset
    x.timeout.toNat + x.state.toNat * 2 ^ 32 + x.resets.toNat * 2 ^ 48),
  (0x6001000, 8, 16, fun i => (vget s.fw.optionBlock i 0).toNat), reg1 0x6001080 (2 * bit s.fw.optionDone + 4 * bit s.fw.optionError),
  reg1 0x6004000 (formeCode s.forme.state + s.forme.placement.toNat * 4 + s.forme.reason.toNat * 256 + s.forme.chip.toNat * 2 ^ 32),
  (0x6004008, 8, 4, digestReg s.forme.digest),
  reg1 0x6004030 (bit s.forme.sealed + s.forme.presentShown % 2 ^ 17 * 2 ^ 15 + s.neededTensors.length % 2 ^ 17 * 2 ^ 32),
  (0x6004038, 8, 4, digestReg (if s.forme.sealed then s.forme.weightDigest else 0)),
  reg1 0x6004060 (s.forme.patched.toNat + s.forme.rerouted.toNat * 2 ^ 32 + bit s.forme.strict * 2 ^ 48),
  (0x6004068, 8, 4, digestReg s.forme.imposeDigest),
  reg1 0x6004090 (s.forme.regionNearBase.toNat + s.forme.regionNear.toNat * 2 ^ 32),
  reg1 0x6004098 (s.forme.regionFarBase.toNat + s.forme.regionFar.toNat * 2 ^ 32),
  reg1 0x60040A0 (s.forme.bytes.toNat + s.forme.strayCopies.toNat * 2 ^ 48)]

/-! ## The decoder -/

/-- The register at an offset of control space; `none` where there is none (R411). -/
def readReg (s : State) (off : Nat) : Option Nat :=
  if off < 0x100000 then readSystem s off
  else if off < 0x1000000 then readRings s off
  else if off < 0x1600000 then readPress s.loaded s.tt.inStep (s.press ((off - 0x1000000) / 0x10000)) (off % 0x10000)
  else if off < 0x2000000 then none
  else if off < 0x3000000 then readTiers s off
  else if off < 0x4000000 then readFabric s off
  else if off < 0x5000000 then readWaybills s off
  else if off < 0x6000000 then readSampler s off
  else readFirmware s off

/-- An access to an offset that holds no register is counted (R411). -/
def countUnmapped (s : State) : State := { s with kcl.unmapped := satInc s.kcl.unmapped }

/-- The registers from one offset to another as bytes, zeros where there is none. -/
def regBytes (s : State) (off n : Nat) : List Byte :=
  (List.range (n / 8)).flatMap (fun i => leBytes 8 ((readReg s (off + 8 * i)).getD 0))

end Sys2Proof.Machine
end

