-- ==== Sys2Proof/Machine/Firmware.lean ====
section
/-! DEFINITION. Device, firmware, attestation and debug commands (R156 to R160, R420, R422, R437 to R455). -/

namespace Sys2Proof.Machine

open Sys2Proof

/-! ## Device commands (R422) -/

/-- NOP. -/
def execNop (d : Descriptor) (s : State) : Out := .next (command d [] (finish d stDone 0) s)

/-- IDENTIFY: the IDENT block, the press count, the stepping and the release. -/
def execIdentify (d : Descriptor) (s : State) : Out :=
  .next (commandReply d [] 1 (fun s =>
    finishReply d stDone (resAt 16 96 + resAt 18 (bit Config.isB1) + resAt 20 s.fw.running.toNat) (regBytes s 0 1024) s) s)

/-- GET_EDITION. -/
def execGetEdition (d : Descriptor) (s : State) : Out :=
  .next (command d [] (fun s =>
    finish d stDone (resAt 16 s.rings.edition.toNat + resAt 24 s.rings.edTerminus.toNat) s) s)

/-! ## Firmware commands (R437 to R442) -/

/-- Whether a handover is running (R441). -/
def handingOver (s : State) : Bool := s.fw.boot == .handover

/-- FW_STAGE (R437, R441). An image longer than the staging SRAM fails verification. -/
def execFwStage (d : Descriptor) (blk : List Byte) (s : State) : Out :=
  .next (commandBlk d [] blk (fun s =>
    let img := blk.take d.blockLength.toNat
    if s.fw.handoverPending || handingOver s then finish d stBusy 0 s
    else if 4 * 2 ^ 20 < img.length || verifyImage s.nv.rollback img != 0 then
      finish d stVerifyFail 0 { s with fw.staged := none }
    else
      finish d stDone (resAt 16 (imgRelease img))
        (putImageSlot (!s.fw.runningSlot) img
          { s with fw.staged := some img, fw.stagedSlot := !s.fw.runningSlot, fw.runningIsStaged := false })) s)

/-- FW_HANDOVER (R438, R439). -/
def execFwHandover (d : Descriptor) (s : State) : Out :=
  .next (command d [] (fun s =>
    match s.fw.staged with
    | none => finish d stBadParam 0 s
    | some img =>
      let v := imgRecordMax s.fw.image
      if v < imgRecordMin img || imgRecordMax img < v then finish d stBusy 0 s
      else if s.loaded && imgAbi img != imgAbi s.fw.image then finish d stBusy 0 s
      else if s.fw.handoverPending || handingOver s then finish d stBusy 0 s
      else
        let s := queued d 0 { s with fw.handoverCmd := some d }
        if s.forme.state == .started then { s with fw.handoverPending := true } else beginHandover s) s)

/-- HANDOVER_COMPLETE (R439, R440): `adopted` names the boxes that adopted their records. With all six the boxes run the staged
image's segments, and the slot that holds it is the running slot. -/
def execHandoverComplete (adopted : BitVec 6) (s : State) : Out :=
  .next (match s.fw.boot, s.fw.staged with
    | .handover, some img =>
      let boxes (s : State) (image : List Byte) : Vector SbState 6 := s.fw.boxes.mapIdx (startBox image)
      let cmd := s.fw.handoverCmd
      let s := postHeld { s with fw.handoverCmd := none, fw.boot := .running }
      let s := if adopted = 0x3F then
          let release := BitVec.ofNat 32 (imgRelease img)
          { s with fw.runningSlot := s.fw.stagedSlot, fw.source := 3, fw.running := release, fw.image := img
                   fw.runningIsStaged := true, fw.boxes := boxes s img }
        else { s with fw.staged := none, fw.boxes := boxes s s.fw.image }
      match cmd with
      | some d =>
        if adopted = 0x3F then finish d stDone (resAt 16 s.fw.running.toNat) s else finish d stVerifyFail (resAt 16 s.fw.running.toNat) s
      | none => s
    | _, _ => s)

/-- Sectors of 64 KiB that an image needs, within the 16 MiB that the flash has for it (R431). -/
def imageSectors (img : List Byte) : Nat := min 256 (ceilDiv (8192 + imgBody img) 65536)

/-- KiB of an image in the order of R442: the body, then the header. A longer image than the flash has room for does not verify when
it is read back (R431). -/
def imagePages (img : List Byte) : List Nat :=
  (List.range (min 16384 (ceilDiv (8192 + imgBody img) 1024) - 8)).map (· + 8) ++ List.range 8

/-- FW_FLASH_WRITE (R441, R442): the first sector's erase begins. Another write of the flash in progress is BUSY (log entry 44). -/
def execFwFlashWrite (d : Descriptor) (s : State) : Out :=
  .next (command d [] (fun s =>
    if handingOver s then finish d stBusy 0 s
    else if !s.fw.runningIsStaged then finish d stBadParam 0 s
    else if s.forme.state == .started || s.nv.job.isSome then finish d stBusy 0 s
    else { s with nv.job := some (.erase (List.range (imageSectors s.fw.image))), nv.cmd := some d }) s)

/-- First byte of the option block in the flash (R431). -/
def optionBase : Nat := 0x1000000

/-- The bytes of OPTION[0] to OPTION[15]. -/
def optionRegs (s : State) : List Byte := (List.range 16).flatMap (fun i => leBytes 8 (vget s.fw.optionBlock i 0).toNat)

/-- FLASH_SECTOR_ERASE_END (R442, R443): the next sector, or the first page. -/
def execFlashSectorEraseEnd (s : State) : Out :=
  .next (match s.nv.job with
    | some (.erase (x :: rest)) =>
      let s := { s with nv.flash := memClear (65536 * x) 65536 s.nv.flash }
      { s with nv.job := some (if rest.isEmpty then .program (imagePages s.fw.image) else .erase rest) }
    | some .option => { s with nv.job := some .optionProgram, nv.flash := memClear optionBase 65536 s.nv.flash }
    | _ => s)

/-- FW_FLASH_WRITE completes. -/
def flashDone (status : BitVec 16) (s : State) : State :=
  let cmd := s.nv.cmd
  let s := { s with nv.job := none, nv.cmd := none }
  match cmd with
  | some d => finish d status 0 s
  | none => s

/-- The image read back and verified, and the anti-rollback count still to be raised (R434, R442). -/
def flashVerify (s : State) : State :=
  if verifyImage s.nv.rollback (flashImage s) != 0 then flashDone stVerifyFail s
  else
    let target := imgRollback (flashImage s)
    if target ≤ s.nv.rollback then flashDone stDone s else { s with nv.job := some (.fuse target) }

/-- One page program or one fuse pulse ends (R434, R442, R443). -/
def nvmAdvance (s : State) : State := match s.nv.job with
  | some (.program (k :: rest)) =>
    let s := { s with nv.flash := memWrite blankFlash (1024 * k) (sliceBytes s.fw.image (1024 * k) 1024) s.nv.flash }
    if rest.isEmpty then flashVerify s else { s with nv.job := some (.program rest) }
  | some (.fuse target) =>
    let s := { s with nv.rollback := s.nv.rollback + 1 }
    if target ≤ s.nv.rollback then flashDone stDone s else s
  | some .optionProgram =>
    { s with nv.job := some .optionCheck, nv.flash := memWrite blankFlash optionBase (optionRegs s) s.nv.flash }
  | _ => s

/-- The release in the flash's header, 0 without one. -/
def flashRelease (s : State) : Nat :=
  let head := memRead blankFlash s.nv.flash 0 16
  if leAt head 0 4 = 0x4D494256 then leAt head 8 4 else 0

/-- FW_VERSION (R422, R444). -/
def execFwVersion (d : Descriptor) (s : State) : Out :=
  .next (command d [] (fun s =>
    finish d stDone (resAt 16 s.fw.running.toNat + resAt 20 (match s.fw.staged with
      | some img => imgRelease img
      | none => 0) + resAt 24 (flashRelease s) + resAt 28 (s.nv.rollback % 256) + resAt 29 Config.romVersion.toNat) s) s)

/-! ## The option block (R443) -/

/-- The option block that the flash holds. -/
def flashOption (s : State) : List Byte := memRead blankFlash s.nv.flash optionBase 128

/-- Whether an option block's digest holds (R443). -/
def optionOk (b : List Byte) : Bool := sha256 (sliceBytes b 0 96) == sliceBytes b 96 32

/-- A write of OPTION_CTL (R7, R443): DONE and ERROR clear where 1 is written; WRITE starts the write of the block, unless a forme
is loaded or the flash is being written. -/
def optionCtlWrite (value : Reg) (s : State) : State :=
  let v := value.toNat
  let s := { s with fw.optionDone := s.fw.optionDone && !bitAt v 1, fw.optionError := s.fw.optionError && !bitAt v 2 }
  if !bitAt v 0 || s.loaded || s.nv.job.isSome then s
  else if optionOk (optionRegs s) then { s with nv.job := some .option } else { s with fw.optionError := true }

/-- OPTION_CTL_WRITE (R443). -/
def execOptionCtlWrite (w : CsWr) (s : State) : Out := .next (behindWrites 0x6001080 w (optionCtlWrite w.value) s)

/-- OPTION_WRITE_DONE (R443): the sector has been erased and programmed, and the block read back. A block that does not read back
holds free values. -/
def execOptionWriteDone (readBackOk : Bool) (s : State) : Out :=
  .next (if s.nv.job != some .optionCheck then s
    else
      let s := { s with nv.job := none }
      if readBackOk then { s with fw.optionDone := true }
      else
        let (v, s) := s.draw
        { s with fw.optionError := true, nv.flash := memWrite blankFlash optionBase (leBytes 8 v.toNat) s.nv.flash })

/-! ## Measurements and signatures (R447, R452 to R455) -/

/-- A measurement: whether it is a value, the value, and the digest (R452). -/
def measure (s : State) (index : Nat) : Bool × Nat × List Byte :=
  let image (img : List Byte) : List Byte := (imageDigest img).take 32
  let sheet := (List.range 8).flatMap (fun c => leBytes 8 (latencySheet c))
  match index with
  | 1 => (false, 0, digestBytes Config.romDigest)
  | 2 => (false, 0, image s.fw.image)
  | 3 => (false, 0, if imageForm (flashImage s) then image (flashImage s) else zeros 32)
  | 4 => (false, 0, match s.fw.staged with
    | some img => image img
    | none => zeros 32)
  | 5 => (true, s.nv.rollback % 256 + Config.romVersion.toNat * 256, zeros 32)
  | 6 => (false, 0, digestBytes s.forme.digest)
  | 7 => (false, 0, digestBytes (if s.forme.sealed then s.forme.weightDigest else 0))
  | 8 => (false, 0, digestBytes s.forme.imposeDigest)
  | 9 => (false, 0, sha256 (flashOption s))
  | _ => (true, if Config.isB1 then 0xB1 else 0xB0, sha256 sheet)

/-- The 48 bytes of a measurement in an attestation report (R453). -/
def measureBytes (s : State) (index : Nat) : List Byte :=
  let (isValue, v, dig) := measure s index
  leBytes 1 index ++ leBytes 1 (bit isValue) ++ zeros 6 ++ leBytes 8 v ++ dig

/-- GID in bytes [2:0], bits [19:0]. -/
def gidBytes (s : State) : List Byte := leBytes 3 s.fab.gid.toNat

/-- ATTEST (R453). -/
def execAttest (d : Descriptor) (s : State) : Out :=
  .next (commandReply d [(24, 32)] 8 (fun s =>
    let body := leBytes 4 0x54535441 ++ leBytes 2 1 ++ leBytes 1 10 ++ zeros 1 ++ leBytes 8 s.now ++ leBytes 8 s.rings.edition.toNat
      ++ gidBytes s ++ zeros 5 ++ leBytes 32 (pArg d 24 32) ++ digestBytes edKeyId ++ digestBytes mldsaKeyId
      ++ (List.range 10).flatMap (fun i => measureBytes s (i + 1))
    finishReply d stDone 0 (sliceBytes (body ++ edSignature body ++ mldsaSignature body) 0 8192) s) s)

/-- An entry of the colophon log, by its number since the log began. -/
def colophonEntry (s : State) (k : Nat) : List Byte :=
  memRead blank s.boxMem (colophonBase * 1024 + k % colophonSlots * 64) 64

/-- The newest of the last `n` log entries before number `k` that holds a colophon and a waybill (R455). -/
def findColophon (s : State) (c : List Byte) (w : Nat) : Nat → Nat → Option (List Byte)
  | 0, _ => none
  | n + 1, k =>
    let e := colophonEntry s (k - 1)
    if sliceBytes e 0 32 == c && leAt e 32 2 == w then some e else findColophon s c w n (k - 1)

/-- COLOPHON_SIGN (R455). -/
def execColophonSign (d : Descriptor) (s : State) : Out :=
  .next (commandReply d [(24, 34)] 4 (fun s =>
    let c := leBytes 32 (pArg d 24 32)
    let w := pArg d 56 2
    if !s.isDesk then finish d stBadParam 0 s
    else match findColophon s c w (min colophonSlots s.fw.colophonNext) s.fw.colophonNext with
      | none => finish d stVerifyFail 0 s
      | some e =>
        let body := leBytes 4 0x48504C43 ++ leBytes 2 1 ++ leBytes 2 w ++ sliceBytes e 40 4 ++ sliceBytes e 34 2 ++ sliceBytes e 36 2
          ++ leBytes 8 s.now ++ gidBytes s ++ zeros 5 ++ c ++ (measure s 2).2.2 ++ zeros 32
        finishReply d stDone 0 (sliceBytes (body ++ edSignature body ++ mldsaSignature body) 0 4096) s) s)

/-! ## Debug commands (R156, R157, R160) -/

/-- DEBUG_ENABLE (R156, R422). A second one while one is held is BUSY (log entry 44). -/
def execDebugEnable (d : Descriptor) (s : State) : Out :=
  .next (command d [(24, 1)] (fun s =>
    let on := pArg d 24 1 == 1
    let now := resAt 16 (bit s.dbg.enabled)
    if 1 < pArg d 24 1 then finish d stBadParam now s
    else if s.forme.state == .started then
      if s.dbg.pendingCmd.isSome then finish d stBusy now s else queued d now { s with dbg.pendingCmd := some (d, on) }
    else if on && s.power.point != 0 then finish d stBadParam now s
    else finish d stDone (resAt 16 (bit on)) { s with dbg.enabled := on }) s)

/-- A BREAK register from the value written to it. -/
def breakOf (v : Nat) : Break where
  armed := bitAt v 63
  tagKind := bitAt v 62
  stream := BitVec.ofNat 2 (fld v 60 2)
  unit := BitVec.ofNat 4 (fld v 56 4)
  press := BitVec.ofNat 7 (fld v 49 7)
  once := bitAt v 48
  mask := BitVec.ofNat 16 (fld v 32 16)
  value := BitVec.ofNat 32 (fld v 0 32)
  hit := false

/-- A BREAK register written. -/
def setBreak (i v : Nat) (s : State) : State := { s with dbg.breaks := vmod s.dbg.breaks i (fun _ => breakOf v) }

/-- Whether a BREAK value names no reserved unit, stream or press (R8, R157). -/
def breakLegal (v : Nat) : Bool :=
  decide (fld v 56 4 ≤ 2) && (fld v 56 4 != 0 || (decide (fld v 60 2 ≤ 2) && decide (fld v 49 7 ≤ 95)))

/-- BREAK_SET (R157). -/
def execBreakSet (d : Descriptor) (s : State) : Out :=
  .next (command d [(24, 1), (32, 8)] (fun s =>
    if 7 < pArg d 24 1 || !breakLegal (pArg d 32 8) then finish d stBadParam 0 s
    else finish d stDone 0 (setBreak (pArg d 24 1) (pArg d 32 8) s)) s)

/-- BREAK_CLEAR (R157). -/
def execBreakClear (d : Descriptor) (s : State) : Out :=
  .next (command d [(24, 1)] (fun s =>
    finish d stDone 0 { s with
      dbg.breaks := s.dbg.breaks.mapIdx (fun i b => if bitAt (pArg d 24 1) i then { b with armed := false } else b) }) s)

/-- HAZARD_COUNT and the records of a press: 136 bytes (R160, R422). -/
def hazardBytes (p : Press) : List Byte :=
  leBytes 8 p.hazards.toNat ++ (List.range 8).flatMap (fun i => leBytes 8 (hazardReg p i hazardA) ++ leBytes 8 (hazardReg p i hazardB))

/-- HAZARD_READ (R160). -/
def execHazardRead (d : Descriptor) (s : State) : Out :=
  .next (commandReply d [] 14 (fun s =>
    finishReply d stDone 0 (sliceBytes (s.presses.toList.flatMap hazardBytes) 0 14336) s) s)

end Sys2Proof.Machine
end

