-- ==== Sys2Proof/Machine/Health.lean ====
section
/-! DEFINITION. Self-test and health (R168, R392 to R398): SELF_TEST and its runs, the scrubber, the scores, HEALTH_READ. -/

namespace Sys2Proof.Machine

open Sys2Proof

/-! ## Parts and scopes (R392, R396) -/

/-- The parts that a SELF_TEST's SCOPE and UNITS name; `none` for a reserved scope or a reserved unit (R396, R422). -/
def scopeParts (scope units : Nat) : Option (List Nat) :=
  let named (base n : Nat) : Option (List Nat) :=
    if 2 ^ n ≤ units then none else some (((List.range n).filter (bitAt units)).map (base + ·))
  match scope with
  | 0 => named 0 96
  | 1 => named 128 32
  | 2 => some ((List.range 32).map (96 + ·))
  | 3 => named 160 2
  | 4 => some [163]
  | _ => none

/-- Whether the loaded forme uses a part (R396). The sampler and the engine serve every forme. -/
def State.partUsed (s : State) (part : Nat) : Bool :=
  if part < 96 then (s.pressSlot part).isSome
  else if part < 128 then s.loaded
  else if part < 160 then s.portUsed (part - 128)
  else if part < 162 then s.farUsed (part - 160)
  else s.loaded

/-- Segments of the logic test of a press in use: 12 ms in 256 ns (R396). -/
def pressSegments : Nat := 46875

/-- The gap that a run, or a segment, of a part in use needs, in ns (R396). -/
def runNs (part : Nat) : Nat :=
  if part < 96 then 256 else if part < 160 then 60000 else if part < 162 then 12000000 else 5000000

/-- Whether no step of the forme can meet a run: no forme started, or the forme stopped (R381, R397). -/
def State.testsFree (s : State) : Bool := s.forme.state != .started || s.barrier.stopped

/-- Whether a run of a part may start now: at once, or in a terminus gap that is long enough, from the end of the copy to
64 ns before the launch (R397). A brake pauses it (R479). -/
def State.runFits (s : State) (part : Nat) : Bool :=
  !s.tt.inStep && !s.power.braking &&
    (!s.partUsed part || s.testsFree ||
      (s.tt.copied && (match s.tt.nextLaunch with
        | some l => decide (s.now + runNs part + 64 ≤ l.toNat)
        | none => false)))

/-! ## SELF_TEST (R396, R397) -/

/-- A job whose runs have all ended: the final completion, and SELF_TEST_DONE (R397, R418, R422). -/
def endJob (j : SelfTestJob) (s : State) : State :=
  let s := { s with health.jobs := s.health.jobs.filter (fun x => x != j) }
  let s := finish j.cmd stDone (resAt 16 j.parts.length + resAt 20 j.failed.length) s
  postEvent evSelfTest (pArg j.cmd 24 1) j.cmd.commandId.toNat j.failed.length s

/-- Whether a part is a press that the loaded forme leaves out: it stands only while its self-test runs (R154). -/
def State.leftOut (s : State) (i : Nat) : Bool := decide (i < 96) && s.loaded && (s.pressSlot i).isNone

/-- The presses among parts whose test begins stand (R154). -/
def testStand (parts : List Nat) (s : State) : State :=
  parts.foldl (fun s i => if s.leftOut i && s.underTest i then s.modPress i wakePress else s) s

/-- SELF_TEST (R396, R397, R422). Under a brake, which pauses self-tests, every run waits (R479). A part whose test has not ended is BUSY: log entry 45. -/
def execSelfTest (d : Descriptor) (s : State) : Out :=
  let scope := pArg d 24 1
  .next (command d [(24, 1), (32, 16)] (fun s =>
    match scopeParts scope (pArg d 32 16) with
    | none => finish d stBadParam 0 s
    | some parts =>
      let open' (i : Nat) : Bool := (vget s.health.test i SelfTest.reset).state == 1 || s.underTest i
      if scope = 2 && s.loaded then finish d stBusy 0 s
      else if parts.any open' then finish d stBusy 0 s
      else
        let s := if scope = 0 || scope = 4 then wakeFor s else s
        let waits := parts.any (fun i => s.partUsed i) || s.power.braking
        let start (i : Nat) (t : SelfTest) : SelfTest :=
          if parts.contains i then ⟨0, 0, if (s.partUsed i && !s.testsFree) || s.power.braking then 1 else 2⟩ else t
        let j : SelfTestJob := ⟨d, parts, [], [], waits⟩
        let s := testStand parts { s with health.test := s.health.test.mapIdx (fun i t => start i t), health.jobs := s.health.jobs ++ [j] }
        let s := if waits then queued d 0 s else s
        if parts.isEmpty then endJob j s else s) s)

/-- SELF_TEST_RUN (R397): a queued run, or the next segment of a press's logic test, starts. -/
def execSelfTestRun (part : BitVec 8) (s : State) : Out :=
  let i := part.toNat
  .next (if (vget s.health.test i SelfTest.reset).state = 1 && s.runFits i then
      testStand [i] { s with health.test := vmod s.health.test i (fun t => { t with state := 2 }) }
    else s)

/-- What the destructive tests leave: press store, planes and banks of a press that the forme does not use, and a near channel,
hold what an unwritten place holds (R396; log entry 46). -/
def testErases (i : Nat) (s : State) : State :=
  if i < 96 then
    if s.partUsed i then s
    else s.modPress i (fun p => { p with store := [], plane0 := none, plane1 := none, bankA := Bank.reset, bankB := Bank.reset })
  else if i < 128 then { s with near.mem := s.near.mem.filter (fun m => m.1 / 1024 % 32 != i - 96) }
  else s

/-- A part's test has ended with PASS or FAIL (R393, R398). -/
def endTest (i : Nat) (fail : Bool) (block : BitVec 16) (s : State) : State :=
  let s := { s with
    health.test := vmod s.health.test i (fun t => { t with state := if fail then 4 else 3, failed := if fail then block else 0 })
    health.failing := if fail then s.health.failing ||| BitVec.ofNat 164 (2 ^ i)
      else s.health.failing &&& ~~~(BitVec.ofNat 164 (2 ^ i)) }
  let s := testErases i s
  let s := if s.leftOut i then s.modPress i shedPress else s
  let s := if fail && !s.partUsed i then clearReady i s else s
  match s.health.jobs.find? (fun j => j.parts.contains i) with
  | none => s
  | some j =>
    let k : SelfTestJob := { j with ended := j.ended ++ [i], failed := if fail then j.failed ++ [i] else j.failed }
    let s := { s with health.jobs := mapIf (· == j) (fun _ => k) s.health.jobs }
    if k.ended.length = k.parts.length then endJob k s else s

/-- SELF_TEST_RUN_END (R396 to R398): a run, or one segment of the logic test of a press in use, has ended. A brake pauses it (R479). -/
def execSelfTestRunEnd (part : BitVec 8) (fail : Bool) (block : BitVec 16) (s : State) : Out :=
  let i := part.toNat
  .next (if !s.underTest i || s.power.braking then s
    else
      let s := { s with health.test := vmod s.health.test i (fun t => { t with progress := t.progress + 1 }) }
      let n := (vget s.health.test i SelfTest.reset).progress.toNat
      if !fail && i < 96 && s.partUsed i && n < pressSegments then
        { s with health.test := vmod s.health.test i (fun t => { t with state := 1 }) }
      else endTest i fail block s)

/-! ## The scrubber (R168) -/

/-- Whether a queued test that the gap has room for goes before the scrubber (R397). -/
def State.testFirst (s : State) : Bool :=
  (List.range 164).any (fun i => (vget s.health.test i SelfTest.reset).state == 1 && s.runFits i)

/-- SCRUB (R168, R397): one entry of a press store is read in the gap and written back corrected; an uncorrectable word is
counted and an event posted. The scrubber goes over the forme region and the program images, KiB 0 to 10,202. -/
def execScrub (p : PressId) (ecc : Ecc) (s : State) : Out :=
  let pr := s.press p.val
  let a := pr.scrubAddr.toNat
  let gap := !s.tt.inStep && s.tt.copied && !s.power.braking && (match s.tt.nextLaunch with
    | some l => decide (s.now + 64 ≤ l.toNat)
    | none => false)
  .next (if !gap || s.underTest p.val || s.testFirst then s
    else
      let s := s.modPress p.val (fun x =>
        { x with scrubAddr := if a < 10202 then BitVec.ofNat 14 (a + 1) else 0
                 scrubPasses := if a < 10202 then x.scrubPasses else x.scrubPasses + 1
                 corrected := if ecc == .corrected then x.corrected + 1 else x.corrected })
      match ecc with
      | .uncorrectable _ =>
        postEvent evScrub p.val a 0 (s.modPress p.val (fun x => { x with scrubUncorr := satInc x.scrubUncorr }))
      | _ => s)

/-! ## The health score (R392 to R394) -/

/-- A health counter: its value, the width in which it wraps, and the points of 10^-8 for one event. -/
structure HealthCount where
  value : Nat
  width : Nat
  weight : Nat

/-- The counters of a part (R392). Hold times, in ns, carry their points per ms. -/
def healthCounts (s : State) (i : Nat) : List HealthCount :=
  let one := 100000000
  if i < 96 then
    let p := s.press i
    [⟨p.corrected.toNat, 32, one⟩, ⟨p.sramCorrected.toNat, 32, one⟩, ⟨p.refetches.toNat, 32, 5 * one⟩,
     ⟨p.uncorrectable.toNat, 16, 250 * one⟩, ⟨p.scrubUncorr.toNat, 16, 250 * one⟩,
     ⟨p.sramUncorr.toNat, 32, 250 * one⟩]
  else if i < 128 then
    let c := s.chan (i - 96)
    [⟨c.eccCorrected.toNat, 16, one / 100⟩, ⟨c.edcRead.toNat, 16, one / 10⟩, ⟨c.edcWrite.toNat, 16, one / 10⟩,
     ⟨c.inStepRetrains.toNat, 32, 10 * one⟩, ⟨c.uncorrectable.toNat, 16, 250 * one⟩]
  else if i < 160 || i = 162 then
    let q := s.port (if i = 162 then 32 else i - 128)
    [⟨q.fecUncorr.toNat, 32, one / 10⟩, ⟨q.timeouts.toNat, 16, 5 * one⟩,
     ⟨q.retrainsIn.toNat, 16, 20 * one⟩, ⟨q.retrainsOut.toNat, 16, 20 * one⟩]
     ++ (if i = 162 then [] else [⟨q.fecCorrected.toNat, 32, 1⟩, ⟨q.downEvents.toNat, 16, 500 * one⟩])
  else if i < 162 then
    let f := s.farPort (i - 160)
    [⟨f.retries.toNat, 32, one / 100⟩, ⟨f.poison.toNat, 16, 250 * one⟩, ⟨f.timeouts.toNat, 16, 500 * one⟩]
  else
    let hold (c : Cause) (points : Nat) : HealthCount := ⟨(vget s.tt.holdNs (causeCode c) 0).toNat, 64, points * 100⟩
    [hold .nearLate 1, hold .farLate 1, hold .linkLate 1, hold .brake 5, hold .firmware 5, hold .envelope 10,
     ⟨s.health.aborts, 64, 50 * one⟩, ⟨s.health.stops, 64, 500 * one⟩, ⟨s.health.boxResets, 64, 100 * one⟩]

/-- Points of 10^-8 that a part's counters have gathered since they were last read; each wraps in its width. -/
def healthGrowth (counts : List HealthCount) (old : List Nat) : Nat :=
  sumOf ((counts.mapIdx (fun k c => (c, old.getD k 0))).map (fun (x : HealthCount × Nat) =>
    (x.1.value + 2 ^ x.1.width - x.2) % 2 ^ x.1.width * x.1.weight))

/-- The score of points of 10^-8, rounded down (R392). -/
def scoreOf (p : Nat) : Nat := (100000000000 - min 100000000000 p) / 100000000

/-- A score below the floor that was not below it: HEALTH_LOW, and the part's bit of HEALTH_ALERTS (R393). -/
def healthAlert (i old new points : Nat) (s : State) : State :=
  let floor := min 1000 s.health.floor.toNat
  if new < floor && floor ≤ old then
    postEvent evHealthLow i new points { s with health.alerts := s.health.alerts ||| BitVec.ofNat 164 (2 ^ i) }
  else s

/-- The level of ALERT_L, once SB0 has taken it: low while any bit of HEALTH_ALERTS is set (R463). -/
def alertPin (s : State) : State :=
  if s.power.taken.getLsbD 3 then s.setPin 3 (if s.health.alerts = 0 then .high else .low) else s

/-- A part that a failed self-test holds at 0 (R393): a press, a channel or a port. -/
def State.heldAtZero (s : State) (i : Nat) : Bool := decide (i < 163) && s.health.failing.getLsbD i

/-- HEALTH_COMPUTE (R392 to R394): one second's events are added to the window, and every part's score is computed. The bucket
of a second in which SB0 does not run is empty. -/
def execHealthCompute (s : State) : Out :=
  .next (if s.fw.boot != .running then { s with health.window := ([] :: s.health.window).take 60 }
    else
      let counts := (List.range 164).map (healthCounts s)
      let bucket := (counts.mapIdx (fun i c => (i, c))).map (fun (x : Nat × List HealthCount) =>
        healthGrowth x.2 (s.health.counted.getD x.1 []))
      let window := (bucket :: s.health.window).take 60
      let total (i : Nat) : Nat := sumOf (window.map (fun b => b.getD i 0))
      let score (i : Nat) : Nat := if s.heldAtZero i then 0 else scoreOf (total i)
      let points (i : Nat) : Nat := satNat 32 (total i / 100000000)
      let old := s.health.score
      let s := { s with
        health.window := window, health.counted := counts.map (fun c => c.map (·.value))
        health.score := .ofFn (fun (i : Fin 164) => BitVec.ofNat 10 (score i.val))
        health.points := .ofFn (fun (i : Fin 164) => BitVec.ofNat 32 (points i.val)) }
      alertPin ((List.range 164).foldl (fun s i => healthAlert i (vget old i 0).toNat (score i) (points i) s) s))

/-- HEALTH_READ (R422). -/
def execHealthRead (d : Descriptor) (s : State) : Out :=
  .next (command d [(24, 1), (25, 1)] (fun s =>
    let first := pArg d 24 1
    let n := pArg d 25 1
    if n = 0 || 164 < n || 164 < first + n then finish d stBadParam 0 s
    else if !replyOk s d (ceilDiv (8 * n) 1024) then finish d stBadParam 0 s
    else
      finishReply d stDone (resAt 16 (fld s.health.alerts.toNat 0 64)) (regBytes s (0x60000 + 8 * first) (8 * n)) s) s)

end Sys2Proof.Machine
end

