-- ==== Sys2Proof/Machine/Recovery.lean ====
section
/-! DEFINITION. The mirror and the recovery of a lost module (R384, R387, R388, R390, R391), FIRMWARE slots of the sequencers
(R178) and the messages between boxes (R445). The layout of the services' payloads is the model's: log entry 41. -/

namespace Sys2Proof.Machine

open Sys2Proof

/-! ## Service payloads -/

/-- Fields of a service head: the item, and offset, length and total length of the data that follows. -/
def headItem (b : List Byte) : MirrorItem := ⟨leAt b 2 2, leAt b 4 1, leAt b 8 4, leAt b 5 1⟩
def headOff (b : List Byte) : Nat := leAt b 12 4
def headLen (b : List Byte) : Nat := leAt b 16 4
def headTotal (b : List Byte) : Nat := leAt b 20 4

/-- The data of a service payload. -/
def headData (b : List Byte) : List Byte := sliceBytes (b.drop 64) 0 (headLen b)

/-- Whether a service payload holds an item's last data. -/
def headLast (b : List Byte) : Bool := headOff b + headLen b == headTotal b

/-- Data sent as a service in pieces, each with its head; `extra` stands in the head's bytes [63:24]. -/
def sendPieces (kind size dst : Nat) (m : MirrorItem) (extra data : List Byte) (s : State) : State :=
  let total := data.length
  let one (off : Nat) (piece : List Byte) (s : State) : State :=
    sendService dst ((mirrorHead kind m off piece.length total).take 24 ++ sliceBytes extra 0 40 ++ piece) s
  if data.isEmpty then one 0 [] s
  else ((chunks size total data).mapIdx (fun k p => (k * size, p))).foldl (fun (s : State) (x : Nat × List Byte) => one x.1 x.2 s) s

/-! ## The source's side of the mirror (R178, R384) -/

/-- Whether a read of SB3 still waits for one of an item's entries. -/
def itemWaits (s : State) (m : MirrorItem) : Bool :=
  let (kib, n) := itemPlace s m
  (List.range n).any (fun k => (s.chan ((kib + k) % 32)).box.any (fun b => b.addr == kib + k && b.data.isNone))

/-- The bytes of an item: a page, a head, a ledger slot with what is kept beside it, a KiB of input store. -/
def itemBytes (s : State) (m : MirrorItem) : List Byte :=
  if m.kind = itemLedger then
    memRead blank s.boxMem (ledgerBase (!s.eng.ledgerCopy) + 128 * m.waybill) 128 ++ (match kget s.eng.table m.waybill with
      | some w => keptBytes w
      | none => zeros 256)
  else
    let (kib, n) := itemPlace s m
    memRead blank s.boxMem (kib * 1024) (n * 1024)

/-- An item whose place is gone, because its waybill has given it up, is no longer mirrored. -/
def itemGone (s : State) (m : MirrorItem) : Bool := m.kind != itemLedger && (itemPlace s m).1 == 0

/-- Every queued item whose reads have been served is sent to the partner (R384). -/
def sendMirror (s : State) : State := match s.partner with
  | none => s
  | some p =>
    let ready := s.mirror.unsent.filter (fun m => !itemWaits s m)
    let s := { s with mirror.unsent := s.mirror.unsent.filter (fun m => itemWaits s m) }
    ready.foldl (fun s m =>
      if itemGone s m then { s with mirror.backlog := s.mirror.backlog.erase m }
      else sendPieces 0x10 4032 (s.gidOf p) m [] (itemBytes s m) s) s

/-- The next pending access of the boxes on a channel, served with what it meets: SB3's reads for the mirror, the boxes' own writes, SB3's
copies, and then the writes of the shared window; none where nothing is pending (R178). -/
def firmwareNext (c : Nat) (r : NearAccess) (s : State) : Option State := match (s.chan c).box with
  | b :: rest => some (serveBox c b r (s.modChan c (fun x => { x with box := rest })))
  | [] => match takeFirst (fun (w : LateWrite) => w.addr / 1024 % 32 == c) s.near.late with
    | some (w, rest) => some (serveLate c w r { s with near.late := rest })
    | none => match s.mirror.moves.find? (s.nearTurn c) with
      | some m => some (moveNear c m r s)
      | none => serveShared c r (kclPump s)

/-- A FIRMWARE slot's accesses in order, at most `n` (R178). -/
def serveFirmware : Nat → Nat → List NearAccess → State → State
  | 0, _, _, s => kclPump s
  | n + 1, c, res, s => match firmwareNext c (res.headD cleanAccess) s with
    | some s => serveFirmware n c res.tail s
    | none => kclPump s

/-- What is pending on all channels, at most. -/
def State.boxWork (s : State) (c : Nat) : Nat := (s.chan c).box.length + s.near.late.length + s.mirror.moves.length + s.kcl.fifo.length

/-- SEQ_SLOT_FIRMWARE (R178, R384): up to ENTRIES pending accesses of the signal boxes, in a FIRMWARE slot of a step or in the
gap between steps; then SB3 sends the items it has read. -/
def execSeqSlotFirmware (c : SeqId) (res : List NearAccess) (s : State) : Out :=
  let k := c.val
  if !s.tt.inStep then
    .next (if s.gapServes k then sendMirror (serveFirmware (s.boxWork k) k res s) else s)
  else
    let s := seqGo k s
    match seqRecord k s with
    | some (0, r) =>
      if fld r 58 2 = 2 && s.chanFree k then .next (sendMirror (seqPass k (serveFirmware (fld r 38 12 + 1) k res s))) else .next s
    | _ => .next s

/-- MIRROR_ACK (R307, R384). -/
def execMirrorAck (payload : List Byte) (s : State) : Out :=
  let m := headItem payload
  let s := serviceTake payload s
  .next (if !s.mirror.backlog.contains m then s
    else
      let s := { s with mirror.backlog := s.mirror.backlog.erase m, mirror.acked := s.mirror.acked + 1 }
      if m.kind = itemPage || m.kind = itemHead then setDirFlag m.waybill m.layer m.page 4 s else s)

/-! ## The partner's side of the mirror (R382 to R384) -/

/-- The logical chip mirrored here, and its pool's sizes. -/
def State.source (s : State) : Option Nat := s.forme.partners.findIdx? (fun p => p.toNat == s.chipIndex)

/-- Sizes of the source chip's frames and heads. -/
def sourcePool (s : State) : PoolMap := match s.serving, s.source with
  | some v, some c => poolOf v c 0
  | _, _ => ⟨1, 1, 1, 1, 0, 0, 0⟩

/-- The item that stands for a mirror slot: a page with its head, the ledger, or 1 MiB of a waybill's input store, whose first KiB keeps what
stands beside its ledger slot (R383, R384; log entry 160). -/
def slotKey (m : MirrorItem) : MirrorItem :=
  if m.kind % 16 ≤ 1 then { m with kind := 0 } else if m.kind % 16 = 2 then ⟨0xFFFF, 0, 0, 2⟩
  else if m.kind % 16 = itemKept then ⟨m.waybill, 0, 0, 3⟩ else ⟨m.waybill, 0, (m.page + 1) / 1024, 3⟩

/-- KiB of a mirror slot (R383). -/
def slotSize (m : PoolMap) (k : MirrorItem) : Nat := if k.kind = 0 then m.frame + 1 + m.head else if k.kind = 2 then 8192 else 1024

/-- The far KiB of the slot that holds an item, if there is one. -/
def slotOf (s : State) (m : MirrorItem) : Option Nat :=
  (s.mirror.slots.find? (fun x => slotKey x.1 == slotKey m)).map (·.2)

/-- Whether an item is held whole. -/
def itemHeld (s : State) (m : MirrorItem) : Bool := s.mirror.slots.any (fun x => x.1 == m)

/-- The far KiB of an item's slot, the lowest free one where it has none; none where the MIRROR area is full (R384). -/
def slotFor (s : State) (m : MirrorItem) : Option Nat := match slotOf s m with
  | some a => some a
  | none =>
    let (base, size) := farArea s 3
    let pool := sourcePool s
    let used := s.mirror.slots.foldl (fun (l : List Alloc) x =>
      if l.any (fun a => a.base == x.2) then l else insertAlloc ⟨x.2, slotSize pool (slotKey x.1), 0, .root⟩ l) []
    if size = 0 then none else lowestFree 1 (slotSize pool (slotKey m)) (base + size) used base

/-- The far byte at which an item's data begins in its slot. -/
def itemAt (pool : PoolMap) (slot : Nat) (m : MirrorItem) : Nat :=
  let k := m.kind % 16
  if k = 0 then (slot + 1) * 1024 else if k = 1 then (slot + 1 + pool.frame) * 1024
  else if k = 2 then slot * 1024 + 128 * m.waybill else if k = itemKept then slot * 1024
  else (slot + (m.page + 1) % 1024) * 1024

/-- Writes of SB3 queued for the FIRMWARE slots of the ports that hold them (R192, R384). -/
def queueFar (m : MirrorItem) (a : Nat) (bs : List Byte) (s : State) : State :=
  (entryCut (bs.length + 1) a bs).foldl (fun (s : State) (x : Nat × List Byte) =>
    s.modFar (farOf s (x.1 / 1024)) (fun p => { p with box := p.box ++ [⟨m, x.1, x.2⟩] })) s

/-- An item in its slot: whole, or as far as its pieces have come. -/
def holdItem (m : MirrorItem) (whole : Bool) (slot : Nat) (s : State) : State :=
  let held := s.mirror.slots.filter (fun x => x.1 != m && x.1 != { m with kind := m.kind + 16 })
  { s with mirror.slots := held ++ [(if whole then m else { m with kind := m.kind + 16 }, slot)] }

/-- A piece of an item `m` that has arrived, queued to be written into its slot under the item `of` that it belongs to. -/
def writeItem (of m : MirrorItem) (off : Nat) (data : List Byte) (slot : Nat) (s : State) : State :=
  queueFar of (itemAt (sourcePool s) slot m + off) data (holdItem m false slot s)

/-- The MIRROR area had no free slot (R384). -/
def mirrorFull (s : State) : State :=
  if s.mirror.full then s else postEvent evMirrorFull s.mirror.sourceGid.toNat 0 0 { s with mirror.full := true }

/-- What stands beside a waybill's ledger slot, as an item of its own. -/
def keptItem (w : Nat) : MirrorItem := ⟨w, 0, 0, itemKept⟩

/-- Whether a write of an item still waits on a root port. -/
def farWaits (s : State) (m : MirrorItem) : Bool := s.far.ports.toList.any (fun p => p.box.any (fun b => b.item == m))

/-- An item that has been written whole is held, and acknowledged to its source (R384). -/
def ackItem (m : MirrorItem) (s : State) : State :=
  let whole (m : MirrorItem) (s : State) : State := match slotOf s m with
    | some k => holdItem m true k s
    | none => s
  let s := whole m (if m.kind = itemLedger then whole (keptItem m.waybill) s else s)
  match s.source with
  | some c => sendService (s.gidOf c) (mirrorHead 0x11 m 0 0 0) { s with mirror.received := s.mirror.received + 1 }
  | none => s

/-- Every item that has arrived whole, and whose writes are done, is acknowledged. -/
def settleMirror (s : State) : State :=
  let done := s.mirror.arrived.filter (fun m => !farWaits s m)
  done.foldl (fun s m => ackItem m s) { s with mirror.arrived := s.mirror.arrived.filter (fun m => farWaits s m) }

/-- The next pending access of SB3 on a far port, served with what it meets: the mirror's writes, then its copies (R192). -/
def farNext (f : Nat) (r : FarAccess) (s : State) : Option State := match (s.farPort f).box with
  | b :: rest => some (farBox f b r (s.modFar f (fun x => { x with box := rest })))
  | [] => (s.mirror.moves.find? (s.farTurn f)).map (fun m => moveFar f m r s)

/-- The accesses of a far FIRMWARE slot in order, at most `n` (R192, R194). -/
def serveFar : Nat → Nat → List FarAccess → State → State
  | 0, _, _, s => s
  | n + 1, f, res, s => match farNext f (res.headD ⟨0, false⟩) s with
    | some s => serveFar n f res.tail s
    | none => s

/-- FAR_STREAM_SLOT (R192): a PRESS slot serves the next portion of its press slot, a FIRMWARE slot the boxes, as the gap between
steps does (R178). A port that is not READY issues nothing (R194). -/
def execFarStreamSlot (f : FarId) (res : List FarAccess) (s : State) : Out :=
  let k := f.val
  if !(s.farPort k).ready then .next s
  else if !s.tt.inStep then
    .next (if s.gapOpen then settleMirror (serveFar ((s.farPort k).box.length + s.mirror.moves.length) k res s) else s)
  else
    let s := farGo k s
    match farRecord k s with
    | some (0, r) =>
      if fld r 58 2 = 0 then
        match takeFirst (fun q => q.slot == fld r 51 7) (s.farPort k).coming with
        | some (q, rest) =>
          .next (farPass k (farEntries k q (q.addrs.zip q.perform) q.data res (s.modFar k (fun x => { x with coming := rest }))))
        | none => .next (s.modFar k (fun x => { x with walk := { x.walk with busy := true } }))
      else .next (settleMirror (farPass k (serveFar (fld r 38 12 + 1) k res s)))
    | _ => .next s

/-- MIRROR_ITEM (R384): the partner's SB3 queues the writes of the item, and acknowledges it once all of it is written. -/
def execMirrorItem (payload : List Byte) (s : State) : Out :=
  let m := headItem payload
  let s := serviceTake payload s
  let data := headData payload
  let done (s : State) : State := if headLast payload then
      { s with mirror.arrived := if s.mirror.arrived.contains m then s.mirror.arrived else s.mirror.arrived ++ [m] } else s
  .next (
    if s.source.isNone then s
    else match slotFor s m with
      | none => mirrorFull s
      | some slot =>
        if m.kind = itemLedger then
          let s := writeItem m m 0 (data.take 128) slot s
          match slotFor s (keptItem m.waybill) with
          | none => mirrorFull s
          | some k => done (writeItem m (keptItem m.waybill) 0 (data.drop 128) k s)
        else done (writeItem m m (headOff payload) data slot s))

/-- MIRROR_RELEASE (R384): the slots of a waybill that became FREE. -/
def execMirrorRelease (payload : List Byte) (s : State) : Out :=
  let w := (headItem payload).waybill
  let s := serviceTake payload s
  .next { s with
    mirror.slots := s.mirror.slots.filter (fun x => x.1.waybill != w)
    mirror.arrived := s.mirror.arrived.filter (fun m => m.waybill != w)
    far.ports := s.far.ports.map (fun p => { p with box := p.box.filter (fun b => b.item.waybill != w) }) }

/-! ## Answers to a rebuilt chip (R387, R388) -/

/-- The desk's shadows: the last committed terminus, then for each waybill its index, VOIDED and RESTORING, and its committed
length, in records of 16 B (R387). -/
def shadowAnswer (s : State) : List Byte :=
  leBytes 8 (match s.tt.committed with
    | some k => k.toNat
    | none => s.rings.edTerminus.toNat) ++ zeros 8
    ++ (s.eng.table.filter (fun x => x.2.committed != 0 || x.2.restoring)).flatMap (fun x =>
      leBytes 2 x.1 ++ leBytes 1 (bit x.2.voided + 2 * bit x.2.restoring) ++ zeros 1 ++ leBytes 4 x.2.committed ++ zeros 8)

/-- The mirrored ledger of a desk chip: the terminus, then the index, the slot and what is kept beside it of each waybill, in
records of 400 B. -/
def ledgerAnswer (s : State) : List Byte :=
  let held := s.mirror.slots.filter (fun x => x.1.kind == itemLedger)
  let pool := sourcePool s
  sliceBytes (leBytes 8 (match s.tt.committed with
    | some k => k.toNat
    | none => s.rings.edTerminus.toNat)) 0 400
    ++ held.flatMap (fun x =>
      leBytes 16 x.1.waybill ++ farRead s (itemAt pool x.2 x.1) 128
        ++ (match slotOf s (keptItem x.1.waybill) with
          | some k => farRead s (itemAt pool k (keptItem x.1.waybill)) 256
          | none => zeros 256))

/-- An item held here, or nothing. -/
def heldBytes (s : State) (m : MirrorItem) (n : Nat) : List Byte :=
  if itemHeld s m then match slotOf s m with
    | some k => farRead s (itemAt (sourcePool s) k m) n
    | none => []
  else []

/-- The answer to a fetch: size of a piece, what the head carries besides, and the data. A logged input's head names where
the row lands (R385, R388). -/
def fetchAnswer (s : State) (m : MirrorItem) : Nat × List Byte × List Byte :=
  let pool := sourcePool s
  match m.kind with
  | 0 => (4032, [], if s.isDesk then shadowAnswer s else [])
  | 1 => (4000, [], ledgerAnswer s)
  | 2 => (4032, [], heldBytes s ⟨m.waybill, m.layer, m.page, itemPage⟩ (pool.frame * 1024))
  | 3 => (4032, [], heldBytes s ⟨m.waybill, m.layer, m.page, itemHead⟩ (pool.head * 1024))
  | 4 => match s.forme.forme with
    | some f => match f.chip.pageMap.log with
      | some l => (4032, leBytes 4 l.rowKiB ++ leBytes 4 l.inputAt.slot ++ leBytes 4 l.inputAt.platform ++ leBytes 4 l.inputAt.offset,
          if s.hasLogged m.waybill m.page then farRead s (logSlot s f.serving l m.waybill m.page * 1024) (l.rowKiB * 1024) else [])
      | none => (4032, [], [])
    | none => (4032, [], [])
  | _ => (4032, [], heldBytes s ⟨m.waybill, 0, m.page, itemInput⟩ 1024)

/-- RECOVER_FETCH (R387): the desk, the partner or the logging chip answers with RECOVER_DATA. -/
def execRecoverFetch (payload : List Byte) (s : State) : Out :=
  let m := headItem payload
  let s := serviceTake payload s
  let (size, extra, data) := fetchAnswer s m
  .next (sendPieces 0x14 size (leAt payload 24 4) m extra data s)

/-! ## The rebuilt chip (R387, R388, R390, R391) -/

/-- A waybill that this chip cannot rebuild (R390): its desk chip is to close it. How the desk learns of it is the model's:
DESIGN CHOICE, log entry 47. -/
def loseWaybill (w : Nat) (s : State) : State :=
  let s := { s with mirror.owed := s.mirror.owed.erase w
                    eng.shadows := kmod w (fun x => { x with start := x.committed }) s.eng.shadows }
  if s.isDesk then { s with mirror.lost := if s.mirror.lost.contains w then s.mirror.lost else s.mirror.lost ++ [w] }
  else match s.serving with
    | some v => sendService (s.gidOf v.desk) (mirrorHead 0x14 ⟨w, 0, 0, 6⟩ 0 0 0) s
    | none => s

/-- M of R387: 128 times the leading pages that are in place from the mirror in every layer. -/
def mirroredLength (s : State) (w pages : Nat) : Nat :=
  128 * ((List.range pages).takeWhile (fun p => (List.range s.pool.layers).all (fun l => bitAt (s.dirFlags w l p) 2))).length

/-- Once no fetch of a waybill's pages is left, its M is known; a tail longer than LOG_POSITIONS cannot be rebuilt (R387,
R390). -/
def checkRebuilt (w : Nat) (s : State) : State :=
  if s.mirror.fetches.any (fun f => f.waybill == w && (f.kind == 2 || f.kind == 3)) then s
  else match kget s.eng.shadows w with
    | none => s
    | some x =>
      let m := mirroredLength s w (x.committed / 128)
      let s := { s with eng.shadows := kset w { x with start := m } s.eng.shadows }
      if logPositions s < x.committed - m then loseWaybill w s else s

/-- A shadow that the desk names (R387): kept with its pages where a warm reset left it in place and the lengths agree,
else to be rebuilt from the mirror and the input log (R391). -/
def rebuildShadow (w l : Nat) (voided restoring : Bool) (s : State) : State :=
  let s := if restoring then { s with mirror.owed := s.mirror.owed ++ [w] } else s
  let keep := match kget s.eng.shadows w with
    | some x => x.committed == l && (l == 0 || s.holdsPages w)
    | none => false
  if !s.isDesk && s.mirror.lost.contains w then loseWaybill w { s with mirror.lost := s.mirror.lost.erase w }
  else if keep then { s with eng.shadows := kmod w (fun x => { x with voided := voided, start := l }) s.eng.shadows }
  else
    let s := freePages w { s with eng.parked := kdel w s.eng.parked, eng.shadows := kset w ⟨voided, l, 0, 0, none⟩ s.eng.shadows }
    let pages := l / 128
    let l' := if s.partner.isNone then [] else (List.range s.pool.layers).flatMap (fun layer =>
      (List.range pages).flatMap (fun p => [(⟨w, 2, layer, p⟩ : Fetch), ⟨w, 3, layer, p⟩]))
    checkRebuilt w (beginFetches l' s)

/-- A marker that no committed length reaches: a shadow the desk has not yet named. -/
def unnamed : Nat := 2 ^ 32

/-- Shadows from the desk (R387, R391). -/
def takeShadows (payload : List Byte) (s : State) : State :=
  let first := headOff payload == 0
  let data := headData payload
  let s := if first then { s with
      tt.nextStep := BitVec.ofNat 64 (leAt data 0 8 + 1)
      eng.shadows := s.eng.shadows.map (fun x => (x.1, { x.2 with start := unnamed })) }
    else s
  let recs := chunks 16 data.length (if first then data.drop 16 else data)
  let s := recs.foldl (fun s r => rebuildShadow (leAt r 0 2) (leAt r 4 4) (bitAt (leAt r 2 1) 0) (bitAt (leAt r 2 1) 1) s) s
  if headLast payload then
    let gone := (s.eng.shadows.filter (fun x => x.2.start == unnamed)).map (·.1)
    let s := gone.foldl (fun s w => freePages w s) s
    { s with eng.shadows := s.eng.shadows.filter (fun x => !gone.contains x.1) }
  else s

/-- One waybill of a desk chip's ledger, from its partner's mirror (R387): its input store gets a place here. -/
def takeLedgerEntry (r : List Byte) (s : State) : State :=
  let i := leAt r 0 16
  let w := withKept (sliceBytes r 144 256) (readEntry (sliceBytes r 16 128))
  if w.state == .free then s
  else
    let a := (inputRoom w.storeKiB s).getD 0
    let s := if a = 0 then s else allocInput i a w.storeKiB s
    let e := restoreEntry { w with inputStore := BitVec.ofNat 32 a, directory := 0, closing := w.state.closed && !w.parkedExpired }
    let serial := max s.eng.serial.toNat (w.ticket.toNat / 65536)
    beginFetches ((List.range w.storeKiB).map (fun k => ⟨i, 5, 0, k⟩)) { s with
      eng.table := kset i e s.eng.table, eng.opened := if s.eng.opened.toNat < w.opened.toNat then w.opened else s.eng.opened
      eng.serial := BitVec.ofNat 32 serial }

/-- The ledger from a desk chip's partner (R387), and after its last piece the desk's own shadows. -/
def takeLedger (payload : List Byte) (s : State) : State :=
  let first := headOff payload == 0
  let data := headData payload
  let s := if first then { s with tt.nextStep := BitVec.ofNat 64 (leAt data 0 8 + 1) } else s
  let s := (chunks 400 data.length (if first then data.drop 400 else data)).foldl (fun s r => takeLedgerEntry r s) s
  if headLast payload then
    let s := { s with eng.shown := s.eng.table }
    (s.eng.table.filter (fun x => x.2.committed != 0 || x.2.restoring)).foldl (fun (s : State) (x : Nat × Waybill) =>
      rebuildShadow x.1 x.2.committed x.2.voided x.2.restoring s) s
  else s

/-- One piece of a page or of a head placed into a newly allocated place (R387). -/
def takePage (m : MirrorItem) (payload : List Byte) (s : State) : State :=
  let head := m.kind == 3
  let s := ensureBlock m.waybill m.layer m.page (ensureRoot m.waybill s)
  let s := if head then ensureHead m.waybill m.layer m.page s else ensureFrame m.waybill m.layer m.page s
  let a := s.held m.waybill (if head then .head m.layer m.page else .frame m.layer m.page)
  if a = 0 then s
  else
    let s := nearPut (a * 1024 + headOff payload) (headData payload) s
    if headLast payload then setDirFlag m.waybill m.layer m.page (if head then 1 else 6) s else s

/-- One piece of a logged stage input placed in its row's place of the inbound platform (R388). -/
def takeLogged (m : MirrorItem) (payload : List Byte) (s : State) : State :=
  match s.serving, s.eng.sheet.find? (fun b => b.kind == kRestore && b.waybill == m.waybill) with
  | some v, some b =>
    let kib := leAt payload 24 4
    writePlace ⟨leAt payload 28 4, leAt payload 32 4, leAt payload 36 4⟩
      ((b.row * logDepth v + m.layer) * kib * 1024 + headOff payload) (headData payload) s
  | _, _ => s

/-- One piece of an input store. -/
def takeStore (m : MirrorItem) (payload : List Byte) (s : State) : State := match kget s.eng.table m.waybill with
  | some w => nearPut (w.storeByte + 1024 * m.page + headOff payload) (headData payload) s
  | none => s

/-- SB3 has restarted: its copies in flight start again from their beginning, those of the mirror on both sides (R430). What the source's
copies had brought to this chip's queues comes again, since it has not been acknowledged (R445). -/
def restartCopies (s : State) : State :=
  let s := { s with
    near.channels := s.near.channels.map (fun (c : Channel) => { c with box := [] }), far.ports := s.far.ports.map (fun (p : FarPort) => { p with box := [] })
    mirror.arrived := [], mirror.unsent := s.mirror.backlog, mirror.waited := [], mirror.moves := [] }
  let s := s.mirror.backlog.foldl (fun s m => let (kib, n) := itemPlace s m; queueReads kib n s) s
  let s := s.eng.parked.foldl (fun (s : State) (x : Nat × Parked) =>
    if !x.2.done then if s.holdsPages x.1 then beginMoves (.stable x.1) (stableMoves s x.1 x.2) s else s
    else if s.eng.restores.contains x.1 then beginMoves (.restore x.1) (restoreMoves s x.1 x.2) s else s) s
  let s := s.liv.slots.foldl (fun (s : State) (x : Nat × LiverySlot) => match x.2.staged, s.samplerPlan with
    | some k, some p => if x.2.copying then beginMoves (.stage x.1) (stageMoves s x.1 x.2 (stagePlace s p k)) s else s
    | _, _ => s) s
  match s.forme.forme.bind (fun f => f.chip.pageMap.log.map (fun m => (m, f.serving))) with
  | some (m, v) => beginMoves .log (logMoves s v m s.mirror.logDue) s
  | none => s

/-- RECOVER_DATA (R387, R388, R390): what a rebuilt chip has fetched is placed. -/
def execRecoverData (payload : List Byte) (s : State) : Out :=
  let m := headItem payload
  let s := serviceTake payload s
  let f : Fetch := ⟨m.waybill, m.kind, m.layer, m.page⟩
  .next (
    if m.kind = 6 then if s.isDesk then loseWaybill m.waybill s else s
    else if !s.mirror.fetches.contains f then s
    else
      let s := if headLast payload then { s with mirror.fetches := s.mirror.fetches.erase f } else s
      let s :=
        if headTotal payload = 0 then (if m.kind = 4 then loseWaybill m.waybill s else s)
        else match m.kind with
          | 0 => takeShadows payload s
          | 1 => takeLedger payload s
          | 2 | 3 => takePage m payload s
          | 4 => takeLogged m payload s
          | _ => takeStore m payload s
      let s := if m.kind = 2 || m.kind = 3 then checkRebuilt m.waybill s else s
      settleRebuild s.mirror.owed.length s)

/-- RECOVER_FETCH_RESEND (R445): the unanswered fetches of a waybill are sent again. -/
def execRecoverFetchResend (w : BitVec 16) (s : State) : Out :=
  .next ((s.mirror.fetches.filter (fun f => f.waybill == w.toNat)).foldl (fun s f => sendFetch f s) s)

/-- RECOVER_FETCH_TIMEOUT (R390): no answer within 1 s. -/
def execRecoverFetchTimeout (w : BitVec 16) (s : State) : Out :=
  let i := w.toNat
  .next (if !s.mirror.fetches.any (fun f => f.waybill == i) then s
    else
      let s := { s with mirror.fetches := s.mirror.fetches.filter (fun f => f.waybill != i) }
      let s := if i = 0xFFFF then s else loseWaybill i s
      settleRebuild s.mirror.owed.length s)

/-! ## Messages between boxes (R445) -/

/-- FW_MSG_REBUILT (R388, R445): every copy is acknowledged; a serial is acted on once. -/
def execFwMsgRebuilt (p : PortId) (body : BitVec 192) (s : State) : Out :=
  let b := body.toNat
  let serial := fld b 16 16
  let gid := fld b 32 20
  let s := controlTake p.val 0x30 body s
  let s := match entryRoute (s.routeEntry gid) with
    | some r => sendControl 0x30 0 r (fld b 0 8 + 0x02 * 2 ^ 8 + (s.serialTo gid).toNat * 2 ^ 16 + s.fab.gid.toNat * 2 ^ 32 + serial * 2 ^ 64)
        (takeSerial gid s)
    | none => s
  let key := (BitVec.ofNat 20 gid, BitVec.ofNat 16 serial)
  .next (if s.fw.seen.contains key then s
    else
      let wb (w : Waybill) : Waybill := if w.restoring then { w with rebuilt := true } else w
      { s with fw.seen := s.fw.seen ++ [key], eng.table := s.eng.table.map (fun x => (x.1, wb x.2)) })

/-- FW_MSG_ACK (R445). -/
def execFwMsgAck (p : PortId) (body : BitVec 192) (s : State) : Out :=
  let b := body.toNat
  let s := controlTake p.val 0x30 body s
  .next { s with fw.messages := s.fw.messages.filter (fun m => !(m.serial.toNat == fld b 64 16 && m.dest.toNat == fld b 32 20)) }

/-- FW_MESSAGE_RESEND (R445): 1 ms without an ACK; 8 sendings at most. -/
def execFwMessageResend (serial : BitVec 16) (s : State) : Out :=
  .next (match s.fw.messages.find? (fun m => m.serial == serial) with
    | none => s
    | some m =>
      if m.sendings < 8 then
        sendFwMessage m { s with fw.messages := mapIf (fun x => x == m) (fun x => { x with sendings := x.sendings + 1 }) s.fw.messages }
      else { s with fw.messages := s.fw.messages.filter (fun x => x != m) })

end Sys2Proof.Machine
end

