-- ==== Sys2Proof/Machine/Reset.lean ====
section
/-! DEFINITION. Resets and make-ready (R457 to R471), the boot (R433 to R436, R491), watchdogs (R430), the warm reset (R195,
R461, R462) and the rebuild of the waybills after it (R325). -/

namespace Sys2Proof.Machine

open Sys2Proof

/-! ## Sideband outputs (R463 to R468) -/

/-- The sideband outputs in a full reset: high-impedance while the module is unpowered or MOD_RESET_L is asserted, else the
fuse entries, with PWR_GOOD and THERM_TRIP_L low while their hardware function asserts (R463, R465, R466). -/
def resetPins (p : Power) : Vector PinLevel 7 :=
  if !p.auxUp || p.modResetLow then .replicate 7 .highZ
  else #v[if p.underVolt then .low else .highZ, if p.tripLatch then .low else .highZ, .low, .highZ, .weakLow, .low, .low]

/-- The levels of PWR_GOOD and THERM_TRIP_L after the trip latch or the under-voltage changes. -/
def hardPins (s : State) : State :=
  if !s.power.auxUp || s.power.modResetLow then s
  else
    (s.setPin 0 (if s.power.underVolt then .low else .highZ)).setPin 1 (if s.power.tripLatch then .low else .highZ)

/-- MOD_READY, once SB0 has taken it: high while the SB0 service is READY (R463). -/
def readyPin (s : State) : State :=
  if s.power.taken.getLsbD 2 then s.setPin 2 (if s.power.readyBox.getLsbD 0 then .high else .low) else s

/-- Every output driven again after MOD_RESET_L is released with its reset still deferred: each by its function once firmware has
taken it, else as its fuse entry says (R463, R465, R466). -/
def drivePins (s : State) : State :=
  let s := hardPins { s with power.pins := resetPins s.power }
  let s := farPin 1 (farPin 0 (alertPin (readyPin s)))
  if s.power.taken.getLsbD 4 then s.setPin 4 (if s.time.ppsHigh = 0 then .low else .high) else s

/-! ## Nonvolatile writes that a reset meets (R462) -/

/-- A nonvolatile write abandoned by a reset: a sector in erase, and the option block's sector, are left erased; a page in
program is not programmed; a fuse in program reads as either value (R462; log entry 48). -/
def abandonJob (s : State) : State :=
  let (v, s) := match s.nv.job with
    | some (.fuse _) => s.draw
    | _ => (0, s)
  let nv := { s.nv with job := none, cmd := none, deferred := [] }
  match s.nv.job with
  | some (.erase (x :: _)) => { s with nv := { nv with flash := memClear (65536 * x) 65536 nv.flash } }
  | some .option => { s with nv := { nv with flash := memClear optionBase 65536 nv.flash } }
  | some (.fuse _) => { s with nv := { nv with rollback := nv.rollback + v.toNat % 2 } }
  | _ => { s with nv := nv }

/-- Whether a reset waits for an OTP pulse or a page program (R462). -/
def nvmBusy (s : State) : Bool := match s.nv.job with
  | some (.program _) | some (.fuse _) | some .optionProgram => true
  | _ => false

/-- A reset deferred (R462). -/
def defer (d : Deferred) (s : State) : State :=
  { s with nv.deferred := s.nv.deferred ++ [d], power.deferrals := satInc s.power.deferrals }

/-! ## Full resets (R457 to R460, R462) -/

/-- A full reset (R9, R457): every register at its Reset value, station time 0, the near tier lost. Flash, fuses, the far
tier's devices, the supplies and the trip latch are no registers and stay. The first source of resets that overlap is
recorded. While `holders` hold it the part stands; else option loading begins (R458, R462). -/
def fullReset (src : FullSource) (holders : List FullSource) (s : State) : State :=
  let s := abandonJob s
  let first := if s.power.phase == .held && !s.power.holders.isEmpty then s.power.causeFull else BitVec.ofNat 3 (sourceCode src)
  let p : Power := { Power.reset with
    phase := if holders.isEmpty then .options else .held
    auxUp := s.power.auxUp, inputUp := s.power.inputUp, modResetLow := s.power.modResetLow, underVolt := s.power.underVolt
    tripLatch := s.power.tripLatch, holders := holders, causeFull := first }
  { State.reset with
    nv := s.nv, power := { p with pins := resetPins p }, far.mem := s.far.mem
    mgmt.address := s.mgmt.address, mgmt.eid := s.mgmt.eid, free := s.free, pending := s.pending }

/-- A holder of the full reset added. -/
def heldBy (src : FullSource) (s : State) : List FullSource :=
  if s.power.holders.contains src then s.power.holders else s.power.holders ++ [src]

/-- A holder of the full reset has ended: option loading begins, or begins anew, once none is left (R458, R462). -/
def endHolder (src : FullSource) (s : State) : State :=
  let left := s.power.holders.filter (fun x => x != src)
  let s := { s with power.holders := left, power.pins := resetPins s.power }
  if s.power.phase == .held && left.isEmpty && s.power.auxUp then { s with power.phase := .options } else s

/-- A full-reset source that a nonvolatile write may defer (R462). -/
def sourceFull (src : FullSource) (held : Bool) (s : State) : State :=
  if !s.power.auxUp then s
  else if nvmBusy s then defer (.full src) s
  else fullReset src (if held then heldBy src s else s.power.holders) s

/-- POWER_ON (R457): both supplies are within limits. -/
def execPowerOn (s : State) : Out :=
  let s := { s with power.auxUp := true, power.inputUp := true, power.underVolt := false }
  let left := s.power.holders.filter (fun x => x == .modReset)
  let holders := if s.power.modResetLow && !left.contains .modReset then left ++ [.modReset] else left
  .next (fullReset .powerOn holders s)

/-- The full resets that a nonvolatile write has deferred, in their order (R462). -/
def deferredFull (l : List Deferred) : List FullSource := l.filterMap (fun d => match d with
  | .full x => some x
  | .warm _ => none)

/-- Sources that hold a reset now taken: those of before, MOD_RESET_L while it is asserted, and a latched trip (R457). -/
def holdersNow (s : State) : List FullSource :=
  let s := if s.power.modResetLow then { s with power.holders := heldBy .modReset s } else s
  if s.power.tripLatch then heldBy .thermalTrip s else s.power.holders

/-- UNDER_VOLTAGE (R460, R462): never deferred. The full resets that the write had deferred are taken with it, the first of them as
the cause. -/
def execUnderVoltage (s : State) : Out :=
  .next (if !s.power.auxUp then { s with power.inputUp := false }
    else
      let late := deferredFull s.nv.deferred
      let s := { s with power.underVolt := true, power.inputUp := false, power.tripLatch := s.power.tripLatch || late.contains .thermalTrip }
      fullReset (late.headD .underVoltage) (holdersNow { s with power.holders := heldBy .underVoltage s }) s)

/-- UNDER_VOLTAGE_END (R460): the input and every rail have been back for 1 ms. -/
def execUnderVoltageEnd (s : State) : Out :=
  .next (if !s.power.underVolt then s
    else endHolder .underVoltage { s with power.underVolt := false, power.inputUp := true })

/-- AUX_SUPPLY_LOSS (R459, R460): the whole module stops, management endpoint included; the trip latch clears. -/
def execAuxSupplyLoss (s : State) : Out :=
  let s := abandonJob s
  let p : Power := { Power.reset with
    phase := .held, auxUp := false, inputUp := s.power.inputUp, modResetLow := s.power.modResetLow }
  .next { State.reset with
    nv := s.nv, power := { p with pins := resetPins p }, far.mem := s.far.mem, free := s.free, pending := s.pending }

/-- MOD_RESET_ASSERT (R458). The sideband outputs are high-impedance at once (R465). -/
def execModResetAssert (s : State) : Out :=
  .next (sourceFull .modReset true { s with power.modResetLow := true, power.pins := .replicate 7 .highZ })

/-- MOD_RESET_RELEASE (R458). -/
def execModResetRelease (s : State) : Out :=
  .next (if !s.power.modResetLow then s else
    let s := { s with power.modResetLow := false }
    if s.power.holders.contains .modReset then endHolder .modReset s else drivePins s)

/-- REFCLK_LOSS (R261, R457). -/
def execRefclkLoss (s : State) : Out := .next (sourceFull .lossOfReference false s)

/-- REFCLK_RETURN (R261, R262): a gap has ended. One of 2.2 µs or more is a loss of reference in every case; a shorter one that was
not declared is counted. -/
def execRefclkReturn (gap : BitVec 16) (s : State) : Out :=
  .next (if !s.alive then s
    else if 2200 ≤ gap.toNat then sourceFull .lossOfReference false s
    else
      { s with clk.refGaps := satInc s.clk.refGaps
               clk.longestGap := if s.clk.longestGap.toNat < gap.toNat then gap else s.clk.longestGap })

/-- The trip taken: every rail but the auxiliary domain is off until the next power-on, and the latch is set (R459). -/
def takeTrip (s : State) : State :=
  let s := hardPins { s with power.tripLatch := true }
  fullReset .thermalTrip (heldBy .thermalTrip s) s

/-- A junction temperature seen: at 115 °C or more the trip is taken, or deferred by a nonvolatile write (R459, R462). -/
def seeJunction (junction : BitVec 8) (s : State) : State :=
  if junction.toNat < 115 || !s.power.auxUp then s
  else if nvmBusy s then defer (.full .thermalTrip) s
  else takeTrip s

/-- THERMAL_TRIP (R459, R462): a junction at 115 °C or more. -/
def execThermalTrip (junction : BitVec 8) (s : State) : Out := .next (seeJunction junction s)

/-- POWER_SAMPLE (R459, R479, R495): one measurement of the input power, and the hottest sensor, whose reading may trip. While a
full reset is held nothing is measured. -/
def execPowerSample (watts : BitVec 12) (junction : BitVec 8) (s : State) : Out :=
  .next (if s.alive then seeJunction junction (powerSample watts junction s) else s)

/-! ## The warm reset (R195, R289, R461) -/

/-- A press across a warm reset: what it holds is lost, its counters stay (R94, R125, R161, R195). -/
def warmPress (p : Press) : Press :=
  { Press.reset with
    invalidCells := p.invalidCells, satCells := p.satCells, periods := p.periods, periodsAt := p.periods
    readSatCells := p.readSatCells, invalidLanes := p.invalidLanes, vecPeriods := p.vecPeriods, pushWaits := p.pushWaits
    popWaits := p.popWaits, refetches := p.refetches, loads := p.loads, wakes := p.wakes, layoverNs := p.layoverNs
    shedNs := p.shedNs, scrubPasses := p.scrubPasses, scrubUncorr := p.scrubUncorr, uncorrectable := p.uncorrectable
    corrected := p.corrected, sramCorrected := p.sramCorrected, sramUncorr := p.sramUncorr, stray := p.stray,
    laneStops := p.laneStops }

/-- A near channel across a warm reset: its stream is lost; contents, training and refresh stay (R195). -/
def warmChannel (c : Channel) : Channel :=
  { c with slot := 0, stepEdc := 0, streams := [], walk := Walk.reset, coming := [], arrived := [], host := [], box := [] }

/-- A CXL port across a warm reset (R195). -/
def warmFar (f : FarPort) : FarPort := { f with streams := [], walk := Walk.reset, coming := [], box := [] }

/-- What a link port loses beside its link layer: its lists, its despatcher, its queues and the commands that waited. -/
def warmLists (q : Port) : Port :=
  { q with
    txTime := [], txCtrl := [], txData := [], desp := .idle, flow := 0, record := 0, walk := Walk.reset, lists := [], transit := []
    next := [], request := none, requestCmd := none, runCmds := [], tryWaits := false, again := none, deferrals := 0 }

/-- The link layer of a port across a warm reset: one that was READY sends PAUSE after the frame in progress, retrains and goes
through INIT, all without firmware; the others are DOWN (R224, R229, R461). -/
def warmLink (p : Nat) (s : State) : State :=
  let q := s.port p
  if q.ready then
    let st : LinkState := if q.state == .retraining then .retraining else .pausing
    let s := s.modPort p (fun q => { q with
      ready := false, state := st, target := q.same, reinit := true, retrainsOut := q.retrainsOut + 1, sawInit := false
      sawActive := false, timeoutsRow := 0, lastTime := none })
    if q.state == .retraining || q.state == .pausing then s else tellState p s
  else s.modPort p (fun q => { q with
    state := .down, reach := 3, lanesActive := 0, margin := .replicate 4 0, skipping := false, sawInit := false, sawActive := false
    timeoutsRow := 0, tx.words := [], lastTime := none })

/-- The engine across a warm reset. Its table stays as what the module keeps beside the entries, until the rebuild; the
forme whose pages are in place is remembered (R325). Pages that a restore copy has not filled are given up: the next RESTORE row
copies them anew (R321). -/
def warmEngine (s : State) : Eng :=
  let half (a : Alloc) : Bool := s.eng.restores.contains a.owner && a.kind != .input
  let adopt := match s.forme.forme with
    | some f => some (s.forme.digest, f.serving, s.chipIndex)
    | none => s.eng.adopt
  { s.eng with
    pending := [], sheet := [], release := [], nextSheet := [], nextRelease := [], restores := [], voidRows := []
    allocs := s.eng.allocs.filter (fun a => !half a)
    ranking := [], closedNow := [], admittedNow := 0, choicesNow := 0, choicesDue := [], handled := 0, todo := [], walk := none, noRoom := [], unread := []
    late := [], microbatch := 0, freeRows := 0, reserved := 0, adopt := adopt, adopted := false }

/-- The sampler's counters stay (R349). -/
def warmSampler (x : Smp) : Smp :=
  { x with walk := Walk.reset, lists := [], rowsTaken := 0, buf := [], outputs := [], released := [], stopped := false }

/-- Step 3 of R461, and what a warm reset stops of the link layers. -/
def warmLinks (s : State) : State :=
  let ready := (List.range 33).filter (fun p => (s.port p).ready)
  (List.range 33).foldl (fun s p => warmLink p s) (ready.foldl (fun s p => dropBuffers p s) s)

/-- Steps 1 and 2 of R461, and what the table of R461 and the rules of each chapter keep. The states of self-tests stay (R399). -/
def warmStop (cause : Nat) (s : State) : State :=
  { s with
    presses := s.presses.map warmPress, conc := []
    near := { s.near with channels := s.near.channels.map warmChannel, formeSize := 0, selfRefresh := false, late := [] }
    far.ports := s.far.ports.map warmFar, ports := s.ports.map warmLists
    fab := { s.fab with partCmds := [], flowSeq := [] }
    time := { s.time with probes := [], upstream := none, heard := false, ppsHigh := 0, ppsDue := false }
    tt := { s.tt with
      inStep := false, draining := false, drained := false, runout := false, tt := 0, holds := [], nextLaunch := none, nextStep := 0
      nextAttempt := 0, copied := false, committed := none, fault := 0, waitRank := false, waitStage := false, waitLog := false }
    barrier := Barrier.reset, eng := warmEngine s, smp := warmSampler s.smp
    liv := { s.liv with slots := s.liv.slots.map (fun x => (x.1, { x.2 with staged := none, copying := false })), freed := [] }
    forme := { FormeSt.reset with bytes := s.forme.bytes, strayCopies := s.forme.strayCopies }
    health.jobs := []
    mirror := { s.mirror with
      backlog := [], unsent := [], waited := [], arrived := [], logDue := [], moves := [], logRing := 0, fetches := [], lost := [], owed := [], rebuilding := false
      sourceGid := 0, partnerGid := 0 }
    dbg := { s.dbg with stopped := [], passed := [], pendingCmd := none }
    kcl := { s.kcl with tx := [], intrs := [], reads := [], want := [], got := [], reqs := [] }
    rings := { s.rings with
      taken := [], waiting := [], atEdition := [], commit := none, awaiting := .replicate 64 0, evtHeld := []
      abandoned := s.rings.abandoned + sumOf s.rings.awaiting.toList }
    fw := { s.fw with staged := none, messages := [], handoverCmd := none, handoverPending := false, image := [] }
    mgmt := { s.mgmt with signed := none, negotiated := false }
    power := { s.power with
      readyPress := 0, readyEngine := false, readySampler := false, pendingPoint := none, pointCmd := none, switchAt := none, applying := none, applyCmd := none, copyAfter := false
      regions := 0, pointQuiet := false, testing := 0, warmTests := false
      changing := false, waking := false, chipState := 0, stagger := none, causeWarm := BitVec.ofNat 8 cause } }

/-- Step 4 of R461 onward: the boxes restart, and the ROM is to verify the running copy. The outputs keep their levels (R468). -/
def warmBoot (s : State) : State :=
  { s with
    power.phase := .warm, power.readyBox := 0, power.taken := 0, power.warmResets := satInc s.power.warmResets
    fw.boot := .rom, fw.running := 0, fw.failStep := 0, fw.boxes := s.fw.boxes.map (fun b => { b with state := 2, timeout := 0 }) }

/-- Whether a warm reset is in progress: until its image has rebuilt the waybills, and then until the presses' self-tests of step 6
have ended (R461, R462). -/
def State.warming (s : State) : Bool := s.power.phase == .warm || (s.power.warmTests && s.power.testing != 0)

/-- A warm reset (R461), deferred by an OTP pulse or a page program (R462). A second one during the first restarts it from
step 4: the links' retrains run on. In step 6, what commands have begun meanwhile is stopped like the first time (log entry 158). -/
def warmReset (cause : Nat) (s : State) : State :=
  if nvmBusy s then defer (.warm cause) s
  else
    let s := abandonJob s
    if s.power.phase == .warm then warmBoot { s with power.causeWarm := BitVec.ofNat 8 cause }
    else if s.warming then warmBoot (warmStop cause s)
    else warmBoot (warmStop cause (warmLinks s))

/-- RESET_WARM (R420, R422). -/
def execResetWarm (d : Descriptor) (s : State) : Out :=
  .next (command d [] (fun s => warmReset 1 (finish d stDone 0 s)) s)

/-- NVM_WRITE_END (R434, R442, R462): a pulse or a page program has ended, and the first full reset that it deferred, else the
first warm one, is taken; the rest of the write is abandoned. -/
def execNvmWriteEnd (s : State) : Out :=
  .next (if !nvmBusy s then s
    else
      let late := s.nv.deferred
      let s := nvmAdvance { s with nv.deferred := [] }
      if late.isEmpty then s
      else
        let s := { s with nv.job := none, nv.cmd := none }
        let full := deferredFull late
        match full, late with
        | x :: _, _ =>
          let t := fullReset x (holdersNow { s with power.holders := [] }) s
          if full.contains .thermalTrip then takeTrip t else t
        | [], .warm c :: _ => warmReset c s
        | [], _ => s)

/-! ## Make-ready (R470) and the boot (R433, R435, R436, R491) -/

/-- Lock of PLLs (REF_STATUS.LOCKED), in the order of R263. When each locks is the model's: DESIGN CHOICE, log entry 49. -/
def lockPlls (mask : Nat) (s : State) : State := { s with clk.locked := s.clk.locked ||| BitVec.ofNat 8 mask }

/-- OPTION_LOADING_COMPLETE (R443, R470, R491): the option block, or its defaults where its digest fails, and the strap; KCL
begins its training under hardware control. -/
def execOptionLoadingComplete (strapLow : Bool) (s : State) : Out :=
  .next (if s.power.phase != .options then s
    else
      let b := flashOption s
      let ok := optionOk b
      let block : Vector (BitVec 64) 16 := if ok then .ofFn (fun (i : Fin 16) => BitVec.ofNat 64 (leAt b (8 * i.val) 8)) else s.fw.optionBlock
      let enable := if ok then leAt b 0 4 else 0xFFFFFFFF
      let reach := if ok then leAt b 4 8 else 0
      let rate := if ok then leAt b 12 1 else 48
      let port (p : Nat) (q : Port) : Port :=
        if 32 ≤ p then { q with state := .training } else { q with enable := bitAt enable p, reachCfg := BitVec.ofNat 2 (reach / 4 ^ p) }
      lockPlls 0b10000010 { s with
        power.phase := .makeReady, fw.strapLow := strapLow, fw.optionDefault := !ok, fw.optionBlock := block
        near.channels := s.near.channels.map (fun c => { c with rate := BitVec.ofNat 8 rate })
        ports := s.ports.mapIdx (fun p q => port p q) })

/-- STATION_READY (R272, R470): PLL_TIME has locked, and the delays are measured: those to the four repeaters and the two
link-die copies, and then each repeater's to its presses, by press number. -/
def execStationReady (delays : List (BitVec 16)) (s : State) : Out :=
  .next (if !s.pastOptions || s.power.readyStation then s
    else lockPlls 1 { s with
      power.readyStation := true
      time.repeater := .ofFn (fun (i : Fin 6) => delays.getD i.val 0)
      time.beats := s.time.beats.mapIdx (fun p b => { b with delay := delays.getD (6 + p) 0 }) })

/-- KCL_HW_TRAINING_COMPLETE (R435, R470): the lanes are trained and INIT is done. The companion's advertisement is taken as the
least that R400 lets it make. -/
def execKclHwTrainingComplete (ok : Bool) (s : State) : Out :=
  .next (if !s.pastOptions || (s.port 32).state != .training then s
    else if !ok then portDown 32 s
    else
      let credit (c : Nat) : Credit :=
        let a := advertised 32 c
        { Credit.reset with partnerHdr := BitVec.ofNat 16 a.1, partnerData := BitVec.ofNat 16 a.2
                            hdr := BitVec.ofNat 16 a.1, data := BitVec.ofNat 16 a.2 }
      portReady 32 (s.modPort 32 (fun q => { initPort q with
        lanesGood := 0xFFFF, lanesActive := 0xFFFF, margin := .replicate 4 128, reach := 0, trainedOnce := true, equalised := true, sawInit := true, sawActive := true
        credits := .ofFn (fun (c : Fin 3) => credit c.val) })))

/-- SRAM_TEST_COMPLETE (R470). -/
def execSramTestComplete (s : State) : Out :=
  .next (if s.power.phase == .makeReady then { s with power.sramTested := true } else s)

/-- An image started on every box at ENTRY of its segment (R433, R467): SB0 takes the outputs, and SB3 the CXL resets, which a warm reset leaves
high (R468). After a full reset the firmware moves domain SB from the oscillator to its PLL at DIV 1 (R269). -/
def startImage (img : List Byte) (source : Nat) (s : State) : State :=
  let release := BitVec.ofNat 32 (imgRelease img)
  let warm := s.power.phase == .warm
  let s := ((s.setPin 2 .low).setPin 3 (if s.health.alerts = 0 then .high else .low)).setPin 4 .low
  let s := if warm then s else (s.setPin 5 .low).setPin 6 .low
  let s := { s with
    fw.boot := .running, fw.source := BitVec.ofNat 3 source, fw.running := release, fw.image := img, fw.failStep := 0, fw.recoveryGo := false
    fw.runningIsStaged := source == 2 || (source == 1 && s.fw.runningIsStaged)
    fw.boxes := s.fw.boxes.mapIdx (startBox img), power.taken := 0b1111100 }
  let s := if warm then s else domainCtlWrite 0 0x100 s
  putImageSlot s.fw.runningSlot img s

/-- The ROM enters recovery (R435). -/
def enterRecovery (step : Nat) (s : State) : State := { s with fw.boot := .recovery, fw.failStep := BitVec.ofNat 3 step }

/-- The flash image verified and started, else recovery (R433, R435). -/
def bootFlash (s : State) : State :=
  let img := flashImage s
  let bad := verifyImage s.nv.rollback img
  if bad = 0 then startImage img 0 s else enterRecovery bad s

/-- BOOT_VERIFY (R433, R435, R436, R446, R491). At a full reset the ROM derives the keys first, and locks the secret. -/
def execBootVerify (s : State) : Out :=
  .next (if s.fw.boot != .rom then s
    else if s.power.phase == .warm then
      let img := runningCopy s
      if verifyImage s.nv.rollback img = 0 then startImage img 1 s else bootFlash s
    else if s.power.phase != .makeReady || !s.power.sramTested then s
    else
      let s := { s with fw.secretLocked := true }
      if s.fw.strapLow then enterRecovery 0 s else bootFlash s)

/-- FW_RECOVERY_CTL with GO, and the image that the ROM reads for it (R435): it starts, or the first check that it fails is recorded and GO is
cleared. -/
def recoveryGo (value : Reg) (image : List Byte) (s : State) : State :=
  let v := value.toNat
  let s := { s with fw.recoveryLen := BitVec.ofNat 32 v, fw.recoveryGo := bitAt v 63 && s.fw.boot == .recovery }
  if !s.fw.recoveryGo then s
  else
    let s := endRomReads s
    let img := image.take s.fw.recoveryLen.toNat
    let bad := verifyImage s.nv.rollback img
    if bad = 0 then startImage img 2 s
    else { s with fw.failStep := BitVec.ofNat 3 bad, fw.recoveryGo := false }

/-- FW_RECOVERY_GO (R435): a write of FW_RECOVERY_CTL, with the image that the ROM has read where GO was set in RECOVERY. The MEM_RDs
that read it have been answered. -/
def execFwRecoveryGo (w : CsWr) (image : List Byte) (s : State) : Out := .next (behindWrites 0x6000010 w (recoveryGo w.value image) s)

/-- Ports `lo` to `lo + 15` begin their training (R201, R470). -/
def trainPorts (lo : Nat) (s : State) : State := (List.range 16).foldl (fun s k => beginTraining (lo + k) s) s

/-- SB3 is READY: it releases the CXL ports for training, and the areas of the near tier are placed (R187, R467, R470). -/
def memoryReady (s : State) : State :=
  let s := farPin 1 (farPin 0 (lockPlls 0b01001100 s))
  if s.loaded || s.eng.adopt.isSome then s else { s with near.poolBase := BitVec.ofNat 32 nearFormeBase }

/-- The presses begin the self-test of make-ready, in the departure order (R470, R478). -/
def testPresses (warm : Bool) (s : State) : State :=
  startStagger occTest { s with power.testing := 0xFFFFFFFFFFFFFFFFFFFFFFFF, power.warmTests := warm }

/-- BOX_SERVICES_READY (R430, R436, R470): a box whose segment failed its digest at a restart does not come up. At a full reset SB0 READY is firmware ready, and the presses begin their self-test;
SB4 comes up with what it could not read of the ledger (R189). -/
def execBoxServicesReady (b : BoxServices) (s : State) : Out :=
  let k := b.box.val
  .next (if (s.fw.boot != .running && s.fw.boot != .handover) || s.power.readyBox.getLsbD k
      || (vget s.fw.boxes k SbState.reset).spoiled then s
    else
      let s := { s with power.readyBox := s.power.readyBox ||| BitVec.ofNat 6 (2 ^ k)
                        fw.boxes := vmod s.fw.boxes k (fun x => if x.state = 2 then { x with state := 0 } else x) }
      match k with
      | 0 =>
        let s := readyPin s
        if s.power.phase == .makeReady then testPresses false { s with power.phase := .running } else s
      | 1 => trainPorts 0 (lockPlls 0b00010000 s)
      | 2 => trainPorts 16 (lockPlls 0b00100000 s)
      | 3 => memoryReady s
      | 4 => { s with eng.unread := b.unread.map (·.toNat) }
      | _ => s)

/-- Whether a press's departure group has departed (R477, R478). -/
def departed (s : State) (p : Nat) : Bool := match s.power.stagger with
  | some (occ, next) => occ != occTest || (List.range next).any (fun g => groupColumn g == p % 12)
  | none => true

/-- PRESS_SELF_TEST_COMPLETE (R469, R470, R478). -/
def execPressSelfTestComplete (p : PressId) (ok : Bool) (s : State) : Out :=
  let k := p.val
  .next (if s.power.phase != .running || s.power.readyPress.getLsbD k || !departed s k then s
    else
      let s := { s with power.testing := s.power.testing &&& ~~~(BitVec.ofNat 96 (2 ^ k)) }
      if ok then { s with power.readyPress := s.power.readyPress ||| BitVec.ofNat 96 (2 ^ k) } else s)

/-- ENGINE_SELF_TEST_COMPLETE (R469, R470): it starts when every near channel is READY. -/
def execEngineSelfTestComplete (ok : Bool) (s : State) : Out :=
  .next (if !s.pastOptions || !ok || !(List.range 32).all (fun c => (s.chan c).ready) then s
    else { s with power.readyEngine := true, power.readySampler := true })

/-- FAR_PORT_READY (R190, R470): a CXL port has trained with its device. -/
def execFarPortReady (f : FarId) (width speed : BitVec 8) (capacity : BitVec 16) (s : State) : Out :=
  .next (if !s.power.readyBox.getLsbD 3 || !s.clk.enMisc.getLsbD f.val || (s.farPort f.val).ready then s
    else s.modFar f.val (fun x => { x with ready := true, down := false, width := width, speed := speed, capacity := capacity }))

/-! ## Watchdogs (R379, R418, R430) -/

/-- Whether the watchdogs of SB1 to SB5 count: an image runs, no handover stands them still, and no warm reset is in progress (R430,
R462). -/
def watchdogsRun (s : State) : Bool := s.fw.boot == .running && !s.warming

/-- A pending waybill change whose command completes with INTERNAL: it keeps nothing. -/
def dropPending (p : WbPending) (s : State) : State := match p.cmd with
  | none => { s with eng.pending := s.eng.pending ++ [p] }
  | some d =>
    let s := match p.change with
      | .opened _ e => freeAt e.inputStore.toNat s
      | .appended _ store _ _ => freeAt store s
      | .stable i => modWb i (fun w => { w with stablePending := false }) s
      | _ => s
    finish d stInternal 0 s

/-- Commands that a box was serving complete with INTERNAL (R430): retrains of its ports, a broadcast, the waybill
commands that wait for a commit. -/
def failServed (b : Nat) (s : State) : State :=
  let ports (lo n : Nat) (s : State) : State := (List.range n).foldl (fun s k =>
    let q := s.port (lo + k)
    (q.runCmds ++ q.requestCmd.toList).foldl (fun s d => finish d stInternal 0 s) (s.modPort (lo + k) (fun q =>
      { q with runCmds := [], requestCmd := none, request := if q.requestCmd.isSome then none else q.request }))) s
  match b with
  | 1 => ports 32 1 (ports 0 16 s)
  | 2 => ports 16 16 s
  | 3 => match s.forme.fabricLoad with
    | some l => formeRefuse l.cmd stInternal frState (dropTensors l.tensors { s with forme.fabricLoad := none })
    | none => match s.forme.broadcast with
      | some b => formeRefuse b.cmd stInternal frState (dropTensors b.tensors { s with forme.broadcast := none })
      | none => s
  | 4 => s.eng.pending.foldl (fun s p => dropPending p s) { s with eng.pending := [] }
  | _ => s

/-- BOX_WATCHDOG_EXPIRY (R379, R430, R436): SB1 to SB5 restart alone, each from its segment of the running copy; SB0's is a warm reset. Copies in flight start again. -/
def execBoxWatchdogExpiry (b : BoxId) (s : State) : Out :=
  let k := b.val
  .next (if k = 0 && s.fw.boot == .running then warmReset 2 { s with fw.boxes := vmod s.fw.boxes 0 (fun x => { x with resets := satInc x.resets }) }
    else if !watchdogsRun s then s
    else
      let s := { s with
        fw.boxes := vmod s.fw.boxes k (fun x => reloadBox (runningCopy s) k { x with resets := satInc x.resets })
        power.readyBox := s.power.readyBox &&& ~~~(BitVec.ofNat 6 (2 ^ k)), health.boxResets := s.health.boxResets + 1 }
      let s := stepFault fcFirmware (170 + k) (if k = 3 then restartCopies s else s)
      postEvent evBoxReset k (if s.tt.inStep then s.tt.step.toNat else 0) 0 (failServed k s))

/-- SB0_WATCHDOG_EXPIRY (R430, R462). A warm reset may fall in a warm reset once its image runs. -/
def execSb0WatchdogExpiry (s : State) : Out :=
  .next (if s.fw.boot != .running then s
    else warmReset 2 { s with fw.boxes := vmod s.fw.boxes 0 (fun x => { x with resets := satInc x.resets }) })

/-! ## The rebuild of the waybills (R325) -/

/-- Slots of the ledger copy in force that hold something, or that the tables name (R189). -/
def rebuildSlots (copy : Option Bool) (s : State) : List Nat :=
  let held := match copy with
    | some c => ledgerHeld s (ledgerBase c)
    | none => []
  (held ++ s.eng.table.map (·.1) ++ s.eng.shadows.map (·.1)).foldl (fun l i =>
    if l.contains i then l else insertBy (fun a b => decide (a ≤ b)) i l) []

/-- The bytes of a slot of the copy in force; zeros where none is (R189). -/
def rebuildSlot (copy : Option Bool) (s : State) (i : Nat) : List Byte := match copy with
  | some c => memRead blank s.near.mem (ledgerBase c + 128 * i) 128
  | none => zeros 128

/-- A desk chip's waybill whose slot reads as uncorrectable closes FAULTED (R189). -/
def loseEntry (s : State) (i : Nat) : State :=
  closeWb i .faulted stInternal (freePages i (modWb i (fun w =>
    { w with berth := none, reserved := 0, stablePending := false, fresh := [], ticket := 0, restoring := false, inPlace := false
             closing := false }) s))

/-- A desk chip's waybill after a warm reset (R325). `bad` slots read as uncorrectable. -/
def rebuildEntry (copy : Option Bool) (bad : List Nat) (s : State) (i : Nat) : State :=
  let w := readEntry (rebuildSlot copy s i)
  if bad.contains i then loseEntry s i
  else if w.state == .free then { s with eng.table := kdel i s.eng.table }
  else
    let w := match kget s.eng.table i with
      | some old => withCurrent old w
      | none => w
    let w := { w with berth := none, reserved := 0, stablePending := false, fresh := [] }
    let put (w : Waybill) (s : State) : State := { s with eng.table := kset i w s.eng.table }
    if w.state == .prefill || w.state == .decode then
      issueTicketLater i (put { w with back := w.state, state := .stabled, inPlace := true } s)
    else put { w with closing := w.state.closed && !w.parkedExpired } s

/-- A stage chip's shadow after a warm reset (R325). One whose slot reads as uncorrectable is gone, and the desk is told so when
it names the waybill (R189, R390; log entry 47). -/
def rebuildStage (copy : Option Bool) (bad : List Nat) (s : State) (i : Nat) : State :=
  let b := rebuildSlot copy s i
  if bad.contains i then { freePages i s with eng.shadows := kdel i s.eng.shadows, mirror.lost := s.mirror.lost ++ [i] }
  else if b.all (· == 0) then { s with eng.shadows := kdel i s.eng.shadows }
  else { s with eng.shadows := kset i ⟨bitAt (leAt b 2 1) 0, leAt b 4 3, leAt b 8 4, 0, none⟩ s.eng.shadows }

/-- The ledger's rebuild leaves the copy that is not in force due (R189). -/
def copyDue (copy : Option Bool) (s : State) : State := match copy with
  | some c => { s with eng.ledgerCopy := !c }
  | none => s

/-- The shadows of the desk chip's own pages, with the committed lengths of its entries. -/
def deskShadows (s : State) : State :=
  { s with eng.shadows := s.eng.table.filterMap (fun x =>
      if s.holdsPages x.1 || (kget s.eng.parked x.1).isSome then some (x.1, ⟨x.2.voided, x.2.committed, s.held x.1 .root, 0, none⟩) else none) }

/-- WAYBILL_REBUILD (R325, R418, R461): SB4 rebuilds the waybills from the ledger copy in force; SB0 writes a new edition and
posts WARM_RESET; the presses begin their self-test. -/
def execWaybillRebuild (s : State) : Out :=
  .next (if s.power.phase != .warm || s.fw.boot != .running || !s.power.readyBox.getLsbD 0 || !s.power.readyBox.getLsbD 4 then s
    else
      let desk := match s.eng.adopt with
        | some (_, v, c) => v.desk == c
        | none => s.hasEntries
      let copy := ledgerInForce s
      let slots := rebuildSlots copy s
      let bad := s.eng.unread
      let s := copyDue copy (if desk then sendAgain (deskShadows (slots.foldl (rebuildEntry copy bad) s))
        else slots.foldl (rebuildStage copy bad) s)
      let s := { s with
        eng.allocs := s.eng.allocs.filter (fun a =>
          if a.kind == .input then (match kget s.eng.table a.owner with
            | some w => w.inputStore.toNat == a.base
            | none => false)
          else (kget s.eng.shadows a.owner).isSome)
        rings.edTable := s.rings.edition + 2, eng.shown := s.eng.table, eng.shownHeld := framesHeld s, eng.shownRanking := false, eng.unread := [], eng.counts := stateCounts s.eng.table, power.phase := .running }
      let s := writeEdition s
      let s := postEvent evWarmReset (s.power.causeWarm.toNat - 1) s.rings.abandoned s.rings.edition.toNat { s with rings.abandoned := 0 }
      testPresses true s)

end Sys2Proof.Machine
end

