-- ==== Sys2Proof/Machine/Time.lean ====
section
/-! DEFINITION. Station time across the machine (R270 to R284): exchanges, notices, the time tree, PPS, TIME_SET and
TIME_SYNC_ROLE. -/

namespace Sys2Proof.Machine

open Sys2Proof

/-! ## Corrections (R276, R277) -/

/-- Station time in 1/256 ns. -/
def State.fine (s : State) : Nat := s.now * 256 + s.nowFrac

/-- A BitVec 72 timestamp in 1/256 ns: nanoseconds in bits [71:8], the fraction in bits [7:0]. -/
def stampOf (t : BitVec 72) : Nat := t.toNat

/-- The largest frequency correction, 200 ppm in units of 2^-32 ns per cycle (R277). -/
def freqLimit : Nat := 858993

/-- The frequency correction follows the upstream's rate within 200 ppm; the spec gives no number for it, so it is free
within that bound (log entry 32). -/
def followRate (s : State) : State :=
  let (v, s) := s.draw
  { s with time.freq := BitVec.ofInt 64 ((v.toNat % (2 * freqLimit + 1) : Nat) - (freqLimit : Int)) }

/-- A phase offset, in 1/256 ns, to be removed by slewing (R277). -/
def slewBy (off : Int) (s : State) : State := { s with time.slew := off * 2 ^ 40 }

/-- The one step of station time (R277): the offset is applied whole. -/
def stepBy (off : Int) (s : State) : State :=
  let t := ((s.fine : Int) + off).toNat
  { s with time.ns := BitVec.ofNat 64 (t / 256), time.frac := BitVec.ofNat 48 (t % 256 * 2 ^ 40), time.slew := 0
           time.stepped := true }

/-- The hop bound of a reach class, in 1/256 ns (R279). -/
def hopBound (reach : Nat) : Nat := if reach = 0 then 128 else if reach = 1 then 256 else 512

/-- The port of a slave's upstream (R274, R281). -/
def State.upstreamPort (s : State) : Nat := if s.time.usingAlt then s.time.altPort.toNat else s.time.port.toNat

/-! ## Exchanges (R275, R276, R278, R281) -/

/-- TIME_PROBE_PERIOD (R275, R289, R429): a slave whose SB5 runs sends a probe to its upstream. Earlier probes go on waiting for
their replies. -/
def execTimeProbePeriod (s : State) : Out :=
  let s0 := s
  let s := pickUpstream s
  let p := s.upstreamPort
  .next (noticeChange s0 (
    if s.time.role != 2 || !s.sb5Up || !(s.port p).ready then s
    else
      let body := s.fine / 256 + s.nowFrac * 2 ^ 64 + s.time.nextProbe.toNat * 2 ^ 72 + gidField s * 2 ^ 96
      sendTime p (controlPacket 1 0 ⟨BitVec.ofNat 84 p, 1⟩ body) none
        { s with time.probes := s.time.probes ++ [(s.time.nextProbe, BitVec.ofNat 5 p, s.fine)], time.nextProbe := s.time.nextProbe + 1 }))

/-- PROBE_LOST (R275): no reply to the oldest probe has come within 100 µs. -/
def execProbeLost (s : State) : Out :=
  .next (if s.time.probes.isEmpty then s
    else { s with time.probes := s.time.probes.tail, time.lost := s.time.lost + 1 })

/-- TIME_PROBE (R275, R282, R429): every chip whose SB5 runs answers a probe that was not sent again. -/
def execTimeProbe (p : PortId) (body : BitVec 192) (t2 : BitVec 72) (replay : Bool) (s : State) : Out :=
  let k := p.val
  let s := controlTake k 1 body s
  let b := body.toNat
  .next (
    if replay then { s with time.replayed := s.time.replayed + 1 }
    else if !s.sb5Up then s
    else
      let t := ((stampOf t2 : Int) - (vget s.time.asym k 0).toInt).toNat
      let reply := t / 256 % 2 ^ 64 + t % 256 * 2 ^ 64 + fld b 72 8 * 2 ^ 72 + s.nowFrac * 2 ^ 80
        + bit s.time.locked * 2 ^ 88 + s.now * 2 ^ 96
      sendTime k (controlPacket 2 0 ⟨BitVec.ofNat 84 k, 1⟩ reply) none s)

/-- Whether the upstream counts as silent: it reports 15 steps or more (R280). -/
def State.upstreamFar (s : State) : Bool := match s.time.upstream with
  | some (_, st, _, _) => decide (15 ≤ st.toNat)
  | none => false

/-- The correction that an offset asks for (R277). An upstream that reports 15 steps or more is silent, and the last correction is
kept (R278, R280). -/
def correct (off : Int) (s : State) : State :=
  if s.upstreamFar then s
  else
    let s := followRate s
    if s.forme.state == .none && !s.time.everLocked && !s.time.stepped && decide (256000 < off.natAbs) then stepBy off s
    else slewBy off s

/-- The lock after one more offset (R278). -/
def relock (off : Int) (bound : Nat) (s : State) : State :=
  let good := if off.natAbs ≤ bound then s.time.goodOffsets + 1 else 0
  let s := { s with time.goodOffsets := good }
  if s.upstreamFar then { s with time.locked := false, time.holdover := true }
  else
    let lock := if 4 * bound < off.natAbs then false
      else s.time.locked || (s.time.upstreamLocked && decide (8 ≤ good))
    { s with time.locked := lock, time.everLocked := s.time.everLocked || lock, time.holdover := false }

/-- TIME_REPLY (R276 to R278, R429): the slave completes an exchange, corrects its time and sets or clears LOCKED. -/
def execTimeReply (p : PortId) (body : BitVec 192) (t4 : BitVec 72) (replay : Bool) (s : State) : Out :=
  let k := p.val
  let s := controlTake k 2 body s
  let b := body.toNat
  .next (
    if replay then { s with time.replayed := s.time.replayed + 1 }
    else
      match takeFirst (fun x => x.1.toNat == fld b 72 8 && x.2.1.toNat == k) s.time.probes with
      | none => s
      | some ((_, _, t1), rest) =>
        if s.time.role != 2 || !s.sb5Up then s
        else
          let t2 : Int := (fld b 0 64 * 256 + fld b 64 8 : Nat)
          let t3 : Int := (fld b 96 64 * 256 + fld b 80 8 : Nat)
          let t4 : Int := (stampOf t4 : Int) - (vget s.time.asym k 0).toInt
          let delay := ((t2 - t1) + (t4 - t3)) / 2
          let off := ((t2 - t1) - (t4 - t3)) / 2
          let s0 := s
          let s := { s with time.probes := rest, time.done := s.time.done + 1, time.heard := true
                            time.delay := BitVec.ofInt 32 delay, time.offset := BitVec.ofInt 32 off
                            time.upstreamLocked := bitAt b 88 }
          noticeChange s0 (relock off (hopBound (s.port k).reach.toNat) (correct off s)))

/-- TIME_SILENCE (R278): no exchange has completed for 1 ms. -/
def execTimeSilence (s : State) : Out :=
  .next (if s.time.role = 2 then
      noticeChange s { s with time.locked := false, time.holdover := true, time.heard := false }
    else s)

/-- TIME_NOTICE (R279, R280, R282, R429): a slave whose SB5 runs takes its upstream's notice. -/
def execTimeNotice (p : PortId) (body : BitVec 192) (s : State) : Out :=
  let k := p.val
  let b := body.toNat
  let s := controlTake k 3 body s
  .next (
    if s.time.role != 2 || s.upstreamPort != k || !s.sb5Up then s
    else
      let st := fld b 24 8
      let s0 := s
      let s := { s with
        time.upstream := some (BitVec.ofNat 20 (fld b 0 20), BitVec.ofNat 8 st, BitVec.ofNat 8 (fld b 32 8), BitVec.ofNat 16 (fld b 128 16))
        time.upstreamLocked := bitAt b 32
        time.master := BitVec.ofNat 20 (fld b 0 20)
        time.steps := BitVec.ofNat 8 (min 255 (st + 1))
        time.errorBound := BitVec.ofNat 16 (satNat 16 (fld b 128 16 + hopBound (s.port k).reach.toNat / 16)) }
      noticeChange s0 (if 15 ≤ st then { s with time.locked := false, time.holdover := true } else s))

/-- TIME_NOTICE_PERIOD (R280). -/
def execTimeNoticePeriod (s : State) : Out := .next (noticeAll s)

/-- ALT_PORT_RETURN (R281): PORT has been READY for 100 ms. -/
def execAltPortReturn (s : State) : Out :=
  .next (if s.time.usingAlt && (s.port s.time.port.toNat).ready then { s with time.usingAlt := false } else s)

/-! ## Time codes and beats (R271 to R273) -/

/-- The repeater that serves a press (R271): 0 QNW, 1 QNE, 2 QSW, 3 QSE. -/
def pressRepeater (p : Nat) : Nat := (if p / 12 < 4 then 0 else 2) + (if p % 12 < 6 then 0 else 1)

/-- TIME_CODE (R271): the time domain sends station time to the repeaters and the link-die copies. -/
def execTimeCode (s : State) : Out := .next { s with time.code := s.time.ns }

/-- The time code at receiver `i`, its measured delay added, in 1/256 ns (R272). -/
def State.codeAt (s : State) (i : Nat) : Nat := s.time.code.toNat * 256 + (vget s.time.repeater i 0).toNat

/-- One nanosecond at the repeaters and the link-die copies (R271 to R273): each keeps its own time between codes, and takes a
code in the nanosecond in which it arrives. -/
def codeTick (s : State) : State :=
  { s with time.repCode := s.time.repCode.mapIdx (fun i c =>
      (if s.codeAt i ≤ s.fine && decide (s.fine < s.codeAt i + 256) then s.codeAt i else c) + 256) }

/-- Local station time held within 1 ns of that of the time domain, in 1/256 ns (R273). -/
def within (fine t : Nat) : Nat := max (fine - 256) (min t (fine + 256))

/-- Every press's and every repeater's local time within its bound, after a cycle (R273). -/
def settleTimes (s : State) : State :=
  { s with time.repCode := s.time.repCode.map (within s.fine)
           time.beats := s.time.beats.map (fun b => { b with station := within s.fine b.station }) }

/-- One nanosecond of a press's local time (R273). It counts its beat, takes a time code that has reached it, and follows the
last code plus its beats times the ratio of the microsecond before; a difference is slewed away, and local time never
decreases. How much a nanosecond slews is free, up to a sixteenth of it (log entry 122). -/
def beatNs (now fine code p : Nat) (b : Beat) : Beat :=
  let n := Config.beats p now
  let c := code + b.delay.toNat
  let b := { b with count := b.count + n }
  let b := if b.code != c && decide (c ≤ fine) then { b with code := c, span := c - b.code, last := b.count, count := 0 } else b
  let aim := b.code + b.count * b.span / b.last
  let go := b.station + n * b.span / b.last
  let slew := Config.beatSlew p now % 17
  { b with station := if go ≤ aim then go + min slew (aim - go) else max b.station (go - min slew (go - aim)) }

/-- One nanosecond of every press's local time. -/
def beatTick (s : State) : State :=
  { s with time.beats := s.time.beats.mapIdx (fun p b => beatNs s.now s.fine (s.codeAt (pressRepeater p)) p b) }

/-! ## Pulse per second (R283, R284) -/

/-- The offset of the nearest whole second from a capture, in 1/256 ns (R283). -/
def ppsOffset (t : Nat) : Int :=
  let sec := 256 * 1000000000
  (((t + sec / 2) / sec * sec : Nat) : Int) - (t : Int)

/-- PPS_IN_EDGE (R283, R429): the time domain captures the edge, and SB5, where it runs, disciplines the master by it. PPS_LOCKED
is set by the first edge that does so (log entry 32). Nothing is captured while a full reset is held or AUX is absent (R495). -/
def execPpsInEdge (t : BitVec 72) (s : State) : Out :=
  if !s.alive then .next s
  else
  let s := { s with time.ppsNs := BitVec.ofNat 56 (t.toNat / 256), time.ppsFrac := BitVec.ofNat 8 t.toNat
                    time.ppsEdges := s.time.ppsEdges + 1 }
  let off := ppsOffset (stampOf t)
  .next (
    if s.time.role != 1 || !s.time.ppsDiscipline || !s.sb5Up then s
    else if s.time.ppsLocked && decide (128000000 < off.natAbs) then { s with time.ppsIgnored := s.time.ppsIgnored + 1 }
    else noticeChange s (slewBy off (followRate { s with time.ppsLocked := true, time.holdover := false })))

/-- PPS_TIMEOUT (R283): 2 s without an edge. -/
def execPpsTimeout (s : State) : Out :=
  .next (if s.time.role = 1 && s.time.ppsDiscipline then
      noticeChange s { s with time.ppsLocked := false, time.holdover := true }
    else s)

/-- PPS_OUT_EDGE (R266, R284, R467): at a whole second the pin rises, and stays high for 1 ms, once firmware has taken it
and while its generator is enabled. -/
def execPpsOutEdge (s : State) : Out :=
  .next (if (s.time.ppsDue || s.now % 1000000000 = 0) && s.clk.enMisc.getLsbD 2 && s.power.taken.getLsbD 4 then
      { s with time.ppsHigh := 1000000, time.ppsDue := false }.setPin 4 .high
    else s)

/-! ## Setting time and role (R274) -/

/-- A write of TIME_SET. -/
def timeSet (value : Reg) (s : State) : State :=
  if (s.time.role = 0 || s.time.role = 1) && s.forme.state == .none then
    { s with time.ns := value, time.frac := 0, time.slew := 0 }
  else { s with time.setRefused := true }

/-- TIME_SET (R274). -/
def execTimeSet (w : CsWr) (s : State) : Out := .next (behindWrites 0x20028 w (timeSet w.value) s)

/-- The disciplines of a new role (R274, R278). The frequency correction and what is left to slew stay: DESIGN CHOICE, log entry
146, since the spec does not say what becomes of them when a slave runs free. -/
def takeRole (role : Nat) (s : State) : State :=
  { s with time.locked := role == 1, time.everLocked := s.time.everLocked || role == 1, time.holdover := false
           time.goodOffsets := 0, time.usingAlt := false, time.ppsLocked := false, time.heard := false
           time.upstream := none, time.upstreamLocked := false, time.probes := []
           time.steps := 0, time.errorBound := 0
           time.master := if role = 1 then s.fab.gid else 0 }

/-- TIME_SYNC_ROLE (R274, R422). -/
def execTimeSyncRole (d : Descriptor) (s : State) : Out :=
  .next (command d [(24, 5)] (fun s =>
    let role := pArg d 24 1
    let port := pArg d 25 1
    let alt := pArg d 26 1
    let per := if pArg d 27 1 = 0 then 4 else pArg d 27 1
    let pps := pArg d 28 1
    if decide (2 < role) || decide (31 < port) || decide (31 < alt) || alt == port || decide (64 < per) || decide (1 < pps)
        || (pps == 1 && role != 1) then finish d stBadParam 0 s
    else
      let same := s.time.role.toNat == role && s.time.port.toNat == port && s.time.altPort.toNat == alt
      let s0 := s
      let s := { s with time.role := BitVec.ofNat 2 role, time.port := BitVec.ofNat 5 port, time.altPort := BitVec.ofNat 5 alt
                        time.period := BitVec.ofNat 8 per, time.ppsDiscipline := pps == 1 }
      finish d stDone 0 (noticeChange s0 (pickUpstream (if same then s else takeRole role s)))) s)

end Sys2Proof.Machine
end

