-- ==== Sys2Proof/Machine/Companion.lean ====
section
/-! DEFINITION. The companion's side of KCL (R401 to R418, R426): register writes, rings, the taking of descriptors, and
window accesses with the directory of shared lines. -/

namespace Sys2Proof.Machine

open Sys2Proof

/-! ## Breakpoints, far tier and other registers -/

/-- A write of DEBUG_MODE (R158): RESUME releases every stopped unit, which is not tested again at what it stopped before. -/
def debugResume (value : Reg) (s : State) : State :=
  if !bitAt value.toNat 2 || s.dbg.stopped.isEmpty then s
  else
    let units := s.dbg.stopped
    let go (s : State) (u : Stopped) : State := match u with
      | .stream p i => s.modPress p.val (fun q => q.modStream i (fun x => if x.state == .stopped then { x with state := .running } else x))
      | .sampler => { s with smp.stopped := false }
      | .engine => s
    let s := units.foldl go { s with dbg.stopped := [], dbg.passed := s.dbg.passed ++ units }
    let s := releaseHolds (fun h => h.cause == .debug) s
    if units.contains .engine then commitGoOn s else s

/-- DEBUG_RESUME (R158). -/
def execDebugResume (w : CsWr) (s : State) : Out := .next (behindWrites 0x70000 w (debugResume w.value) s)

/-- A write of FAR_CONFIG (R191, R193). -/
def farConfigWrite (value : Reg) (s : State) : State :=
  let v := value.toNat
  { s with far.areaError := s.far.areaError && !bitAt v 1, far.interleave := if s.loaded then s.far.interleave else bitAt v 0 }

/-- FAR_CONFIG_WRITE (R191, R193). -/
def execFarConfigWrite (w : CsWr) (s : State) : Out := .next (behindWrites 0x2100010 w (farConfigWrite w.value) s)

/-- Whether two areas of the far tier, each a base and a size, overlap. An empty area overlaps none. -/
def areasMeet (a b : Nat × Nat) : Bool :=
  decide (0 < a.2) && decide (0 < b.2) && decide (a.1 < b.1 + b.2) && decide (b.1 < a.1 + a.2)

/-- A write of FAR_AREA[i] (R193). -/
def farAreaWrite (i : Fin 5) (value : Reg) (s : State) : State :=
  let base := fld value.toNat 0 32
  let size := fld value.toNat 32 32
  let other (k : Fin 5) : Nat × Nat := (s.far.areaBase[k].toNat, s.far.areaSize[k].toNat)
  if s.loaded then s
  else if (List.finRange 5).any (fun k => k != i && areasMeet (base, size) (other k)) then { s with far.areaError := true }
  else { s with far.areaBase := s.far.areaBase.set i (BitVec.ofNat 32 base), far.areaSize := s.far.areaSize.set i (BitVec.ofNat 32 size) }

/-- FAR_AREA_WRITE (R193). -/
def execFarAreaWrite (i : Fin 5) (w : CsWr) (s : State) : Out :=
  .next (behindWrites (0x2100100 + 8 * i.val) w (farAreaWrite i w.value) s)

/-! ## Rings (R412, R413) -/

/-- A ring as bytes of the shared window: first byte and length. -/
def ringSpan (slot : Nat) (c : RingCfg) : Nat × Nat := (c.base.toNat * 1024, c.slots * slot)

/-- The spans of the enabled rings and of an enabled edition page. -/
def enabledSpans (s : State) : List (Nat × Nat) :=
  let one (slot : Nat) (r : Ring) : List (Nat × Nat) := if r.cfg.enable then [ringSpan slot r.cfg] else []
  s.rings.sub.toList.flatMap (one 64) ++ s.rings.cpl.toList.flatMap (one 32) ++ one 32 s.rings.evt
    ++ s.rings.out.flatMap (fun x => one 32 x.2) ++ (if s.rings.edEnable then [(s.rings.edBase.toNat * 1024, 32768)] else [])

/-- Whether every near channel is READY (R471). -/
def State.nearReady (s : State) : Bool := s.near.channels.toList.all (fun c => c.ready)

/-- Whether a span may be enabled: aligned to `unit` bytes, within the shared window, apart from every enabled span, and with
every near channel READY (R413, R471). -/
def spanFree (unit : Nat) (span : Nat × Nat) (s : State) : Bool :=
  s.nearReady && span.1 % unit == 0 && decide (span.1 + span.2 ≤ s.kcl.sharedSize.toNat * 1024)
    && (enabledSpans s).all (fun x => !areasMeet span x)

/-- A configuration register as written; `aux` is the field that lies at bit 32. -/
def ringCfgOf (auxBits : Nat) (intr : Bool) (v : Nat) : RingCfg :=
  ⟨bitAt v 63, intr && bitAt v 62, BitVec.ofNat 16 (fld v 32 auxBits), BitVec.ofNat 5 (fld v 24 5), BitVec.ofNat 22 (fld v 0 22)⟩

/-- What a write of a ring's configuration does (R413): an enabled ring takes only the clearing of ENABLE; a write that sets
ENABLE empties the ring, or is ignored with CFG_ERROR (`none`). -/
def ringCfgWrite (slot lo hi : Nat) (new : RingCfg) (r : Ring) (s : State) : Option Ring :=
  if r.cfg.enable then some { r with cfg := { r.cfg with enable := new.enable } }
  else if !new.enable then some { r with cfg := new }
  else if decide (lo ≤ new.size.toNat) && decide (new.size.toNat ≤ hi) && spanFree 4096 (ringSpan slot new) s then some ⟨new, 0, 0⟩
  else none

/-- CFG_ERROR of KCL_STATUS. -/
def setCfgError (s : State) : State := { s with kcl.cfgError := true }

/-- A write of SUB_CFG[i] (R413). -/
def subCfgWrite (i : Fin 64) (value : Reg) (s : State) : State :=
  match ringCfgWrite 64 4 12 (ringCfgOf 6 false value.toNat) s.rings.sub[i] s with
  | some r => { s with rings.sub := s.rings.sub.set i r }
  | none => setCfgError s

/-- SUB_CFG_WRITE (R413). -/
def execSubCfgWrite (i : Fin 64) (w : CsWr) (s : State) : Out :=
  .next (behindWrites (0x100000 + 16 * i.val) w (subCfgWrite i w.value) s)

/-- A write of CPL_CFG[j] (R413). Completions that wait may find room. -/
def cplCfgWrite (j : Fin 64) (value : Reg) (s : State) : State :=
  match ringCfgWrite 32 4 12 (ringCfgOf 16 true value.toNat) s.rings.cpl[j] s with
  | some r => flushAll { s with rings.cpl := s.rings.cpl.set j r }
  | none => setCfgError s

/-- CPL_CFG_WRITE (R413). -/
def execCplCfgWrite (j : Fin 64) (w : CsWr) (s : State) : Out :=
  .next (behindWrites (0x100400 + 16 * j.val) w (cplCfgWrite j w.value) s)

/-- A write of CPL_INDEX[j] (R415): room, and the completions that waited for it. -/
def cplConsumerWrite (j : Fin 64) (value : Reg) (s : State) : State :=
  flushAll { s with rings.cpl := s.rings.cpl.set j { s.rings.cpl[j] with consumer := BitVec.ofNat 32 (fld value.toNat 0 16) } }

/-- CPL_CONSUMER_WRITE (R415). -/
def execCplConsumerWrite (j : Fin 64) (w : CsWr) (s : State) : Out :=
  .next (behindWrites (0x100408 + 16 * j.val) w (cplConsumerWrite j w.value) s)

/-- A write of EVT_CFG (R413). -/
def evtCfgWrite (value : Reg) (s : State) : State :=
  match ringCfgWrite 32 6 12 (ringCfgOf 16 true value.toNat) s.rings.evt s with
  | some r => { s with rings.evt := r }
  | none => setCfgError s

/-- EVT_CFG_WRITE (R413). -/
def execEvtCfgWrite (w : CsWr) (s : State) : Out := .next (behindWrites 0x100800 w (evtCfgWrite w.value) s)

/-- A write of EVT_INDEX (R417). -/
def evtConsumerWrite (value : Reg) (s : State) : State := { s with rings.evt.consumer := BitVec.ofNat 32 (fld value.toNat 0 16) }

/-- Whether a waybill that is not FREE names an output ring (R413). -/
def ringNamed (s : State) (r : Nat) : Bool := s.eng.table.any (fun w => w.2.state != .free && w.2.ring.toNat == r)

/-- A write of OUT_CFG[r] (R413). -/
def outCfgWrite (r : Nat) (value : Reg) (s : State) : State :=
  let x := outRing s r
  let new := ringCfgOf 16 false value.toNat
  if x.cfg.enable && !new.enable && ringNamed s r then s
  else match ringCfgWrite 32 6 20 new x s with
    | some x => { s with rings.out := kset r x s.rings.out }
    | none => setCfgError s

/-- OUT_CFG_WRITE (R413). -/
def execOutCfgWrite (r : BitVec 12) (w : CsWr) (s : State) : Out :=
  .next (behindWrites (0x108000 + 16 * r.toNat) w (outCfgWrite r.toNat w.value) s)

/-- A write of OUT_CONSUMER[r] (R347, R427): room, and the commit that waited for it. -/
def outConsumerWrite (r : Nat) (value : Reg) (s : State) : State :=
  let s := { s with rings.out := kset r { outRing s r with consumer := BitVec.ofNat 32 (fld value.toNat 0 32) } s.rings.out }
  match s.rings.commit with
  | some (_, 3, _) => commitGoOn s
  | some _ => s
  | none => cancelGoOn s

/-- OUT_CONSUMER_WRITE (R347, R427). -/
def execOutConsumerWrite (r : BitVec 12) (w : CsWr) (s : State) : Out :=
  .next (behindWrites (0x108008 + 16 * r.toNat) w (outConsumerWrite r.toNat w.value) s)

/-- A write of SUB_DOORBELL[i] (R414, R476): a producer index beyond the ring's size is ignored, with an event. -/
def subDoorbell (i : Fin 64) (value : Reg) (s : State) : State :=
  let r := s.rings.sub[i]
  let p := fld value.toNat 0 16
  let s := touchWindow s
  if r.cfg.slots < (p + 65536 - r.consumer.toNat) % 65536 then postEvent evRingError i.val value.toNat 0 s
  else { s with rings.sub := s.rings.sub.set i { r with producer := BitVec.ofNat 32 p } }

/-- SUB_DOORBELL (R414). -/
def execSubDoorbell (i : Fin 64) (w : CsWr) (s : State) : Out :=
  .next (behindWrites (0x100008 + 16 * i.val) w (subDoorbell i w.value) s)

/-- A write of KCL_SHARED (R404): ignored while a ring or the edition page is enabled, and where SIZE is no multiple of 4,096
or above 4,194,304. -/
def kclSharedWrite (value : Reg) (s : State) : State :=
  let n := fld value.toNat 0 32
  if !(enabledSpans s).isEmpty || n % 4096 != 0 || decide (4194304 < n) then s else { s with kcl.sharedSize := BitVec.ofNat 32 n }

/-- KCL_SHARED_WRITE (R404). -/
def execKclSharedWrite (w : CsWr) (s : State) : Out := .next (behindWrites 0x120008 w (kclSharedWrite w.value) s)

/-- A write of EDITION_PTR (R413, R426, R471): enabling it writes an edition at once. -/
def editionPtrWrite (value : Reg) (s : State) : State :=
  let v := value.toNat
  let base := fld v 0 22
  if s.rings.edEnable then { s with rings.edEnable := bitAt v 63 }
  else if !bitAt v 63 then { s with rings.edBase := BitVec.ofNat 22 base }
  else if !spanFree 32768 (base * 1024, 32768) s then setCfgError s
  else writeEdition { s with rings.edBase := BitVec.ofNat 22 base, rings.edEnable := true }

/-- EDITION_PTR_WRITE (R426). -/
def execEditionPtrWrite (w : CsWr) (s : State) : Out := .next (behindWrites 0x300000 w (editionPtrWrite w.value) s)

/-! ## The decoder's writes (R7, R411) -/

/-- The first of some register arrays that holds an offset, and the effect of a write to the element. -/
def writeFind (off : Nat) : List (Nat × Nat × Nat × (Nat → State → State)) → Option (State → State)
  | [] => none
  | (base, stride, n, f) :: l => match regIndex off base stride n with
    | some i => some (f i)
    | none => writeFind off l

/-- A single register with what a write does. -/
def wreg1 (base : Nat) (f : State → State) : Nat × Nat × Nat × (Nat → State → State) := (base, 8, 1, fun _ => f)

/-- A write of POWER_CTL (R475, R481): a LIMIT outside 600 to 1,800 is ignored. -/
def powerCtlWrite (v : Nat) (s : State) : State :=
  let limit := fld v 0 12
  { s with power.deepAllow := bitAt v 17, power.quietAllow := bitAt v 16
           power.limit := if decide (600 ≤ limit) && decide (limit ≤ 1800) then BitVec.ofNat 12 limit else s.power.limit }

/-- A write of HEALTH_ALERTS[j] (R393, R463): write one to clear, and the level of ALERT_L. -/
def alertsWrite (j v : Nat) (s : State) : State :=
  alertPin { s with health.alerts := s.health.alerts &&& ~~~(BitVec.ofNat 164 (v * 2 ^ (64 * j))) }

/-- A write of FW_RECOVERY_CTL: LENGTH, and GO in recovery (R435). GO reads back as written and is cleared by the ROM (R7). A GO written while
the ROM already reads an image begins no second reading, and a 0 does not end one: DESIGN CHOICE, log entry 135. -/
def recoveryCtlWrite (v : Nat) (s : State) : State :=
  let go := bitAt v 63 && s.fw.boot == .recovery
  let begins := go && s.kcl.reads.all (fun r => r.cmd.isSome) && s.kcl.want.all (fun r => r.cmd.isSome)
  let s := { s with fw.recoveryLen := BitVec.ofNat 32 v, fw.recoveryGo := go }
  if begins then romReads s.fw.recoveryAddr.toNat s.fw.recoveryLen.toNat s else s

/-- What a write of a writable register below 0x0010_0000 does. -/
def writeSystem (off : Nat) (value : Reg) : Option (State → State) :=
  let v := value.toNat
  writeFind off [
    wreg1 0x20010 (fun s => { s with time.setRefused := s.time.setRefused && !bitAt v 5 }),
    wreg1 0x20028 (timeSet value),
    (0x20100, 8, 32, fun p s => { s with time.asym := vmod s.time.asym p (fun _ => BitVec.ofNat 16 v) }),
    (0x40000, 8, 3, fun r => clkenWrite r value),
    wreg1 0x40018 (fun s => { s with clk.refused := s.clk.refused && !bitAt v 48 }),
    (0x40040, 8, 4, fun d => domainCtlWrite (Fin.ofNat 4 d) value), (0x40080, 8, 2, fun j => sscCtlWrite (Fin.ofNat 2 j) value),
    wreg1 0x50008 (powerCtlWrite v),
    wreg1 0x60800 (fun s => { s with health.floor := BitVec.ofNat 10 v }), (0x60810, 8, 3, fun j => alertsWrite j v),
    wreg1 0x60A00 (fun s => { s with mirror.full := s.mirror.full && !bitAt v 61 }),
    wreg1 0x60A10 (fun s => if s.started then s else { s with mirror.logConfig := BitVec.ofNat 3 v }),
    wreg1 0x70000 (debugResume value), (0x70100, 8, 8, fun i => setBreak i v),
    wreg1 0x70180 (fun s => { s with dbg.hitValid := s.dbg.hitValid && !bitAt v 43 })]

/-- What a write of a writable register from 0x0010_0000 does. -/
def writeOther (off : Nat) (value : Reg) : Option (State → State) :=
  let v := value.toNat
  writeFind off [
    (0x100000, 16, 64, fun i => subCfgWrite (Fin.ofNat 64 i) value), (0x100008, 16, 64, fun i => subDoorbell (Fin.ofNat 64 i) value),
    (0x100400, 16, 64, fun j => cplCfgWrite (Fin.ofNat 64 j) value), (0x100408, 16, 64, fun j => cplConsumerWrite (Fin.ofNat 64 j) value),
    wreg1 0x100800 (evtCfgWrite value), wreg1 0x100808 (evtConsumerWrite value),
    (0x108000, 16, 4096, fun r => outCfgWrite r value), (0x108008, 16, 4096, fun r => outConsumerWrite r value),
    wreg1 0x120000 (fun s => { s with kcl.cfgError := s.kcl.cfgError && !bitAt v 41 }), wreg1 0x120008 (kclSharedWrite value),
    wreg1 0x121008 (linkConfigWrite 32 value), (0x200000, 8, 1024, fun w => cancelWrite w value),
    wreg1 0x300000 (editionPtrWrite value), wreg1 0x2100010 (farConfigWrite value),
    (0x2100100, 8, 5, fun i => farAreaWrite (Fin.ofNat 5 i) value), (0x3000008, 0x10000, 32, fun p => linkConfigWrite p value),
    wreg1 0x3200000 (fabricGidWrite value),
    wreg1 0x3200008 (fun s => if s.loaded then s else reloadDie { s with fab.dieBlock := BitVec.ofNat 4 v }),
    wreg1 0x4000080 (fun s => { s with eng.cancelIgnored := s.eng.cancelIgnored && !bitAt v 2 }),
    wreg1 0x6000008 (fun s => { s with fw.recoveryAddr := value }), wreg1 0x6000010 (recoveryCtlWrite v),
    (0x6001000, 8, 16, fun i s => { s with fw.optionBlock := vmod s.fw.optionBlock i (fun _ => value) }),
    wreg1 0x6001080 (optionCtlWrite value)]

/-- A write of control space (R7, R411): the effect of the register's access code; none on a read-only register or at an
unaligned offset; counted where no register lies. -/
def csWrite (off : Nat) (value : Reg) (s : State) : State :=
  if off % 8 != 0 then s
  else match if off < 0x100000 then writeSystem off value else writeOther off value with
    | some f => f s
    | none => if (readReg s off).isSome then s else countUnmapped s

/-- REGISTER_WRITE (R7, R411). -/
def execRegisterWrite (offset : BitVec 27) (w : CsWr) (s : State) : Out :=
  .next (behindWrites offset.toNat w (csWrite offset.toNat w.value) s)

/-! ## Window accesses and the directory (R404, R405) -/

/-- Lines that the directory holds in S or E at most (R405). -/
def directorySize : Nat := 1048576

/-- Whether a line may be granted now: no snoop of it is out, no write of the module to it waits, and the directory has room
(R405, R406). -/
def grantable (a : Nat) (s : State) : Bool :=
  s.kcl.snoops.all (fun x => x.1 != lineBase a)
    && s.kcl.fifo.all (fun o => match o with
      | .write b _ => lineBase b != lineBase a
      | .intr _ | .mirror _ => true)
    && ((lineState s.kcl a).isSome || decide (s.kcl.lines.length < directorySize))

/-- A recall of the line granted longest ago, where a grant needs room and no recall that is out makes it; it is counted as its SNP_INV is
sent, so not while an earlier snoop of that line is out (R405). -/
def recallFor (a : Nat) (s : State) : State :=
  let out (l : Line) : Bool := s.kcl.snoops.any (fun x => x.1 == l.addr && x.2)
  if (lineState s.kcl a).isSome || s.kcl.lines.length < directorySize + (s.kcl.lines.filter out).length then s
  else match s.kcl.lines.find? (fun l => !out l) with
    | some l => if s.kcl.snoops.any (fun x => x.1 == l.addr) then s else kclSnoop l.addr true { s with kcl.recalls := s.kcl.recalls + 1 }
    | none => s

/-- The answer to a CS_RD (R402, R411). -/
def csAnswer (tag : BitVec 16) (off : Nat) (s : State) : State :=
  if off % 8 != 0 then respond 0x20 true tag (zeros 64) s
  else match readReg s off with
    | some v => respond 0x20 false tag (leBytes 8 v ++ zeros 56) s
    | none => respond 0x20 false tag (zeros 64) (countUnmapped s)

/-- A line given up clean (R405). -/
def evictLine (tag : BitVec 16) (a : Nat) (s : State) : State :=
  if (lineState s.kcl a).isSome then kclPump (respond 0x21 false tag [] (dropLine a s)) else respond 0x21 false tag [] s

/-- The address whose channel serves an access. A bulk access that crosses into another entry is served and counted on the channel
of its first entry alone: DESIGN CHOICE, log entry 133, since R174 and R178 do not say which channel serves it. -/
def HostAccess.addr : HostAccess → Nat
  | .readShared _ a => a
  | .readOwn _ a => a
  | .bulkRead _ a _ => a
  | .bulkWrite _ a _ _ => a
  | .writeback _ a _ => a
  | .snpData a _ _ => a
  | .evict _ a => a

/-- Whether data given up before a snoop still waits for its slot. -/
def State.givenWaits (s : State) : Bool := s.near.channels.toList.any (fun c => !c.host.isEmpty)

/-- Whether a request that needs no channel may be performed now, where `first` says that no earlier request waits, and `writes` that an earlier
write does (R407): a CS_RD after every earlier request, a CS_WR after every earlier write, and an EVICT or a WRITEBACK whose line is not in
E after every earlier request. -/
def Held.ready (s : State) (first writes : Bool) (r : Held) : Bool := match r with
  | .read _ _ => first && !s.givenWaits
  | .write _ _ => !writes && !s.near.channels.toList.any (fun c => c.host.any HostAccess.writes)
  | .window (.evict _ _) => first
  | .window (.writeback _ a _) => first && lineState s.kcl a != some true
  | .window _ => false

/-- The first waiting request that may be performed now, and the others. -/
def nextReady (s : State) : Bool → Bool → List Held → Option (Held × List Held)
  | _, _, [] => none
  | first, writes, r :: l =>
    if r.ready s first writes then some (r, l)
    else (nextReady s false (writes || r.writes) l).map (fun x => (x.1, r :: x.2))

/-- A request that needs no channel performed. -/
def performReq (r : Held) (s : State) : State := match r with
  | .read tag off => csAnswer tag off s
  | .write off w => respond 0x21 false w.tag [] (csWrite off w.value s)
  | .window (.evict tag a) => evictLine tag a s
  | .window (.writeback tag _ _) => respond 0x21 false tag [] s
  | .window _ => s

/-- The grant that stands first among the waiting requests gets room (R405). -/
def recallFirst (s : State) : State := match s.kcl.reqs with
  | .window (.readShared _ a) :: _ => recallFor a s
  | .window (.readOwn _ a) :: _ => recallFor a s
  | _ => s

/-- Every request performed that may be performed without a channel (R407). -/
def reqGo : Nat → State → State
  | 0, s => recallFirst s
  | n + 1, s => match nextReady s true false s.kcl.reqs with
    | some (r, rest) => reqGo n (performReq r { s with kcl.reqs := rest })
    | none => recallFirst s

/-- What waited for a snoop's answer or for an earlier access goes on. -/
def companionGo (s : State) : State :=
  let s := kclPump s
  reqGo s.kcl.reqs.length s

/-- Whether a window access may be served now: a grant only where the line may be granted. -/
def HostAccess.serves (h : HostAccess) (s : State) : Bool := match h with
  | .readShared _ a => grantable a s
  | .readOwn _ a => grantable a s
  | .bulkRead _ _ _ | .bulkWrite _ _ _ _ | .writeback _ _ _ | .snpData _ _ _ => true
  | .evict _ _ => false

/-- The accesses that a channel serves, at most `n`: the lines given up for snoops, and then the requests in the order received, as
long as the first that waits lies on this channel (R178, R407). -/
def serveHosts : Nat → Nat → List NearAccess → State → State
  | 0, _, _, s => s
  | n + 1, c, res, s =>
    match (s.chan c).host with
    | h :: rest =>
      serveHosts n c res.tail (companionGo (serveHost h (res.headD cleanAccess) (s.modChan c (fun x => { x with host := rest }))))
    | [] => match s.kcl.reqs with
      | .window h :: rest =>
        if h.addr / 1024 % 32 == c && h.serves s then
          serveHosts n c res.tail (companionGo (serveHost h (res.headD cleanAccess) { s with kcl.reqs := rest }))
        else s
      | _ => s

/-- SEQ_SLOT_HOST (R178, R179): up to ENTRIES pending accesses of the companion in arrival order in a HOST slot, or all of them
in the gap between steps; a slot with none passes. -/
def execSeqSlotHost (c : SeqId) (res : List NearAccess) (s : State) : Out :=
  let k := c.val
  if !s.tt.inStep then
    .next (if s.gapServes k then companionGo (serveHosts ((s.chan k).host.length + s.kcl.reqs.length) k res s) else s)
  else
    let s := seqGo k s
    match seqRecord k s with
    | some (0, r) =>
      if fld r 58 2 = 1 && s.chanFree k then .next (companionGo (seqPass k (serveHosts (fld r 38 12 + 1) k res s))) else .next s
    | _ => .next s

/-- A request of the companion received: it takes its place behind the earlier ones (R407), and what may be performed is. -/
def receiveReq (r : Held) (s : State) : State :=
  reqGo (s.kcl.reqs.length + 1) { s with kcl.reqs := s.kcl.reqs ++ [r] }

/-- A window access received: answered with ERROR where `ok` is false or a channel is not READY (R405, R471), else performed
in its turn. -/
def windowRequest (msg answer : Nat) (tag : BitVec 16) (data : Nat) (ok : Bool) (h : HostAccess) (s : State) : State :=
  if !s.kclUp then s
  else
    let s := touchWindow (kclTake msg tag s)
    if !ok || !s.nearReady then respond (BitVec.ofNat 8 answer) true tag (zeros data) s else receiveReq (.window h) s

/-- Whether a line lies in the shared window (R404, R405). -/
def lineInside (s : State) (a : Nat) : Bool := decide (lineBase a + 64 ≤ s.kcl.sharedSize.toNat * 1024)

/-- RD_SHARED (R402, R405). -/
def execRdShared (tag : BitVec 16) (addr : BitVec 62) (s : State) : Out :=
  .next (windowRequest 0x03 0x22 tag 64 (lineInside s addr.toNat) (.readShared tag (lineBase addr.toNat)) s)

/-- RD_OWN (R402, R405). -/
def execRdOwn (tag : BitVec 16) (addr : BitVec 62) (s : State) : Out :=
  .next (windowRequest 0x04 0x23 tag 64 (lineInside s addr.toNat) (.readOwn tag (lineBase addr.toNat)) s)

/-- The bytes of the near tier, all of which the bulk window reaches (R174, R404). -/
def nearBytes : Nat := 2 ^ 37

/-- BULK_RD (R402, R404). An address beyond the near tier does not exist: DESIGN CHOICE, log entry 157. -/
def execBulkRd (tag : BitVec 16) (addr : BitVec 62) (length : BitVec 16) (s : State) : Out :=
  let n := length.toNat
  let ok := decide (64 ≤ n) && decide (n ≤ 1024) && n % 64 == 0
  if ok && decide (nearBytes < addr.toNat + n) then .fault (.noSuchAddress addr.toNat)
  else .next (windowRequest 0x07 0x24 tag 64 ok (.bulkRead tag addr.toNat n) s)

/-- BULK_WR (R402, R404, R406). An address beyond the near tier does not exist: DESIGN CHOICE, log entry 157. -/
def execBulkWr (tag : BitVec 16) (addr : BitVec 62) (mask : BitVec 64) (data : List Byte) (s : State) : Out :=
  let n := data.length
  let ok := decide (64 ≤ n) && decide (n ≤ 1024) && n % 64 == 0
  if ok && decide (nearBytes < addr.toNat + n) then .fault (.noSuchAddress addr.toNat)
  else .next (windowRequest 0x08 0x21 tag 0 ok (.bulkWrite tag addr.toNat mask data) s)

/-! ## Lines given up, and snoops (R403, R405, R406) -/

/-- WRITEBACK (R404 to R406): the data of a line in E is written in a HOST slot or the gap, and answered then; that of a line not in E is
discarded. Where a snoop of the line is out, the data is that snoop's and waits for no earlier request (R403). -/
def execWriteback (tag : BitVec 16) (addr : BitVec 62) (data : BitVec 512) (s : State) : Out :=
  let a := lineBase addr.toNat
  let s := windowRequest 0x05 0x21 tag 0 true (.writeback tag a data) s
  .next (if s.kcl.snoops.any (fun x => x.1 == a) then pullForward a s else s)

/-- EVICT (R405), in its turn. It touches no near memory; before every channel is READY it is answered with ERROR (R471). -/
def execEvict (tag : BitVec 16) (addr : BitVec 62) (s : State) : Out :=
  .next (windowRequest 0x06 0x21 tag 0 true (.evict tag (lineBase addr.toNat)) s)

/-- A snoop of a line answered (R402, R405): SNP_INV leaves the line I, SNP_SHARE leaves it S. Data that has been given up for the
line is written first (R406). -/
def snoopAnswer (a : Nat) (s : State) : State := match s.kcl.snoops.find? (fun x => x.1 == lineBase a) with
  | none => s
  | some (_, inv) =>
    let s := { s with kcl.snoops := s.kcl.snoops.filter (fun x => x.1 != lineBase a) }
    companionGo (if s.lineDue a then s else if inv then dropLine a s else shareLine a s)

/-- SNP_ACK (R402, R405, R406). -/
def execSnpAck (addr : BitVec 62) (s : State) : Out :=
  .next (if s.kclUp then snoopAnswer addr.toNat (kclTake 0x25 0 s) else s)

/-- SNP_DATA (R402, R404, R405): the modified line is taken where the snoop is still out and the line is in E; it is written in a HOST
slot or the gap. -/
def execSnpData (addr : BitVec 62) (data : BitVec 512) (s : State) : Out :=
  let a := addr.toNat
  .next (if !s.kclUp then s
    else
      let s := kclTake 0x26 0 s
      match s.kcl.snoops.find? (fun x => x.1 == lineBase a) with
      | some (_, inv) =>
        if lineState s.kcl a == some true && !s.lineDue a then
          { s.modChan (a / 1024 % 32) (fun c => { c with host := c.host ++ [.snpData (lineBase a) inv data] }) with
            kcl.snoops := s.kcl.snoops.filter (fun x => x.1 != lineBase a) }
        else snoopAnswer a s
      | none => s)

/-- SNOOP_TIMEOUT (R403): the line is taken as I with the module's own copy. -/
def execSnoopTimeout (addr : BitVec 62) (s : State) : Out :=
  let a := addr.toNat
  .next (if s.kcl.snoops.any (fun x => x.1 == lineBase a) then
      let s := { s with kcl.snoops := s.kcl.snoops.filter (fun x => x.1 != lineBase a), kcl.snoopTimeouts := satInc s.kcl.snoopTimeouts }
      companionGo (postEvent evSnoop 0 (lineBase a) 0 (dropLine a s))
    else s)

/-! ## Control-space reads (R407, R411) -/

/-- CS_RD (R402, R407, R411): answered once every earlier request of the companion has been performed. -/
def execCsRd (tag : BitVec 16) (offset : BitVec 27) (s : State) : Out :=
  .next (if !s.kclUp || !s.pastOptions then s else receiveReq (.read tag offset.toNat) (kclTake 0x01 tag s))

/-! ## The taking of descriptors, and reads of companion memory (R409, R414) -/

/-- The opcodes of R422. -/
def knownOpcodes : List Nat :=
  [0x0001, 0x0002, 0x0003, 0x0010, 0x0020, 0x0030, 0x0101, 0x0102, 0x0103, 0x0104, 0x0105, 0x0201, 0x0202, 0x0203, 0x0204]
    ++ [0x0301, 0x0302, 0x0303, 0x0304, 0x0305, 0x0306, 0x0310, 0x0311, 0x0401, 0x0402, 0x0403, 0x0404, 0x0405]
    ++ [0x0501, 0x0502, 0x0503, 0x0504, 0x0601, 0x0602, 0x0603, 0x0701, 0x0702, 0x0703, 0x0704]

/-- The opcodes whose parameters R422 puts in a block. -/
def blockOpcodes : List Nat := [0x0101, 0x0102, 0x0201, 0x0202, 0x0203, 0x0301, 0x0302, 0x0310, 0x0404, 0x0501]

/-- The descriptor in 64 bytes of a ring (R419). -/
def descAt (ring : Fin 64) (b : List Byte) : Descriptor where
  ring := ring
  opcode := BitVec.ofNat 16 (leAt b 0 2)
  flags := BitVec.ofNat 8 (leAt b 2 1)
  reserved := BitVec.ofNat 8 (leAt b 3 1)
  commandId := BitVec.ofNat 32 (leAt b 4 4)
  block := BitVec.ofNat 64 (leAt b 8 8)
  blockLength := BitVec.ofNat 32 (leAt b 16 4)
  reply := BitVec.ofNat 32 (leAt b 20 4)
  p := BitVec.ofNat 320 (leAt b 24 40)

/-- The sources that a command's block names, as address and bytes (R355, R371, R374, R422): those of a command that its BUSY rules
let run. -/
def sourcesOf (d : Descriptor) (blk : List Byte) (s : State) : List (Nat × Nat) :=
  let pairs (first n step addr len : Nat) : List (Nat × Nat) :=
    (List.range n).map (fun i => (leAt blk (first + step * i + addr) 8, leAt blk (first + step * i + len) 8))
  let records (first : Nat) : List (Nat × Nat) :=
    ((List.range ((blk.length - first) / 64)).filter (fun i => !bitAt (leAt blk (first + 64 * i + 5) 1) 1)).map (fun i =>
      (leAt blk (first + 64 * i + 8) 8, leAt blk (first + 64 * i + 16) 8))
  let weights := weightsOpen s
  if earlierRuns d s then []
  else match d.opcode.toNat with
    | 0x0101 => if s.loaded then [] else pairs 0 3 16 0 8
    | 0x0201 => if weights then records 0 else []
    | 0x0202 => if weights then records (16 * pArg d 24 1) else []
    | _ => []

/-- Nothing more is read for a command. -/
def endReads (d : Descriptor) (s : State) : State :=
  { s with kcl.reads := s.kcl.reads.filter (fun r => r.cmd != some d), kcl.want := s.kcl.want.filter (fun w => w.cmd != some d)
           kcl.got := s.kcl.got.filter (fun g => g.1 != d) }

/-- A piece of a block has come (R409): once the whole block has, the sources that it names are read. -/
def blockGo (d : Descriptor) (s : State) : State :=
  if s.kcl.reads.any (fun r => r.cmd == some d && r.off.isSome) || s.kcl.want.any (fun w => w.cmd == some d && w.off.isSome) then s
  else
    let srcs := (sourcesOf d (blockRead d s) s).filter (fun x => x.2 != 0)
    { s with kcl.want := s.kcl.want ++ srcs.map (fun x => ⟨some d, x.1, x.2, none⟩) }

/-- Whether a submission ring has a descriptor that may be taken: enabled, not empty, room on its completion ring, and fewer
than 4,096 of its commands awaiting a final completion (R414). -/
def ringReady (s : State) (i : Fin 64) : Bool :=
  let r := s.rings.sub[i]
  r.cfg.enable && r.producer != r.consumer && s.cplRoom (r.cfg.aux.toNat % 64) && decide (s.rings.awaiting[i] < 4096)

/-- The next ring in turn with a descriptor that may be taken (R414). -/
def ringTurn (s : State) : Option (Fin 64) := ((List.finRange 64).map (fun k => s.rings.turn + k)).find? (ringReady s)

/-- Whether SB0 takes descriptors: it is READY on a running image, and the near tier is not in self-refresh (R414, R439, R476). -/
def takesCommands (s : State) : Bool :=
  s.fw.boot == .running && s.power.readyBox.getLsbD 0 && s.power.phase == .running && !s.near.selfRefresh

/-- A descriptor accepted (R414, R419, R422): a reserved opcode completes; the block of another is asked for. -/
def accept (d : Descriptor) (s : State) : State :=
  if !knownOpcodes.contains d.opcode.toNat then finish d stBadOpcode 0 s
  else if hasBlock d && blockOpcodes.contains d.opcode.toNat then
    if !s.kclUp then readFailed d s
    else issueReads readsInFlight { s with rings.taken := s.rings.taken ++ [d], kcl.got := s.kcl.got.filter (fun g => g.1 != d)
                                           kcl.want := s.kcl.want ++ [⟨some d, d.block.toNat, d.blockLength.toNat, some 0⟩] }
  else { s with rings.taken := s.rings.taken ++ [d] }

/-- DESCRIPTOR_TAKE (R405, R414). A descriptor in a line that the companion holds in E is read once a snoop has fetched it. -/
def execDescriptorTake (s : State) : Out :=
  .next (match if takesCommands s then ringTurn s else none with
    | none => s
    | some i =>
      let r := s.rings.sub[i]
      let a := r.cfg.base.toNat * 1024 + r.consumer.toNat % r.cfg.slots * 64
      if lineState s.kcl a == some true then kclSnoop a false s
      else
        let d := descAt i (memRead blank s.near.mem a 64)
        accept d (touchWindow { s with
          rings.sub := s.rings.sub.set i { r with consumer := BitVec.ofNat 32 ((r.consumer.toNat + 1) % 65536) }
          rings.turn := i + 1, rings.awaiting := s.rings.awaiting.set i (s.rings.awaiting[i] + 1) }))

/-- A read answered with ERROR ends its command with INTERNAL, and no tensor that its block names is present (R371, R410). -/
def readError (d : Descriptor) (s : State) : State :=
  let t := endReads d s
  if s.rings.taken.contains d then readsFailed d s (cmdBegin d t) else t

/-- A read of the ROM answered with ERROR: it reads nothing more, clears GO and waits again (R410, R435; log entry 138). -/
def romReadError (s : State) : State := { endRomReads s with fw.recoveryGo := false }

/-- KCL_DATA (R402, R409, R410): data for a MEM_RD. -/
def execKclData (tag : BitVec 16) (error : Bool) (data : List Byte) (s : State) : Out :=
  .next (if !s.kclUp then s
    else
      let s := kclTake 0x24 tag s
      match s.kcl.reads.find? (fun r => r.tag == tag) with
      | none => s
      | some r =>
        issueReads readsInFlight (match error, r.cmd, r.off with
          | true, some d, _ => readError d s
          | true, none, _ => romReadError s
          | false, some d, some off =>
            blockGo d { s with kcl.reads := s.kcl.reads.filter (fun x => x.tag != tag), kcl.got := s.kcl.got ++ [(d, off, data)] }
          | false, _, _ => { s with kcl.reads := s.kcl.reads.filter (fun x => x.tag != tag) }))

/-- KCL_ACK (R402): an INTR acknowledged. -/
def execKclAck (tag : BitVec 16) (s : State) : Out :=
  .next (if !s.kclUp then s
    else
      let s := kclTake 0x21 tag s
      { s with kcl.intrs := s.kcl.intrs.erase tag })

end Sys2Proof.Machine
end

