-- ==== Sys2Proof/Machine/Mgmt.lean ====
section
/-! DEFINITION. The management endpoint (R449 to R452, R491): MCTP control, PLDM, control-space access and SPDM. The bytes of
these messages belong to DMTF standards outside the spec: the codes used are PRESUMED from them and the rest are free values,
log entry 52. -/

namespace Sys2Proof.Machine

open Sys2Proof

/-! ## Answers -/

/-- An answer of the endpoint. -/
def mgmtSend (m : List Byte) (s : State) : State := { s with mgmt.tx := s.mgmt.tx ++ [m] }

/-- `n` free bytes of an answer to a request. -/
def freeBytes (n : Nat) (req : List Byte) (s : State) : List Byte × State :=
  let (v, s) := s.draw
  ((List.range n).map (Config.answerByte (leBytes 8 v.toNat ++ req)), s)

/-- The endpoint hears a message: its front end has the auxiliary supply, and it has a dynamic address (R449, R491). -/
def endpointUp (s : State) : Bool := s.power.auxUp && s.mgmt.address.isSome

/-- Whether more than the auxiliary supply is up, and control space is served (R449, R471). -/
def mainUp (s : State) : Bool := s.power.auxUp && s.power.phase != .held && s.power.phase != .options

/-- The I3C provisional identifier (R491): its low 32 bits are those of IDENT_SERIAL; the 16 above, which name the maker, are a free value
(log entry 52). -/
def provisionalId : BitVec 48 := Config.i3cMaker ++ Config.serial.setWidth 32

/-- DYNAMIC_ADDRESS_ASSIGNMENT (R491): the endpoint presents its provisional identifier, most significant byte first, and takes the address. -/
def execDynamicAddressAssignment (addr : BitVec 7) (s : State) : Out :=
  .next (if s.power.auxUp then mgmtSend (leBytes 6 provisionalId.toNat).reverse { s with mgmt.address := some addr } else s)

/-- MCTP_CONTROL (R449): served on the auxiliary supply too. Command 1 assigns the EID, and command 2 reads it. -/
def execMctpControl (msg : List Byte) (s : State) : Out :=
  let cmd := leAt msg 2 1
  let eid := leAt msg 4 1
  let head : List Byte := leBytes 1 0 ++ leBytes 1 (leAt msg 1 1 % 32) ++ leBytes 1 cmd ++ leBytes 1 0
  .next (if !endpointUp s then s
    else if cmd = 1 && eid != 0 && eid != 255 then
      mgmtSend (head ++ leBytes 1 0 ++ leBytes 1 eid ++ leBytes 1 0) { s with mgmt.eid := BitVec.ofNat 8 eid }
    else if cmd = 2 then
      let (b, s) := freeBytes 2 msg s
      mgmtSend (head ++ leBytes 1 s.mgmt.eid.toNat ++ b) s
    else
      let (b, s) := freeBytes 8 msg s
      mgmtSend (head ++ b) s)

/-- The reading of a sensor: 1 temperature, 2 power, 3 state (R449). -/
def sensorReading (s : State) (k : Nat) : Option Nat :=
  if k = 1 then some s.power.junction.toNat
  else if k = 2 then some s.power.sampleW.toNat
  else if k = 3 then some s.power.chipState.toNat
  else none

/-- PLDM (R449): a sensor's operational state and reading; with only auxiliary power it reads as unavailable. -/
def execPldm (msg : List Byte) (s : State) : Out :=
  let head := sliceBytes msg 0 4
  .next (if !endpointUp s then s
    else if !mainUp s then mgmtSend (head ++ leBytes 1 0 ++ leBytes 1 2) s
    else match sensorReading s (leAt msg 4 2) with
      | some v => mgmtSend (head ++ leBytes 1 0 ++ leBytes 1 0 ++ leBytes 2 v) s
      | none => mgmtSend (head ++ leBytes 1 0x80) s)

/-- MGMT_CONTROL_ACCESS (R20, R449): a 64-bit access of control space by a vendor-defined message; an error response with only
auxiliary power, or at an unaligned offset. -/
def execMgmtControlAccess (write : Bool) (offset : BitVec 27) (value : Reg) (s : State) : Out :=
  let off := offset.toNat
  .next (if !endpointUp s then s
    else if !mainUp s || off % 8 != 0 then mgmtSend (leBytes 1 0x7F ++ leBytes 1 1) s
    else if write then mgmtSend (leBytes 1 0x7F ++ leBytes 1 0) (csWrite off value s)
    else match readReg s off with
      | some v => mgmtSend (leBytes 1 0x7F ++ leBytes 1 0 ++ leBytes 8 v) s
      | none => mgmtSend (leBytes 1 0x7F ++ leBytes 1 0 ++ zeros 8) (countUnmapped s))

/-! ## SPDM (R450 to R452) -/

/-- An SPDM 1.3 message: code, two parameters and what follows. -/
def spdm (code p1 p2 : Nat) (body : List Byte) : List Byte :=
  leBytes 1 0x13 ++ leBytes 1 code ++ leBytes 1 p1 ++ leBytes 1 p2 ++ body

/-- SPDM errors used: InvalidRequest, Busy and UnexpectedRequest. -/
def spdmInvalid : Nat := 1
def spdmBusy : Nat := 3
def spdmUnexpected : Nat := 4

/-- An SPDM ERROR response. -/
def spdmError (code : Nat) (s : State) : State := mgmtSend (spdm 0x7F code 0 []) s

/-- An SPDM request answered by `run`: error Busy with only auxiliary power, or while SB0 is not READY (R430, R449). -/
def spdmServe (run : State → State) (s : State) : State :=
  if !endpointUp s then s
  else if !mainUp s || s.fw.boot != .running || !s.power.readyBox.getLsbD 0 then spdmError spdmBusy s
  else run s

/-- A request that needs the algorithms to have been negotiated. -/
def spdmAfter (run : State → State) (s : State) : State :=
  spdmServe (fun s => if s.mgmt.negotiated then run s else spdmError spdmUnexpected s) s

/-- GET_VERSION (R450): version 1.3. It begins a new connection. -/
def execGetVersion (_req : List Byte) (s : State) : Out :=
  .next (spdmServe (fun s =>
    mgmtSend (leBytes 1 0x10 ++ leBytes 1 0x04 ++ zeros 3 ++ leBytes 1 1 ++ leBytes 2 0x1300)
      { s with mgmt.negotiated := false, mgmt.signed := none }) s)

/-- GET_CAPABILITIES (R450): CERT_CAP, CHAL_CAP and MEAS_CAP with signature. -/
def execGetCapabilities (req : List Byte) (s : State) : Out :=
  .next (spdmServe (fun s =>
    let (b, s) := freeBytes 9 req s
    mgmtSend (spdm 0x61 0 0 (zeros 1 ++ b.take 1 ++ zeros 2 ++ leBytes 4 0x16 ++ b.drop 1)) s) s)

/-- NEGOTIATE_ALGORITHMS (R450): Ed25519 and SHA3-256, where the requester offers them. -/
def execNegotiateAlgorithms (req : List Byte) (s : State) : Out :=
  let asym := if bitAt (leAt req 8 4) 10 then 0x400 else 0
  let hash := if bitAt (leAt req 12 4) 3 then 0x8 else 0
  .next (spdmServe (fun s =>
    mgmtSend (spdm 0x63 0 0 (leBytes 2 36 ++ leBytes 1 1 ++ zeros 1 ++ leBytes 4 0x10 ++ leBytes 4 asym ++ leBytes 4 hash ++ zeros 16))
      { s with mgmt.negotiated := asym != 0 && hash != 0 }) s)

/-- GET_DIGESTS (R448, R450): the SHA3-256 of chain 0 in slot 0. -/
def execGetDigests (_req : List Byte) (s : State) : Out :=
  .next (spdmAfter (fun s => mgmtSend (spdm 0x01 0 1 (sha256 (Config.chain false))) s) s)

/-- A portion of a chain: at most `n` bytes from an offset, its length and what is left. -/
def chainPortion (second : Bool) (off n : Nat) : List Byte :=
  let c := Config.chain second
  let part := (c.drop off).take n
  leBytes 2 part.length ++ leBytes 2 (c.length - off - part.length) ++ part

/-- GET_CERTIFICATE (R448, R450): a portion of chain 0 of slot 0. -/
def execGetCertificate (req : List Byte) (s : State) : Out :=
  let slot := leAt req 2 1 % 16
  let off := leAt req 4 2
  .next (spdmAfter (fun s =>
    if slot != 0 || (Config.chain false).length ≤ off then spdmError spdmInvalid s
    else mgmtSend (spdm 0x02 slot 0 (chainPortion false off (leAt req 6 2))) s) s)

/-- The message that a signature covers: the context that SPDM sets before it, and the digest of what was exchanged (R447). -/
def spdmMessage (code : Nat) (before req resp : List Byte) : List Byte :=
  (List.range 100).map (Config.answerByte (leBytes 1 code)) ++ sha256 (before ++ req ++ resp)

/-- A signed response sent, its message kept for PQ_SIGNATURE (R450, R451). -/
def spdmSigned (code : Nat) (req resp : List Byte) (s : State) : State :=
  let (before, s) := freeBytes 32 req s
  let m := spdmMessage code before req resp
  mgmtSend (resp ++ edSignature m) { s with mgmt.signed := some m }

/-- The value of a measurement in an SPDM block: the digest, or the value, or both (R452). -/
def spdmValue (s : State) (index : Nat) : List Byte :=
  let (isValue, v, dig) := measure s index
  (if isValue then leBytes 8 v else []) ++ (if isValue && index != 10 then [] else dig)

/-- A measurement block: index, specification, size, type and value. -/
def measurementBlock (s : State) (index : Nat) : List Byte :=
  let v := spdmValue s index
  leBytes 1 index ++ leBytes 1 1 ++ leBytes 2 (v.length + 3)
    ++ (Config.answerByte [BitVec.ofNat 8 index] 0 :: leBytes 2 v.length) ++ v

/-- CHALLENGE (R450): CHALLENGE_AUTH with the digest of chain 0, a nonce and, where asked, a summary of the measurements. -/
def execChallenge (req : List Byte) (s : State) : Out :=
  .next (spdmAfter (fun s =>
    if leAt req 2 1 != 0 then spdmError spdmInvalid s
    else
      let (nonce, s) := freeBytes 32 req s
      let all := (List.range 10).flatMap (fun i => measurementBlock s (i + 1))
      let body := sha256 (Config.chain false) ++ nonce ++ (if leAt req 3 1 = 0 then [] else sha256 all) ++ zeros 2
      spdmSigned 0x03 req (spdm 0x03 0 1 body) s) s)

/-- GET_MEASUREMENTS (R450, R452): the number of measurements, one of them, or all; signed where asked. -/
def execGetMeasurements (req : List Byte) (s : State) : Out :=
  let op := leAt req 3 1
  .next (spdmAfter (fun s =>
    if op != 0 && op != 255 && 10 < op then spdmError spdmInvalid s
    else
      let list := if op = 0 then [] else if op = 255 then (List.range 10).map (· + 1) else [op]
      let record := list.flatMap (measurementBlock s)
      let (nonce, s) := freeBytes 32 req s
      let resp := spdm 0x60 (if op = 0 then 10 else 0) 0
        (leBytes 1 list.length ++ leBytes 3 record.length ++ record ++ nonce ++ zeros 2)
      if bitAt (leAt req 2 1) 0 then spdmSigned 0x60 req resp s
      else mgmtSend resp { s with mgmt.signed := none }) s)

/-- A vendor-defined SPDM response: its bytes before the payload are free. -/
def vendorResponse (req payload : List Byte) (s : State) : State :=
  let (b, s) := freeBytes 9 req s
  mgmtSend (spdm 0x7E 0 0 (b ++ payload)) s

/-- PQ_SIGNATURE (R451): the ML-DSA-65 signature over the message that the preceding signed response covered. -/
def execPqSignature (req : List Byte) (s : State) : Out :=
  .next (spdmAfter (fun s => match s.mgmt.signed with
    | some m => vendorResponse req (mldsaSignature m) s
    | none => spdmError spdmInvalid s) s)

/-- PQ_CERTIFICATE (R448, R451): up to 1,024 B of chain 1 from an offset. -/
def execPqCertificate (req : List Byte) (s : State) : Out :=
  let off := leAt req 14 4
  .next (spdmAfter (fun s =>
    if (Config.chain true).length ≤ off then spdmError spdmInvalid s
    else vendorResponse req (chainPortion true off 1024) s) s)

end Sys2Proof.Machine
end

