-- ==== Sys2Proof/Machine/Near.lean ====
section
/-! DEFINITION. The near channels' support (R181 to R185): refresh, temperature, training and retrains. -/

namespace Sys2Proof.Machine

open Sys2Proof

/-! ## Refresh (R184, R185) -/

/-- REFRESH_PHASE, fixed at make-ready, below 1,612 ns (R184). -/
def refreshPhase : Nat := Config.refreshPhaseRaw % 1612

/-- The interval in force (R184). -/
def State.refreshInterval (s : State) : Nat := if s.near.hotInterval then 1612 else 3224

/-- REFRESH_DUE (R184, R185): at a station time of the grid in force an insertion falls due; in a step it raises a REFRESH
hold, and its window begins once the chip stands. A change of interval takes effect here. -/
def execRefreshDue (s : State) : Out :=
  .next (if s.now % s.refreshInterval != refreshPhase || s.near.selfRefresh || s.near.refreshing then s
    else intrude .refresh .refresh
      { s with near.refreshing := true, near.hotInterval := s.near.channels.toList.any (fun c => c.hot) })

/-- REFRESH_WINDOW_END (R185). -/
def execRefreshWindowEnd (s : State) : Out :=
  .next (if s.refreshOpen then
      boxesGo (releaseHolds (fun h => h.unit == .refresh) { s with near.refreshing := false })
    else s)

/-! ## Temperature, training and retrains (R181 to R183) -/

/-- NEAR_TEMPERATURE_REPORT (R182, R184): a device reports its temperature. -/
def execNearTemperatureReport (c : SeqId) (temp : BitVec 8) (s : State) : Out :=
  .next (s.modChan c.val (fun x =>
    { x with temp := temp, hot := decide (85 < temp.toNat)
             due := x.due || decide (x.tempAt.toNat + 4 ≤ temp.toNat) || decide (temp.toNat + 4 ≤ x.tempAt.toNat) }))

/-- NEAR_TERMINUS_RETRAIN (R179, R183, R185): in the gap, after the commit writes and a refresh that is due, every due channel
retrains, or its retrain is deferred where fewer than 432 ns remain before the announced launch. -/
def execNearTerminusRetrain (s : State) : Out :=
  let defer (c : Channel) : Channel := { c with deferrals := satInc c.deferrals }
  let start (c : Channel) : Channel := { c with retraining := true, deferrals := 0 }
  .next (if !s.retrainTime then s
    else { s with near.channels := s.near.channels.map (fun c =>
      if !c.isDue s.now then c else if s.retrainFits then start c else defer c) })

/-- NEAR_IN_STEP_RETRAIN (R183): on the 16th deferral in a row, or after more than 16 EDC errors in one step. -/
def execNearInStepRetrain (c : SeqId) (s : State) : Out :=
  let x := s.chan c.val
  .next (if s.tt.inStep && !s.tt.draining && x.ready && !x.retraining && (decide (16 ≤ x.deferrals.toNat) || decide (16 < x.stepEdc)) then
      intrude (.nearRetrain c) .retrain
        (s.modChan c.val (fun x => { x with retraining := true, deferrals := 0, stepEdc := 0, inStepRetrains := x.inStepRetrains + 1 }))
    else s)

/-- NEAR_RETRAIN_END (R183). A refresh that falls due together with the retrain runs first (R185). -/
def execNearRetrainEnd (c : SeqId) (s : State) : Out :=
  .next (if s.retrainOpen c && !s.refreshOpen then
      boxesGo (releaseHolds (fun h => h.unit == .nearRetrain c)
        (s.modChan c.val (fun x =>
          { x with retraining := false, due := false, retrains := x.retrains + 1, lastRetrain := s.time.ns, tempAt := x.temp })))
    else s)

/-- NEAR_TRAINING_COMPLETE (R181, R470): a channel sets READY, or stays not READY. -/
def execNearTrainingComplete (c : SeqId) (ok : Bool) (s : State) : Out :=
  .next (if (s.chan c.val).ready || !s.power.readyBox.getLsbD 3 || !s.clk.enNear.getLsbD c.val then s
    else s.modChan c.val (fun x =>
      { x with trained := ok, ready := ok, retrains := 0, lastRetrain := s.time.ns, tempAt := x.temp, due := false }))

end Sys2Proof.Machine
end

