-- ==== Sys2Proof/Machine/Dispatch.lean ====
section
/-! DEFINITION. The dispatch: one arm per command, each one call of its meaning. -/

namespace Sys2Proof.Machine

open Sys2Proof

/-- The effect of a command on everything but the queue. -/
def exec (i : Instr) (s : State) : Host.Outcome State Fault Refusal :=
  match i with
  | .nop d => Sys2Proof.Machine.execNop d s
  | .identify d => Sys2Proof.Machine.execIdentify d s
  | .getEdition d => Sys2Proof.Machine.execGetEdition d s
  | .setOperatingPoint d => Sys2Proof.Machine.execSetOperatingPoint d s
  | .selfTest d => Sys2Proof.Machine.execSelfTest d s
  | .resetWarm d => Sys2Proof.Machine.execResetWarm d s
  | .formeLoad d parts => Sys2Proof.Machine.execFormeLoad d parts s
  | .formeImpose d blk => Sys2Proof.Machine.execFormeImpose d blk s
  | .formeStart d => Sys2Proof.Machine.execFormeStart d s
  | .formeStop d => Sys2Proof.Machine.execFormeStop d s
  | .formeUnload d => Sys2Proof.Machine.execFormeUnload d s
  | .weightsLoad d blk sources => Sys2Proof.Machine.execWeightsLoad d blk sources s
  | .weightsBroadcast d blk sources => Sys2Proof.Machine.execWeightsBroadcast d blk sources s
  | .weightsDigestRead d => Sys2Proof.Machine.execWeightsDigestRead d s
  | .weightsDigestSeal d blk => Sys2Proof.Machine.execWeightsDigestSeal d blk s
  | .weightsFree d => Sys2Proof.Machine.execWeightsFree d s
  | .waybillOpen d blk => Sys2Proof.Machine.execWaybillOpen d blk s
  | .waybillAppend d blk => Sys2Proof.Machine.execWaybillAppend d blk s
  | .waybillCancel d => Sys2Proof.Machine.execWaybillCancel d s
  | .waybillStable d => Sys2Proof.Machine.execWaybillStable d s
  | .waybillResume d => Sys2Proof.Machine.execWaybillResume d s
  | .waybillQuery d => Sys2Proof.Machine.execWaybillQuery d s
  | .liveryLoad d blk => Sys2Proof.Machine.execLiveryLoad d blk s
  | .liveryFree d => Sys2Proof.Machine.execLiveryFree d s
  | .linkStateRead d => Sys2Proof.Machine.execLinkStateRead d s
  | .linkStateEnable d => Sys2Proof.Machine.execLinkStateEnable d s
  | .linkStateDisable d => Sys2Proof.Machine.execLinkStateDisable d s
  | .linkRetrain d => Sys2Proof.Machine.execLinkRetrain d s
  | .partitionSet d => Sys2Proof.Machine.execPartitionSet d s
  | .routeTableLoad d blk => Sys2Proof.Machine.execRouteTableLoad d blk s
  | .timeSyncRole d => Sys2Proof.Machine.execTimeSyncRole d s
  | .fwStage d blk => Sys2Proof.Machine.execFwStage d blk s
  | .fwHandover d => Sys2Proof.Machine.execFwHandover d s
  | .fwFlashWrite d => Sys2Proof.Machine.execFwFlashWrite d s
  | .fwVersion d => Sys2Proof.Machine.execFwVersion d s
  | .healthRead d => Sys2Proof.Machine.execHealthRead d s
  | .attest d => Sys2Proof.Machine.execAttest d s
  | .colophonSign d => Sys2Proof.Machine.execColophonSign d s
  | .debugEnable d => Sys2Proof.Machine.execDebugEnable d s
  | .breakSet d => Sys2Proof.Machine.execBreakSet d s
  | .breakClear d => Sys2Proof.Machine.execBreakClear d s
  | .hazardRead d => Sys2Proof.Machine.execHazardRead d s
  | .streamNop k => Sys2Proof.Machine.execStreamNop k s
  | .departMark k => Sys2Proof.Machine.execDepartMark k s
  | .dueMark k => Sys2Proof.Machine.execDueMark k s
  | .loop k => Sys2Proof.Machine.execLoop k s
  | .endStream k => Sys2Proof.Machine.execEndStream k s
  | .wload k => Sys2Proof.Machine.execWload k s
  | .pass k => Sys2Proof.Machine.execPass k s
  | .wadd k => Sys2Proof.Machine.execWadd k s
  | .add k => Sys2Proof.Machine.execAdd k s
  | .mul k => Sys2Proof.Machine.execMul k s
  | .fma k => Sys2Proof.Machine.execFma k s
  | .min k => Sys2Proof.Machine.execMin k s
  | .max k => Sys2Proof.Machine.execMax k s
  | .cmp k => Sys2Proof.Machine.execCmp k s
  | .select k => Sys2Proof.Machine.execSelect k s
  | .scale k => Sys2Proof.Machine.execScale k s
  | .exponent k => Sys2Proof.Machine.execExponent k s
  | .mantissa k => Sys2Proof.Machine.execMantissa k s
  | .rcp k => Sys2Proof.Machine.execRcp k s
  | .rsqrt k => Sys2Proof.Machine.execRsqrt k s
  | .cvt k => Sys2Proof.Machine.execCvt k s
  | .rsum k => Sys2Proof.Machine.execRsum k s
  | .rmax k => Sys2Proof.Machine.execRmax k s
  | .rmin k => Sys2Proof.Machine.execRmin k s
  | .accCvt k => Sys2Proof.Machine.execAccCvt k s
  | .load k => Sys2Proof.Machine.execLoad k s
  | .store k => Sys2Proof.Machine.execStore k s
  | .move k => Sys2Proof.Machine.execMove k s
  | .moveWide k => Sys2Proof.Machine.execMoveWide k s
  | .platRd k => Sys2Proof.Machine.execPlatRd k s
  | .platWr k => Sys2Proof.Machine.execPlatWr k s
  | .nearRd k => Sys2Proof.Machine.execNearRd k s
  | .nearWr k => Sys2Proof.Machine.execNearWr k s
  | .farRd k => Sys2Proof.Machine.execFarRd k s
  | .farWr k => Sys2Proof.Machine.execFarWr k s
  | .queueWaitEnd p k => Sys2Proof.Machine.execQueueWaitEnd p k s
  | .releaseWaitEnd p => Sys2Proof.Machine.execReleaseWaitEnd p s
  | .seqSlotPress c res => Sys2Proof.Machine.execSeqSlotPress c res s
  | .portionArrival c slot => Sys2Proof.Machine.execPortionArrival c slot s
  | .seqSlotHost c res => Sys2Proof.Machine.execSeqSlotHost c res s
  | .seqSlotFirmware c res => Sys2Proof.Machine.execSeqSlotFirmware c res s
  | .seqMark c => Sys2Proof.Machine.execSeqMark c s
  | .seqLoop c => Sys2Proof.Machine.execSeqLoop c s
  | .seqEnd c => Sys2Proof.Machine.execSeqEnd c s
  | .farStreamSlot f res => Sys2Proof.Machine.execFarStreamSlot f res s
  | .farStreamMark f => Sys2Proof.Machine.execFarStreamMark f s
  | .farStreamLoop f => Sys2Proof.Machine.execFarStreamLoop f s
  | .farStreamEnd f => Sys2Proof.Machine.execFarStreamEnd f s
  | .cxlCompletionTimeout f => Sys2Proof.Machine.execCxlCompletionTimeout f s
  | .cxlLinkDown f => Sys2Proof.Machine.execCxlLinkDown f s
  | .pointsSlot p => Sys2Proof.Machine.execPointsSlot p s
  | .packetRelease p => Sys2Proof.Machine.execPacketRelease p s
  | .pointsMark p => Sys2Proof.Machine.execPointsMark p s
  | .pointsLoop p => Sys2Proof.Machine.execPointsLoop p s
  | .pointsEnd p => Sys2Proof.Machine.execPointsEnd p s
  | .samplerRows => Sys2Proof.Machine.execSamplerRows s
  | .samplerDueMark => Sys2Proof.Machine.execSamplerDueMark s
  | .samplerDepartMark => Sys2Proof.Machine.execSamplerDepartMark s
  | .samplerLoop => Sys2Proof.Machine.execSamplerLoop s
  | .samplerEnd => Sys2Proof.Machine.execSamplerEnd s
  | .launch => Sys2Proof.Machine.execLaunch s
  | .programCopy => Sys2Proof.Machine.execProgramCopy s
  | .readinessTest u => Sys2Proof.Machine.execReadinessTest u s
  | .holdRelease u c => Sys2Proof.Machine.execHoldRelease u c s
  | .holdResume u c => Sys2Proof.Machine.execHoldResume u c s
  | .firmwareServiceIntrusion b => Sys2Proof.Machine.execFirmwareServiceIntrusion b s
  | .endCountReached => Sys2Proof.Machine.execEndCountReached s
  | .drainComplete => Sys2Proof.Machine.execDrainComplete s
  | .drainLimitExpiry => Sys2Proof.Machine.execDrainLimitExpiry s
  | .planWatchdogExpiry u => Sys2Proof.Machine.execPlanWatchdogExpiry u s
  | .barrierReport child body => Sys2Proof.Machine.execBarrierReport child body s
  | .startCountReached => Sys2Proof.Machine.execStartCountReached s
  | .barrierTimeout => Sys2Proof.Machine.execBarrierTimeout s
  | .announceTimeout => Sys2Proof.Machine.execAnnounceTimeout s
  | .announceCommit body => Sys2Proof.Machine.execAnnounceCommit body s
  | .announceAbort body => Sys2Proof.Machine.execAnnounceAbort body s
  | .announceStop body => Sys2Proof.Machine.execAnnounceStop body s
  | .announceCommitStop body => Sys2Proof.Machine.execAnnounceCommitStop body s
  | .announceStart body => Sys2Proof.Machine.execAnnounceStart body s
  | .rankingComplete w => Sys2Proof.Machine.execRankingComplete w s
  | .stablingCopyComplete w => Sys2Proof.Machine.execStablingCopyComplete w s
  | .restoreCopyComplete w => Sys2Proof.Machine.execRestoreCopyComplete w s
  | .stagingCopyComplete slot => Sys2Proof.Machine.execStagingCopyComplete slot s
  | .logCopyComplete => Sys2Proof.Machine.execLogCopyComplete s
  | .void p body => Sys2Proof.Machine.execVoid p body s
  | .cancelWrite w value => Sys2Proof.Machine.execCancelWrite w value s
  | .landingArrival p source => Sys2Proof.Machine.execLandingArrival p source s
  | .refreshDue => Sys2Proof.Machine.execRefreshDue s
  | .refreshWindowEnd => Sys2Proof.Machine.execRefreshWindowEnd s
  | .nearTemperatureReport c temp => Sys2Proof.Machine.execNearTemperatureReport c temp s
  | .nearTerminusRetrain => Sys2Proof.Machine.execNearTerminusRetrain s
  | .nearInStepRetrain c => Sys2Proof.Machine.execNearInStepRetrain c s
  | .nearRetrainEnd c => Sys2Proof.Machine.execNearRetrainEnd c s
  | .nearTrainingComplete c ok => Sys2Proof.Machine.execNearTrainingComplete c ok s
  | .scrub p ecc => Sys2Proof.Machine.execScrub p ecc s
  | .frameStart p => Sys2Proof.Machine.execFrameStart p s
  | .frameReceived p f => Sys2Proof.Machine.execFrameReceived p f s
  | .linkBlock p blk => Sys2Proof.Machine.execLinkBlock p blk s
  | .initBlock p blk => Sys2Proof.Machine.execInitBlock p blk s
  | .pause p blk => Sys2Proof.Machine.execPause p blk s
  | .paused p blk => Sys2Proof.Machine.execPaused p blk s
  | .resume p blk => Sys2Proof.Machine.execResume p blk s
  | .ackTimerExpiry p => Sys2Proof.Machine.execAckTimerExpiry p s
  | .laneTrainingComplete p r => Sys2Proof.Machine.execLaneTrainingComplete p r s
  | .trainingRetry p => Sys2Proof.Machine.execTrainingRetry p s
  | .marginBelowFloor p lane code => Sys2Proof.Machine.execMarginBelowFloor p lane code s
  | .lossOfLock p => Sys2Proof.Machine.execLossOfLock p s
  | .uncorrectableBurst p count => Sys2Proof.Machine.execUncorrectableBurst p count s
  | .linkTerminusRetrain p => Sys2Proof.Machine.execLinkTerminusRetrain p s
  | .retrainComplete p r => Sys2Proof.Machine.execRetrainComplete p r s
  | .retrainTimeout p => Sys2Proof.Machine.execRetrainTimeout p s
  | .planPacket p pkt => Sys2Proof.Machine.execPlanPacket p pkt s
  | .controlPacketForward p pkt => Sys2Proof.Machine.execControlPacketForward p pkt s
  | .timeProbe p body t2 replay => Sys2Proof.Machine.execTimeProbe p body t2 replay s
  | .timeReply p body t4 replay => Sys2Proof.Machine.execTimeReply p body t4 replay s
  | .timeNotice p body => Sys2Proof.Machine.execTimeNotice p body s
  | .portNotice p body => Sys2Proof.Machine.execPortNotice p body s
  | .fwMsgRebuilt p body => Sys2Proof.Machine.execFwMsgRebuilt p body s
  | .fwMsgAck p body => Sys2Proof.Machine.execFwMsgAck p body s
  | .fwMessageResend serial => Sys2Proof.Machine.execFwMessageResend serial s
  | .weightData payload => Sys2Proof.Machine.execWeightData payload s
  | .weightEnd payload => Sys2Proof.Machine.execWeightEnd payload s
  | .broadcastTimeout => Sys2Proof.Machine.execBroadcastTimeout s
  | .mirrorItem payload => Sys2Proof.Machine.execMirrorItem payload s
  | .mirrorAck payload => Sys2Proof.Machine.execMirrorAck payload s
  | .mirrorRelease payload => Sys2Proof.Machine.execMirrorRelease payload s
  | .recoverFetch payload => Sys2Proof.Machine.execRecoverFetch payload s
  | .recoverData payload => Sys2Proof.Machine.execRecoverData payload s
  | .recoverFetchResend w => Sys2Proof.Machine.execRecoverFetchResend w s
  | .recoverFetchTimeout w => Sys2Proof.Machine.execRecoverFetchTimeout w s
  | .keyInstall p => Sys2Proof.Machine.execKeyInstall p s
  | .timeProbePeriod => Sys2Proof.Machine.execTimeProbePeriod s
  | .probeLost => Sys2Proof.Machine.execProbeLost s
  | .timeSilence => Sys2Proof.Machine.execTimeSilence s
  | .timeNoticePeriod => Sys2Proof.Machine.execTimeNoticePeriod s
  | .altPortReturn => Sys2Proof.Machine.execAltPortReturn s
  | .timeCode => Sys2Proof.Machine.execTimeCode s
  | .ppsInEdge t => Sys2Proof.Machine.execPpsInEdge t s
  | .ppsTimeout => Sys2Proof.Machine.execPpsTimeout s
  | .ppsOutEdge => Sys2Proof.Machine.execPpsOutEdge s
  | .refclkLoss => Sys2Proof.Machine.execRefclkLoss s
  | .refclkReturn gap => Sys2Proof.Machine.execRefclkReturn gap s
  | .domainRampStep d => Sys2Proof.Machine.execDomainRampStep d s
  | .sscDepthStep j => Sys2Proof.Machine.execSscDepthStep j s
  | .operatingPointSwitch => Sys2Proof.Machine.execOperatingPointSwitch s
  | .operatingPointChangeEnd => Sys2Proof.Machine.execOperatingPointChangeEnd s
  | .pressIdle p => Sys2Proof.Machine.execPressIdle p s
  | .pressWake p => Sys2Proof.Machine.execPressWake p s
  | .departureGroup g => Sys2Proof.Machine.execDepartureGroup g s
  | .powerSample watts junction => Sys2Proof.Machine.execPowerSample watts junction s
  | .quietEntry => Sys2Proof.Machine.execQuietEntry s
  | .deepQuietEntry => Sys2Proof.Machine.execDeepQuietEntry s
  | .wake => Sys2Proof.Machine.execWake s
  | .selfTestRun part => Sys2Proof.Machine.execSelfTestRun part s
  | .selfTestRunEnd part fail block => Sys2Proof.Machine.execSelfTestRunEnd part fail block s
  | .healthCompute => Sys2Proof.Machine.execHealthCompute s
  | .handoverComplete adopted => Sys2Proof.Machine.execHandoverComplete adopted s
  | .boxWatchdogExpiry b => Sys2Proof.Machine.execBoxWatchdogExpiry b s
  | .sb0WatchdogExpiry => Sys2Proof.Machine.execSb0WatchdogExpiry s
  | .waybillRebuild => Sys2Proof.Machine.execWaybillRebuild s
  | .powerOn => Sys2Proof.Machine.execPowerOn s
  | .underVoltage => Sys2Proof.Machine.execUnderVoltage s
  | .underVoltageEnd => Sys2Proof.Machine.execUnderVoltageEnd s
  | .auxSupplyLoss => Sys2Proof.Machine.execAuxSupplyLoss s
  | .modResetAssert => Sys2Proof.Machine.execModResetAssert s
  | .modResetRelease => Sys2Proof.Machine.execModResetRelease s
  | .thermalTrip junction => Sys2Proof.Machine.execThermalTrip junction s
  | .nvmWriteEnd => Sys2Proof.Machine.execNvmWriteEnd s
  | .optionLoadingComplete strapLow => Sys2Proof.Machine.execOptionLoadingComplete strapLow s
  | .stationReady delays => Sys2Proof.Machine.execStationReady delays s
  | .kclHwTrainingComplete ok => Sys2Proof.Machine.execKclHwTrainingComplete ok s
  | .sramTestComplete => Sys2Proof.Machine.execSramTestComplete s
  | .bootVerify => Sys2Proof.Machine.execBootVerify s
  | .boxServicesReady b => Sys2Proof.Machine.execBoxServicesReady b s
  | .pressSelfTestComplete p ok => Sys2Proof.Machine.execPressSelfTestComplete p ok s
  | .engineSelfTestComplete ok => Sys2Proof.Machine.execEngineSelfTestComplete ok s
  | .farPortReady f width speed capacity => Sys2Proof.Machine.execFarPortReady f width speed capacity s
  | .fwRecoveryGo value image => Sys2Proof.Machine.execFwRecoveryGo value image s
  | .optionCtlWrite value => Sys2Proof.Machine.execOptionCtlWrite value s
  | .optionWriteDone readBackOk => Sys2Proof.Machine.execOptionWriteDone readBackOk s
  | .debugResume value => Sys2Proof.Machine.execDebugResume value s
  | .timeSet value => Sys2Proof.Machine.execTimeSet value s
  | .fabricGidWrite value => Sys2Proof.Machine.execFabricGidWrite value s
  | .linkConfigWrite p value => Sys2Proof.Machine.execLinkConfigWrite p value s
  | .clkenWrite r value => Sys2Proof.Machine.execClkenWrite r value s
  | .domainCtlWrite d value => Sys2Proof.Machine.execDomainCtlWrite d value s
  | .sscCtlWrite j value => Sys2Proof.Machine.execSscCtlWrite j value s
  | .farConfigWrite value => Sys2Proof.Machine.execFarConfigWrite value s
  | .farAreaWrite k value => Sys2Proof.Machine.execFarAreaWrite k value s
  | .kclSharedWrite value => Sys2Proof.Machine.execKclSharedWrite value s
  | .subCfgWrite k value => Sys2Proof.Machine.execSubCfgWrite k value s
  | .subDoorbell k value => Sys2Proof.Machine.execSubDoorbell k value s
  | .descriptorTake => Sys2Proof.Machine.execDescriptorTake s
  | .cplCfgWrite j value => Sys2Proof.Machine.execCplCfgWrite j value s
  | .cplConsumerWrite j value => Sys2Proof.Machine.execCplConsumerWrite j value s
  | .evtCfgWrite value => Sys2Proof.Machine.execEvtCfgWrite value s
  | .outCfgWrite r value => Sys2Proof.Machine.execOutCfgWrite r value s
  | .outConsumerWrite r value => Sys2Proof.Machine.execOutConsumerWrite r value s
  | .editionPtrWrite value => Sys2Proof.Machine.execEditionPtrWrite value s
  | .registerWrite offset value => Sys2Proof.Machine.execRegisterWrite offset value s
  | .csRd tag offset => Sys2Proof.Machine.execCsRd tag offset s
  | .rdShared tag addr => Sys2Proof.Machine.execRdShared tag addr s
  | .rdOwn tag addr => Sys2Proof.Machine.execRdOwn tag addr s
  | .writeback tag addr data => Sys2Proof.Machine.execWriteback tag addr data s
  | .evict tag addr => Sys2Proof.Machine.execEvict tag addr s
  | .bulkRd tag addr length => Sys2Proof.Machine.execBulkRd tag addr length s
  | .bulkWr tag addr mask data => Sys2Proof.Machine.execBulkWr tag addr mask data s
  | .kclData tag error data => Sys2Proof.Machine.execKclData tag error data s
  | .kclAck tag => Sys2Proof.Machine.execKclAck tag s
  | .snpAck addr => Sys2Proof.Machine.execSnpAck addr s
  | .snpData addr data => Sys2Proof.Machine.execSnpData addr data s
  | .snoopTimeout addr => Sys2Proof.Machine.execSnoopTimeout addr s
  | .mctpControl msg => Sys2Proof.Machine.execMctpControl msg s
  | .pldm msg => Sys2Proof.Machine.execPldm msg s
  | .mgmtControlAccess write offset value => Sys2Proof.Machine.execMgmtControlAccess write offset value s
  | .getVersion req => Sys2Proof.Machine.execGetVersion req s
  | .getCapabilities req => Sys2Proof.Machine.execGetCapabilities req s
  | .negotiateAlgorithms req => Sys2Proof.Machine.execNegotiateAlgorithms req s
  | .getDigests req => Sys2Proof.Machine.execGetDigests req s
  | .getCertificate req => Sys2Proof.Machine.execGetCertificate req s
  | .challenge req => Sys2Proof.Machine.execChallenge req s
  | .getMeasurements req => Sys2Proof.Machine.execGetMeasurements req s
  | .pqSignature req => Sys2Proof.Machine.execPqSignature req s
  | .pqCertificate req => Sys2Proof.Machine.execPqCertificate req s
  | .flashSectorEraseEnd => Sys2Proof.Machine.execFlashSectorEraseEnd s
  | .wakeComplete => Sys2Proof.Machine.execWakeComplete s
  | .cxlWriteCompletion f => Sys2Proof.Machine.execCxlWriteCompletion f s
  | .dynamicAddressAssignment addr => Sys2Proof.Machine.execDynamicAddressAssignment addr s

end Sys2Proof.Machine
end

