-- ==== Sys2Proof/Machine/Tick.lean ====
section
/-! DEFINITION. One cycle of the 1 GHz time domain (R25, R26, R32, R34, R270, R277): station time, TT, standing time and the
counters of nanoseconds. It is what a step does on an empty queue: DESIGN CHOICE, log entry 5. -/

namespace Sys2Proof.Machine

open Sys2Proof

/-- The most that a cycle slews, in units of 2^-48 ns: 10 ppm while a forme is loaded, 500 ppm otherwise (R277). -/
def slewCap (s : State) : Int := if s.loaded then 2814749767 else 140737488355

/-- What this cycle takes of the slew that is left. -/
def slewStep (s : State) : Int :=
  if s.time.slew < 0 then max s.time.slew (-(slewCap s)) else min s.time.slew (slewCap s)

/-- What a cycle adds to station time and its fraction, in units of 2^-48 ns: 1 ns, the frequency correction and the slew. -/
def cycleUnits (s : State) : Nat := ((2 ^ 48 : Int) + s.time.freq.toInt * 65536 + slewStep s).toNat

/-- TT over one nanosecond of station time: it advances, or stands and the time goes to one cause (R32, R34, R41). -/
def ttTick (s : State) : State :=
  if !s.tt.inStep || s.tt.draining then s
  else match causeOf s.stopping with
    | some c =>
      let k := causeCode c
      { s with tt.stepHoldNs := s.tt.stepHoldNs + 1, tt.holdNs := vmod s.tt.holdNs k (· + 1), tt.causeNs := vmod s.tt.causeNs k (· + 1) }
    | none => if s.tt.tt.toNat < s.tt.endCount then { s with tt.tt := s.tt.tt + 1 } else s

/-- A press's time in Layover or Shed. -/
def pressTick (q : Press) : Press := match q.power with
  | .stand => q
  | .layover => { q with layoverNs := q.layoverNs + 1 }
  | .shed => { q with shedNs := q.shedNs + 1 }

/-- PPS_OUT is due to rise at the whole second that this nanosecond ends with, and falls 1 ms after its edge (R284). -/
def ppsTick (s : State) : State :=
  let s := { s with time.ppsDue := s.time.ppsDue
    || (s.now % 1000000000 == 999999999 && s.clk.enMisc.getLsbD 2 && s.power.taken.getLsbD 4) }
  if s.time.ppsHigh = 0 then s
  else if s.time.ppsHigh = 1 then
    let s := { s with time.ppsHigh := 0 }
    if s.power.taken.getLsbD 4 then s.setPin 4 .low else s
  else { s with time.ppsHigh := s.time.ppsHigh - 1 }

/-- The time for which a commit waits for room (R347), in whole microseconds and nanoseconds. -/
def stallTick (s : State) : State := match s.rings.commit with
  | some (_, 3, _) =>
    if s.smp.stallNs = 999 then { s with smp.stallNs := 0, smp.stallUs := s.smp.stallUs + 1 } else { s with smp.stallNs := s.smp.stallNs + 1 }
  | _ => s

/-- One nanosecond of station time. -/
def nsTick (s : State) : State :=
  let s := sscTick (beatTick (codeTick (ttTick s)))
  let s := streamTick (stallTick (ppsTick (s.modPresses pressTick)))
  { s with time.ns := s.time.ns + 1, power.windowIdle := s.power.windowIdle + 1
           power.quietNs := if s.power.chipState = 1 then s.power.quietNs + 1 else s.power.quietNs
           power.deepNs := if s.power.chipState = 2 then s.power.deepNs + 1 else s.power.deepNs }

/-- `n` nanoseconds of station time. -/
def nsTicks : Nat → State → State
  | 0, s => s
  | n + 1, s => nsTicks n (nsTick s)

/-- Every unit whose mark TT has passed goes on (R26). -/
def marksGo (s : State) : State :=
  if !s.tt.inStep || s.tt.draining then s
  else
    let press (s : State) (p : Nat) : State := streamRelease p .x (streamRelease p .v (streamRelease p .m s))
    let s := s.slots.foldl press s
    let s := (List.range 32).foldl (fun s c => seqGo c s) s
    let s := (List.range 2).foldl (fun s f => if s.farUsed f then farGo f s else s) s
    let s := (List.range 32).foldl (fun s p => if s.portUsed p then despGo p s else s) s
    if s.isDesk then smpGo s else s

/-- One cycle of the time domain, once PLL_TIME has locked (R270). -/
def tick (s : State) : State :=
  if !s.clk.locked.getLsbD 0 then s
  else
    let t := s.time.frac.toNat + cycleUnits s
    marksGo (boxesGo <| settleTimes <| nsTicks (t / 2 ^ 48) { s with time.frac := BitVec.ofNat 48 t, time.slew := s.time.slew - slewStep s })

end Sys2Proof.Machine
end

