-- ==== Sys2Proof/Safety.lean ====
section
/-! DEFINITION. What counts as a safe step and a safe run. -/

namespace Sys2Proof.Machine

/-- An outcome that goes on. -/
def goesOn (o : Host.Outcome State Fault Refusal) : Bool := match o with
  | .next _ => true
  | .fault _ => false
  | .refused _ => false

/-- The memories are in canonical form (R162, R431). -/
def State.memoriesOk (s : State) : Prop := Memory.wf blank s.near.mem ∧ Memory.wf blank s.far.mem ∧ Memory.wf blankFlash s.nv.flash

/-- `n` steps that all go on. -/
def safeRun : Nat → State → Bool
  | 0, _ => true
  | n + 1, s => match step s with
    | .next s' => safeRun n s'
    | .fault _ => false
    | .refused _ => false

end Sys2Proof.Machine
end

