-- ==== Sys2Proof/Certificates/Slice0/Obligations.lean ====
section
/-! DEFINITION. The statements for the provers. Each says what a command or a shared operation does, or an invariant that every
step keeps. -/

open Sys2Proof Sys2Proof.Machine

/-- A STEP RUNS THE COMMAND AT THE FRONT: for every command and state, the step of the state with that command at the front of
its queue is the command's effect on the state with the queue's rest. -/
def Obligations.StepRunsFront : Prop := ∀ (c : Instr) (s : State), step { s with pending := c :: s.pending } = exec c s

/-- With no command waiting a step is one cycle of the time domain: DESIGN CHOICE, log entry 5. Before PLL_TIME has locked
nothing changes; with no correction in force station time goes on by 1 ns; outside a step TT stays; the queue stays empty (R25,
R26, R270). -/
def Obligations.EmptyQueueTicks : Prop := ∀ s : State, s.pending = [] →
  step s = .next (tick s) ∧
  (s.clk.locked.getLsbD 0 = false → tick s = s) ∧
  (s.clk.locked.getLsbD 0 = true → s.time.freq = 0 → s.time.slew = 0 → s.tt.inStep = false →
    (tick s).time.ns = s.time.ns + 1 ∧ (tick s).time.frac = s.time.frac ∧ (tick s).tt = s.tt) ∧
  (s.clk.locked.getLsbD 0 = true → s.time.freq = 0 → s.time.slew = 0 → s.tt.inStep = true → s.tt.draining = false →
    (s.stopping = [] → s.tt.tt.toNat < s.tt.endCount → (tick s).tt.tt = s.tt.tt + 1) ∧
    (s.stopping ≠ [] → (tick s).tt.tt = s.tt.tt ∧ (tick s).tt.stepHoldNs = s.tt.stepHoldNs + 1))

/-- Registers right after a full reset read as their Reset columns say (R9): module, timetable, press, near tier, link, fabric,
time, clocks, waybills, sampling, forme, health, rings, firmware and power. -/
def Obligations.ResetRegisters : Prop := ∀ x ∈ ([(0x3200000, 0), (0x30000, 0xF00000000000), (0x30008, 0), (0x30018, 0), (0x30028, 0)]
    ++ [(0x1000118, 0x3000000000000), (0x1000200, 0), (0x1000400, 0), (0x1000500, 0), (0x1000800, 0), (0x1000600, 0), (0x70000, 0)]
    ++ [(0x2000000, 0), (0x2100010, 0), (0x3000000, 0x30000), (0x3000010, 0), (0x3200300, 1), (0x20000, 0), (0x20008, 0x40000)]
    ++ [(0x20010, 0), (0x40000, 0xFFFFFFFF), (0x40008, 0xFFFFFFFF), (0x40010, 7), (0x40040, 0x1000101), (0x4000000, 65535)]
    ++ [(0x4000080, 0), (0x5000000, 0), (0x6004000, 0), (0x60000, 1000), (0x60800, 600), (0x60810, 0), (0x60900, 0)]
    ++ [(0x100000, 0), (0x100400, 0), (0x100800, 0), (0x120000, 0), (0x120008, 0), (0x300000, 0), (0x6000000, 0)]
    ++ [(0x10000, 0), (0x10020, 0), (0x10048, 0), (0x50000, 0), (0x50008, 0x10708), (0x50010, 0)] : List (Nat × Nat)),
  readReg State.reset x.1 = some x.2

/-- The state after reset is in the canonical form of its memories: the invariant of MemoriesStayCanonical holds there. -/
def Obligations.ResetMemoriesOk : Prop := State.reset.memoriesOk ∧ State.reset.pending = []

/-- An invariant that every step keeps: near tier, far tier and flash stay in canonical form, addresses strictly rising and no
entry that equals what an unlisted address reads as, from every state that has the form, whatever command is at the front of the
queue. -/
def Obligations.MemoriesStayCanonical : Prop := ∀ s t : State, s.memoriesOk → step s = .next t → t.memoriesOk

/-- The queue is first in, first out, and no command touches it: a step takes the front and leaves the rest as it was, and an
empty queue stays empty. -/
def Obligations.QueueIsFifo : Prop :=
  (∀ (c : Instr) (rest : List Instr) (s t : State), s.pending = c :: rest → step s = .next t → t.pending = rest) ∧
  (∀ s t : State, s.pending = [] → step s = .next t → t.pending = [])

/-- Holds exist only between launch and the end count (R36): an invariant that every step keeps, from every state that has it; a
hold that would be raised outside is not; and an insertion of refresh that falls due outside a step runs without one. -/
def Obligations.HoldsOnlyInStep : Prop :=
  (∀ s t : State, ((s.tt.inStep = false ∨ s.tt.draining = true) → s.tt.holds = []) → step s = .next t →
    (t.tt.inStep = false ∨ t.tt.draining = true) → t.tt.holds = []) ∧
  (State.reset.tt.holds = []) ∧
  (∀ (u : UnitId) (c : Cause) (k : HoldKind) (freeze : Nat) (s : State), s.tt.inStep = false ∨ s.tt.draining = true →
    raiseHold u c k freeze s = s) ∧
  (∀ s : State, s.tt.inStep = false ∨ s.tt.draining = true → s.now % s.refreshInterval = refreshPhase → s.near.selfRefresh = false →
    s.near.refreshing = false → ∃ t, exec .refreshDue s = .next t ∧ t.tt = s.tt ∧ t.near.refreshing = true)

/-- Frame of the commands that only report (R408, R415, R417, R420, R422): whatever their parameters and whatever they answer, NOP,
GET_EDITION, FW_VERSION, IDENTIFY, HEALTH_READ and HAZARD_READ change nothing but near memory (the shared window lies in it), the
accesses that wait on the near channels, KCL's state, the rings, and the marks that a touch of the window leaves in power. Of near memory,
where no earlier write and no earlier completion waits, they change at most the 32 bytes of the slot that the producer index of the
command's completion ring names, and for the last three the bytes of the reply, from the KiB that the descriptor's REPLY names: every other
byte reads as before. -/
def Obligations.ReportingCommandsFrame : Prop := ∀ (d : Descriptor) (s t : State),
  let a := (vget s.rings.cpl (s.cplOf d) Ring.reset).slotAt 32
  let r := d.reply.toNat * 1024
  ∀ x ∈ ([(.nop d, 0), (.getEdition d, 0), (.fwVersion d, 0), (.identify d, 1024), (.healthRead d, 8 * pArg d 25 1),
    (.hazardRead d, 14336)] : List (Instr × Nat)), exec x.1 s = .next t →
  (s.memoriesOk → s.kcl.fifo = [] → s.rings.waiting = [] → ∀ b, (b < a ∨ a + 32 ≤ b) → (b < r ∨ r + x.2 ≤ b) →
    memRead blank t.near.mem b 1 = memRead blank s.near.mem b 1) ∧
  t.nv = s.nv ∧ t.time = s.time ∧ t.clk = s.clk ∧ t.tt = s.tt ∧ t.barrier = s.barrier ∧ t.presses = s.presses ∧ t.far = s.far ∧
  t.conc = s.conc ∧ t.ports = s.ports ∧ t.fab = s.fab ∧ t.eng = s.eng ∧ t.smp = s.smp ∧ t.liv = s.liv ∧ t.forme = s.forme ∧
  t.health = s.health ∧ t.mirror = s.mirror ∧ t.dbg = s.dbg ∧ t.fw = s.fw ∧ t.mgmt = s.mgmt ∧ t.free = s.free ∧
  t.pending = s.pending ∧ t.near = { s.near with mem := t.near.mem, channels := t.near.channels } ∧
  (∀ c, t.chan c = { s.chan c with host := (t.chan c).host }) ∧
  t.power = { s.power with windowIdle := t.power.windowIdle, waking := t.power.waking } ∧
  t.rings.edition = s.rings.edition ∧ t.rings.sub = s.rings.sub ∧ t.rings.evt = s.rings.evt ∧ t.rings.out = s.rings.out

/-- A completion on a quiet window (R179, R405, R408, R415, R416, R420): while the slot's channel takes the boxes' writes, with no
earlier write waiting, no line of the slot held by the companion or waiting for what it gave up, room on the ring, and no INTR asked for, a
final completion is the 32 bytes of R420 in the slot that the producer index names, with PHASE of the pass; every other byte of near
memory reads as before; the index goes on by one, and one command fewer awaits its end. A completion with a reply, on a window that is
quiet and outside the slot, is first the reply's bytes from the KiB that REPLY names, and then the 32 bytes with REPLY_WRITTEN; again every
other byte reads as before. A completion that finds no room waits, and nothing of the window changes (R415). -/
def Obligations.CompletionWritten : Prop :=
  (∀ (d : Descriptor) (status : BitVec 16) (result : Nat) (s : State),
  let j := s.cplOf d
  let r := vget s.rings.cpl j Ring.reset
  let a := r.slotAt 32
  let c : Completion := { mkCpl d status true result with edition := s.rings.edition.setWidth 32 }
  s.memoriesOk → s.kcl.fifo = [] → s.rings.waiting = [] → s.cplRoom j = true → r.cfg.intr = false →
  d.flags.getLsbD 0 = false → lineState s.kcl a = none → s.lineDue a = false → s.boxMay (a / 1024 % 32) = true →
  let t := finish d status result s
  memRead blank t.near.mem a 32 = completionBytes c r.phase ∧
  (∀ b, b < a ∨ a + 32 ≤ b → memRead blank t.near.mem b 1 = memRead blank s.near.mem b 1) ∧
  t.rings.cpl = vmod s.rings.cpl j (fun r => { r with producer := BitVec.ofNat 32 ((r.producer.toNat + 1) % 65536) }) ∧
  t.rings.awaiting = vmod s.rings.awaiting d.ring.val (· - 1) ∧ t.rings.waiting = [] ∧ t.kcl = s.kcl) ∧
  (∀ (d : Descriptor) (status : BitVec 16) (result : Nat) (reply : List Byte) (s : State),
  let j := s.cplOf d
  let r := vget s.rings.cpl j Ring.reset
  let a := r.slotAt 32
  let b := d.reply.toNat * 1024
  let c : Completion := { mkCpl d status true result with reply := true, edition := s.rings.edition.setWidth 32 }
  s.memoriesOk → s.kcl.fifo = [] → s.rings.waiting = [] → s.cplRoom j = true → r.cfg.intr = false → d.flags.getLsbD 0 = false →
  a + 32 ≤ b ∨ b + reply.length ≤ a → (∀ k, lineState s.kcl k = none ∧ s.lineDue k = false) → (∀ k, k < 32 → s.boxMay k = true) →
  let t := finishReply d status result reply s
  memRead blank t.near.mem b reply.length = reply ∧ memRead blank t.near.mem a 32 = completionBytes c r.phase ∧
  (∀ k, (k < a ∨ a + 32 ≤ k) → (k < b ∨ b + reply.length ≤ k) → memRead blank t.near.mem k 1 = memRead blank s.near.mem k 1) ∧
  t.rings.waiting = [] ∧ t.kcl = s.kcl) ∧
  (∀ (d : Descriptor) (status : BitVec 16) (result : Nat) (s : State),
  s.rings.waiting = [] → s.cplRoom (s.cplOf d) = false →
  finish d status result s = { s with rings.waiting := [{ mkCpl d status true result with edition := s.rings.edition.setWidth 32 }] })

/-- Events (R417, R418, R441): during a handover one waits for SB0; at any other time one that finds the ring full is discarded and
counted, and nothing else changes, and so is one for a ring that is not enabled, which is the model's choice (log entry 14); one that finds
room on a quiet window, whose channel takes the boxes' writes (R179), is the 32 bytes of R417, with LOST of the discards since the last one,
in the slot that the index names. -/
def Obligations.EventsPosted : Prop := ∀ (type a b c : Nat) (s : State),
  let r := s.rings.evt
  (s.fw.boot = .handover → postEvent type a b c s = { s with rings.evtHeld := s.rings.evtHeld ++ [⟨s.now, type, a, b, c⟩] }) ∧
  (s.fw.boot ≠ .handover → r.cfg.enable = false ∨ r.room = 0 → postEvent type a b c s =
    { s with rings.evtLost := s.rings.evtLost + 1, rings.evtLostSince := satInc s.rings.evtLostSince }) ∧
  (s.fw.boot ≠ .handover → r.cfg.enable = true → 0 < r.room → r.cfg.intr = false → s.memoriesOk → s.kcl.fifo = [] →
    lineState s.kcl (r.slotAt 32) = none → s.lineDue (r.slotAt 32) = false → s.boxMay (r.slotAt 32 / 1024 % 32) = true →
    let t := postEvent type a b c s
    memRead blank t.near.mem (r.slotAt 32) 32 = leBytes 1 type ++ leBytes 1 r.phase ++ leBytes 2 s.rings.evtLostSince.toNat
      ++ leBytes 8 s.now ++ leBytes 4 a ++ leBytes 8 b ++ leBytes 8 c ∧
    (∀ k, k < r.slotAt 32 ∨ r.slotAt 32 + 32 ≤ k → memRead blank t.near.mem k 1 = memRead blank s.near.mem k 1) ∧
    t.rings.evt.producer = BitVec.ofNat 32 ((r.producer.toNat + 1) % 65536) ∧ t.rings.evtLostSince = 0 ∧ t.rings.evtLost = s.rings.evtLost)

/-- The module's writes into the shared window become visible in order (R178, R179, R405, R408): what waits keeps its order; a write to a
line that the companion does not hold, and of which nothing that it gave up is due, is in memory at once where nothing waits before it and
its channel takes the boxes' writes in the gap between steps, and waits otherwise, so in every step; a write to a held line waits, with one
snoop sent. -/
def Obligations.SharedWritesInOrder : Prop := ∀ (a : Nat) (bs : List Byte) (s : State), bs ≠ [] → bs.length ≤ 64 - a % 64 →
  s.lineDue a = false →
  (s.tt.inStep = true → ∀ c, s.boxMay c = false) ∧
  (s.kcl.fifo = [] → lineState s.kcl a = none → s.boxMay (a / 1024 % 32) = true →
    sharedWrite a bs s = { touchWindow s with near.mem := memWrite blank a bs s.near.mem }) ∧
  (s.kcl.fifo = [] → lineState s.kcl a = none → s.boxMay (a / 1024 % 32) = false →
    sharedWrite a bs s = { touchWindow s with kcl.fifo := [.write a bs] }) ∧
  (∀ x, s.kcl.fifo = [] → lineState s.kcl a = some x → s.kclUp = true → s.kcl.snoops.any (fun y => y.1 == lineBase a) = false →
    sharedWrite a bs s = { touchWindow s with
      kcl.fifo := [.write a bs], kcl.snoops := s.kcl.snoops ++ [(lineBase a, true)]
      kcl.tx := s.kcl.tx ++ [⟨0x40, false, 0, spaceAddr 1 (lineBase a), [], 0⟩] }) ∧
  (∀ b cs rest x, s.kcl.fifo = .write b cs :: rest → s.lineDue b = false → lineState s.kcl b = some x →
    (sharedWrite a bs s).kcl.fifo = s.kcl.fifo ++ [.write a bs] ∧ (sharedWrite a bs s).near = s.near)

/-- Step faults (R50, R379, R380): the first of an attempt is recorded in FAULT_DETAIL with TT; of those that units meet at the same
nanosecond the lowest unit code is kept; a later one sets only MORE; each begins fault run-out, which releases every outstanding DUE hold; outside a step there is none. When
the chip has drained, with no decision taken before, its report at the barrier carries the code that is kept. -/
def Obligations.StepFaultsRecorded : Prop := ∀ (code unit : Nat) (s : State),
  (s.tt.inStep = false → stepFault code unit s = s) ∧
  (s.tt.inStep = true → s.tt.fault = 0 →
    (stepFault code unit s).health.fault = ⟨false, BitVec.ofNat 8 code, BitVec.ofNat 8 unit, s.tt.tt⟩ ∧
    (stepFault code unit s).tt.fault = BitVec.ofNat 8 code) ∧
  (s.tt.inStep = true → s.tt.fault ≠ 0 → s.now = s.tt.faultAt → unit < s.health.fault.unit.toNat →
    (stepFault code unit s).health.fault = ⟨true, BitVec.ofNat 8 code, BitVec.ofNat 8 unit, s.tt.tt⟩ ∧
    (stepFault code unit s).tt.fault = BitVec.ofNat 8 code) ∧
  (s.tt.inStep = true → s.tt.fault ≠ 0 → s.now ≠ s.tt.faultAt ∨ s.health.fault.unit.toNat ≤ unit →
    (stepFault code unit s).health.fault = { s.health.fault with more := true } ∧ (stepFault code unit s).tt.fault = s.tt.fault) ∧
  (s.tt.inStep = true → (stepFault code unit s).tt.runout = true ∧ (stepFault code unit s).tt.inStep = true ∧
    (stepFault code unit s).tt.tt = s.tt.tt) ∧
  (s.tt.inStep = true → s.tt.runout = false → (stepFault code unit s).tt.runoutAt = s.now ∧
    ∀ h ∈ (stepFault code unit s).tt.holds, h.kind = .due → h.resume ≠ none) ∧
  (s.barrier.decided = none → ∃ (u : State) (r : Report), drained s = tryReport u ∧ r.fault = s.tt.fault ∧
    u.barrier.reports = addReport r s.barrier.reports ∧ u.tt.reported = s.tt.fault)

/-- Device commands that only report (R422): with the reserved fields zero, NOP, GET_EDITION and, with its reply area, IDENTIFY
each post one final completion DONE with the result of R422. Firmware, health and debug commands that report (R422, R444, R453,
R160): the completion and the reply of each. -/
def Obligations.ReportCommandsComplete : Prop :=
  (∀ (d : Descriptor) (s : State), descOk d [] = true →
  exec (.nop d) s = .next (finish d stDone 0 (cmdBegin d s)) ∧
  exec (.getEdition d) s =
    .next (finish d stDone (resAt 16 s.rings.edition.toNat + resAt 24 s.rings.edTerminus.toNat) (cmdBegin d s)) ∧
  (replyOk s d 1 = true → exec (.identify d) s = .next (finishReply d stDone
    (resAt 16 96 + resAt 18 (bit Config.isB1) + resAt 20 s.fw.running.toNat) (regBytes (cmdBegin d s) 0 1024) (cmdBegin d s)))) ∧
  (∀ (d : Descriptor) (s : State),
  (descOk d [] = true → exec (.fwVersion d) s = .next (finish d stDone
    (resAt 16 s.fw.running.toNat + resAt 20 (match s.fw.staged with
      | some img => imgRelease img
      | none => 0) + resAt 24 (flashRelease s) + resAt 28 (s.nv.rollback % 256) + resAt 29 Config.romVersion.toNat)
    (cmdBegin d s))) ∧
  (descOk d [(24, 1), (25, 1)] = true → 1 ≤ pArg d 25 1 → pArg d 24 1 + pArg d 25 1 ≤ 164 →
    replyOk s d (ceilDiv (8 * pArg d 25 1) 1024) = true →
    exec (.healthRead d) s = .next (finishReply d stDone (resAt 16 (fld s.health.alerts.toNat 0 64))
      (regBytes (cmdBegin d s) (0x60000 + 8 * pArg d 24 1) (8 * pArg d 25 1)) (cmdBegin d s))) ∧
  (descOk d [] = true → replyOk s d 14 = true → exec (.hazardRead d) s = .next (finishReply d stDone 0
    (sliceBytes (s.presses.toList.flatMap hazardBytes) 0 14336) (cmdBegin d s))) ∧
  (descOk d [(24, 32)] = true → replyOk s d 8 = true →
    let body := leBytes 4 0x54535441 ++ leBytes 2 1 ++ leBytes 1 10 ++ zeros 1 ++ leBytes 8 s.now ++ leBytes 8 s.rings.edition.toNat
      ++ leBytes 3 s.fab.gid.toNat ++ zeros 5 ++ leBytes 32 (pArg d 24 32) ++ digestBytes edKeyId ++ digestBytes mldsaKeyId
      ++ (List.range 10).flatMap (fun i => measureBytes s (i + 1))
    body.length = 608 ∧
    exec (.attest d) s = .next (finishReply d stDone 0
      (sliceBytes (body ++ edSignature body ++ mldsaSignature body) 0 8192) (cmdBegin d s))) ∧
  (descOk d [(24, 34)] = true → replyOk s d 4 = true → s.isDesk = true → ∀ e,
    findColophon s (leBytes 32 (pArg d 24 32)) (pArg d 56 2) (min colophonSlots s.fw.colophonNext) s.fw.colophonNext = some e →
    let body := leBytes 4 0x48504C43 ++ leBytes 2 1 ++ leBytes 2 (pArg d 56 2) ++ sliceBytes e 40 4 ++ sliceBytes e 34 2
      ++ sliceBytes e 36 2 ++ leBytes 8 s.now ++ leBytes 3 s.fab.gid.toNat ++ zeros 5 ++ leBytes 32 (pArg d 24 32)
      ++ (measure s 2).2.2 ++ zeros 32
    exec (.colophonSign d) s = .next (finishReply d stDone 0
      (sliceBytes (body ++ edSignature body ++ mldsaSignature body) 0 4096) (cmdBegin d s))))

/-- Breakpoint and debug-mode commands (R156, R157, R422): what each leaves in DEBUG_MODE and in the BREAK registers.
SET_OPERATING_POINT (R286, R421, R422, R474): the change is recorded and its command QUEUED; a change that was pending completes
with BUSY first, but a change that some region has begun goes on (R287). With no forme loaded, the chip ACTIVE and no change in progress the regulators begin at once; with one loaded the change waits for its
step. -/
def Obligations.ModeCommandsComplete : Prop :=
  (∀ (d : Descriptor) (s : State),
  (descOk d [(24, 1), (32, 8)] = true → pArg d 24 1 ≤ 7 → breakLegal (pArg d 32 8) = true →
    exec (.breakSet d) s = .next (finish d stDone 0 (setBreak (pArg d 24 1) (pArg d 32 8) (cmdBegin d s)))) ∧
  (descOk d [(24, 1)] = true → exec (.breakClear d) s = .next (finish d stDone 0
    { cmdBegin d s with dbg.breaks := s.dbg.breaks.mapIdx (fun i b => if bitAt (pArg d 24 1) i then { b with armed := false } else b) })) ∧
  (descOk d [(24, 1)] = true → pArg d 24 1 = 1 → s.forme.state ≠ .started → s.power.point = 0 →
    exec (.debugEnable d) s = .next (finish d stDone (resAt 16 1) { cmdBegin d s with dbg.enabled := true })) ∧
  (descOk d [(24, 1)] = true → pArg d 24 1 = 0 → s.forme.state ≠ .started →
    exec (.debugEnable d) s = .next (finish d stDone 0 { cmdBegin d s with dbg.enabled := false })) ∧
  (descOk d [(24, 1)] = true → pArg d 24 1 = 1 → s.forme.state ≠ .started → s.power.point ≠ 0 →
    exec (.debugEnable d) s = .next (finish d stBadParam (resAt 16 (bit s.dbg.enabled)) (cmdBegin d s)))) ∧
  (∀ (d : Descriptor) (s : State),
  descOk d [(24, 1), (32, 8)] = true → pArg d 24 1 ≤ 2 → pointPermitted s (pArg d 24 1) = true →
  (s.dbg.enabled = false ∨ pArg d 24 1 = 0) → (s.loaded = false ∨ stepPast s (pArg d 32 8) = false) →
  let r := resAt 24 s.power.point.toNat
  let old : State := match s.power.pointCmd with
    | some c => finish c stBusy r { cmdBegin d s with power.pointCmd := none }
    | none => cmdBegin d s
  let t : State := queued d r { old with
    power.pendingPoint := some (BitVec.ofNat 2 (pArg d 24 1), BitVec.ofNat 64 (pArg d 32 8)), power.pointCmd := some d
    power.switchAt := if s.power.changing && !regionsIn s then s.power.switchAt else none
    power.pointQuiet := s.power.chipState != 0 }
  exec (.setOperatingPoint d) s =
    .next (if s.loaded = false ∧ s.power.chipState = 0 ∧ s.power.changing = false then beginChange t else t))

/-- FW_STAGE, FW_HANDOVER and FW_FLASH_WRITE (R437 to R442) where nothing forbids them, and RESET_WARM (R420, R422): the
completion first, then the warm reset. SELF_TEST (R396, R397, R422): a scope of parts of which none is being tested; a job is
recorded, every part's test is pending or, where nothing holds it, running, and the command is QUEUED exactly when a part is
used by the loaded forme or a brake pauses the runs (R479); a test of presses or of the engine wakes the chip (R476); a press that the forme leaves
out stands while it is tested. -/
def Obligations.FirmwareCommandsComplete : Prop :=
  (∀ (d : Descriptor) (s : State), descOk d [] = true →
  (∀ blk : List Byte, hasBlock d = true → d.blockLength.toNat ≤ blk.length → s.fw.handoverPending = false →
    s.fw.boot ≠ .handover → (blk.take d.blockLength.toNat).length ≤ 4 * 2 ^ 20 →
    verifyImage s.nv.rollback (blk.take d.blockLength.toNat) = 0 →
    exec (.fwStage d blk) s = .next (finish d stDone (resAt 16 (imgRelease (blk.take d.blockLength.toNat)))
      (putImageSlot (!s.fw.runningSlot) (blk.take d.blockLength.toNat)
        { cmdBegin d s with
          fw.staged := some (blk.take d.blockLength.toNat), fw.stagedSlot := !s.fw.runningSlot, fw.runningIsStaged := false }))) ∧
  (∀ img : List Byte, s.fw.staged = some img → imgRecordMin img ≤ imgRecordMax s.fw.image →
    imgRecordMax s.fw.image ≤ imgRecordMax img → (s.loaded = false ∨ imgAbi img = imgAbi s.fw.image) →
    s.fw.handoverPending = false → s.fw.boot ≠ .handover →
    let t : State := queued d 0 { cmdBegin d s with fw.handoverCmd := some d }
    exec (.fwHandover d) s =
      .next (if t.forme.state = .started then { t with fw.handoverPending := true } else beginHandover t)) ∧
  (s.fw.staged = none → exec (.fwHandover d) s = .next (finish d stBadParam 0 (cmdBegin d s))) ∧
  (s.fw.runningIsStaged = true → s.forme.state ≠ .started → s.fw.boot ≠ .handover → s.nv.job = none →
    exec (.fwFlashWrite d) s = .next { cmdBegin d s with
      nv.job := some (.erase (List.range (imageSectors s.fw.image))), nv.cmd := some d }) ∧
  exec (.resetWarm d) s = .next (warmReset 1 (finish d stDone 0 (cmdBegin d s)))) ∧
  (∀ (d : Descriptor) (s : State) (parts : List Nat),
  descOk d [(24, 1), (32, 16)] = true → scopeParts (pArg d 24 1) (pArg d 32 16) = some parts → parts ≠ [] →
  (pArg d 24 1 = 2 → s.loaded = false) →
  (∀ i ∈ parts, (vget s.health.test i SelfTest.reset).state ≠ 1 ∧ (vget s.health.test i SelfTest.reset).state ≠ 2) →
  let waits := parts.any (fun i => s.partUsed i) || s.power.braking
  let u := if pArg d 24 1 = 0 ∨ pArg d 24 1 = 4 then wakeFor (cmdBegin d s) else cmdBegin d s
  let t : State := { u with
    health.test := s.health.test.mapIdx (fun i x =>
      if parts.contains i then ⟨0, 0, if (s.partUsed i && !s.testsFree) || s.power.braking then 1 else 2⟩ else x)
    health.jobs := s.health.jobs ++ [⟨d, parts, [], [], waits⟩] }
  exec (.selfTest d) s = .next (if waits then queued d 0 (testStand parts t) else testStand parts t))

/-- FORME_LOAD (R355 to R357, R476): with no forme loaded, where every check of R355 passes and placement `k` is the
first that fits, the forme that the parts give is stored under that placement, the completion names it and the digest of its
index, and the edition page shows it; in Quiet the chip's wake begins. The sections of which the spec gives the bytes are read from the
parts' bytes, and those without a byte layout come beside them in the row's operand: the model's choice, log entry 12. FORME_IMPOSE
(R358 to R361): a loaded forme that is not started, a binding table that names this chip's GID at its place and every chip once,
partners and keys that are legal, and route tables that patch: the imposition and its completion. -/
def Obligations.FormeCommandsComplete : Prop :=
  (∀ (d : Descriptor) (parts : FormeParts) (s : State) (f : Forme) (k : Nat) (pl : Placement),
  let c := pArg d 24 4
  let desk := parts.forme.serving.desk == c
  descOk d [(24, 4), (28, 1)] = true → pArg d 28 1 < 2 → hasBlock d = true → 48 ≤ d.blockLength.toNat →
  earlierRuns d s = false → s.forme.state = .none → s.fab.gidValid = true →
  c < leAt parts.index 12 4 → indexOk parts.index = true → leAt parts.index 8 4 = s.fw.running.toNat →
  sha256 parts.common = sliceBytes parts.index 32 32 → sha256 parts.chip = sliceBytes parts.index (64 + 32 * c) 32 →
  parts.forme.tt.chipCount = leAt parts.index 12 4 → partOk parts.forme desk true parts.common = true →
  partOk parts.forme desk false parts.chip = true → readForme parts desk = some f → loadRules f c (farView s) = true →
  formeAvailable s f = true →
  (pArg d 28 1 = 1 ∨ envelopeOk f.tt = true) →
  (f.chip.placements.mapIdx (fun k p => (k, p))).find? (fun x => placementFits s f c x.2) = some (k, pl) →
  exec (.formeLoad d parts) s = .next (formeDone d (resAt 16 k + resAt 24 (leNat ((sha256 parts.index).take 8)))
    (pageChange (cmdBegin d s) (storeForme f c (digestOf parts.index) k pl (wakeFor (cmdBegin d s)))))) ∧
  (∀ (d : Descriptor) (blk : List Byte) (s : State) (f : Forme)
    (a b v : List (Nat × Route × Bool)),
  let n := f.tt.chipCount
  let word (k : Nat) : Nat := leAt blk (4 * k) 4
  let m : Impose := ⟨(List.range n).map word, (List.range n).map (fun c => word (n + c)),
    (List.range 4).map (fun k => pArg d (24 + 2 * k) 2), pArg d 32 1 == 1⟩
  let c := s.chipIndex
  let entry (chip : Nat) : Nat := s.routeEntry (m.binding.getD chip 0)
  descOk d [(24, 8), (32, 1)] = true → earlierRuns d s = false → s.forme.forme = some f → s.forme.state ≠ .started →
  pArg d 32 1 < 2 → hasBlock d = true → d.blockLength.toNat = 8 * n → d.blockLength.toNat ≤ blk.length →
  (∀ g ∈ m.binding, g < 2 ^ 20 ∧ g ≠ 0xFFFFF) → m.binding.getD c 0 = s.fab.gid.toNat → m.binding.Nodup →
  partnersOk n m.partners = true → keySlotsOk f.keyCount m.keys = true →
  patchAll entry m.strict false (((f.flows.mapIdx (fun i x => (i, x))).filter (fun x => x.2.sourceChip == c)).map
    (fun x => (x.1, f.dests.getD x.1 0, x.2.route))) = .ok a →
  patchAll entry m.strict true (f.treeRoutes.map (fun x => (x.1, x.1, x.2))) = .ok b →
  patchAll entry m.strict true (match f.serving.voidRoute[c]? with
    | some r => if r.hops = 0 then [] else [(0, nextInStage f.serving c, r)]
    | none => []) = .ok v →
  let t := pageChange (cmdBegin d s) (imposeWith f m blk a b v (cmdBegin d s))
  exec (.formeImpose d blk) s = .next (formeDone d (resAt 16 t.forme.patched.toNat + resAt 20 t.forme.rerouted.toNat
    + resAt 24 (t.forme.imposeDigest.toNat % 2 ^ 64)) t))

/-- FORME_START, FORME_STOP and FORME_UNLOAD (R47, R325, R373, R381, R398, R422) where nothing forbids them. A start is QUEUED
until the first launch; a stop waits for a terminus, or ends at once a forme that a barrier timeout has stopped; an unload
stables the pages the forme leaves behind and clears the forme, with the presses' shed staggered. -/
def Obligations.FormeStartStopUnloadComplete : Prop := ∀ (d : Descriptor) (s : State), earlierRuns d s = false →
  (∀ f : Forme, descOk d [(24, 8), (32, 4)] = true → s.forme.forme = some f →
    (s.forme.state = .imposed ∨ (s.forme.state = .started ∧ s.barrier.stopped = true)) → s.now < pArg d 24 8 →
    ¬(s.barrier.stopped = true ∧ s.tt.attempt = 255 ∧ s.tt.nextStep = s.tt.step ∧ s.tt.nextAttempt = 0) →
    (pArg d 32 4 = 0xFFFFFFFF ∨ pArg d 32 4 < f.tt.chipCount) → pointPermitted s s.power.point.toNat = true →
    s.forme.sealed = true → (∀ p ∈ portsOf f.chip.portMask.toNat, (s.port p).ready = true) → keysInstalled s f = true →
    startRoom s f = true →
    exec (.formeStart d) s = .next (acceptStart d f (pArg d 24 8) (pArg d 32 4) (wakeFor (cmdBegin d s)))) ∧
  (descOk d [] = true → s.forme.state = .started → s.barrier.stopCmd = none → s.barrier.stopped = false →
    exec (.formeStop d) s =
      .next (formeQueued d { cmdBegin d s with barrier.stopCmd := some d, barrier.stopPending := true })) ∧
  (descOk d [] = true → s.forme.state = .started → s.barrier.stopCmd = none → s.barrier.stopped = true →
    exec (.formeStop d) s = .next (formeDone d 0 (stopForme { cmdBegin d s with forme.reason := 0 }))) ∧
  (descOk d [] = true → s.forme.state = .none → exec (.formeUnload d) s = .next (formeDone d 0 (cmdBegin d s))) ∧
  (descOk d [] = true → s.forme.state = .loaded ∨ s.forme.state = .imposed →
    let parked := parkAll s.isDesk (cmdBegin d s)
    let t := clearFailed (clearLists parked.1)
    exec (.formeUnload d) s = .next (formeDone d (resAt 16 parked.2.1 + resAt 20 parked.2.2) (startStagger occShed (pageChange (cmdBegin d s)
      (showTable { t with
        forme := { FormeSt.reset with bytes := t.forme.bytes, strayCopies := t.forme.strayCopies }
        near.formeSize := 0, near.poolBase := BitVec.ofNat 32 nearFormeBase
        presses := t.presses.map unloadPress, tt.nextLaunch := none, tt.copied := false, liv := restage t.liv, eng.adopted := false
        barrier := Barrier.reset, mirror.rebuilding := false, mirror.fetches := [] })))))

/-- WEIGHTS_LOAD and WEIGHTS_BROADCAST (R370, R371, R374): a loaded forme that is neither started nor sealed, records that name
its tensors once each, sources of the lengths and digests that the records give. Each image is placed and its tensor made
present; a load of records marked FABRIC is QUEUED until those copies come; a broadcast queues each source's packets on every route.
WEIGHTS_DIGEST and WEIGHTS_FREE (R372, R373): READ reports the tensors present; SEAL, of an index that matches them, seals the
weight set under the index's digest; a free of a forme that is not started, with no valid livery, leaves no tensor present. -/
def Obligations.WeightCommandsComplete : Prop :=
  (∀ (d : Descriptor) (blk : List Byte) (sources : List (List Byte)) (s : State),
  earlierRuns d s = false → s.forme.state = .loaded ∨ s.forme.state = .imposed → s.forme.sealed = false →
  hasBlock d = true → d.blockLength.toNat ≤ blk.length →
  ∀ images : List (Tensor × List Byte × List Byte), ∀ recs : List LoadRec,
  let rows := recs.mapIdx (fun i r => (r, sources.getD i []))
  let plain := rows.filter (fun x => !x.1.fabric)
  let names := recs.map LoadRec.tensor
  let bytes := sumOf (images.map (fun x => x.2.1.length))
  let begun := dropTensors names (countBytes (sumOf (plain.map (fun x => x.2.length))) (cmdBegin d s))
  let placed := images.foldl (fun s x => makePresent x s) (wakeFor begun)
  recs.any (fun r => !r.zero || 4 ≤ r.flags) = false → plain.any (fun x => x.2.length != x.1.length) = false →
  names.Nodup → recordImages s plain = .ok images →
  (descOk d [] = true → d.blockLength.toNat % 64 = 0 → d.blockLength.toNat / 64 ≤ 4096 →
    recs = (List.range (d.blockLength.toNat / 64)).map (fun i => loadRec (sliceBytes blk (64 * i) 64)) →
    rows.findSome? (fun x => recordFault s true x.1 x.2) = none →
    let open' := (recs.filter LoadRec.fabric).map LoadRec.tensor
    exec (.weightsLoad d blk sources) s = .next (
      if open'.isEmpty then formeDone d (loadResult images.length bytes) placed
      else formeQueued d { placed with forme.fabricLoad := some ⟨d, names, open', [], images.length, false, bytes⟩ })) ∧
  (let routes := pArg d 24 1
    let size := d.blockLength.toNat - 16 * routes
    let paths := (List.range routes).map (fun i => sliceBytes blk (16 * i) 16)
    descOk d [(24, 1)] = true → 1 ≤ routes → routes ≤ 16 → 16 * routes + 64 ≤ d.blockLength.toNat → size % 64 = 0 →
    size / 64 ≤ 4096 → paths.all broadcastRouteOk = true → recs.any LoadRec.fabric = false →
    recs = (List.range (size / 64)).map (fun i => loadRec (sliceBytes blk (16 * routes + 64 * i) 64)) →
    rows.findSome? (fun x => recordFault s false x.1 x.2) = none →
    exec (.weightsBroadcast d blk sources) s =
      .next (castGo (beginBroadcast d (paths.map broadcastRoute) recs images placed)))) ∧
  (∀ (d : Descriptor) (blk : List Byte) (s : State), earlierRuns d s = false →
  (descOk d [(24, 1)] = true → pArg d 24 1 = 0 → s.forme.present = [] →
    exec (.weightsDigestRead d) s = .next (formeDone d 0 (cmdBegin d s))) ∧
  (descOk d [(24, 1)] = true → pArg d 24 1 = 0 → s.forme.present ≠ [] →
    replyOk s d (ceilDiv (80 * s.forme.present.length) 1024) = true →
    exec (.weightsDigestRead d) s = .next (finishReply d stDone (resAt 16 s.forme.present.length)
      (s.forme.present.flatMap (fun x => indexRecord s x ++ digestBytes x.2.source))
      (showPresent d { cmdBegin d s with forme.reason := 0 }))) ∧
  (let n := d.blockLength.toNat / 48
    let digest := digestOf (blk.take (48 * n))
    descOk d [(24, 1)] = true → pArg d 24 1 = 1 → d.blockLength.toNat % 48 = 0 → (d.blockLength = 0 ∨ d.block ≠ 0) →
    d.blockLength.toNat ≤ blk.length →
    sealOk s ((List.range n).map (fun i => sliceBytes blk (48 * i) 48)) = true →
    s.liv.slots.any (fun x => x.2.valid && x.2.weightDigest != digest) = false →
    exec (.weightsDigestSeal d blk) s = .next (formeDone d (resAt 16 (digest.toNat % 2 ^ 128)) (pageChange (cmdBegin d s)
      { cmdBegin d s with forme.sealed := true, forme.weightDigest := digest }))) ∧
  (descOk d [] = true → s.forme.state ≠ .started → s.liv.slots.any (fun x => x.2.valid) = false →
    exec (.weightsFree d) s = .next (formeDone d 0 (pageChange (cmdBegin d s)
      { cmdBegin d s with forme.present := [], forme.sealed := false, forme.weightDigest := 0 }))))

/-- WAYBILL_OPEN and WAYBILL_APPEND on the desk chip (R292, R330, R331, R424, R505), with an entry and room: the input store is
allocated and written, and the change waits in the engine for the next commit with its command QUEUED. WAYBILL_CANCEL,
WAYBILL_STABLE, WAYBILL_RESUME and WAYBILL_QUERY (R292, R301, R316, R320 to R323, R421). -/
def Obligations.WaybillCommandsComplete : Prop :=
  (∀ (d : Descriptor) (blk : List Byte) (s : State) (v : Serving),
  hasBlock d = true → d.blockLength.toNat ≤ blk.length → s.forme.state ≠ .none → s.isDesk = true → s.serving = some v →
  (∀ i a : Nat,
    let n := pArg d 24 4
    let w := openRecord blk n
    let extra := sliceBytes blk 128 w.extraBytes
    let toks := tokenIds blk (128 + w.extraBytes) n
    let kib := storeSize w n
    descOk d [(24, 4)] = true → 1 ≤ n → d.blockLength.toNat = 128 + w.extraBytes + 4 * n → paramsOk s.vocab w = true →
    extraOk s.vocab w extra = true → (∀ t ∈ toks, t < s.vocab) → openFields s v blk w = true →
    n + w.maxNew + v.proofMax ≤ lengthLimit → fenceOk s w = true → freeIndex s = some i → inputRoom kib s = some a →
    frameNeed v w 0 ≤ v.frames → sliceBytes (sha256 extra) 0 16 = leBytes 16 (w.arg 48 16) →
    let w' := { w with inputStore := BitVec.ofNat 32 a, storeKiB := kib, opened := s.eng.opened + 1 }
    let t := nearPut (w'.storeByte + 65536) extra
      (nearZero a kib (allocInput i a kib { cmdBegin d s with eng.opened := s.eng.opened + 1 }))
    let t := putDigest w' (nearPut (w'.tokenByte 0) (toks.flatMap (leBytes 4)) t)
    exec (.waybillOpen d blk) s = .next (queued d (resAt 16 i + resAt 18 w'.opened.toNat)
      { t with eng.pending := t.eng.pending ++ [⟨.opened i w', some d⟩] })) ∧
  (∀ (w : Waybill) (b : Nat),
    let i := pArg d 24 2
    let n := pArg d 28 4
    let toks := tokenIds blk 0 n
    let a := (latestStore s i w).1
    let len := (latestStore s i w).2
    let kib := storeSize w (len + n)
    descOk d [(24, 2), (28, 4)] = true → kget s.eng.table i = some w →
    (w.state = .queued ∨ w.state = .prefill ∨ w.state = .decode) → 1 ≤ n → d.blockLength.toNat = 4 * n →
    (∀ t ∈ toks, t < s.vocab) → len + n + w.maxNew + v.proofMax ≤ lengthLimit → inputRoom kib s = some b →
    let w' := { w with inputStore := BitVec.ofNat 32 b, inputLength := len + n }
    let old := memRead blank s.boxMem (a * 1024) (1024 * storeSize w len)
    let t := nearPut (b * 1024) old (nearZero b kib (allocInput i b kib (cmdBegin d s)))
    let t := putDigest w' (nearPut (w'.tokenByte len) (toks.flatMap (leBytes 4)) t)
    exec (.waybillAppend d blk) s =
      .next (queued d 0 { t with eng.pending := t.eng.pending ++ [⟨.appended i b kib n, some d⟩] }))) ∧
  (∀ (d : Descriptor) (s : State),
  (descOk d [(24, 2)] = true → s.isStage = false → pArg d 24 2 ≠ 65535 →
    (kget s.eng.table (pArg d 24 2) = none → exec (.waybillCancel d) s = .next (finish d stDone 0 (cmdBegin d s))) ∧
    (∀ w, kget s.eng.table (pArg d 24 2) = some w →
      let st := resAt 16 (wbCode w.state)
      exec (.waybillCancel d) s = .next (
        if cancels w = false then finish d stDone st (cmdBegin d s)
        else if s.forme.state = .started then acceptCancel (pArg d 24 2) w (some d) (queued d st (cmdBegin d s))
        else cancelNow (pArg d 24 2) w (some d) (cmdBegin d s)))) ∧
  (∀ w, descOk d [(24, 2)] = true → s.forme.state ≠ .none → s.isDesk = true → kget s.eng.table (pArg d 24 2) = some w →
    (w.state = .prefill ∨ w.state = .decode) →
    exec (.waybillStable d) s = .next (queued d 0 (modWb (pArg d 24 2) (fun w => { w with stablePending := true })
      { cmdBegin d s with eng.pending := s.eng.pending ++ [⟨.stable (pArg d 24 2), some d⟩] }))) ∧
  (∀ w, descOk d [(24, 6), (32, 8), (40, 1)] = true → s.forme.state ≠ .none → s.isDesk = true →
    kget s.eng.table (pArg d 24 6 % 65536) = some w → pArg d 24 6 ≠ 0 → w.ticket.toNat = pArg d 24 6 →
    (w.state = .stabled ∨ w.state = .expired) → pArg d 40 1 ≤ 15 → fenceOk s w = true →
    exec (.waybillResume d) s = .next (queued d 0 { cmdBegin d s with eng.pending := s.eng.pending ++
      [⟨.resumed (BitVec.ofNat 48 (pArg d 24 6)) (BitVec.ofNat 64 (pArg d 32 8)) (BitVec.ofNat 4 (pArg d 40 1)), some d⟩] })) ∧
  (descOk d [(24, 2)] = true → replyOk s d 1 = true → s.isStage = false → pArg d 24 2 ≠ 65535 →
    let e := shownEntry s (pArg d 24 2)
    exec (.waybillQuery d) s = .next (finishReply d stDone
      (resAt 16 (leAt e 0 1) + resAt 17 (leAt e 20 3) + resAt 20 s.rings.edTable.toNat) e (cmdBegin d s))))

/-- LIVERY_LOAD and LIVERY_FREE (R340, R341): the livery's bytes go to the bank of the far tier and its slot is made; a free of
a slot that no waybill names empties it at once, or at the next commit while a forme is started. -/
def Obligations.LiveryCommandsComplete : Prop := ∀ (d : Descriptor) (blk : List Byte) (s : State),
  (let k := pArg d 24 2
    let x := blk.take d.blockLength.toNat
    ∀ a : Nat, descOk d [(24, 2), (32, 32)] = true → hasBlock d = true → d.blockLength.toNat ≤ blk.length → k < 4096 →
    kget s.liv.slots k = none → liveryOk x = true → s.forme.sealed = true → leAt x 16 32 = s.forme.weightDigest.toNat →
    (∀ p, s.samplerPlan = some p → sectionBytes s.pool.layers x ≤ p.stageBytes) → areaUp s 4 = true → bankRoom x.length s = some a →
    leNat (sha256 x) = pArg d 32 32 →
    let slot : LiverySlot :=
      { bank := BitVec.ofNat 32 a, rank := BitVec.ofNat 8 (leAt x 4 1), format := BitVec.ofNat 4 (leAt x 5 1), staged := none
        valid := s.forme.state != .started, tenant := BitVec.ofNat 16 (leAt x 2 2), alpha := BitVec.ofNat 32 (leAt x 8 4)
        weightDigest := BitVec.ofNat 256 (leAt x 16 32), digest := BitVec.ofNat 256 (leNat (sha256 x)), length := x.length
        copying := false }
    exec (.liveryLoad d blk) s = .next (finish d stDone (resAt 16 a)
      { farWrite (a * 1048576) x (cmdBegin d s) with liv.slots := kset k slot s.liv.slots })) ∧
  (descOk d [(24, 2)] = true → pArg d 24 2 < 4096 →
    s.eng.table.any (fun x => x.2.state != .free && x.2.livery.map (·.toNat) == some (pArg d 24 2)) = false →
    exec (.liveryFree d) s = .next (
      if s.forme.state = .started then
        queued d 0 { cmdBegin d s with eng.pending := s.eng.pending ++ [⟨.liveryFree (pArg d 24 2), some d⟩] }
      else finish d stDone 0 { cmdBegin d s with liv.slots := kdel (pArg d 24 2) s.liv.slots }))

/-- LINK_STATE and LINK_RETRAIN (R201, R223, R225, R227, R422) of a fabric port. PARTITION_SET, ROUTE_TABLE_LOAD and
TIME_SYNC_ROLE (R242, R251, R252, R274, R422) where nothing forbids them. -/
def Obligations.FabricCommandsComplete : Prop :=
  (∀ (d : Descriptor) (s : State), descOk d [(24, 2)] = true → pArg d 24 1 ≤ 31 →
  let p := pArg d 24 1
  let t := pArg d 25 1
  (t = 0 → exec (.linkStateRead d) s = .next (linkReport d p (cmdBegin d s))) ∧
  (t = 1 → exec (.linkStateEnable d) s = .next (linkReport d p (setEnable p true (cmdBegin d s)))) ∧
  (t = 2 → s.portUsed p = false → exec (.linkStateDisable d) s = .next (linkReport d p (setEnable p false (cmdBegin d s)))) ∧
  (t = 2 → s.portUsed p = true → exec (.linkStateDisable d) s = .next (finish d stBusy 0 (cmdBegin d s))) ∧
  (t ≤ 15 → t % 4 ≠ 3 → t / 4 % 4 ≠ 3 → (s.port p).requestCmd = none →
    let target : RetrainReq := ⟨BitVec.ofNat 2 (t % 4), BitVec.ofNat 2 (t / 4 % 4)⟩
    let u := (cmdBegin d s).modPort p (fun q => { q with requestCmd := some d })
    let v := (cmdBegin d s).modPort p (fun q => { q with runCmds := q.runCmds ++ [d] })
    ((s.port p).state = .active → s.portUsed p = true → exec (.linkRetrain d) s =
      .next (queued d 0 (u.modPort p (fun q => { q with request := some target })))) ∧
    ((s.port p).state = .active → s.portUsed p = false → exec (.linkRetrain d) s = .next (startRetrain p target v)) ∧
    ((s.port p).state ≠ .active → (s.port p).state ≠ .down → exec (.linkRetrain d) s = .next (startRetrain p target v)) ∧
    ((s.port p).state = .down → exec (.linkRetrain d) s = .next (
      let b := beginTraining p u
      if (b.port p).state == .training then b else if (b.port p).tryWaits then queued d 0 b else linkCmdEnd p b)))) ∧
  (∀ (d : Descriptor) (blk : List Byte) (s : State),
  (let mask := pArg d 24 4
    let keys : Vector (BitVec 16) 4 := Vector.ofFn (fun i => BitVec.ofNat 16 (pArg d (28 + 2 * i.val) 2))
    descOk d [(24, 13)] = true → pArg d 36 1 ≤ 1 → dropsKey s mask keys = false →
    let t := (portsOf mask).foldl (fun s p => pendKeys p ⟨keys, pArg d 36 1 == 1⟩ s) (queued d 0 (cmdBegin d s))
    exec (.partitionSet d) s = .next (if mask = 0 then finish d stDone 0 t
      else { t with fab.partCmds := t.fab.partCmds ++ [(d, BitVec.ofNat 32 mask)] })) ∧
  (let first := pArg d 24 4
    let n := pArg d 28 4
    descOk d [(24, 8)] = true → hasBlock d = true → d.blockLength.toNat ≤ blk.length → s.forme.state ≠ .started →
    first + n ≤ 2 ^ 20 → d.blockLength.toNat = 16 * n → (∀ i, i < n → routeEntryOk (routeEntryOf blk i) = true) →
    exec (.routeTableLoad d blk) s = .next (finish d stDone
      (resAt 16 ((List.range n).filter (fun i => bitAt (routeEntryOf blk i) 88)).length)
      ((List.range n).foldl (fun s i => putRoute (first + i) (routeEntryOf blk i) s) (cmdBegin d s)))) ∧
  (let role := pArg d 24 1
    let port := pArg d 25 1
    let alt := pArg d 26 1
    let period := if pArg d 27 1 = 0 then 4 else pArg d 27 1
    let pps := pArg d 28 1
    descOk d [(24, 5)] = true → role ≤ 2 → port ≤ 31 → alt ≤ 31 → alt ≠ port → period ≤ 64 → pps ≤ 1 → (pps = 1 → role = 1) →
    let same := s.time.role.toNat == role && s.time.port.toNat == port && s.time.altPort.toNat == alt
    let t : State := { cmdBegin d s with
      time.role := BitVec.ofNat 2 role, time.port := BitVec.ofNat 5 port, time.altPort := BitVec.ofNat 5 alt
      time.period := BitVec.ofNat 8 period, time.ppsDiscipline := pps == 1 }
    exec (.timeSyncRole d) s = .next (finish d stDone 0
      (noticeChange (cmdBegin d s) (pickUpstream (if same then t else takeRole role t))))))

/-- A descriptor command with a reserved field that is not zero completes with BAD_PARAM (R8, R419). The forme and weight commands also
record the refusal in FORME_STATUS (R377): that its REASON is STRUCTURE for a reserved field of the descriptor, which R377 gives to the index and the
headers, is the model's choice, log entry 79. Beyond the completion and that record the command does nothing. -/
def Obligations.ReservedFieldsRefused : Prop := ∀ (d : Descriptor) (blk : List Byte) (sources : List (List Byte))
    (parts : FormeParts) (s : State),
  let bad := Host.Outcome.next (finish d stBadParam 0 (cmdBegin d s))
  let refused := Host.Outcome.next (formeRefuse d stBadParam frStructure (cmdBegin d s))
  (descOk d [] = false → exec (.nop d) s = bad ∧ exec (.identify d) s = bad ∧ exec (.getEdition d) s = bad ∧
    exec (.resetWarm d) s = bad ∧ exec (.fwStage d blk) s = bad ∧ exec (.fwHandover d) s = bad ∧ exec (.fwFlashWrite d) s = bad ∧
    exec (.fwVersion d) s = bad ∧ exec (.hazardRead d) s = bad ∧ exec (.formeStop d) s = refused ∧
    exec (.formeUnload d) s = refused ∧ exec (.weightsLoad d blk sources) s = refused ∧ exec (.weightsFree d) s = refused) ∧
  (descOk d [(24, 1)] = false → exec (.debugEnable d) s = bad ∧ exec (.breakClear d) s = bad ∧
    exec (.weightsBroadcast d blk sources) s = refused ∧ exec (.weightsDigestRead d) s = refused ∧
    exec (.weightsDigestSeal d blk) s = refused) ∧
  (descOk d [(24, 2)] = false → exec (.waybillCancel d) s = bad ∧ exec (.waybillStable d) s = bad ∧ exec (.waybillQuery d) s = bad ∧
    exec (.liveryFree d) s = bad ∧ exec (.linkStateRead d) s = bad ∧ exec (.linkStateEnable d) s = bad ∧
    exec (.linkStateDisable d) s = bad ∧ exec (.linkRetrain d) s = bad) ∧
  (descOk d [(24, 1), (32, 8)] = false → exec (.setOperatingPoint d) s = bad ∧ exec (.breakSet d) s = bad) ∧
  (descOk d [(24, 1), (25, 1)] = false → exec (.healthRead d) s = bad) ∧
  (descOk d [(24, 4)] = false → exec (.waybillOpen d blk) s = bad) ∧
  (descOk d [(24, 2), (28, 4)] = false → exec (.waybillAppend d blk) s = bad) ∧
  (descOk d [(24, 6), (32, 8), (40, 1)] = false → exec (.waybillResume d) s = bad) ∧
  (descOk d [(24, 2), (32, 32)] = false → exec (.liveryLoad d blk) s = bad) ∧
  (descOk d [(24, 13)] = false → exec (.partitionSet d) s = bad) ∧
  (descOk d [(24, 8)] = false → exec (.routeTableLoad d blk) s = bad) ∧
  (descOk d [(24, 5)] = false → exec (.timeSyncRole d) s = bad) ∧
  (descOk d [(24, 32)] = false → exec (.attest d) s = bad) ∧
  (descOk d [(24, 34)] = false → exec (.colophonSign d) s = bad) ∧
  (descOk d [(24, 8), (32, 1)] = false → exec (.formeImpose d blk) s = refused) ∧
  (descOk d [(24, 1), (32, 16)] = false → exec (.selfTest d) s = bad) ∧
  (descOk d [(24, 4), (28, 1)] = false → exec (.formeLoad d parts) s = refused) ∧
  (descOk d [(24, 8), (32, 4)] = false → exec (.formeStart d) s = refused)

/-- Issue of a press stream's instruction (R127, R136, R149): in a step, on a press that stands, of a running stream whose index
holds the word, out of debug mode and with a readable word, every instruction of the table below runs its own effect on the
state in which the issue has been counted; where the stream may not issue, nothing changes. -/
def Obligations.StreamInstructionsIssue : Prop := ∀ (i : Issue) (s : State), (s.streamOf i).mark = none →
  let w := i.word
  let begun : State := takeWord i s
  ∀ x ∈ ([(Instr.streamNop, wOp w == 0, nopAct), (.loop, wOp w == 2, loopAct), (.endStream, wOp w == 3, endAct),
      (.wload, wOp w == 0x10 && i.stream == .m, wloadAct), (.pass, wOp w == 0x11 && i.stream == .m, passAct),
      (.wadd, wOp w == 0x12 && i.stream == .m, waddAct), (.add, wOp w == 0x20 && i.stream == .v, addAct),
      (.mul, wOp w == 0x21 && i.stream == .v, mulAct), (.fma, wOp w == 0x22 && i.stream == .v, fmaAct),
      (.min, wOp w == 0x23 && i.stream == .v, minAct), (.max, wOp w == 0x24 && i.stream == .v, maxAct),
      (.cmp, wOp w == 0x25 && i.stream == .v, cmpAct), (.select, wOp w == 0x26 && i.stream == .v, selectAct),
      (.scale, wOp w == 0x27 && i.stream == .v, scaleAct), (.exponent, wOp w == 0x28 && i.stream == .v, exponentAct),
      (.mantissa, wOp w == 0x29 && i.stream == .v, mantissaAct), (.rcp, wOp w == 0x2A && i.stream == .v, rcpAct),
      (.rsqrt, wOp w == 0x2B && i.stream == .v, rsqrtAct), (.cvt, wOp w == 0x2C && i.stream == .v, cvtAct),
      (.rsum, wOp w == 0x2D && i.stream == .v, reduceAct), (.rmax, wOp w == 0x2E && i.stream == .v, reduceAct),
      (.rmin, wOp w == 0x2F && i.stream == .v, reduceAct), (.accCvt, wOp w == 0x30 && i.stream == .v, accCvtAct),
      (.load, wOp w == 0x40 && i.stream == .x, loadAct), (.store, wOp w == 0x41 && i.stream == .x, storeAct),
      (.move, wOp w == 0x42 && i.stream == .x && wFld w 0 1 == 0, moveAct),
      (.moveWide, wOp w == 0x42 && i.stream == .x && wFld w 0 1 == 1, moveWideAct),
      (.platRd, wOp w == 0x43 && i.stream == .x, platRdAct), (.platWr, wOp w == 0x44 && i.stream == .x, platWrAct),
      (.nearRd, wOp w == 0x45 && i.stream == .x, nearRdAct), (.nearWr, wOp w == 0x46 && i.stream == .x, nearWrAct),
      (.farRd, wOp w == 0x47 && i.stream == .x, farRdAct), (.farWr, wOp w == 0x48 && i.stream == .x, farWrAct)] :
      List ((Issue → Instr) × Bool × (Issue → State → Act))),
  (x.2.1 = true → mayIssue s i = true → s.dbg.enabled = false → i.fetch = .clean →
    exec (x.1 i) s = .next (settle i (x.2.2 i begun))) ∧
  (mayIssue s i = false → exec (x.1 i) s = .next s)

/-- NOP, MARK, LOOP and END (R26, R132 to R135): a NOP only goes on; a mark leaves its stream waiting at its value plus what the
loop's stride adds, until `streamRelease` lets it pass; LOOP opens a body at the next index; END ends the stream. The ends of
the waits (R69, R101), with no load or pass waiting beside the M stream: the instruction that its stream waits with, for a queue or
for an accumulator row, goes on where it stood; a stream that waits for nothing of the kind is left alone. -/
def Obligations.StreamControlCompletes : Prop :=
  (∀ (i : Issue) (s : State),
  (s.streamOf i).mark = none → mayIssue s i = true → s.dbg.enabled = false → i.fetch = .clean →
  let w := i.word
  let begun : State := takeWord i s
  (wOp w = 0 → exec (.streamNop i) s = .next (settle i (.done begun))) ∧
  (∀ v d, wordItem w = .mark v d → wOp w = 1 → wFld w 40 1 = 0 →
    exec (.departMark i) s = .next (streamRelease i.press.val i.stream (settle i (.done (begun.modStream i
      (fun st => { st with mark := some ⟨v + strideOf st.loop, d⟩, state := .markWait })))))) ∧
  (∀ v d, wordItem w = .mark v d → wOp w = 1 → wFld w 40 1 = 1 →
    exec (.dueMark i) s = .next (dueTest i.press.val i.stream (.stream i.press i.stream) (streamRelease i.press.val i.stream
      (settle i (.done (begun.modStream i (fun st => { st with mark := some ⟨v + strideOf st.loop, d⟩, state := .markWait }))))))) ∧
  (∀ b t st, wordItem w = .loop b t st → wOp w = 2 →
    exec (.loop i) s = .next (settle i (.done (begun.modStream i (fun x => { x with loop := some ⟨x.pc + 1, b, t, 0, st⟩ }))))) ∧
  (wOp w = 3 → exec (.endStream i) s = .next (settle i (.done (begun.modStream i (fun st => { st with state := .ended })))))) ∧
  (∀ (p : PressId) (id : StreamId) (i : Issue) (s : State), (s.press p.val).m.side = none →
  (((s.press p.val).stream id).waiting = some i → ((s.press p.val).stream id).state = .queueWait →
    ((s.press p.val).stream id).rowWait = false → s.tt.inStep = true → (s.press p.val).power = .stand →
    exec (.queueWaitEnd p id) s =
      .next (settle i (wordAct i.word i (s.modStream i (fun st => { st with state := .running }))))) ∧
  ((s.press p.val).m.waiting = some i → (s.press p.val).m.state = .queueWait → (s.press p.val).m.rowWait = true →
    s.tt.inStep = true → (s.press p.val).power = .stand →
    exec (.releaseWaitEnd p) s =
      .next (settle i (wordAct i.word i (s.modStream i (fun st => { st with state := .running }))))) ∧
  (((s.press p.val).stream id).waiting = none → exec (.queueWaitEnd p id) s = .next s) ∧
  ((s.press p.val).m.waiting = none → exec (.releaseWaitEnd p) s = .next s))

/-- One round of a vector operation (R101, R104 to R107, R111 to R119, R124): where every source has its entry and the
destination has room, an operation of one round reads its sources, pops what it pops at a round, records what its lanes met,
pushes the one entry that it forms, and pops what it pops at its end; then it retires. ACC_CVT of one row in FP32 (R70, R120,
R123): with a row waiting in its bank, its scales at hand and room for its result, the row's active cells are scaled, rounded
once and pushed, and the row is popped. -/
def Obligations.VectorOpsDeliver : Prop :=
  (∀ (i : Issue) (s : State), i.stream = .v →
  (s.streamOf i).mark = none → mayIssue s i = true → s.dbg.enabled = false → i.fetch = .clean →
  let w := i.word
  let f := vecFmt (wFormat w)
  let p := i.press.val
  let begun : State := takeWord i s
  let one := [srcA w]
  let two := [srcA w, srcB w]
  let three := [srcA w, srcB w, srcC w]
  let reduce : VecOp := ⟨if wFld w 28 1 = 1 then [srcA w, srcC w] else one, wCount w, tileActive w,
    fun r held es => reduceStep w (if wFld w 28 1 = 1 then [srcA w, srcC w] else one) r held es, false⟩
  let convert : VecOp := ⟨one, ceilDiv (wCount w) (cvtLanes (wFormat w)),
    fun r => min (cvtLanes (wFormat w)) (wCount w - r * cvtLanes (wFormat w)),
    fun r held es => cvtStep (wFormat w) (wFld w 27 4) (wCount w) r held (es.getD 0 0), true⟩
  ∀ x ∈ ([(Instr.add, 0x20, elementOp w two (laneAdd f)), (.mul, 0x21, elementOp w two (laneMul f)),
      (.fma, 0x22, elementOp w three (laneFma f)), (.min, 0x23, elementOp w two (laneMin f)),
      (.max, 0x24, elementOp w two (laneMax f)), (.cmp, 0x25, elementOp w two (laneCmp f (wFld w 27 3))),
      (.select, 0x26, elementOp w three (laneSelect f)),
      (.scale, 0x27, elementOp w two (laneScale f (signedOf 11 (wFld w 27 11)))),
      (.exponent, 0x28, elementOp w one (laneExponent f)), (.mantissa, 0x29, elementOp w one (laneMantissa f)),
      (.rcp, 0x2A, elementOp w one (laneRcp f)), (.rsqrt, 0x2B, elementOp w one (laneRsqrt f)), (.cvt, 0x2C, convert),
      (.rsum, 0x2D, reduce), (.rmax, 0x2E, reduce), (.rmin, 0x2F, reduce)] : List ((Issue → Instr) × Nat × VecOp)),
  let op := x.2.2
  let read := readAll i op.srcs 0 (op.active 0) 0 op.srcs begun
  let r := op.step 0 [] read.1
  let noted := ((eachQueues op.srcs).foldl (fun s q => popSrc p q s) read.2).modPress p (noteVec (op.periods r) r)
  wOp w = x.2.1 → op.rounds = 1 → (∀ v ∈ op.srcs, canRead begun p v.q (srcIndex op.srcs v 0) = true) →
  ∀ e, r.held = [] → r.outs = [e] → canPush (setProg i ⟨1, [], [e], 0⟩ noted) p (wDst w) = true →
  exec (x.1 i) s = .next (settle i (.done ((lastQueues op.srcs).foldl (fun s q => popSrc p q s)
    (pushBy i e (setProg i ⟨1, [], [], 0⟩ (setProg i ⟨1, [], [e], 0⟩ noted))))))) ∧
  (∀ (i : Issue) (s : State) (k : Nat) (row : AccRow), i.stream = .v → wOp i.word = 0x30 →
  (s.streamOf i).mark = none → mayIssue s i = true → s.dbg.enabled = false → i.fetch = .clean → i.read = .clean →
  let w := i.word
  let p := i.press.val
  let q := wSrcA w
  let begun : State := takeWord i s
  let srcs := accSrcs w
  let read := readAll i srcs 0 (min 256 (wCount w)) 1 (accScales w) begun
  let lanes := accRowLanes fp32 row (min 256 (wCount w)) (accScale w (read.1.getD 0 0))
  let flags := mergeFlags lanes
  let e := entryOfLanes 0 (lanes.map LaneRes.bits)
  let noted := ((eachQueues srcs).foldl (fun s q => popSrc p q s) read.2).modPress p
    (noteVec 1 ⟨[], [e], flags.1, flags.2.1, flags.2.2⟩)
  wFormat w = 0 → 1 ≤ wCount w → wCount w ≤ 256 → ((begun.press p).bank q).oldest = some (k, row) →
  (∀ v ∈ accScales w, canRead begun p v.q (srcIndex srcs v 0) = true) → canPush (setProg i ⟨1, [], [e], 0⟩ noted) p (wDst w) = true →
  exec (.accCvt i) s = .next (settle i (.done ((lastQueues srcs).foldl (fun s q => popSrc p q s)
    (pushBy i e (setProg i ⟨1, [], [], 0⟩ (setProg i ⟨1, [], [e], 0⟩ noted)))))))

/-- A lane's result (R108 to R115). A NaN operand of an arithmetic operation gives the format's canonical NaN; an exact number
that the format holds is encoded unchanged and overflows nothing. ADD, MUL and FMA of numbers deliver the exact sum, the exact product
and the product and sum, each rounded once; ∞ − ∞ and 0 × ∞ are invalid and give the canonical NaN. MIN and MAX deliver one
of their operands unchanged; a compare delivers a mask, and SELECT the bits of one operand. SCALE multiplies by 2 to the n = k +
trunc(b), clamped; EXPONENT and MANTISSA take a number apart, and SCALE puts it together again. RCP and RSQRT deliver the
table of special cases, and for another number the value rounded from a quotient or root of which every bit below the last
counts; the result that the format then takes of them in FP32 at the upper edge is log entry 20 (DEDUCED). -/
def Obligations.LaneRules : Prop := ∀ f ∈ [fp32, bf16, fp16], ∀ a b c : Nat,
  ((f.decode a).isNan = true ∨ (f.decode b).isNan = true →
    laneAdd f [a, b] = ⟨f.nan, true, false, false⟩ ∧ laneMul f [a, b] = ⟨f.nan, true, false, false⟩ ∧
    laneMin f [a, b] = ⟨f.nan, true, false, false⟩ ∧ laneMax f [a, b] = ⟨f.nan, true, false, false⟩ ∧
    laneFma f [a, b, c] = ⟨f.nan, true, false, false⟩) ∧
  ((f.decode c).isNan = true → (vMul (f.decode a) (f.decode b)).2 = false →
    laneFma f [a, b, c] = ⟨f.nan, true, false, false⟩) ∧
  ((laneMin f [a, b]).invalid = false ∧ (laneMax f [a, b]).invalid = false) ∧
  (∀ pred, (laneCmp f pred [a, b]).bits = 0 ∨ (laneCmp f pred [a, b]).bits = 2 ^ f.width - 1) ∧
  (laneSelect f [a, b, c]).bits = (if maskTrue f c then a else b) ∧
  -- an exact number that the format holds
  (∀ (neg : Bool) (m n : Nat) (e g : Int) (w : Nat), w < 2 ^ f.width → f.decode w = .fin neg n g →
    m * 2 ^ (e - min e g).toNat = n * 2 ^ (g - min e g).toNat → f.encode (.fin neg m e) = (w, false)) ∧
  -- ADD, MUL, FMA
  (∀ (sa sb sc : Bool) (ma mb mc : Nat) (ea eb ec : Int), f.decode a = .fin sa ma ea → f.decode b = .fin sb mb eb →
    (let q := min ea eb
     let x := signedAt sa ma ea q + signedAt sb mb eb q
     let r := f.encode (.fin (if x = 0 then sa && sb else decide (x < 0)) x.natAbs q)
     laneAdd f [a, b] = ⟨r.1, false, r.2, false⟩) ∧
    (let r := f.encode (.fin (sa != sb) (ma * mb) (ea + eb))
     laneMul f [a, b] = ⟨r.1, false, r.2, false⟩) ∧
    (f.decode c = .fin sc mc ec →
      let q := min (ea + eb) ec
      let x := signedAt (sa != sb) (ma * mb) (ea + eb) q + signedAt sc mc ec q
      let r := f.encode (.fin (if x = 0 then (sa != sb) && sc else decide (x < 0)) x.natAbs q)
      laneFma f [a, b, c] = ⟨r.1, false, r.2, false⟩)) ∧
  (∀ sa sb : Bool, f.decode a = .inf sa →
    (f.decode b = .inf sb → laneAdd f [a, b] = (if sa = sb then ⟨f.infinity sa, false, false, false⟩ else ⟨f.nan, false, false, true⟩) ∧
      laneMul f [a, b] = ⟨f.infinity (sa != sb), false, false, false⟩) ∧
    (∀ (m : Nat) (e : Int), f.decode b = .fin sb m e →
      laneAdd f [a, b] = ⟨f.infinity sa, false, false, false⟩ ∧ laneAdd f [b, a] = laneAdd f [a, b] ∧
      laneMul f [a, b] = (if m = 0 then ⟨f.nan, false, false, true⟩ else ⟨f.infinity (sa != sb), false, false, false⟩) ∧
      laneMul f [b, a] = laneMul f [a, b])) ∧
  -- MIN, MAX
  (a < 2 ^ f.width → b < 2 ^ f.width → (f.decode a).isNan = false → (f.decode b).isNan = false →
    laneMin f [a, b] = ⟨if vLt true (f.decode b) (f.decode a) then b else a, false, false, false⟩ ∧
    laneMax f [a, b] = ⟨if vLt true (f.decode a) (f.decode b) then b else a, false, false, false⟩) ∧
  -- SCALE
  (∀ k : Int, -1024 ≤ k → k ≤ 1023 →
    ((f.decode b).isNan = true → (laneScale f k [a, b]).bits = f.nan ∧ (laneScale f k [a, b]).invalid = true) ∧
    (a < 2 ^ f.width → (f.decode b).isNan = false → (∀ neg m e, f.decode a = .fin neg m e → m = 0) → (f.decode a).isNan = false →
      laneScale f k [a, b] = ⟨a, false, false, false⟩) ∧
    (∀ (sa sb : Bool) (ma mb : Nat) (ea eb : Int), f.decode a = .fin sa ma ea → ma ≠ 0 →
      (f.decode b = .fin sb mb eb →
        let t : Int := (if 0 ≤ eb then mb * 2 ^ eb.toNat else mb / 2 ^ (-eb).toNat : Nat)
        let r := f.encode (.fin sa ma (ea + max (-2048) (min 2047 (k + if sb then -t else t))))
        laneScale f k [a, b] = ⟨r.1, false, r.2, false⟩) ∧
      (f.decode b = .inf sb →
        let r := f.encode (.fin sa ma (ea + max (-2048) (min 2047 (k + if sb then -2047 else 2047))))
        laneScale f k [a, b] = ⟨r.1, false, r.2, false⟩))) ∧
  -- EXPONENT, MANTISSA
  (∀ (neg : Bool) (m k : Nat) (e : Int), f.decode a = .fin neg m e → 2 ^ k ≤ m → m < 2 ^ (k + 1) →
    laneExponent f [a] = ⟨(f.encode (.fin (decide (k + e < 0)) (k + e).natAbs 0)).1, false, false, false⟩ ∧
    laneMantissa f [a] = ⟨(f.encode (.fin neg m (-(k : Int)))).1, false, false, false⟩) ∧
  (∀ neg : Bool,
    (∀ e : Int, f.decode a = .fin neg 0 e → a < 2 ^ f.width →
      laneExponent f [a] = ⟨f.infinity true, false, false, false⟩ ∧ laneMantissa f [a] = ⟨a, false, false, false⟩) ∧
    (f.decode a = .inf neg →
      laneExponent f [a] = ⟨f.infinity false, false, false, false⟩ ∧ laneMantissa f [a] = ⟨f.nan, false, false, true⟩)) ∧
  ((f.decode a).isNan = true → laneExponent f [a] = ⟨f.nan, true, false, false⟩ ∧ laneMantissa f [a] = ⟨f.nan, true, false, false⟩) ∧
  (∀ neg m e, f.decode a = .fin neg m e → a < 2 ^ f.width →
    (laneScale f 0 [(laneMantissa f [a]).bits, (laneExponent f [a]).bits]).bits = a) ∧
  -- RCP, RSQRT
  ((f.decode a).isNan = true → laneRcp f [a] = ⟨f.nan, true, false, false⟩ ∧ laneRsqrt f [a] = ⟨f.nan, true, false, false⟩) ∧
  (∀ neg : Bool,
    (f.decode a = .inf neg → laneRcp f [a] = ⟨(f.encode (.fin neg 0 0)).1, false, false, false⟩ ∧
      laneRsqrt f [a] = (if neg then ⟨f.nan, false, false, true⟩ else ⟨0, false, false, false⟩)) ∧
    (∀ e : Int, f.decode a = .fin neg 0 e →
      laneRcp f [a] = ⟨f.infinity neg, false, false, false⟩ ∧ laneRsqrt f [a] = ⟨f.infinity neg, false, false, false⟩) ∧
    (∀ (m : Nat) (e : Int), f.decode a = .fin neg m e → m ≠ 0 →
      (∃ (r : Nat) (x : Int), laneRcp f [a] = (let y := encodeEst f neg r (x - e); ⟨y.1, false, y.2, false⟩) ∧
        2 ^ 64 ≤ r ∧ (if m * r = 2 ^ (-x).toNat then r % 2 = 0 else
          r % 2 = 1 ∧ m * (r - 1) < 2 ^ (-x).toNat ∧ 2 ^ (-x).toNat < m * (r + 1))) ∧
      (neg = true → laneRsqrt f [a] = ⟨f.nan, false, false, true⟩) ∧
      (neg = false → ∃ (n r : Nat) (g x : Int), laneRsqrt f [a] = (let y := encodeEst f false r (x - g); ⟨y.1, false, y.2, false⟩) ∧
        (n = m ∧ e = 2 * g ∨ n = 2 * m ∧ e = 2 * g + 1) ∧
        2 ^ 64 ≤ r ∧ (if n * (r * r) = 2 ^ (-2 * x).toNat then r % 2 = 0 else
          r % 2 = 1 ∧ n * ((r - 1) * (r - 1)) < 2 ^ (-2 * x).toNat ∧ 2 ^ (-2 * x).toNat < n * ((r + 1) * (r + 1)))))) ∧
  laneRcp fp32 [0x40400000] = ⟨0x3EAAB000, false, false, false⟩

/-- A number of FP32, BF16 or FP16 that is not a NaN is encoded as it was decoded, and nothing overflows (R108): decoding drops
no bit of it. -/
def Obligations.FormatsRoundTrip : Prop := ∀ f ∈ [fp32, bf16, fp16], ∀ w < 2 ^ f.width,
  (f.decode w).isNan = false → f.encode (f.decode w) = (w, false)

/-- The matrix instructions where nothing waits (R67 to R92, R137 to R139): a WLOAD whose elements are one entry and which has
no scales loads its plane; a PASS of one row adds one wave to it; a WADD of one row adds three wide entries to it. -/
def Obligations.MatrixInstructionsComplete : Prop := ∀ (i : Issue) (s : State), i.stream = .m →
  (s.streamOf i).mark = none → mayIssue s i = true → s.dbg.enabled = false → i.fetch = .clean →
  let w := i.word
  let p := i.press.val
  let begun := takeWord i s
  (wOp w = 0x10 → elemEntries (wFormat w) (wPaired w) (wCount w) = 1 → scaleEntries (wFormat w) (wPaired w) (wCount w) = 0 →
    canRead begun p 50 0 = true →
    let read := readPool i 0 50 0 begun
    let pl : Plane := ⟨wFormat w, wPaired w, wCount w, [read.1], []⟩
    exec (.wload i) s = .next (settle i (.done ((setProg i ⟨0, [read.1], [], 0⟩ (popHead p 50 read.2)).modPress p (fun x =>
      if wFld w 0 1 = 0 then { x with plane0 := some pl } else { x with plane1 := some pl }))))) ∧
  (let ready := begun.modPress p (fun x => { x with activePlane := BitVec.ofNat 2 (wFld w 8 1) });
    wOp w = 0x11 → wCount w = 1 → (∀ r, kget ((ready.press p).bank (wDst w)).rows (wFld w 0 8) = some r → r.tag ≠ .released) →
    canRead ready p 51 0 = true →
    let read := readPool i 256 51 0 ready
    exec (.pass i) s =
      .next (settle i (.done (setProg i ⟨1, [], [], 0⟩ (passWave i 0 read.1 (waveParity i 0 (popHead p 51 read.2))))))) ∧
  (let q := wDst w
    let row := wFld w 0 8
    let src := wSrcA w
    let part (k : Nat) (s : State) : State :=
      let read := readPool i k src 0 s
      let base := (kget ((s.press p).bank q).rows row).getD (freshRow (wideWindow read.1))
      let total := wideAdd read.1 base
      let mism := base.window != wideWindow read.1
      let t := (popHead p src read.2).modPress p (fun x =>
        putRow q row total.1 (wFld w 8 1 = 1 && k == 2) (noteRow total.2.1 total.2.2 mism { x with periods := x.periods + 1 }))
      setProg i ⟨k + 1, [], [], 0⟩ (if mism then rowHazard i 3 q row 0 t else t)
    wOp w = 0x12 → wCount w = 1 → i.read = .clean →
    (∀ t ∈ [begun, part 0 begun, part 1 (part 0 begun)], canRead t p src 0 = true ∧
      ∀ r, kget ((t.press p).bank q).rows row = some r → r.tag ≠ .released) →
    exec (.wadd i) s = .next (settle i (.done (part 2 (part 1 (part 0 begun))))))

/-- The moves of one entry where nothing waits (R87, R101, R142 to R144, R165, R167): LOAD and PLAT_RD bring an entry of the
press store into a queue; STORE and PLAT_WR put the head of a queue into the press store, at the address that their fields,
their trip and their platform's side give; MOVE passes an entry from queue to queue; MOVE with WIDE sends a row as three wide
entries and pops it. -/
def Obligations.MovesComplete : Prop := ∀ (i : Issue) (s : State), i.stream = .x → wCount i.word = 1 →
  (s.streamOf i).mark = none → mayIssue s i = true → s.dbg.enabled = false → i.fetch = .clean →
  let w := i.word
  let p := i.press.val
  let begun := takeWord i s
  (∀ x ∈ ([(Instr.load, 0x40, storeAddr i), (.platRd, 0x43, platAddr i false)] : List ((Issue → Instr) × Nat × (Nat → State → Nat))),
    wOp w = x.2.1 → canPush begun p (wDst w) = true →
    let read := readStore i 0 (x.2.2 0 begun) (touchX i (x.2.2 0 begun) false begun)
    exec (x.1 i) s = .next (settle i (.done (pushBy i read.1 (setProg i ⟨1, [], [], 0⟩ read.2))))) ∧
  (∀ x ∈ ([(Instr.store, 0x41, storeAddr i), (.platWr, 0x44, platAddr i true)] : List ((Issue → Instr) × Nat × (Nat → State → Nat))),
    wOp w = x.2.1 → canRead begun p (wSrcA w) 0 = true →
    let a := x.2.2 0 begun
    let read := readPool i 0 (wSrcA w) 0 begun
    let t := (touchX i a true (popHead p (wSrcA w) read.2)).modPress p (fun y => { y with store := memPutEntry y.store a read.1 })
    exec (x.1 i) s = .next (settle i (.done (setProg i ⟨1, [], [], 0⟩ t)))) ∧
  (wOp w = 0x42 → wFld w 0 1 = 0 → canRead begun p (wSrcA w) 0 = true →
    let read := readPool i 0 (wSrcA w) 0 begun
    let t := setProg i ⟨1, [], [read.1], 0⟩ (if wFld w 1 1 = 1 then read.2 else popHead p (wSrcA w) read.2)
    canPush t p (wDst w) = true →
    exec (.move i) s = .next (settle i (.done (pushBy i read.1 (setProg i ⟨1, [], [], 0⟩ t))))) ∧
  (∀ k row, wOp w = 0x42 → wFld w 0 1 = 1 → i.read = .clean →
    let q := wSrcA w
    let part (n : Nat) (s : State) : State := setProg i ⟨n + 1, [], [], n + 1⟩ (pushBy i (wideEntry k n row) s)
    let last (s : State) : State := setProg i ⟨3, [], [], 3⟩ (popSrc p q (pushBy i (wideEntry k 2 row) s))
    (∀ t ∈ [begun, part 0 begun, part 1 (part 0 begun)],
      ((t.press p).bank q).oldest = some (k, row) ∧ canPush t p (wDst w) = true) →
    exec (.moveWide i) s = .next (settle i (.done (last (part 1 (part 0 begun))))))

/-- The requests (R145, R146, R174, R176, R191): a direct NEAR_RD or FAR_RD issues its portions at once, of COUNT entries from
its first address; a direct write of one entry takes its data from its queue first. No direct request is voided or refused. -/
def Obligations.RequestsComplete : Prop := ∀ (i : Issue) (s : State), i.stream = .x → reqIndirect i.word = false →
  (s.streamOf i).mark = none → mayIssue s i = true → s.dbg.enabled = false → i.fetch = .clean →
  let w := i.word
  let p := i.press.val
  let begun := takeWord i s
  (∀ x ∈ ([(Instr.nearRd, 0x45, false), (.farRd, 0x47, true)] : List ((Issue → Instr) × Nat × Bool)), wOp w = x.2.1 →
    exec (x.1 i) s = .next (settle i (.done (sendRequest i.press false x.2.2 ((List.range (wCount w)).map (fun (j : Nat) =>
      ((s.region x.2.2).1 + (reqBase i begun + j).toNat, 0, true))) begun)))) ∧
  (∀ x ∈ ([(Instr.nearWr, 0x46, false), (.farWr, 0x48, true)] : List ((Issue → Instr) × Nat × Bool)), wOp w = x.2.1 →
    wCount w = 1 → canRead begun p (wSrcA w) 0 = true →
    let read := readPool i 0 (wSrcA w) 0 begun
    let t := setProg i ⟨0, [read.1], [], 0⟩ (popHead p (wSrcA w) read.2)
    exec (x.1 i) s = .next (settle i (.done (sendRequest i.press true x.2.2
      [((t.region x.2.2).1 + (reqBase i t).toNat, read.1, true)] t))))

/-- The sequencer of a near channel (R26, R134, R174 to R179, R384): a press slot serves its portion once that has arrived, and
waits for it otherwise; HOST and FIRMWARE slots serve up to ENTRIES pending accesses, and the gap between steps, where it serves
the channel, all that wait; a mark, a loop and END move the walk. The stream of a far port, which the gap serves too, and the port
itself (R41, R190, R192, R194). -/
def Obligations.MemoryUnitsComplete : Prop :=
  (∀ (c : SeqId) (res : List NearAccess) (s : State) (r : BitVec 64),
  let k := c.val
  let go := seqGo k s
  (∀ q rest, seqRecord k go = some (0, r.toNat) → fld r.toNat 58 2 = 0 → go.chanFree k = true →
    takeFirst (fun q => q.slot == fld r.toNat 51 7) (go.chan k).arrived = some (q, rest) →
    exec (.seqSlotPress c res) s = .next (seqPass k (seqEntries k q (q.addrs.zip q.perform) q.data res
      (go.modChan k (fun x => { x with arrived := rest }))))) ∧
  (seqRecord k go = some (0, r.toNat) → fld r.toNat 58 2 = 0 → go.chanFree k = true →
    takeFirst (fun q => q.slot == fld r.toNat 51 7) (go.chan k).arrived = none →
    exec (.seqSlotPress c res) s = .next (go.modChan k (fun x =>
      { x with walk := { x.walk with busy := true }, slot := BitVec.ofNat 16 x.walk.idx }))) ∧
  (∀ (slot : BitVec 7) q rest, takeFirst (fun q => q.slot == slot.toNat) (s.chan k).coming = some (q, rest) →
    exec (.portionArrival c slot) s = .next (s.modChan k (fun x => { x with coming := rest, arrived := x.arrived ++ [q] }))) ∧
  (s.tt.inStep = true → seqRecord k go = some (0, r.toNat) → fld r.toNat 58 2 = 1 → go.chanFree k = true →
    exec (.seqSlotHost c res) s = .next (companionGo (seqPass k (serveHosts (fld r.toNat 38 12 + 1) k res go)))) ∧
  (s.tt.inStep = true → seqRecord k go = some (0, r.toNat) → fld r.toNat 58 2 = 2 → go.chanFree k = true →
    exec (.seqSlotFirmware c res) s = .next (sendMirror (seqPass k (serveFirmware (fld r.toNat 38 12 + 1) k res go)))) ∧
  (s.tt.inStep = false → s.gapServes k = true →
    exec (.seqSlotHost c res) s = .next (companionGo (serveHosts ((s.chan k).host.length + s.kcl.reqs.length) k res s)) ∧
    exec (.seqSlotFirmware c res) s = .next (sendMirror (serveFirmware (s.boxWork k) k res s))) ∧
  (seqRecord k go = some (1, r.toNat) → exec (.seqMark c) s = .next (seqGo k (go.modChan k (fun x =>
    { x with walk := walkMark (fld r.toNat 0 40) none x.walk, slot := BitVec.ofNat 16 x.walk.idx })))) ∧
  (seqRecord k go = some (2, r.toNat) → exec (.seqLoop c) s = .next (go.modChan k (fun x =>
    { x with walk := walkLoop (fld r.toNat 0 12 + 1) (fld r.toNat 12 16 + 1) (fld r.toNat 28 28) x.walk
             slot := BitVec.ofNat 16 x.walk.idx }))) ∧
  (seqRecord k go = some (3, r.toNat) → exec (.seqEnd c) s = .next (go.modChan k (fun x =>
    { x with walk := { x.walk with ended := true }, slot := BitVec.ofNat 16 x.walk.idx })))) ∧
  (∀ (f : FarId) (res : List FarAccess) (s : State) (r : BitVec 64),
  let k := f.val
  let go := farGo k s
  (∀ q rest, (s.farPort k).ready = true → s.tt.inStep = true → farRecord k go = some (0, r.toNat) → fld r.toNat 58 2 = 0 →
    takeFirst (fun q => q.slot == fld r.toNat 51 7) (go.farPort k).coming = some (q, rest) →
    exec (.farStreamSlot f res) s = .next (farPass k (farEntries k q (q.addrs.zip q.perform) q.data res
      (go.modFar k (fun x => { x with coming := rest }))))) ∧
  ((s.farPort k).ready = true → s.tt.inStep = true → farRecord k go = some (0, r.toNat) → fld r.toNat 58 2 = 0 →
    takeFirst (fun q => q.slot == fld r.toNat 51 7) (go.farPort k).coming = none →
    exec (.farStreamSlot f res) s = .next (go.modFar k (fun x => { x with walk := { x.walk with busy := true } }))) ∧
  ((s.farPort k).ready = true → s.tt.inStep = true → farRecord k go = some (0, r.toNat) → fld r.toNat 58 2 ≠ 0 →
    exec (.farStreamSlot f res) s = .next (settleMirror (farPass k (serveFar (fld r.toNat 38 12 + 1) k res go)))) ∧
  ((s.farPort k).ready = true → s.tt.inStep = false → s.gapOpen = true →
    exec (.farStreamSlot f res) s = .next (settleMirror (serveFar ((s.farPort k).box.length + s.mirror.moves.length) k res s))) ∧
  ((s.farPort k).ready = false → exec (.farStreamSlot f res) s = .next s) ∧
  (farRecord k go = some (1, r.toNat) → exec (.farStreamMark f) s =
    .next (farGo k (go.modFar k (fun x => { x with walk := walkMark (fld r.toNat 0 40) none x.walk })))) ∧
  (farRecord k go = some (2, r.toNat) → exec (.farStreamLoop f) s = .next (go.modFar k (fun x =>
    { x with walk := walkLoop (fld r.toNat 0 12 + 1) (fld r.toNat 12 16 + 1) (fld r.toNat 28 28) x.walk }))) ∧
  (farRecord k go = some (3, r.toNat) → exec (.farStreamEnd f) s =
    .next (go.modFar k (fun x => { x with walk := { x.walk with ended := true } }))) ∧
  exec (.cxlCompletionTimeout f) s = .next (farDown k s) ∧
  exec (.cxlLinkDown f) s = .next ((farDown k s).modFar k (fun x => { x with down := true, width := 0 })) ∧
  exec (.cxlWriteCompletion f) s = .next (s.modFar k (fun x => { x with writes := x.writes - 1 })) ∧
  (∀ (width speed : BitVec 8) (capacity : BitVec 16), s.power.readyBox.getLsbD 3 = true → s.clk.enMisc.getLsbD k = true →
    (s.farPort k).ready = false → exec (.farPortReady f width speed capacity) s = .next (s.modFar k (fun x =>
      { x with ready := true, down := false, width := width, speed := speed, capacity := capacity }))))

/-- The despatcher of a port (R28, R50, R220, R228, R243 to R245): it takes a slot with its ENTRIES, releases the slot's next
packet when that is present with its credits and replay room, discards one of a port that is not READY with a step fault, and
follows its marks. A landing entry reaches its press (R28, R50, R172, R173): a platform write lands; a FIN entry goes to the landing
buffer; a stray one, or one for a place that a zero entry of run-out has taken, is discarded and counted; and one with no room
stops its lane. -/
def Obligations.DespatcherCommandsComplete : Prop :=
  (∀ (p : PortId) (s : State) (r : BitVec 64),
  let k := p.val
  let go := despGo k s
  let q := s.port k
  (despRecord k go = some (0, r.toNat) → (go.port k).walk.busy = false →
    let taken := go.modPort k (fun q =>
      { q with flow := BitVec.ofNat 16 (fld r.toNat 44 16), record := BitVec.ofNat 15 q.walk.idx, desp := .running
               walk := { q.walk with busy := true, left := fld r.toNat 32 12 + 1 } })
    exec (.pointsSlot p) s = .next (if taken.tt.runout && !despPresent k taken then taken.modPort k despSkip else taken)) ∧
  (∀ o rest, walkFree s q.walk = true → q.walk.busy = true → takeFirst (isNext s q) q.txData = some (o, rest) →
    (q.ready = false → exec (.packetRelease p) s = .next (stepFault fcDiscard (128 + k) (viaSent o
      (s.modPort k (fun q => despCount { q with txData := rest, framesLost := satInc q.framesLost }))))) ∧
    (q.ready = true → releaseRoom k o.packet q = true → exec (.packetRelease p) s = .next (s.modPort k (fun q => despCount
      { q with txData := rest.filter (fun x => x.released) ++ [{ o with released := true }]
        ++ rest.filter (fun x => !x.released) }))) ∧
    (q.ready = true → releaseRoom k o.packet q = false →
      exec (.packetRelease p) s = .next (s.modPort k (fun q => { q with desp := .waitCredit })))) ∧
  (walkFree s q.walk = true → q.walk.busy = true → takeFirst (isNext s q) q.txData = none → exec (.packetRelease p) s = .next
    (if s.tt.runout then s.modPort k despSkip else s.modPort k (fun q => { q with desp := .waitPacket }))) ∧
  (despRecord k go = some (1, r.toNat) → exec (.pointsMark p) s = .next (despGo k (go.modPort k (fun q => { q with
    walk := walkMark (fld r.toNat 0 40) none q.walk, record := BitVec.ofNat 15 q.walk.idx, desp := .markWait })))) ∧
  (despRecord k go = some (2, r.toNat) → exec (.pointsLoop p) s = .next (go.modPort k (fun q =>
    { q with walk := walkLoop (fld r.toNat 0 12 + 1) (fld r.toNat 12 16 + 1) (fld r.toNat 28 28) q.walk
             record := BitVec.ofNat 15 q.walk.idx }))) ∧
  (despRecord k go = some (3, r.toNat) → exec (.pointsEnd p) s = .next (go.modPort k (fun q => { q with
    walk := { q.walk with ended := true }, record := BitVec.ofNat 15 q.walk.idx, desp := .ended })))) ∧
  (∀ (p : PressId) (source : LandingCase) (s : State) (a : Arrival),
  let k := p.val
  let pr := s.press k
  let mine (a : Arrival) : Bool := a.press == p && a.source == source.source.toNat
  s.conc.find? mine = some a →
  (a.landing.kind = 1 → exec (.landingArrival p source) s = .next (concTake mine (landPlatform k a.landing a.data s))) ∧
  (a.landing.kind ≠ 1 → ∀ x rest, takeFirst (fun x => x.1 == a.source) pr.owed = some (x, rest) →
    exec (.landingArrival p source) s =
      .next (landStray k (concTake mine (s.modPress k (fun x => { x with owed := rest }))))) ∧
  (a.landing.kind ≠ 1 → takeFirst (fun x => x.1 == a.source) pr.owed = none →
    let covered := sumOf ((pr.landRecords.filter (fun x => x.1 == a.source)).map (·.2))
    let held := (pr.landBuf.filter (fun x => x.1 == a.source)).length
    let u := landRead k (s.modPress k (fun x => { x with landEcc := source.list }))
    (covered ≤ held → exec (.landingArrival p source) s = .next (stepFault fcDiscard k (landStray k (concTake mine s)))) ∧
    (held < covered → ∀ t, landFin a.source a.data k u = some t → exec (.landingArrival p source) s = .next (concTake mine t)) ∧
    (held < covered → landFin a.source a.data k u = none → exec (.landingArrival p source) s = .next (laneStop a.source k u))))

/-- The sampler's mark list (R26, R134, R328, R329): ROWS takes its rows; a mark leaves the walk at its value; a DUE mark that is not
met at its test count raises the sampler's hold. -/
def Obligations.SamplerCommandsComplete : Prop := ∀ (s : State) (r : BitVec 64) (plan : SamplerPlan),
  let go := smpGo s
  (smpRecord go = some (0, r.toNat) → go.samplerPlan = some plan → go.smp.stopped = false →
    let t := if go.smp.walk.busy then go else { go with smp.walk := { go.smp.walk with busy := true, left := fld r.toNat 0 13 + 1 } }
    exec .samplerRows s = .next (smpRows (fld r.toNat 0 13 + 2) plan t)) ∧
  (smpRecord go = some (1, r.toNat) → bitAt r.toNat 40 = true →
    let t := smpMark (fld r.toNat 0 40) (some (54, 0, 0)) go
    (t.smp.walk.mark = none → exec .samplerDueMark s = .next t) ∧
    (∀ m, t.smp.walk.mark = some m → exec .samplerDueMark s = .next (
      if decide (m.value ≤ t.tt.tt.toNat) && !t.smpDueMet && !t.holdsOpen .sampler (fun _ => true) then
        raiseHold .sampler .envelope .due (m.value + 32) t
      else t))) ∧
  (smpRecord go = some (1, r.toNat) → bitAt r.toNat 40 = false →
    exec .samplerDepartMark s = .next (smpMark (fld r.toNat 0 40) none go)) ∧
  (smpRecord go = some (2, r.toNat) → exec .samplerLoop s = .next { go with
    smp.walk := walkLoop (fld r.toNat 0 12 + 1) (fld r.toNat 12 16 + 1) (fld r.toNat 28 28) go.smp.walk }) ∧
  (smpRecord go = some (3, r.toNat) → exec .samplerEnd s = .next { go with smp.walk := { go.smp.walk with ended := true } })

/-- LAUNCH (R24, R54): where a launch is announced, its time has come and the chip may launch, TT starts at 0 in the announced
step and attempt, the step's holds and fault are clear, and lateness is counted and added to the slip; the units then start.
Where it may not, nothing changes. PROGRAM_COPY (R148, R154, R288): with a launch announced, the chip drained, no brake standing
and no change of point to wait for, every press slot's image of the launch's variant is copied into its press's instruction memories. -/
def Obligations.LaunchCompletes : Prop :=
  (∀ (s : State),
  (s.tt.nextLaunch = none → exec .launch s = .next s) ∧
  (∀ l, s.tt.nextLaunch = some l → mayLaunch s = false → exec .launch s = .next s) ∧
  (∀ l f, s.tt.nextLaunch = some l → mayLaunch s = true → s.forme.forme = some f →
    let late := s.now - l.toNat
    let c := countWaits s
    let t : State := { c with
      tt.inStep := true, tt.draining := false, tt.drained := false, tt.runout := false, tt.runoutAt := 0, tt.tt := 0
      tt.step := c.tt.nextStep, tt.attempt := c.tt.nextAttempt, tt.holds := [], tt.launched := c.time.ns, tt.nextLaunch := none
      tt.late := if late = 0 then c.tt.late else c.tt.late + 1, tt.slip := BitVec.ofNat 32 (satNat 32 late)
      tt.fault := 0, tt.faultAt := 0, tt.stepHoldNs := 0, tt.causeNs := .replicate 9 0, tt.copied := false
      tt.endCount := f.tt.endCount.getD s.power.point.toNat 0, tt.variant := c.power.point, tt.drainAt := 0
      health.fault.more := false, health.fault.tt := 0, barrier.stopped := false }
    let u := launchUnits (stopTraining t)
    exec .launch s = .next (pointLaunched (startDone (deliverHeld { u with eng.voidRows := launchVoids u }))))) ∧
  (∀ (s : State) (part : VariantPart),
  s.tt.inStep = false → s.tt.nextLaunch.isSome = true → s.tt.copied = false → s.power.braking = false →
  copyWaits s = false →
  let v := launchPoint s
  s.variantPart v = some part →
  let t := (s.slots.mapIdx (fun k p => (k, p))).foldl (fun (s : State) (x : Nat × Nat) => match part.programs[x.1]? with
    | some g => s.drawReads.2.modPress x.2 (copyProgram v g s.drawReads.1)
    | none => s) s
  exec .programCopy s = .next { t with tt.copied := true })

/-- Holds (R30 to R35, R41, R185): a unit that is not ready at the test count of its mark raises its hold of the cause that it
has; a release gives a hold its resume time; at the resume time the hold is gone; a service of a signal box intrudes. The end of
a step (R41, R42, R247, R329): at the end count with no hold outstanding and every unit ended the chip drains; drain completes
when nothing of the step remains; where it lasts longer than the limit, DRAIN is recorded and what remains is discarded. -/
def Obligations.HoldCommandsComplete : Prop :=
  (∀ (u : UnitId) (c : Cause) (b : BoxId) (s : State),
  (let t := skipAbsent u (unitGo u s);
    let mark := unitMark t u
    let test := testCount mark.1 mark.2
    let absent := mark.2.isSome && !itemPresent t u
    let raised := raiseHold u (lateCause u mark.2 absent) (if absent then .due else .readiness) (test + 32) t
    t.tt.inStep = true → t.tt.draining = false → followsMarks t u = true → test ≤ t.tt.tt.toNat →
    (workDone t u = false ∨ absent = true) → t.holdsOpen u (fun _ => true) = false →
    exec (.readinessTest u) s = .next (match u with
      | .despatcher p => raised.modPort p.val (fun q => { q with holds := q.holds + 1 })
      | _ => raised)) ∧
  (let t := skipAbsent u s;
    exec (.holdRelease u c) s = .next (releaseHolds (fun h => h.unit == u && h.cause == c && holdOver t h) t)) ∧
  (let ended (h : Hold) : Bool := h.unit == u && h.cause == c && !h.live s.now;
    let gone := s.tt.holds.filter ended
    let t : State := { s with tt.holds := s.tt.holds.filter (fun h => !ended h) }
    exec (.holdResume u c) s = .next (match u with
      | .despatcher p => t.modPort p.val (fun q =>
          { q with slipNs := wrapAdd q.slipNs (sumOf (gone.map (fun h => (h.resume.getD h.raised) - h.raised))) })
      | _ => unitGo u t)) ∧
  (s.holdsOpen (.box b) (fun _ => true) = false →
    exec (.firmwareServiceIntrusion b) s = .next (intrude (.box b) .firmware s))) ∧
  (∀ (s : State),
  (s.tt.inStep = true → s.tt.draining = false → s.tt.endCount ≤ s.tt.tt.toNat → s.liveHolds = [] → unitsEnded s = true →
    exec .endCountReached s = .next (smpRelease { s with tt.draining := true, tt.drainAt := s.now, tt.holds := [] })) ∧
  (s.tt.inStep = true → s.tt.draining = true → drainOver s = true → exec .drainComplete s = .next (drained (discardStray true s))) ∧
  (s.tt.inStep = false ∨ drainOver s = false → exec .drainComplete s = .next s) ∧
  (∀ f, s.forme.forme = some f → s.tt.inStep = true → s.tt.draining = true →
    s.tt.drainAt + 1000 * orDefault f.tt.drainLimit 100 ≤ s.now →
    let t := stepFault fcDrain 0xFF s
    let t := t.slots.foldl (fun s p => s.modPress p (fun q =>
      { q with queues := q.queues.map (fun x => { x with entries := [] }), outHold := [], foutEcc := [], sampEcc := [], foutStop := false
               landBuf := [], landing := none, landLeft := 0, owed := [], bankA := Bank.reset, bankB := Bank.reset })) t
    exec .drainLimitExpiry s = .next (drained (discardStray false { t with
      conc := [], near.channels := t.near.channels.map (fun c => { c with coming := [], arrived := [] })
      far.ports := t.far.ports.map (fun x => { x with coming := [], writes := 0 }) }))))

/-- The plan watchdog (R50, R246): a DUE hold, or one of a despatcher, that outlasts it is a WATCHDOG fault and starts run-out;
in run-out a readiness hold that outlasts it ends, a box's service among them (R35), and its unit abandons its work. Reports and the start (R45, R47, R387): a child's READY
or report is held and the chip's own goes up when its subtree is whole; at the start count this chip is ready. The barrier's
timeouts (R47, R56, R379, R381): the root that lacks reports, or READY at a first launch, decides STOP with MISSING_REPORT; a
chip that has reported and hears nothing posts BARRIER_SILENT and stops, where the root's cause that its event names is a free
value (log entry 56). -/
def Obligations.BarrierCommandsComplete : Prop :=
  (∀ (u : UnitId) (s : State) (h : Hold),
  s.tt.holds.find? (fun h => h.unit == u && h.resume.isNone && (h.kind != .intrusion || isBox u)) = some h →
  s.tt.inStep = true → s.tt.draining = false →
  (s.tt.runout = false → (h.kind = .due ∨ isDespatcher u = true) → h.raised + planWatchdog s < s.now →
    let t := skipAbsent u (stepFault fcWatchdog (unitFault u) s)
    exec (.planWatchdogExpiry u) s = .next (releaseHolds (fun x => x == h && holdOver t x) t)) ∧
  (s.tt.runout = true → max h.raised s.tt.runoutAt + planWatchdog s ≤ s.now →
    exec (.planWatchdogExpiry u) s = .next (releaseHolds (fun x => x == h) (abandon u s))) ∧
  (s.now ≤ h.raised + planWatchdog s → s.tt.runout = false → exec (.planWatchdogExpiry u) s = .next s)) ∧
  (∀ (child : BitVec 32) (body : BitVec 192) (s : State),
  (let t := controlTakeAny 0x10 body s;
    let r := reportOf child body
    let step := fld body.toNat 0 64
    let att := fld body.toNat 64 8
    t.loaded = true → t.children.contains child.toNat = true →
    (r.status.toNat = rsReady → step = t.tt.nextStep.toNat → att = t.tt.nextAttempt.toNat → t.barrier.readySent = false →
      exec (.barrierReport child body) s = .next (tryReady { t with barrier.readies := addReport r t.barrier.readies })) ∧
    (r.status.toNat ≤ rsStop → r.status.toNat ≠ rsReady → reportFits t step att = true →
      exec (.barrierReport child body) s = .next (tryReport { t with barrier.reports := addReport r t.barrier.reports })) ∧
    (rsStop < r.status.toNat → exec (.barrierReport child body) s = .next t)) ∧
  (∀ t, s.barrier.startCount = some t → s.barrier.startCmd.isSome = true → s.barrier.ready = false → t.toNat ≤ s.now →
    s.mirror.fetches = [] → exec .startCountReached s = .next (tryReady { s with
      barrier.ready := true
      barrier.readies := addReport ⟨s.self32, BitVec.ofNat 8 rsReady, 0, 1, 0, 0xFFFFFFFF⟩ s.barrier.readies }))) ∧
  (∀ (s : State),
  (let missing (step att : Nat) (s : State) : State := decideAs (announcement step att decStop 0)
      { s with tt.rootFault := BitVec.ofNat 8 fcMissing, barrier.faultChip := 0xFFFFFFFF, barrier.reports := [], barrier.readies := [] };
    s.isRoot = true → s.forme.state = .started → s.barrier.decided = none → s.tt.nextLaunch = none →
    (∀ t, s.barrier.startCmd.isSome = true → s.barrier.readySent = false → s.barrier.startCount = some t → t.toNat ≤ s.now →
      exec .barrierTimeout s = .next (missing s.tt.nextStep.toNat s.tt.nextAttempt.toNat s)) ∧
    (s.barrier.startCmd = none → s.tt.drained = true → s.tt.inStep = false → s.barrier.stopped = false →
      exec .barrierTimeout s = .next (missing s.tt.step.toNat s.tt.attempt.toNat (if s.tt.fault = 0 then
          { s with tt.fault := BitVec.ofNat 8 fcMissing, health.fault := ⟨false, BitVec.ofNat 8 fcMissing, 0xFF, 0⟩ }
        else { s with health.fault.more := true })))) ∧
  (s.barrier.reported = true → s.isRoot = false →
    let c := rootCause s
    exec .announceTimeout s = .next
      (stopAt s.tt.step.toNat s.tt.attempt.toNat c.1 c.2.1 (postEvent evBarrierSilent 0 s.tt.step.toNat 0 c.2.2))) ∧
  (s.barrier.reported = false ∨ s.isRoot = true → exec .announceTimeout s = .next s))

/-- Announcements (R47 to R49, R51, R53, R257, R478): one that fits this chip's attempt commits, aborts, stops or starts; ABORT
keeps nothing of the attempt and announces the next; a STOP also reaches a start that awaits its launch, and passes down by a chip
whose own start has expired; START announces the first launch, and begins the presses' stagger. Two clauses are the model's inferences: a
STOP that finds the chip in its step is kept until its terminus (log entry 57), and START sets the switch count of a change of point that names
the first step, where R287 speaks of a commit (log entry 74). What STEP_STOPPED names away from the root is log entry 56. -/
def Obligations.AnnouncementsComplete : Prop := ∀ (body : BitVec 192) (s : State),
  (annFits body decCommit s = true → exec (.announceCommit body) s = .next (commit body false (annTake body s))) ∧
  (annFits body decCommitStop s = true → exec (.announceCommitStop body) s = .next (commit body true (annTake body s))) ∧
  (annFits body decAbort s = true →
    let t := annTake body s
    exec (.announceAbort body) s = .next { t with
      tt.outcome := 2, tt.aborts := satInc t.tt.aborts, tt.nextLaunch := some (BitVec.ofNat 64 (annLaunch body))
      tt.nextStep := BitVec.ofNat 64 (annStep body), tt.nextAttempt := BitVec.ofNat 8 (annAttempt body + 1)
      health.aborts := t.health.aborts + 1
      barrier.decided := none, barrier.reported := false, barrier.reports := [] }) ∧
  (annDecision body = decStop → s.forme.state = .started → s.isRoot = false → s.tt.nextLaunch = none →
    annStep body = s.tt.step.toNat → annAttempt body = s.tt.attempt.toNat → s.barrier.startCmd = none →
    (s.barrier.reported = true → exec (.announceStop body) s = .next (performStop body (annTake body s))) ∧
    (s.barrier.reported = false → s.tt.inStep = true → exec (.announceStop body) s =
      .next (let t := annTake body s; if t.tt.inStep then { t with barrier.decided := some body } else performStop body t))) ∧
  (annDecision body = decStop → s.forme.state = .started → s.isRoot = true → s.barrier.decided = some body →
    exec (.announceStop body) s = .next (performStop body s)) ∧
  (annDecision body = decStop → s.forme.state = .started → s.isRoot = false → s.barrier.startCmd.isSome = true →
    annStep body = s.tt.nextStep.toNat → annAttempt body = s.tt.nextAttempt.toNat → s.tt.nextLaunch = none →
    exec (.announceStop body) s = .next (performStop body (annTake body s))) ∧
  (annDecision body = decStop → s.forme.state ≠ .started → s.isRoot = false → s.loaded = true →
    annStep body = s.tt.nextStep.toNat → annAttempt body = s.tt.nextAttempt.toNat →
    exec (.announceStop body) s = .next (stopUnstarted (annStep body) (annAttempt body) (annTake body s))) ∧
  (annDecision body = decStart → s.barrier.startCmd.isSome = true → annStep body = s.tt.nextStep.toNat →
    annAttempt body = s.tt.nextAttempt.toNat →
    (if s.isRoot then s.barrier.decided == some body else s.barrier.readySent) = true →
    let t := annTake body s
    let t : State := { t with
      tt.outcome := 5, tt.nextLaunch := some (BitVec.ofNat 64 (annLaunch body)), barrier.decided := none, barrier.ready := false
      barrier.readySent := false, barrier.readies := [], barrier.startCount := none }
    let t := match t.power.pendingPoint with
      | some (_, st) => if st = t.tt.nextStep then switchAtLaunch (annLaunch body) t else t
      | none => t
    exec (.announceStart body) s = .next (startStagger occLaunch t))

/-- The engine's copies (R194, R312, R313, R320, R321, R342, R386, R479): the end of a ranking leaves the waybill ranked and is
late where the launch is near. An access of a copy to the near tier, and one to a root port, move one entry's bytes, and leave every
other byte. With everything moved, where the far area's ports are READY and no brake pauses it, a stabling copy is whole and its frames are
freed, a restore leaves the waybill's pages in place, a livery is staged, and the positions due are in the log; a copy with bytes still to move
goes on. VOID and CANCEL (R316 to R318, R326, R421): a void
is marked and goes on along the stages, but for the chip before the desk; a write of WB_CANCEL cancels its waybill, once every
earlier write has been performed, and is answered with an ACK (R402, R407). -/
def Obligations.EngineCommandsComplete : Prop :=
  (∀ (w : BitVec 16) (s : State),
  (s.eng.ranking.contains w.toNat = true → exec (.rankingComplete w) s = .next { s with
    eng.ranking := s.eng.ranking.erase w.toNat, eng.rankings := s.eng.rankings + 1
    tt.waitRank := s.tt.waitRank || (copyLate s && s.eng.sheet.any (fun b => b.waybill == w.toNat && b.sparse)) }) ∧
  (s.eng.ranking.contains w.toNat = false → exec (.rankingComplete w) s = .next s) ∧
  (∀ (c f : Nat) (m : Move) (bs : List Byte), 
    (m.out = true → moveNear c m cleanAccess s = { s.modChan c (countAccess false cleanAccess) with
      mirror.moves := mapIf (· == m) (fun m => { m with data := some (memRead blank s.near.mem m.near m.len) }) s.mirror.moves }) ∧
    (m.out = true → m.data = some bs → FarAccess.bad s (m.far / 1024) ⟨0, false⟩ = false →
      (moveFar f m ⟨0, false⟩ s).far.mem = (farWrite m.far bs s).far.mem ∧
      (moveFar f m ⟨0, false⟩ s).mirror.moves = s.mirror.moves.erase m) ∧
    (m.out = false → FarAccess.bad s (m.far / 1024) ⟨0, false⟩ = false → (moveFar f m ⟨0, false⟩ s).far.mem = s.far.mem ∧
      (moveFar f m ⟨0, false⟩ s).mirror.moves =
        mapIf (· == m) (fun m => { m with data := some (farRead s m.far m.len) }) s.mirror.moves) ∧
    (m.out = false → m.data = some bs → (moveNear c m cleanAccess s).near.mem = memWrite blank m.near (bs ++ zeros m.pad) s.near.mem ∧
      (moveNear c m cleanAccess s).mirror.moves = s.mirror.moves.erase m)) ∧
  (∀ k, kget s.eng.parked w.toNat = some k → k.done = false → s.holdsPages w.toNat = true → copyRuns s 1 = true →
    exec (.stablingCopyComplete w) s = .next (if s.moved (.stable w.toNat) then
      freePages w.toNat { s with eng.parked := kset w.toNat { k with done := true } s.eng.parked } else s)) ∧
  (∀ k, kget s.eng.parked w.toNat = some k → s.eng.restores.contains w.toNat = true → k.done = true → copyRuns s 1 = true →
    s.moved (.restore w.toNat) = true →
    let t := overPages s.pool.layers 0 (min (pagesOf (s.lengthOf w.toNat)) k.pages) (fun layer p s =>
      if 128 * (p + 1) ≤ s.lengthOf w.toNat then setDirFlag w.toNat layer p 2 s else s) s
    let late := match t.tt.nextLaunch with
      | some l => !t.tt.inStep && decide (l.toNat < t.now + 32)
        && (passRows t.eng.sheet).any (fun b => b.waybill == w.toNat && b.kind != kRestore)
      | none => false
    let t : State := { t with eng.parked := kdel w.toNat t.eng.parked, eng.restores := t.eng.restores.erase w.toNat }
    exec (.restoreCopyComplete w) s = .next (if late then { t with tt.waitRank := true } else t)) ∧
  (∀ (slot : BitVec 12) x k, kget s.liv.slots slot.toNat = some x → x.staged = some k →
    x.copying = true → copyRuns s 4 = true → s.moved (.stage slot.toNat) = true →
    exec (.stagingCopyComplete slot) s = .next { s with
      liv.slots := kset slot.toNat { x with copying := false } s.liv.slots
      tt.waitStage := s.tt.waitStage || (copyLate s
        && s.eng.sheet.any (fun b => b.waybill != 0xFFFF && !b.group.getLsbD 7 && b.livery == slot)) }) ∧
  (s.mirror.logDue ≠ [] → copyRuns s 2 = true → s.moved .log = true →
    exec .logCopyComplete s = .next { s with
      mirror.logDue := [], mirror.logPositions := wrapAdd s.mirror.logPositions s.mirror.logDue.length
      tt.waitLog := s.tt.waitLog || logWraps s && copyLate s }) ∧
  (s.moved .log = false → exec .logCopyComplete s = .next s)) ∧
  (∀ (p : PortId) (body : BitVec 192) (w : BitVec 10) (wr : CsWr) (s : State),
  (let t := controlTake p.val 0x12 body s;
    (t.serving = none → exec (.void p body) s = .next t) ∧
    (∀ v, t.serving = some v →
      let m := markVoid (fld body.toNat 0 16) t
      exec (.void p body) s =
        .next (if m.isDesk || nextInStage v m.chipIndex = v.desk then m else sendVoid body.toNat m))) ∧
  (s.kclUp = true → s.pastOptions = true → csAligned wr (0x200000 + 8 * w.toNat) = true →
    let t := kclTake 0x02 wr.tag s
    exec (.cancelWrite w wr) s = .next (if t.writesWait = true then { t with kcl.reqs := t.kcl.reqs ++ [.write (0x200000 + 8 * w.toNat) wr] }
      else respond 0x21 false wr.tag [] (cancelWrite w.toNat wr.value t))))

/-- Refresh and temperature (R179, R182, R184, R185): at a time of the grid an insertion falls due and raises a REFRESH hold; its
window's end releases it, and the boxes' accesses that waited for it go on; a report leaves the channel's temperature, and the need of a retrain where it has moved by 4 degrees.
Retraining of the near channels (R179, R181, R183, R185, R470): in the gap, after the commit's writes and any refresh that is due,
every due channel retrains, or is deferred where fewer than 432 ns remain; on the 16th deferral, or after more than 16 EDC errors in a step, a
channel retrains in the step under a RETRAIN hold; the end of a retrain, after which what waited goes on, and the end of training leave what they leave. -/
def Obligations.NearUpkeepCompletes : Prop :=
  (∀ (c : SeqId) (temp : BitVec 8) (s : State),
  (s.now % s.refreshInterval = refreshPhase → s.near.selfRefresh = false → s.near.refreshing = false →
    exec .refreshDue s = .next (intrude .refresh .refresh
      { s with near.refreshing := true, near.hotInterval := s.near.channels.toList.any (fun c => c.hot) })) ∧
  (s.now % s.refreshInterval ≠ refreshPhase ∨ s.near.selfRefresh = true → exec .refreshDue s = .next s) ∧
  (s.refreshOpen = true → exec .refreshWindowEnd s =
    .next (boxesGo (releaseHolds (fun h => h.unit == .refresh) { s with near.refreshing := false }))) ∧
  exec (.nearTemperatureReport c temp) s = .next (s.modChan c.val (fun x =>
    { x with temp := temp, hot := decide (85 < temp.toNat)
             due := x.due || decide (x.tempAt.toNat + 4 ≤ temp.toNat) || decide (temp.toNat + 4 ≤ x.tempAt.toNat) }))) ∧
  (∀ (c : SeqId) (ok : Bool) (s : State),
  (s.tt.inStep = false → s.decisionDue = false → s.rings.commit = none → s.near.late.any (·.commit) = false →
    s.near.selfRefresh = false → s.brakeOn = false → s.refreshOpen = false →
    let fits := match s.tt.nextLaunch with
      | some l => decide (s.now + 432 ≤ l.toNat)
      | none => true
    exec .nearTerminusRetrain s = .next { s with near.channels := s.near.channels.map (fun c =>
      if c.isDue s.now = false then c
      else if fits then { c with retraining := true, deferrals := 0 } else { c with deferrals := satInc c.deferrals }) }) ∧
  (s.tt.inStep = true → s.tt.draining = false → (s.chan c.val).ready = true → (s.chan c.val).retraining = false →
    (16 ≤ (s.chan c.val).deferrals.toNat ∨ 16 < (s.chan c.val).stepEdc) →
    exec (.nearInStepRetrain c) s = .next (intrude (.nearRetrain c) .retrain (s.modChan c.val (fun x =>
      { x with retraining := true, deferrals := 0, stepEdc := 0, inStepRetrains := x.inStepRetrains + 1 })))) ∧
  (s.retrainOpen c = true → s.refreshOpen = false →
    exec (.nearRetrainEnd c) s = .next (boxesGo (releaseHolds (fun h => h.unit == .nearRetrain c) (s.modChan c.val (fun x =>
      { x with retraining := false, due := false, retrains := x.retrains + 1, lastRetrain := s.time.ns, tempAt := x.temp }))))) ∧
  ((s.chan c.val).ready = false → s.power.readyBox.getLsbD 3 = true → s.clk.enNear.getLsbD c.val = true →
    exec (.nearTrainingComplete c ok) s = .next (s.modChan c.val (fun x =>
      { x with trained := ok, ready := ok, retrains := 0, lastRetrain := s.time.ns, tempAt := x.temp, due := false }))))

/-- SCRUB (R168, R397): in a gap that leaves it 64 ns, with the images copied, no test of the press running and none of a press
that could start, the scrubber passes on to the next entry of KiB 0 to 10,202, counts a pass where it wraps and what it corrected, and posts an event for an
uncorrectable word; the store's content stays. -/
def Obligations.ScrubCompletes : Prop := ∀ (p : PressId) (ecc : Ecc) (s : State) (l : BitVec 64),
  let a := (s.press p.val).scrubAddr.toNat
  let t := s.modPress p.val (fun x =>
    { x with scrubAddr := if a < 10202 then BitVec.ofNat 14 (a + 1) else 0
             scrubPasses := if a < 10202 then x.scrubPasses else x.scrubPasses + 1
             corrected := if ecc == .corrected then x.corrected + 1 else x.corrected })
  s.tt.inStep = false → s.tt.copied = true → s.power.braking = false → s.tt.nextLaunch = some l → s.now + 64 ≤ l.toNat →
  s.underTest p.val = false → s.testFirst = false →
  ((∀ k, ecc ≠ .uncorrectable k) → exec (.scrub p ecc) s = .next t) ∧
  (∀ k, ecc = .uncorrectable k → exec (.scrub p ecc) s =
    .next (postEvent evScrub p.val a 0 (t.modPress p.val (fun x => { x with scrubUncorr := satInc x.scrubUncorr }))))

/-- Frames. A port that is ACTIVE with an ACTIVE block received first sends again what a retry asks for; else it starts the frame
that `nextFrame` chooses; with none it starts nothing (R202, R206, R214). KCL starts the first of its messages that may start, so that one
without credits lets a later one pass: the model's inference, log entry 30. With no
TIME packet waiting the choice is a CTRL packet that holds its credits, else a released DATA packet that does (R206, R216). A frame
counts its codewords; parsing that skips passes over it; one that fails its checks is discarded and parsing skips to a LINK block
(R205, R232). A good one is accepted into its buffer, or takes the port DOWN where there is no room (R221); or it counts as a
duplicate, a gap or out of window, by its distance from the number expected (R212). An expired ACK timer has every frame outstanding
sent again, and the fourth in a row starts a retrain (R214, R215). -/
def Obligations.FramesComplete : Prop := ∀ (p : LinkId) (f : Frame) (s : State),
  let k := p.val
  let q := s.port k
  let cls := fld f.head.toNat 2 2
  let d := (fld f.head.toNat 8 12 + 4096 - q.rxExpected.toNat) % 4096
  let c := s.modPort k (fecCount f)
  (q.state ≠ .active ∨ q.sawActive = false → exec (.frameStart p) s = .next s) ∧
  (q.state = .active → q.sawActive = true →
    (0 < q.resend → exec (.frameStart p) s = .next (s.modPort k (resendFrame s.sendsDrained k))) ∧
    (q.resend = 0 → k < 32 →
      (∀ cl o q', nextFrame s k q = some (cl, o, q') → exec (.frameStart p) s = .next (castGo (startFabric k cl o q' s))) ∧
      (nextFrame s k q = none → exec (.frameStart p) s = .next s)) ∧
    (q.resend = 0 → k = 32 →
      (∀ m rest, takeFirst (fun m => canStart 32 (kclClass m) (kclBytes m) q) s.kcl.tx = some (m, rest) →
        exec (.frameStart p) s = .next
          { s.modPort 32 (startFrame s.sendsDrained 32 (kclClass m) (kclBytes m)) with kcl.tx := rest }) ∧
      (takeFirst (fun m => canStart 32 (kclClass m) (kclBytes m) q) s.kcl.tx = none → exec (.frameStart p) s = .next s))) ∧
  (q.txTime = [] →
    (∀ o rest, q.txCtrl = o :: rest → canStart k 1 o.packet q = true →
      nextFrame s k q = some (1, o, { q with txCtrl := rest })) ∧
    (∀ o rest, (∀ x, q.txCtrl.head? = some x → canStart k 1 x.packet q = false) → q.txData = o :: rest → o.released = true →
      canStart k 2 o.packet q = true → nextFrame s k q = some (2, o, { q with txData := rest }))) ∧
  (q.reinit = true ∨ (q.state ≠ .active ∧ q.state ≠ .pausing) → exec (.frameReceived p f) s = .next s) ∧
  (q.reinit = false → q.state = .active ∨ q.state = .pausing →
    (q.skipping = true → exec (.frameReceived p f) s = .next c) ∧
    (q.skipping = false → frameGood k f = false → exec (.frameReceived p f) s =
      .next (c.modPort k (fun q => { q with discarded := q.discarded + 1, skipping := true }))) ∧
    (q.skipping = false → frameGood k f = true →
      (d = 0 → rxRoom k cls f.packet q = true → exec (.frameReceived p f) s = .next (acceptPacket k cls f.packet c)) ∧
      (d = 0 → rxRoom k cls f.packet q = false →
        exec (.frameReceived p f) s = .next (portDown k (c.modPort k (fun q => { q with breaches := satInc q.breaches })))) ∧
      (3072 ≤ d → exec (.frameReceived p f) s = .next (c.modPort k (fun q => { q with duplicates := q.duplicates + 1 }))) ∧
      (1 ≤ d → d ≤ 1023 → exec (.frameReceived p f) s = .next (c.modPort k (fun q => { q with gaps := q.gaps + 1 }))) ∧
      (1024 ≤ d → d < 3072 →
        exec (.frameReceived p f) s = .next (c.modPort k (fun q => { q with outOfWindow := satInc q.outOfWindow }))))) ∧
  ((k < 32 ∧ (isControl f.packet = false ∨ pkHops f.packet ≤ 6)) ∨ (k = 32 ∧ kclKnown (leAt f.packet 0 1) = true) →
    acceptPacket k cls f.packet c = c.modPort k (fun q => { q with
      rx := q.rx ++ [⟨BitVec.ofNat 2 cls, f.packet, false, none, false⟩], rxExpected := q.rxExpected + 1, ackValid := true })) ∧
  (q.state ≠ .active ∨ q.replay = [] → exec (.ackTimerExpiry p) s = .next s) ∧
  (q.state = .active → q.replay ≠ [] →
    let t := s.modPort k (fun q => { q with
      timeouts := q.timeouts + 1, timeoutsRow := q.timeoutsRow + 1, resend := q.replay.length })
    (q.timeoutsRow + 1 < 4 → exec (.ackTimerExpiry p) s = .next t) ∧
    (4 ≤ q.timeoutsRow + 1 → exec (.ackTimerExpiry p) s =
      .next (startRetrain k q.same (t.modPort k (fun q => { q with timeoutsRow := 0 })))))

/-- LINK blocks and training. A bad block is ignored and counted (R208); a good ACTIVE block carries acknowledgement and credits,
and frames may start once one has come (R202, R207, R213, R218). A port in INIT that takes an INIT block holds the credits that it
advertises and is READY (R202, R217); of a port in service an INIT block discards its buffers and takes it through INIT again, with
PACKET_DISCARD at a fabric port (R229). Training ends in INIT at the width that the good lanes allow, or DOWN (R197, R199, R202,
R222, R231); a try begins it, but in a step, where it waits (R201). -/
def Obligations.LinkBlocksComplete : Prop := ∀ (p : LinkId) (blk : BitVec 512) (r : TrainResult) (s : State),
  let k := p.val
  let w := blk.toNat
  let q := s.port k
  let v := s.modPort k (fun q => { q with rxBlock := q.rxBlock + 25 })
  let t := v.modPort k (takeBlock w)
  (q.state ≠ .down → q.state ≠ .training → blockGood w = false →
    exec (.linkBlock p blk) s = .next (v.modPort k (fun q => { q with ignored := q.ignored + 1 })) ∧
    exec (.initBlock p blk) s = .next (v.modPort k (fun q => { q with ignored := q.ignored + 1 }))) ∧
  (q.state ≠ .down → q.state ≠ .training → blockGood w = true → blockState w = 1 →
    exec (.linkBlock p blk) s = .next (t.modPort k (fun q => { q with sawActive := true }))) ∧
  (q.state = .init → blockGood w = true → blockState w = 0 → exec (.initBlock p blk) s =
    .next (portReady k (t.modPort k (fun q => { takeAdvertised w q with sawInit := true })))) ∧
  (q.state ≠ .down → q.state ≠ .training → q.state ≠ .init → blockGood w = true → blockState w = 0 →
    let u := beginInit k (fun q => { q with downEvents := satInc q.downEvents }) (dropBuffers k t)
    exec (.initBlock p blk) s = .next (if k = 32 then u else stepFault fcDiscard (128 + k) u)) ∧
  (q.state ≠ .training → exec (.laneTrainingComplete p r) s = .next s) ∧
  (∀ n, q.state = .training → k < 32 → reachWidth r.good.toNat = some n → q.reachCfg = r.partnerReach →
    let act := activeLanes (max n r.partnerWidth.toNat) r.good.toNat
    exec (.laneTrainingComplete p r) s = .next (beginInit k (fun q => { q with
      lanesGood := r.good, lanesActive := BitVec.ofNat 16 act, rate := r.rate, reach := q.reachCfg
      trainedOnce := true, equalised := true, margin := marginsFor act (.replicate 4 128)
      tx := TxStream.reset, rxBlock := 0 }) s)) ∧
  (q.state = .training → k < 32 → reachWidth r.good.toNat = none ∨ q.reachCfg ≠ r.partnerReach →
    exec (.laneTrainingComplete p r) s = .next (portDown k (s.modPort k (fun q => { q with lanesGood := r.good })))) ∧
  (q.state = .training → k = 32 → r.good = 0xFFFF → exec (.laneTrainingComplete p r) s =
    .next (beginInit 32 (fun q => { q with
      lanesGood := r.good, lanesActive := 0xFFFF, reach := 0, trainedOnce := true, equalised := true
      margin := .replicate 4 128, tx := TxStream.reset, rxBlock := 0 }) s)) ∧
  (q.enable = true → q.state = .down → k = 32 ∨ s.clk.enLink.getLsbD k = true →
    exec (.trainingRetry p) s = .next (s.modPort k (fun q =>
      if s.tt.inStep then { q with tryWaits := true } else { q with state := .training, tryWaits := false })))

/-- Retraining of a link (R214, R219, R222 to R230, R410): PAUSE and PAUSED lead both ends into the retrain, RESUME out of it with
every frame outstanding sent again; a margin below its floor asks for a retrain at a terminus, but in one that runs; loss of lock
and a burst start one at once; one asked for starts at a terminus that leaves it time, is deferred otherwise, and at the 16th
deferral runs at once, in a step too; its end takes the narrowest width and the slower rate; a retrain that overruns brings the port
DOWN. -/
def Obligations.RetrainsComplete : Prop := ∀ (p : LinkId) (blk : BitVec 512) (lane : Fin 16) (code : BitVec 8) (count : BitVec 32)
    (r : TrainResult) (s : State),
  let k := p.val
  let q := s.port k
  let w := blk.toNat
  let t := (s.modPort k (fun q => { q with rxBlock := q.rxBlock + 25 })).modPort k (takeBlock w)
  (q.state = .pausing → blockGood w = true → blockState w = 2 → exec (.pause p blk) s =
    .next (retrainHold k (t.modPort k (fun q => { q with state := .retraining, target := mergeTarget q.target (blockTarget w) })))) ∧
  (q.state = .active → blockGood w = true → blockState w = 2 → exec (.pause p blk) s = .next (answerPause k (blockTarget w) t)) ∧
  (q.state = .resuming → blockGood w = true → blockState w = 2 →
    exec (.pause p blk) s = .next (startRetrain k (blockTarget w) t)) ∧
  (q.state = .retraining → blockGood w = true → blockState w = 2 →
    exec (.pause p blk) s = .next (retrainHold k (startRetrain k (blockTarget w) t))) ∧
  (q.state = .pausing → blockGood w = true → blockState w = 3 →
    exec (.paused p blk) s = .next (t.modPort k (fun q => if q.state == .pausing then { q with state := .retraining } else q))) ∧
  (q.state = .resuming → blockGood w = true → blockState w = 4 →
    exec (.resume p blk) s = .next (becomeActive k (t.modPort k (fun q => { q with resend := q.replay.length, sawActive := true })))) ∧
  (bitAt q.lanesActive.toNat lane.val = true →
    exec (.marginBelowFloor p lane code) s = .next (s.modPort k (fun q =>
      let x := { q with margin := vmod q.margin lane.val (fun _ => code) }
      if q.marginFloor.toNat ≤ code.toNat || q.state == .pausing || q.state == .retraining then x
      else if q.state == .resuming then { x with again := some (mergeTarget x.same (x.again.getD x.same)) }
      else { x with request := some (x.request.getD x.same) }))) ∧
  exec (.lossOfLock p) s = .next (startRetrain k q.same s) ∧
  (let c := s.modPort k (fun q => { q with fecUncorr := q.fecUncorr + count });
    (count.toNat ≤ 256 → exec (.uncorrectableBurst p count) s = .next c) ∧
    (256 < count.toNat → exec (.uncorrectableBurst p count) s = .next (startRetrain k q.same c))) ∧
  (∀ x, q.request = some x → q.state = .active →
    let bound := retrainBound q.reach.toNat (x.width.toNat != q.width) (x.rate != q.rate)
    let room := match s.tt.nextLaunch with
      | none => true
      | some l => decide (s.now + bound + 2000 ≤ l.toNat)
    let start := startRetrain k x (s.modPort k (fun q =>
      { q with request := none, requestCmd := none, runCmds := q.runCmds ++ q.requestCmd.toList }))
    exec (.linkTerminusRetrain p) s = .next (
      if 15 ≤ q.deferrals.toNat then start
      else if s.tt.inStep then s
      else if q.partnerDrained && room then start
      else s.modPort k (fun q => { q with deferrals := q.deferrals + 1 }))) ∧
  (q.request = none ∨ q.state ≠ .active → exec (.linkTerminusRetrain p) s = .next s) ∧
  (∀ n, q.state = .retraining → k < 32 → reachWidth r.good.toNat = some n →
    ∃ t, exec (.retrainComplete p r) s = .next t ∧ (t.port k).lanesGood = r.good ∧
      (t.port k).rate = BitVec.ofNat 2 (max q.target.rate.toNat r.rate.toNat) ∧
      (t.port k).lanesActive = BitVec.ofNat 16 (activeLanes (max (max n q.target.width.toNat) r.partnerWidth.toNat) r.good.toNat) ∧
      (t.port k).state = (if q.reinit then .init else .resuming)) ∧
  (q.state = .retraining → k < 32 → reachWidth r.good.toNat = none →
    exec (.retrainComplete p r) s = .next (portDown k (s.modPort k (fun q => { q with lanesGood := r.good })))) ∧
  (q.state = .retraining → k = 32 → r.good = 0xFFFF → exec (.retrainComplete p r) s = .next (retrained 32 s)) ∧
  (q.state = .pausing ∨ q.state = .retraining ∨ q.state = .resuming → exec (.retrainTimeout p) s = .next (portDown k s)) ∧
  (q.state ≠ .pausing → q.state ≠ .retraining → q.state ≠ .resuming → exec (.retrainTimeout p) s = .next s)

/-- Packets at a port. A PLAN packet is discarded and counted, with PACKET_DISCARD in a step, by the first of the checks that fails:
its payload CRC, the key of the port it came by, its route, the key of the port it leaves by, its flow in transit; else it is
delivered or held at its final chip, or queued for its output port (R237 to R240, R250). A control packet, or a SERVICE data packet,
is discarded and counted by the same checks and those of R209, R210 and R233, without a fault; else it is left at its final chip, or
takes its next hop with its tee copy left here, or is lost at a port that is not READY (R228, R239). A notice of a known reason is
stored and posted, and another is taken alone (R253, R254). A pending setting of keys is installed at a drained port that no loaded
forme uses, or that a stopped one used (R251, R258). -/
def Obligations.FabricPacketsComplete : Prop := ∀ (p : PortId) (pkt : List Byte) (body : BitVec 192) (s : State),
  let k := p.val
  let out := pkRoute pkt % 32
  let crcOk := crc32c (pkPayload pkt) = pkCrc pkt
  (let t := ensureRx k 2 pkt s
    let ends (fault : Bool) (count : Port → Port) : Prop :=
      exec (.planPacket p pkt) s = .next (fabricDiscard k pkt fault count t)
    (¬crcOk → ends true (fun q => { q with payloadCrc := satInc q.payloadCrc })) ∧
    (crcOk → keyAccepted t.fab.gidValid (t.port k) (pkKey pkt) true = false → ends true (fun x => countKey x (t.port k).fenced)) ∧
    (crcOk → keyAccepted t.fab.gidValid (t.port k) (pkKey pkt) true = true →
      (pkHops pkt = 0 → exec (.planPacket p pkt) s = .next (planFinal k pkt t)) ∧
      (14 < pkHops pkt ∨ (pkHops pkt ≠ 0 ∧ out = k) → ends true (fun q => { q with badRoute := satInc q.badRoute })) ∧
      (1 ≤ pkHops pkt → pkHops pkt ≤ 14 → out ≠ k →
        (keyAccepted t.fab.gidValid (t.port out) (pkKey pkt) true = false →
          ends true (fun x => countKey x (t.port out).fenced)) ∧
        (keyAccepted t.fab.gidValid (t.port out) (pkKey pkt) true = true →
          ((t.port out).transit.contains (pkFlow pkt) = false → ends true (fun q => { q with stray := satInc q.stray })) ∧
          ((t.port out).transit.contains (pkFlow pkt) = true →
            exec (.planPacket p pkt) s = .next (planForward k out pkt t)))))) ∧
  (let u := ensureRx k ((typeClass pkt).getD 1) pkt s
    let held := ((u.port k).rx.find? (fun r => !r.processed && r.packet == pkt)).map (fun r => r.cls.toNat)
    let ends (count : Port → Port) : Prop := exec (.controlPacketForward p pkt) s = .next (fabricDiscard k pkt false count u)
    let whole := (isControl pkt = true ∧ pkHops pkt ≤ 6) ∨ (isControl pkt = false ∧ crcOk)
    (isControl pkt = true → 6 < pkHops pkt → ends (fun q => { q with badControl := satInc q.badControl })) ∧
    (isControl pkt = false → ¬crcOk → ends (fun q => { q with payloadCrc := satInc q.payloadCrc })) ∧
    (whole → keyAccepted u.fab.gidValid (u.port k) (pkKey pkt) false = false → ends (fun x => countKey x (u.port k).fenced)) ∧
    (whole → keyAccepted u.fab.gidValid (u.port k) (pkKey pkt) false = true →
      (pkHops pkt = 0 → typeClass pkt ≠ held → ends (fun q => { q with badControl := satInc q.badControl })) ∧
      (pkHops pkt = 0 → typeClass pkt = held → isControl pkt = false → pkDestGid pkt ≠ u.fab.gid.toNat →
        ends (fun q => { q with badRoute := satInc q.badRoute })) ∧
      (pkHops pkt = 0 → typeClass pkt = held → isControl pkt = true ∨ pkDestGid pkt = u.fab.gid.toNat →
        exec (.controlPacketForward p pkt) s = .next u) ∧
      (14 < pkHops pkt ∨ (pkHops pkt ≠ 0 ∧ out = k) → ends (fun q => { q with badRoute := satInc q.badRoute })) ∧
      (1 ≤ pkHops pkt → pkHops pkt ≤ 14 → out ≠ k → keyAccepted u.fab.gidValid (u.port out) (pkKey pkt) false = false →
        ends (fun x => countKey x (u.port out).fenced)) ∧
      (∀ h : out < 32, 1 ≤ pkHops pkt → pkHops pkt ≤ 14 → out ≠ k →
        keyAccepted u.fab.gidValid (u.port out) (pkKey pkt) false = true →
        let tee := bitAt (pkRoute pkt) 5
        let bad := tee && typeClass pkt != held
        let v := if bad then u.modPort k (fun q => { q with badControl := satInc q.badControl }) else u
        let keep (r : RxPacket) : RxPacket := { r with processed := true, copyWaits := true }
        let mark (r : RxPacket) : RxPacket :=
          { r with processed := true, packet := pkHop pkt, out := some ⟨out, h⟩, copyWaits := tee && !bad }
        let with' (f : RxPacket → RxPacket) : State :=
          v.modPort k (fun q => { q with rx := mapIf (fun r => !r.processed && r.packet == pkt) f q.rx })
        ((v.port out).ready = false → exec (.controlPacketForward p pkt) s = .next ((if tee && !bad then with' keep
          else fabricDiscard k pkt false (fun q => q) v).modPort out (fun q => { q with framesLost := satInc q.framesLost }))) ∧
        ((v.port out).ready = true → exec (.controlPacketForward p pkt) s = .next (
          if held == some 0 then sendTime out (pkHop pkt) (some p) (with' mark)
          else sendCtrl out (pkHop pkt) (some p) (with' mark)))))) ∧
  (let b := body.toNat
    let u := controlTake k 0x20 body s
    (1 ≤ fld b 0 8 → fld b 0 8 ≤ 3 →
      exec (.portNotice p body) s = .next (postEvent evPortNotice k (fld b 0 64) (fld b 64 64) (u.modPort k (fun q => { q with
        notice := BitVec.ofNat 2 (fld b 0 8), partnerValid := bitAt b 63, partnerGid := BitVec.ofNat 20 (fld b 32 20)
        keyMismatch :=
          keysDiffer (q.keys.toList.map (·.toNat)) ((List.range 4).map (fun i => fld b (64 + 16 * i) 16)) })))) ∧
    (fld b 0 8 = 0 ∨ 3 < fld b 0 8 → exec (.portNotice p body) s = .next u)) ∧
  (∀ keys, portDrained s k = true → installsFreely s k = true → (s.port k).pendKeys = some keys →
    let u := s.modPort k (fun q => { q with keys := keys.keys, fence := keys.fence, pendKeys := none })
    exec (.keyInstall p) s = .next (partProgress k false (sendNotice k (if (u.port k).fenced then 2 else 1) u))) ∧
  (portDrained s k = false ∨ installsFreely s k = false ∨ (s.port k).pendKeys = none → exec (.keyInstall p) s = .next s)

/-- Exchanges and notices of station time. A slave probes its upstream where that port is READY (R275, R281); every chip answers a
probe, and a probe or reply sent again is counted and goes no further (R275, R282). The reply to a probe that a slave waits for
gives the delay and the offset, in 1/256 ns, that correct station time and decide LOCKED; another changes nothing (R276 to R278). A
lost probe is counted; silence brings a slave holdover, and an upstream of 15 steps or more corrects nothing (R275, R278, R280). SB5
does this where it runs (R429). A slave takes a notice of its upstream only, and a notice goes
out on every READY port (R279, R280); a slave returns to its PORT (R281). The pulse per second and the reference: an input edge is
captured, and on a disciplined master it removes its offset from the nearest whole second, but for one more than 500 us away once
locked; two seconds without one bring that master holdover (R283); the output pin rises at a whole second (R284, R467). The time
code carries station time (R271). A gap of the reference shorter than 2.2 us is counted, and any other is the cause of a full reset
(R261, R262). PPS_LOCKED is set by the first edge that disciplines: the model's choice, log entry 32; halves are rounded down: log entry
26. -/
def Obligations.TimeCommandsComplete : Prop :=
  (∀ (p : PortId) (body : BitVec 192) (stamp : BitVec 72) (s : State),
  let k := p.val
  let b := body.toNat
  (let u := controlTake k 1 body s
    let t := ((stamp.toNat : Int) - (vget u.time.asym k 0).toInt).toNat
    exec (.timeProbe p body stamp true) s = .next { u with time.replayed := u.time.replayed + 1 } ∧
    (u.sb5Up = true → exec (.timeProbe p body stamp false) s = .next (sendTime k (controlPacket 2 0 ⟨BitVec.ofNat 84 k, 1⟩
      (t / 256 % 2 ^ 64 + t % 256 * 2 ^ 64 + fld b 72 8 * 2 ^ 72 + u.nowFrac * 2 ^ 80 + bit u.time.locked * 2 ^ 88 + u.now * 2 ^ 96))
      none u)) ∧
    (u.sb5Up = false → exec (.timeProbe p body stamp false) s = .next u)) ∧
  (let u := controlTake k 2 body s;
    exec (.timeReply p body stamp true) s = .next { u with time.replayed := u.time.replayed + 1 } ∧
    let mine (x : BitVec 8 × BitVec 5 × Nat) : Bool := x.1.toNat == fld b 72 8 && x.2.1.toNat == k
    (takeFirst mine u.time.probes = none → exec (.timeReply p body stamp false) s = .next u) ∧
    (∀ n q t1 rest, takeFirst mine u.time.probes = some ((n, q, t1), rest) →
      (u.time.role ≠ 2 ∨ u.sb5Up = false → exec (.timeReply p body stamp false) s = .next u) ∧
      (u.time.role = 2 → u.sb5Up = true →
        let t2 : Int := (fld b 0 64 * 256 + fld b 64 8 : Nat)
        let t3 : Int := (fld b 96 64 * 256 + fld b 80 8 : Nat)
        let t4 : Int := (stamp.toNat : Int) - (vget u.time.asym k 0).toInt
        let off := ((t2 - t1) - (t4 - t3)) / 2
        let w : State := { u with
          time.probes := rest, time.done := u.time.done + 1, time.heard := true
          time.delay := BitVec.ofInt 32 (((t2 - t1) + (t4 - t3)) / 2), time.offset := BitVec.ofInt 32 off
          time.upstreamLocked := bitAt b 88 }
        let v := followRate w
        let x := if w.upstreamFar then w
          else if v.forme.state == .none && !v.time.everLocked && !v.time.stepped && decide (256000 < off.natAbs) then stepBy off v
          else slewBy off v
        exec (.timeReply p body stamp false) s = .next (noticeChange u (relock off (hopBound (u.port k).reach.toNat) x))))) ∧
  (∀ x rest, s.time.probes = x :: rest → exec .probeLost s = .next { s with time.probes := rest, time.lost := s.time.lost + 1 }) ∧
  (s.time.probes = [] → exec .probeLost s = .next s) ∧
  (s.time.role = 2 → exec .timeSilence s =
    .next (noticeChange s { s with time.locked := false, time.holdover := true, time.heard := false })) ∧
  (s.time.role ≠ 2 → exec .timeSilence s = .next s) ∧
  (let u := controlTake k 3 body s;
    (u.time.role ≠ 2 ∨ u.upstreamPort ≠ k ∨ u.sb5Up = false → exec (.timeNotice p body) s = .next u) ∧
    (u.time.role = 2 → u.upstreamPort = k → u.sb5Up = true →
      let v : State := { u with
        time.upstream :=
          some (BitVec.ofNat 20 (fld b 0 20), BitVec.ofNat 8 (fld b 24 8), BitVec.ofNat 8 (fld b 32 8), BitVec.ofNat 16 (fld b 128 16))
        time.upstreamLocked := bitAt b 32
        time.master := BitVec.ofNat 20 (fld b 0 20)
        time.steps := BitVec.ofNat 8 (min 255 (fld b 24 8 + 1))
        time.errorBound := BitVec.ofNat 16 (satNat 16 (fld b 128 16 + hopBound (u.port k).reach.toNat / 16)) }
      exec (.timeNotice p body) s = .next (noticeChange u
        (if 15 ≤ fld b 24 8 then { v with time.locked := false, time.holdover := true } else v)))) ∧
  exec .timeNoticePeriod s = .next (noticeAll s) ∧
  (let u := pickUpstream s;
    (u.time.role ≠ 2 ∨ u.sb5Up = false ∨ (u.port u.upstreamPort).ready = false →
      exec .timeProbePeriod s = .next (noticeChange s u)) ∧
    (u.time.role = 2 → u.sb5Up = true → (u.port u.upstreamPort).ready = true →
      exec .timeProbePeriod s = .next (noticeChange s (sendTime u.upstreamPort
        (controlPacket 1 0 ⟨BitVec.ofNat 84 u.upstreamPort, 1⟩
          (u.fine / 256 + u.nowFrac * 2 ^ 64 + u.time.nextProbe.toNat * 2 ^ 72 + gidField u * 2 ^ 96)) none
        { u with time.probes := u.time.probes ++ [(u.time.nextProbe, BitVec.ofNat 5 u.upstreamPort, u.fine)]
                 time.nextProbe := u.time.nextProbe + 1 })))) ∧
  (s.time.usingAlt = true → (s.port s.time.port.toNat).ready = true →
    exec .altPortReturn s = .next { s with time.usingAlt := false }) ∧
  (s.time.usingAlt = false ∨ (s.port s.time.port.toNat).ready = false → exec .altPortReturn s = .next s)) ∧
  (∀ (stamp : BitVec 72) (gap : BitVec 16) (s : State),
  (let u : State := { s with time.ppsNs := BitVec.ofNat 56 (stamp.toNat / 256), time.ppsFrac := BitVec.ofNat 8 stamp.toNat
                             time.ppsEdges := s.time.ppsEdges + 1 }
    let off := ppsOffset stamp.toNat
    (s.alive = false → exec (.ppsInEdge stamp) s = .next s) ∧
    (s.alive = true → s.time.role ≠ 1 ∨ s.time.ppsDiscipline = false ∨ s.sb5Up = false → exec (.ppsInEdge stamp) s = .next u) ∧
    (s.alive = true → s.time.role = 1 → s.time.ppsDiscipline = true → s.sb5Up = true → s.time.ppsLocked = true →
      128000000 < off.natAbs → exec (.ppsInEdge stamp) s = .next { u with time.ppsIgnored := s.time.ppsIgnored + 1 }) ∧
    (s.alive = true → s.time.role = 1 → s.time.ppsDiscipline = true → s.sb5Up = true →
      s.time.ppsLocked = false ∨ off.natAbs ≤ 128000000 →
      exec (.ppsInEdge stamp) s =
        .next (noticeChange u (slewBy off (followRate { u with time.ppsLocked := true, time.holdover := false }))))) ∧
  (s.time.role = 1 → s.time.ppsDiscipline = true →
    exec .ppsTimeout s = .next (noticeChange s { s with time.ppsLocked := false, time.holdover := true })) ∧
  (s.time.role ≠ 1 ∨ s.time.ppsDiscipline = false → exec .ppsTimeout s = .next s) ∧
  (s.time.ppsDue = true ∨ s.now % 1000000000 = 0 → s.clk.enMisc.getLsbD 2 = true → s.power.taken.getLsbD 4 = true →
    exec .ppsOutEdge s = .next ({ s with time.ppsHigh := 1000000, time.ppsDue := false }.setPin 4 .high)) ∧
  ((s.time.ppsDue = false ∧ s.now % 1000000000 ≠ 0) ∨ s.clk.enMisc.getLsbD 2 = false ∨ s.power.taken.getLsbD 4 = false →
    exec .ppsOutEdge s = .next s) ∧
  exec .timeCode s = .next { s with time.code := s.time.ns } ∧
  (s.alive = false → exec (.refclkReturn gap) s = .next s) ∧
  (s.alive = true → gap.toNat < 2200 → exec (.refclkReturn gap) s = .next { s with
    clk.refGaps := satInc s.clk.refGaps, clk.longestGap := if s.clk.longestGap.toNat < gap.toNat then gap else s.clk.longestGap }) ∧
  (s.alive = true → 2200 ≤ gap.toNat → exec (.refclkReturn gap) s = .next (sourceFull .lossOfReference false s)) ∧
  exec .refclkLoss s = .next (sourceFull .lossOfReference false s))

/-- Firmware messages and the FABRIC load. A REBUILT is acknowledged where a route to its sender is known; of a serial seen before
nothing more changes, and a new one marks the waybills that are being restored; an ACK ends the message of its serial and sender; a
message without an ACK is sent again, 8 times at most (R388, R445). Data of a tensor that the open load awaits is placed at its
offset and kept for its digest; the tensor's end makes it present where its image is whole, and the load ends with its last tensor
(R375). A copy that no load awaits is counted; a load that times out is refused with EXPIRED (R375). -/
def Obligations.ServiceMessagesComplete : Prop := ∀ (p : PortId) (body : BitVec 192) (serial : BitVec 16) (payload : List Byte) (s : State),
  let b := body.toNat
  (let t := controlTake p.val 0x30 body s
    let key := (BitVec.ofNat 20 (fld b 32 20), BitVec.ofNat 16 (fld b 16 16))
    let u := match entryRoute (t.routeEntry (fld b 32 20)) with
      | some r => sendControl 0x30 0 r (fld b 0 8 + 0x02 * 2 ^ 8 + ((kget t.fw.serials (fld b 32 20)).getD 0).toNat * 2 ^ 16
          + t.fab.gid.toNat * 2 ^ 32 + fld b 16 16 * 2 ^ 64) { t with
            fw.serials := kset (fld b 32 20) ((kget t.fw.serials (fld b 32 20)).getD 0 + 1) t.fw.serials }
      | none => t
    (u.fw.seen.contains key = true → exec (.fwMsgRebuilt p body) s = .next u) ∧
    (u.fw.seen.contains key = false → exec (.fwMsgRebuilt p body) s = .next { u with
      fw.seen := u.fw.seen ++ [key]
      eng.table := u.eng.table.map (fun x => (x.1, if x.2.restoring then { x.2 with rebuilt := true } else x.2)) }) ∧
    exec (.fwMsgAck p body) s = .next { t with
      fw.messages := t.fw.messages.filter (fun m => !(m.serial.toNat == fld b 64 16 && m.dest.toNat == fld b 32 20)) }) ∧
  (s.fw.messages.find? (fun m => m.serial == serial) = none → exec (.fwMessageResend serial) s = .next s) ∧
  (∀ m, s.fw.messages.find? (fun m => m.serial == serial) = some m →
    (m.sendings < 8 → exec (.fwMessageResend serial) s = .next (sendFwMessage m { s with
      fw.messages := mapIf (fun x => x == m) (fun x => { x with sendings := x.sendings + 1 }) s.fw.messages })) ∧
    (8 ≤ m.sendings → exec (.fwMessageResend serial) s =
      .next { s with fw.messages := s.fw.messages.filter (fun x => x != m) })) ∧
  (let t := serviceTake payload s
    let id := leAt payload 4 4
    let data := sliceBytes payload 64 (min (leAt payload 16 4) (payload.length - 64))
    (t.tensor id = none ∨ awaitsCopy t id = false → exec (.weightData payload) s = .next (strayCopy t)) ∧
    (∀ x l, t.tensor id = some x → t.forme.fabricLoad = some l → l.open'.contains id = true →
      exec (.weightData payload) s = .next (putImageAt x (leAt payload 8 8) data (countBytes data.length { t with
        forme.fabricLoad := some { l with
          received := kset id ((leAt payload 8 8, data) :: (kget l.received id).getD []) l.received
          bytes := l.bytes + data.length } }))) ∧
    (t.tensor id = none ∨ awaitsCopy t id = false → exec (.weightEnd payload) s = .next (strayCopy t)) ∧
    (∀ x l, t.tensor id = some x → t.forme.fabricLoad = some l → l.open'.contains id = true →
      let image := assembled (imageLength x) ((kget l.received id).getD [])
      (∀ bs, image = some bs → leAt payload 8 8 = imageLength x → sha256 bs = sliceBytes payload 32 32 →
        exec (.weightEnd payload) s = .next (fabricDone { t with
          forme.fabricLoad := some { l with open' := l.open'.erase id, received := kdel id l.received, present := l.present + 1 }
          forme.present := kset id ⟨digestOf bs, BitVec.ofNat 256 (leAt payload 64 32), bs.length⟩ t.forme.present })) ∧
      (image = none ∨ leAt payload 8 8 ≠ imageLength x ∨ (∀ bs, image = some bs → sha256 bs ≠ sliceBytes payload 32 32) →
        exec (.weightEnd payload) s = .next (fabricDone { t with
          forme.fabricLoad := some { l with open' := l.open'.erase id, received := kdel id l.received, failed := true } })))) ∧
  (∀ l, s.forme.fabricLoad = some l → exec .broadcastTimeout s =
    .next (formeRefuse l.cmd stExpired frIncomplete (dropTensors l.tensors { s with forme.fabricLoad := none }))) ∧
  (s.forme.fabricLoad = none → exec .broadcastTimeout s = .next s)

/-- Mirror and recovery. A chip that mirrors no other ignores an item; one without a free slot for it says so; else SB3 queues its
writes, and acknowledges the item once all of it has arrived and been written (R384). An ACK takes its item from the backlog and
marks the page of a page or a head; one of no item in the backlog changes nothing (R307, R384). A release frees a waybill's slots,
with what was still to be written into them (R384). A fetch is answered (R387). Data that was not asked for is ignored; data that
was is placed by its kind, and its fetch ends with the last piece; a report of a lost waybill is the desk's (R387, R388, R390). Where a
payload's head holds the kind, the item and the offset, length and total of its data, which `headItem` and its fellows read, is the model's
choice, log entry 41; that a lost waybill is told to the desk by a RECOVER_DATA of kind 6, of which no rule speaks, is log entry 47.
Fetches without an answer are sent again; one that no answer meets in time loses its waybill (R390, R445). -/
def Obligations.MirrorAndRecoveryComplete : Prop := ∀ (payload : List Byte) (w : BitVec 16) (s : State),
  let t := serviceTake payload s
  let m := headItem payload
  (let done (u : State) : State := if headLast payload then
      { u with mirror.arrived := if u.mirror.arrived.contains m then u.mirror.arrived else u.mirror.arrived ++ [m] } else u;
    (t.source = none → exec (.mirrorItem payload) s = .next t) ∧
    (t.source ≠ none → slotFor t m = none → exec (.mirrorItem payload) s = .next (mirrorFull t)) ∧
    (∀ c slot, t.source = some c → slotFor t m = some slot →
      (m.kind ≠ itemLedger →
        exec (.mirrorItem payload) s = .next (done (writeItem m m (headOff payload) (headData payload) slot t))) ∧
      (m.kind = itemLedger →
        let u := writeItem m m 0 ((headData payload).take 128) slot t
        (slotFor u (keptItem m.waybill) = none → exec (.mirrorItem payload) s = .next (mirrorFull u)) ∧
        (∀ k, slotFor u (keptItem m.waybill) = some k → exec (.mirrorItem payload) s =
          .next (done (writeItem m (keptItem m.waybill) 0 ((headData payload).drop 128) k u)))))) ∧
  (t.mirror.backlog.contains m = false → exec (.mirrorAck payload) s = .next t) ∧
  (t.mirror.backlog.contains m = true →
    let u : State := { t with mirror.backlog := t.mirror.backlog.erase m, mirror.acked := t.mirror.acked + 1 }
    exec (.mirrorAck payload) s =
      .next (if m.kind = itemPage ∨ m.kind = itemHead then setDirFlag m.waybill m.layer m.page 4 u else u)) ∧
  exec (.mirrorRelease payload) s = .next { t with
    mirror.slots := t.mirror.slots.filter (fun x => x.1.waybill != m.waybill)
    mirror.arrived := t.mirror.arrived.filter (fun x => x.waybill != m.waybill)
    far.ports := t.far.ports.map (fun p => { p with box := p.box.filter (fun b => b.item.waybill != m.waybill) }) } ∧
  exec (.recoverFetch payload) s = .next (sendPieces 0x14 (fetchAnswer t m).1 (leAt payload 24 4) m (fetchAnswer t m).2.1
    (fetchAnswer t m).2.2 t) ∧
  (m.kind = 6 → exec (.recoverData payload) s = .next (if t.isDesk then loseWaybill m.waybill t else t)) ∧
  (m.kind ≠ 6 → t.mirror.fetches.contains ⟨m.waybill, m.kind, m.layer, m.page⟩ = false → exec (.recoverData payload) s = .next t) ∧
  (m.kind ≠ 6 → t.mirror.fetches.contains ⟨m.waybill, m.kind, m.layer, m.page⟩ = true →
    let u : State := if headLast payload then
      { t with mirror.fetches := t.mirror.fetches.erase ⟨m.waybill, m.kind, m.layer, m.page⟩ } else t
    let v :=
      if headTotal payload = 0 then (if m.kind = 4 then loseWaybill m.waybill u else u)
      else if m.kind = 0 then takeShadows payload u
      else if m.kind = 1 then takeLedger payload u
      else if m.kind = 2 ∨ m.kind = 3 then takePage m payload u
      else if m.kind = 4 then takeLogged m payload u
      else takeStore m payload u
    let z := if m.kind = 2 ∨ m.kind = 3 then checkRebuilt m.waybill v else v
    exec (.recoverData payload) s = .next (settleRebuild z.mirror.owed.length z)) ∧
  exec (.recoverFetchResend w) s =
    .next ((s.mirror.fetches.filter (fun f => f.waybill == w.toNat)).foldl (fun s f => sendFetch f s) s) ∧
  (s.mirror.fetches.any (fun f => f.waybill == w.toNat) = false → exec (.recoverFetchTimeout w) s = .next s) ∧
  (s.mirror.fetches.any (fun f => f.waybill == w.toNat) = true →
    let u : State := { s with mirror.fetches := s.mirror.fetches.filter (fun f => f.waybill != w.toNat) }
    let v := if w.toNat = 0xFFFF then u else loseWaybill w.toNat u
    exec (.recoverFetchTimeout w) s = .next (settleRebuild v.mirror.owed.length v))

/-- Clocks and the operating point. A ramp moves the divider by one step towards its target, or towards 16 while its source is to
change, which it does there (R269); a depth moves by one code towards that written (R267). At the switch count, outside a step, the
regulators of each region whose own local station time has reached it begin the pending change, which begins with the first of them;
before that nothing happens (R271, R287). The end of a change that every region has begun puts
its target in force; with a forme loaded that is all; with none the command completes, an edition is written, and a change asked
for meanwhile begins (R422, R426, R474). -/
def Obligations.ClockAndPointComplete : Prop := ∀ (d : Fin 4) (j : Fin 2) (s : State),
  (exec (.domainRampStep d) s = .next { s with clk.domains := s.clk.domains.set d (rampStep s.clk.domains[d]) }) ∧
  (let x := s.clk.domains[d];
    let y := rampStep x
    (x.ramping = false → y = x) ∧
    (x.ramping = true → x.sourceNow = x.source → x.divNow.toNat < x.div.toNat → y.divNow = x.divNow + 1) ∧
    (x.ramping = true → x.sourceNow = x.source → x.div.toNat < x.divNow.toNat → y.divNow = x.divNow - 1) ∧
    (x.ramping = true → x.sourceNow ≠ x.source → x.divNow.toNat < 15 → y.sourceNow = x.sourceNow ∧ y.divNow = x.divNow + 1) ∧
    (x.ramping = true → x.sourceNow ≠ x.source → 15 ≤ x.divNow.toNat → y.sourceNow = x.source)) ∧
  (let now := s.clk.sscNow[j];
    let want := s.clk.sscDepth[j]
    let next := if now.toNat < want.toNat then now + 1 else if want.toNat < now.toNat then now - 1 else now
    exec (.sscDepthStep j) s = .next { s with clk.sscNow := s.clk.sscNow.set j next }) ∧
  (∀ count i : Nat, i < 4 → (regionsAt s count).getLsbD i = decide (count * 256 ≤ vget s.time.repCode i 0)) ∧
  (∀ t, s.power.switchAt = some t → s.tt.inStep = false →
    let begun := if s.power.changing then s.power.regions else 0
    let regions := begun ||| regionsAt s t.toNat
    let rest := if regions = 15 then none else some t
    (regions = begun → exec .operatingPointSwitch s = .next s) ∧
    (regions ≠ begun → s.power.changing = true →
      exec .operatingPointSwitch s = .next { s with power.regions := regions, power.switchAt := rest }) ∧
    (regions ≠ begun → s.power.changing = false → exec .operatingPointSwitch s = .next { s with
      power.changing := true, power.applying := s.power.pendingPoint, power.applyCmd := s.power.pointCmd
      power.pendingPoint := none, power.pointCmd := none, power.pointQuiet := false
      power.regions := regions, power.switchAt := rest })) ∧
  (s.power.switchAt = none ∨ s.tt.inStep = true → exec .operatingPointSwitch s = .next s) ∧
  (s.power.changing = false ∨ regionsIn s = false → exec .operatingPointChangeEnd s = .next s) ∧
  (∀ p step, s.power.changing = true → regionsIn s = true → s.power.applying = some (p, step) →
    let t : State := { s with power.point := p, power.changing := false, power.copyAfter := false, power.regions := 0 }
    (s.loaded = true → exec .operatingPointChangeEnd s = .next t) ∧
    (s.loaded = false → exec .operatingPointChangeEnd s =
      .next (let u := writeEdition (pointDone t); if u.power.pendingPoint.isSome then beginChange u else u)))

/-- Press states. A press that the loaded forme leaves out is in Shed, but under self-test; an idle one enters Layover where 1,628
counts remain to the time at which it must stand, and Shed where 24,128 do and its rows and gap bit allow it (R71, R151, R154); a
dormant one wakes when the time comes to m - w - 64 (R153): that it stands at once is the model's choice, log entry 28. A group of the stagger acts on the eight presses of its column,
in turn, and before a first launch not before its own count (R477, R478). Quiet and Deep quiet are entered where R475 allows and not
elsewhere; a wake that is asked for, or for which the launch is near, begins its departures, and its end makes the chip ACTIVE with
its presses standing, and applies a change of point accepted meanwhile, loaded or not (R474, R476). A power sample above 2,150 W, or a
mean above LIMIT, counts once for its cause and applies the brake under a BRAKE hold; two quiet samples in a row end it (R479); the mean of
the first 999 samples takes the missing ones as 0: the model's choice, log entry 27. The sample's junction temperature may trip (R459). While
a full reset is held nothing is measured (R495). -/
def Obligations.PowerCommandsComplete : Prop :=
  (∀ (p : PressId) (g : Fin 12) (s : State),
  let k := p.val
  let x := s.press k
  let out := s.loaded && (s.pressSlot k).isNone
  (out = true → exec (.pressIdle p) s = .next (if x.power = .shed ∨ s.underTest k = true then s else s.modPress k (fun q =>
    { q with power := .shed, plane0 := none, plane1 := none, bankA := Bank.reset, bankB := Bank.reset }))) ∧
  (out = false → x.power ≠ .stand → exec (.pressIdle p) s = .next s) ∧
  (out = false → x.power = .stand → pressDue s x = none → exec (.pressIdle p) s = .next s) ∧
  (∀ m now, out = false → x.power = .stand → pressDue s x = some (m, now) →
    exec (.pressIdle p) s = .next (
      if m < now + 32 ∧ s.tt.inStep = true then s
      else if now + 24128 ≤ m ∧ shedAllowed x = true then s.modPress k shedPress
      else if now + 1628 ≤ m then s.modPress k (fun q => { q with power := .layover })
      else s)) ∧
  (x.power = .stand ∨ out = true ∨ pressDue s x = none → exec (.pressWake p) s = .next s) ∧
  (∀ m now, out = false → x.power ≠ .stand → pressDue s x = some (m, now) →
    exec (.pressWake p) s = .next (if m ≤ now + (if x.power = .shed then 24000 else 1500) + 64 then s.modPress k wakePress else s)) ∧
  (s.power.stagger = none → exec (.departureGroup g) s = .next s) ∧
  (∀ occ next, s.power.stagger = some (occ, next) →
    let early := occ = occLaunch ∧ (∀ l, s.tt.nextLaunch = some l → s.now + 24064 + 1000 * (11 - g.val) < l.toNat)
    (next ≠ g.val ∨ early → exec (.departureGroup g) s = .next s) ∧
    (next = g.val → ¬early → exec (.departureGroup g) s = .next { (List.range 8).foldl (fun s r =>
        s.modPress (12 * r + groupColumn g.val) (departPress s occ (12 * r + groupColumn g.val))) s with
      power.stagger := if g.val = 11 then none else some (occ, g.val + 1) }))) ∧
  (∀ (watts : BitVec 12) (junction : BitVec 8) (s : State),
  (s.alive = false → exec (.powerSample watts junction) s = .next s) ∧
  (let samples := (watts.toNat :: s.power.samples).take 1000
    let sum := sumOf samples
    let limit := s.power.limit.toNat
    let peak := decide (2150 < watts.toNat) && !s.power.brakePeak
    let high := decide (limit * 1000 < sum) && !s.power.brakeMean
    let t : State := { s with
      power.samples := samples, power.sampleW := watts, power.meanW := BitVec.ofNat 12 (sum / 1000), power.junction := junction
      power.brakePeak := s.power.brakePeak || peak, power.brakesPeak := if peak then s.power.brakesPeak + 1 else s.power.brakesPeak
      power.brakeMean := s.power.brakeMean || high, power.brakesMean := if high then s.power.brakesMean + 1 else s.power.brakesMean }
    let quiet := (!t.power.brakePeak || decide (watts.toNat < 2000)) && (!t.power.brakeMean || decide (sum * 100 < limit * 98000))
    let seen (u : State) : Prop := exec (.powerSample watts junction) s = .next (seeJunction junction u)
    s.alive = true →
    (s.power.braking = false → seen (if t.power.brakePeak || t.power.brakeMean then
      intrude .power .brake { t with power.braking := true, power.calm := 0 } else t)) ∧
    (s.power.braking = true → quiet = false → seen { t with power.calm := 0 }) ∧
    (s.power.braking = true → quiet = true → seen (if s.power.calm + 1 < 2 then
      { t with power.calm := s.power.calm + 1 }
      else releaseHolds (fun h => h.unit == .power && h.cause == .brake)
        { t with power.braking := false, power.brakePeak := false, power.brakeMean := false, power.calm := 0 }))) ∧
  (s.power.chipState = 0 → s.power.quietAllow = true → quietGap s = true →
    exec .quietEntry s = .next (startStagger occShed { s with power.chipState := 1 })) ∧
  (s.power.chipState ≠ 0 ∨ s.power.quietAllow = false ∨ quietGap s = false → exec .quietEntry s = .next s) ∧
  (let deep := s.power.chipState ≠ 2 ∧ s.power.deepAllow = true ∧ quietGap s = true ∧ s.forme.state ≠ .started ∧ sb3Busy s = false ∧
      10000000 ≤ s.power.windowIdle
    let t := if s.power.chipState = 0 then startStagger occShed s else s
    (deep → exec .deepQuietEntry s = .next { t with
      power.chipState := 2, near.selfRefresh := true, near.refreshing := false, clk.locked := t.clk.locked &&& 0xF7 }) ∧
    (¬deep → exec .deepQuietEntry s = .next s)) ∧
  (let departing := s.power.waking = true ∧ (∃ g, s.power.stagger = some (occWake, g));
    (s.power.waking = true ∨ launchNear s = true → s.power.chipState ≠ 0 → ¬departing →
      exec .wake s = .next (startStagger occWake { s with power.waking := true })) ∧
    (s.power.chipState = 0 ∨ departing ∨ (s.power.waking = false ∧ launchNear s = false) → exec .wake s = .next s)) ∧
  (s.power.waking = false ∨ s.power.chipState = 0 → exec .wakeComplete s = .next s) ∧
  (s.power.waking = true → s.power.chipState ≠ 0 →
    let deep := s.power.chipState == 2
    let t : State := { s with
      near.channels := s.near.channels.map (fun c => if deep && c.ready then
        { c with retrains := c.retrains + 1, lastRetrain := s.time.ns, tempAt := c.temp, due := false } else c)
      near.selfRefresh := false, clk.locked := if deep then s.clk.locked ||| 8 else s.clk.locked
      power.chipState := 0, power.waking := false, power.stagger := none
      presses := s.presses.mapIdx (fun k p => if s.loaded && (s.pressSlot k).isNone then p else wakePress p) }
    (s.power.pointQuiet = false ∨ s.power.pendingPoint = none → exec .wakeComplete s = .next (kclPump t)) ∧
    (∀ p step, s.power.pointQuiet = true → s.power.pendingPoint = some (p, step) →
      let u : State := { t with
        power.point := p, power.changing := false, power.copyAfter := false, power.regions := 0, power.applying := some (p, step)
        power.applyCmd := s.power.pointCmd, power.pendingPoint := none, power.pointCmd := none, power.switchAt := none
        power.pointQuiet := false }
      exec .wakeComplete s = .next (kclPump (if s.loaded then u else writeEdition (pointDone u))))))

/-- Self-test runs and health scores. A queued run starts when it fits, with a left-out press standing for it, and not otherwise
(R154, R397). The end of a run counts it, unless a brake pauses it; a passing segment of a press in use leaves the next one queued;
any other end sets PASS or FAIL with its block (R396 to R398, R479). Once a second each score is 1,000 less the points of the last
60 s, held at 0 where a self-test has failed; a second in which the boxes do not run adds an empty bucket (R392 to R394). -/
def Obligations.HealthCommandsComplete : Prop := ∀ (part : BitVec 8) (fail : Bool) (block : BitVec 16) (s : State),
  let i := part.toNat
  ((vget s.health.test i SelfTest.reset).state = 1 → s.runFits i = true →
    exec (.selfTestRun part) s =
      .next (testStand [i] { s with health.test := vmod s.health.test i (fun t => { t with state := 2 }) })) ∧
  ((vget s.health.test i SelfTest.reset).state ≠ 1 ∨ s.runFits i = false → exec (.selfTestRun part) s = .next s) ∧
  (s.underTest i = false ∨ s.power.braking = true → exec (.selfTestRunEnd part fail block) s = .next s) ∧
  (s.underTest i = true → s.power.braking = false →
    let t : State := { s with health.test := vmod s.health.test i (fun t => { t with progress := t.progress + 1 }) }
    exec (.selfTestRunEnd part fail block) s = .next (
      if fail = false ∧ i < 96 ∧ s.partUsed i = true ∧ (vget t.health.test i SelfTest.reset).progress.toNat < pressSegments then
        { t with health.test := vmod t.health.test i (fun t => { t with state := 1 }) }
      else endTest i fail block t)) ∧
  (s.fw.boot ≠ .running → exec .healthCompute s = .next { s with health.window := ([] :: s.health.window).take 60 }) ∧
  (s.fw.boot = .running → ∃ t, exec .healthCompute s = .next t ∧ t.health.window.length ≤ 60 ∧ ∀ k, k < 164 →
    (vget t.health.score k 0).toNat = (if s.heldAtZero k then 0
      else scoreOf (sumOf (t.health.window.map (fun b => b.getD k 0)))))

/-- Watchdogs, handover and nonvolatile writes. The expiry of SB1 to SB5 restarts that box alone, its segment loaded from the running
copy, with FIRMWARE recorded in a step and an event, and the copies of SB3 begun again; SB0's is a warm reset once its image runs; while
the watchdogs stand still nothing happens (R379, R430, R436, R462). A handover that all six boxes adopt runs the staged image's segments
from the slot that holds it, any other leaves the running one; held events are posted and the command completes (R439 to R441). An image
stays staged after its own handover: the model's inference, log entry 88. An erase goes on to the next sector or the first page (R442); the
option block's sector, once erased, is programmed; a block that reads back is DONE, any other an ERROR (R443); that the flash then holds
eight free bytes, and the rest as written, is the model's choice, log entry 85. The end of a page or a pulse goes on with the write, or
takes the first full reset that waited for it, else the first warm one (R434, R462). Rebuilding after a warm reset: once SB0 and SB4 are
READY the module runs, with the waybills rebuilt as the edition then written shows them, WARM_RESET is posted and the presses begin their
self-test; before that the row changes nothing (R325, R418, R461). -/
def Obligations.FirmwareEventsComplete : Prop :=
  (∀ (b : BoxId) (adopted : BitVec 6) (s : State),
  (b.val ≠ 0 ∨ s.fw.boot ≠ .running → watchdogsRun s = false → exec (.boxWatchdogExpiry b) s = .next s) ∧
  (b.val = 0 → s.fw.boot = .running → exec (.boxWatchdogExpiry b) s =
    .next (warmReset 2 { s with fw.boxes := vmod s.fw.boxes 0 (fun x => { x with resets := satInc x.resets }) })) ∧
  (watchdogsRun s = true → b.val ≠ 0 →
    let u : State := { s with
      fw.boxes := vmod s.fw.boxes b.val (fun x => reloadBox (runningCopy s) b.val { x with resets := satInc x.resets })
      power.readyBox := s.power.readyBox &&& ~~~(BitVec.ofNat 6 (2 ^ b.val)), health.boxResets := s.health.boxResets + 1 }
    let t := stepFault fcFirmware (170 + b.val) (if b.val = 3 then restartCopies u else u)
    exec (.boxWatchdogExpiry b) s =
      .next (postEvent evBoxReset b.val (if t.tt.inStep then t.tt.step.toNat else 0) 0 (failServed b.val t))) ∧
  (s.fw.boot = .running →
    exec .sb0WatchdogExpiry s =
      .next (warmReset 2 { s with fw.boxes := vmod s.fw.boxes 0 (fun x => { x with resets := satInc x.resets }) })) ∧
  (s.fw.boot ≠ .running → exec .sb0WatchdogExpiry s = .next s) ∧
  (s.fw.boot ≠ .handover ∨ s.fw.staged = none → exec (.handoverComplete adopted) s = .next s) ∧
  (∀ img, s.fw.boot = .handover → s.fw.staged = some img →
    let t := postHeld { s with fw.handoverCmd := none, fw.boot := .running }
    let release := BitVec.ofNat 32 (imgRelease img)
    let u : State := if adopted = 0x3F then
      { t with
        fw.runningSlot := t.fw.stagedSlot, fw.source := 3, fw.running := release, fw.image := img, fw.runningIsStaged := true
        fw.boxes := t.fw.boxes.mapIdx (startBox img) }
      else { t with fw.staged := none, fw.boxes := t.fw.boxes.mapIdx (startBox t.fw.image) }
    (s.fw.handoverCmd = none → exec (.handoverComplete adopted) s = .next u) ∧
    (∀ d, s.fw.handoverCmd = some d → exec (.handoverComplete adopted) s =
      .next (finish d (if adopted = 0x3F then stDone else stVerifyFail) (resAt 16 u.fw.running.toNat) u))) ∧
  (∀ x rest, s.nv.job = some (.erase (x :: rest)) → exec .flashSectorEraseEnd s = .next { s with
    nv.flash := memClear (65536 * x) 65536 s.nv.flash
    nv.job := some (if rest.isEmpty then .program (imagePages s.fw.image) else .erase rest) }) ∧
  (s.nv.job = some .option → exec .flashSectorEraseEnd s =
    .next { s with nv.job := some .optionProgram, nv.flash := memClear optionBase 65536 s.nv.flash }) ∧
  ((∀ x rest, s.nv.job ≠ some (.erase (x :: rest))) → s.nv.job ≠ some .option → exec .flashSectorEraseEnd s = .next s) ∧
  (s.nv.job = some .optionProgram → nvmBusy s = true ∧ nvmAdvance s =
    { s with nv.job := some .optionCheck, nv.flash := memWrite blankFlash optionBase (optionRegs s) s.nv.flash }) ∧
  (s.nv.job ≠ some .optionCheck → exec (.optionWriteDone true) s = .next s ∧ exec (.optionWriteDone false) s = .next s) ∧
  (s.nv.job = some .optionCheck →
    let t : State := { s with nv.job := none }
    let v := t.draw
    exec (.optionWriteDone true) s = .next { t with fw.optionDone := true } ∧
    exec (.optionWriteDone false) s = .next { v.2 with
      fw.optionError := true, nv.flash := memWrite blankFlash optionBase (leBytes 8 v.1.toNat) v.2.nv.flash }) ∧
  (nvmBusy s = false → exec .nvmWriteEnd s = .next s) ∧
  (nvmBusy s = true → s.nv.deferred = [] → exec .nvmWriteEnd s = .next (nvmAdvance s)) ∧
  (nvmBusy s = true →
    let a := nvmAdvance { s with nv.deferred := [] }
    let t : State := { a with nv.job := none, nv.cmd := none }
    let full := deferredFull s.nv.deferred
    (∀ c rest, s.nv.deferred = .warm c :: rest → full = [] → exec .nvmWriteEnd s = .next (warmReset c t)) ∧
    (∀ x, full.head? = some x →
      let u := fullReset x (holdersNow { t with power.holders := [] }) t
      exec .nvmWriteEnd s = .next (if full.contains .thermalTrip then takeTrip u else u)))) ∧
  (∀ (s : State),
  (s.power.phase ≠ .warm ∨ s.fw.boot ≠ .running ∨ s.power.readyBox.getLsbD 0 = false ∨ s.power.readyBox.getLsbD 4 = false →
    exec .waybillRebuild s = .next s) ∧
  (s.power.phase = .warm → s.fw.boot = .running → s.power.readyBox.getLsbD 0 = true → s.power.readyBox.getLsbD 4 = true →
    ∃ t, t.power.phase = .running ∧ t.eng.shown = t.eng.table ∧ t.eng.counts = stateCounts t.eng.table ∧
      let u := writeEdition t
      exec .waybillRebuild s = .next (testPresses true (postEvent evWarmReset (u.power.causeWarm.toNat - 1)
        u.rings.abandoned u.rings.edition.toNat { u with rings.abandoned := 0 }))))

/-- Resets (R9, R457 to R460, R462, R465). Power-on resets the whole module, and leaves it held where MOD_RESET_L is low;
under-voltage resets it at once and is never deferred, and takes with it the full resets that a nonvolatile write had deferred; an auxiliary loss stops all of it, keeping the flash, the fuses, the far
tier's devices and the queue of rows; MOD_RESET_L and a trip at 115 °C or more reset it, and wait for a page program or an OTP pulse;
without the auxiliary supply neither does. The end of an under-voltage or of MOD_RESET_L ends its hold; where that reset had not been
taken yet, the outputs are driven again. -/
def Obligations.ResetsComplete : Prop := ∀ (junction : BitVec 8) (s : State),
  (let t : State := { s with power.auxUp := true, power.inputUp := true, power.underVolt := false };
    (s.power.modResetLow = false → s.power.holders.contains .modReset = false →
      exec .powerOn s = .next (fullReset .powerOn [] t)) ∧
    (s.power.modResetLow = true → s.power.holders.contains .modReset = false →
      exec .powerOn s = .next (fullReset .powerOn [.modReset] t)) ∧
    (s.power.holders.contains .modReset = true →
      exec .powerOn s = .next (fullReset .powerOn (s.power.holders.filter (fun x => x == .modReset)) t))) ∧
  (s.power.auxUp = true →
    let late := deferredFull s.nv.deferred
    let t : State := { s with
      power.underVolt := true, power.inputUp := false, power.tripLatch := s.power.tripLatch || late.contains .thermalTrip }
    exec .underVoltage s =
      .next (fullReset (late.headD .underVoltage) (holdersNow { t with power.holders := heldBy .underVoltage t }) t)) ∧
  (s.power.auxUp = false → exec .underVoltage s = .next { s with power.inputUp := false }) ∧
  (s.power.underVolt = true → exec .underVoltageEnd s =
    .next (endHolder .underVoltage { s with power.underVolt := false, power.inputUp := true })) ∧
  (s.power.underVolt = false → exec .underVoltageEnd s = .next s) ∧
  (∃ t, exec .auxSupplyLoss s = .next t ∧ t.power.auxUp = false ∧ t.power.phase = .held ∧ t.power.tripLatch = false ∧
    t.power.pins = .replicate 7 .highZ ∧ t.near = State.reset.near ∧ t.rings = State.reset.rings ∧ t.far.mem = s.far.mem ∧
    t.nv = (abandonJob s).nv ∧ t.pending = s.pending) ∧
  (let u : State := { s with power.modResetLow := true, power.pins := .replicate 7 .highZ };
    (s.power.auxUp = false → exec .modResetAssert s = .next u) ∧
    (s.power.auxUp = true → nvmBusy s = false → exec .modResetAssert s = .next (fullReset .modReset (heldBy .modReset u) u)) ∧
    (s.power.auxUp = true → nvmBusy s = true → exec .modResetAssert s = .next (defer (.full .modReset) u))) ∧
  (s.power.modResetLow = false → exec .modResetRelease s = .next s) ∧
  (s.power.modResetLow = true → s.power.holders.contains .modReset = true →
    exec .modResetRelease s = .next (endHolder .modReset { s with power.modResetLow := false })) ∧
  (s.power.modResetLow = true → s.power.holders.contains .modReset = false →
    exec .modResetRelease s = .next (drivePins { s with power.modResetLow := false })) ∧
  (junction.toNat < 115 ∨ s.power.auxUp = false → exec (.thermalTrip junction) s = .next s) ∧
  (115 ≤ junction.toNat → s.power.auxUp = true → nvmBusy s = true →
    exec (.thermalTrip junction) s = .next (defer (.full .thermalTrip) s)) ∧
  (115 ≤ junction.toNat → s.power.auxUp = true → nvmBusy s = false →
    let u := hardPins { s with power.tripLatch := true }
    exec (.thermalTrip junction) s = .next (fullReset .thermalTrip (heldBy .thermalTrip u) u))

/-- What a full reset leaves (R9, R457, R458, R462): every register at its Reset value, those of power, of the far tier and of the
management endpoint among them, but for the cause recorded, the supplies, the latches and the pins, whose levels they give; station time
0; near tier and shared window empty; the far tier's devices, the endpoint's addresses (log entry 52), the queue of rows and, with no nonvolatile write abandoned,
flash and fuses as they were. -/
def Obligations.FullResetLeaves : Prop := ∀ (src : FullSource) (holders : List FullSource) (s : State), s.nv.job = none →
  let t := fullReset src holders s
  t.time = State.reset.time ∧ t.clk = State.reset.clk ∧ t.tt = State.reset.tt ∧ t.presses = State.reset.presses ∧
  t.near = State.reset.near ∧ t.ports = State.reset.ports ∧ t.fab = State.reset.fab ∧ t.eng = State.reset.eng ∧
  t.smp = State.reset.smp ∧ t.liv = State.reset.liv ∧ t.forme = State.reset.forme ∧ t.health = State.reset.health ∧
  t.mirror = State.reset.mirror ∧ t.dbg = State.reset.dbg ∧ t.kcl = State.reset.kcl ∧ t.rings = State.reset.rings ∧
  t.fw = State.reset.fw ∧ t.barrier = State.reset.barrier ∧ t.conc = State.reset.conc ∧
  t.nv.flash = s.nv.flash ∧ t.nv.rollback = s.nv.rollback ∧ t.far.mem = s.far.mem ∧ t.pending = s.pending ∧
  t.far = { State.reset.far with mem := s.far.mem } ∧ t.nv = { s.nv with job := none, cmd := none, deferred := [] } ∧
  t.mgmt = { State.reset.mgmt with address := s.mgmt.address, eid := s.mgmt.eid } ∧
  t.power = { State.reset.power with
    phase := t.power.phase, causeFull := t.power.causeFull, holders := holders, auxUp := s.power.auxUp, inputUp := s.power.inputUp
    modResetLow := s.power.modResetLow, underVolt := s.power.underVolt, tripLatch := s.power.tripLatch, pins := resetPins t.power } ∧
  t.power.holders = holders ∧ t.power.phase = (if holders.isEmpty then .options else .held) ∧
  t.power.causeFull = (if s.power.phase = .held ∧ s.power.holders ≠ [] then s.power.causeFull else BitVec.ofNat 3 (sourceCode src))

/-- Pins across a warm reset (R468): the reset leaves every output at the level that it had, and no output taken; the image leaves
the resets of the far-tier devices as they are; the devices keep what they hold. While no output is taken, the rows that otherwise drive
outputs in their function leave every level as it is: a clock enable, the edge of PPS_OUT, a box that becomes READY, the health of a
second, a far port's loss, and a cycle of time outside a step. -/
def Obligations.WarmResetKeepsPins : Prop := ∀ (cause source : Nat) (image : List Byte) (s : State), nvmBusy s = false →
  let t := warmReset cause s
  t.power.pins = s.power.pins ∧ t.power.taken = 0 ∧ t.power.phase = .warm ∧ t.far.mem = s.far.mem ∧
  (startImage image source t).power.pins[5] = s.power.pins[5] ∧ (startImage image source t).power.pins[6] = s.power.pins[6] ∧
  (startImage image source t).far.mem = s.far.mem ∧
  (∀ (r : Fin 3) (w : CsWr) (b : BoxServices) (u v : State), u.power.phase = .warm → u.power.taken = 0 →
    exec (.clkenWrite r w) u = .next v ∨ exec .ppsOutEdge u = .next v ∨ exec (.boxServicesReady b) u = .next v ∨
      exec .healthCompute u = .next v ∨ (u.tt.inStep = false ∧ u.pending = [] ∧ step u = .next v) →
    v.power.pins = u.power.pins ∧ v.power.taken = 0)

/-- Make-ready (R272, R430, R433 to R436, R443, R467, R469, R470, R477, R478, R491): option loading takes the option block or
its defaults; station time and the SRAM test report; the ROM verifies an image and starts it or enters recovery; each box
becomes READY with what it serves, unless its segment failed its digest at a restart; presses, engine and sampler become READY as
their tests pass; recovery starts the image given to it. The ROM locks the fused secret before it verifies (R446). -/
def Obligations.MakeReadyCompletes : Prop := ∀ (strap : Bool) (delays : List (BitVec 16)) (b : BoxServices) (p : PressId) (value : Reg)
    (image : List Byte) (s : State),
  (s.power.phase = .options → optionOk (flashOption s) = false →
    ∃ t, exec (.optionLoadingComplete strap) s = .next t ∧ t.power.phase = .makeReady ∧ t.fw.strapLow = strap ∧
      t.fw.optionDefault = true ∧ t.fw.optionBlock = s.fw.optionBlock ∧ (t.port 32).state = .training ∧
      (∀ k, k < 32 → (t.port k).enable = true ∧ (t.port k).reachCfg = 0) ∧ (∀ c, c < 32 → (t.chan c).rate = 48)) ∧
  (s.power.phase ≠ .options → exec (.optionLoadingComplete strap) s = .next s) ∧
  (s.pastOptions = true → s.power.readyStation = false → exec (.stationReady delays) s = .next (lockPlls 1 { s with
    power.readyStation := true, time.repeater := .ofFn (fun (i : Fin 6) => delays.getD i.val 0)
    time.beats := s.time.beats.mapIdx (fun k x => { x with delay := delays.getD (6 + k) 0 }) })) ∧
  (s.power.phase = .makeReady → exec .sramTestComplete s = .next { s with power.sramTested := true }) ∧
  (s.pastOptions = true → (s.port 32).state = .training →
    ∃ t, exec (.kclHwTrainingComplete true) s = .next t ∧ (t.port 32).ready = true ∧ (t.port 32).state = .active ∧
      (t.port 32).margin = .replicate 4 128) ∧
  (s.pastOptions = true → (s.port 32).state = .training → exec (.kclHwTrainingComplete false) s = .next (portDown 32 s)) ∧
  (s.fw.boot = .rom → s.power.phase = .makeReady → s.power.sramTested = true →
    let t : State := { s with fw.secretLocked := true }
    exec .bootVerify s = .next (
      if s.fw.strapLow then enterRecovery 0 t
      else if verifyImage s.nv.rollback (flashImage s) = 0 then startImage (flashImage s) 0 t
      else enterRecovery (verifyImage s.nv.rollback (flashImage s)) t)) ∧
  (s.fw.boot = .rom → s.power.phase = .warm → exec .bootVerify s = .next (
    if verifyImage s.nv.rollback (runningCopy s) = 0 then startImage (runningCopy s) 1 s else bootFlash s)) ∧
  (s.fw.boot ≠ .rom → exec .bootVerify s = .next s) ∧
  (s.fw.boot = .running ∨ s.fw.boot = .handover → s.power.readyBox.getLsbD b.box.val = false →
    (vget s.fw.boxes b.box.val SbState.reset).spoiled = false →
    let t : State := { s with power.readyBox := s.power.readyBox ||| BitVec.ofNat 6 (2 ^ b.box.val)
                              fw.boxes := vmod s.fw.boxes b.box.val (fun x => if x.state = 2 then { x with state := 0 } else x) }
    (b.box.val = 0 → s.power.phase = .makeReady →
      exec (.boxServicesReady b) s = .next (testPresses false { readyPin t with power.phase := .running })) ∧
    (b.box.val = 1 → exec (.boxServicesReady b) s = .next (trainPorts 0 (lockPlls 0b00010000 t))) ∧
    (b.box.val = 2 → exec (.boxServicesReady b) s = .next (trainPorts 16 (lockPlls 0b00100000 t))) ∧
    (b.box.val = 3 → exec (.boxServicesReady b) s = .next (memoryReady t)) ∧
    (b.box.val = 4 → exec (.boxServicesReady b) s = .next { t with eng.unread := b.unread.map (·.toNat) }) ∧
    (b.box.val = 5 → exec (.boxServicesReady b) s = .next t)) ∧
  ((vget s.fw.boxes b.box.val SbState.reset).spoiled = true → exec (.boxServicesReady b) s = .next s) ∧
  (s.power.phase = .running → departed s p.val = true → s.power.readyPress.getLsbD p.val = false →
    let t : State := { s with power.testing := s.power.testing &&& ~~~(BitVec.ofNat 96 (2 ^ p.val)) }
    exec (.pressSelfTestComplete p true) s = .next { t with power.readyPress := s.power.readyPress ||| BitVec.ofNat 96 (2 ^ p.val) } ∧
    exec (.pressSelfTestComplete p false) s = .next t) ∧
  (s.pastOptions = true → (∀ c, c < 32 → (s.chan c).ready = true) →
    exec (.engineSelfTestComplete true) s = .next { s with power.readyEngine := true, power.readySampler := true }) ∧
  (value.getLsbD 63 = true → s.fw.boot = .recovery →
    let u : State := { s with fw.recoveryLen := BitVec.ofNat 32 value.toNat, fw.recoveryGo := true }
    let img := image.take u.fw.recoveryLen.toNat
    recoveryGo value image s = (if verifyImage s.nv.rollback img = 0 then startImage img 2 (endRomReads u)
      else { endRomReads u with fw.failStep := BitVec.ofNat 3 (verifyImage s.nv.rollback img), fw.recoveryGo := false })) ∧
  (value.getLsbD 63 = false ∨ s.fw.boot ≠ .recovery →
    recoveryGo value image s = { s with fw.recoveryLen := BitVec.ofNat 32 value.toNat, fw.recoveryGo := false })

/-- Every register write of the companion: over KCL in service, past option loading (R471), one of 8 aligned bytes is performed and
answered by an ACK when no earlier write waits, and else takes its place behind them (R402, R407); one of another size or alignment is
answered with ERROR (R411). What each write does is its own function, of which SystemWritesDo, RingWritesDo and MakeReadyCompletes give
the value. DESCRIPTOR_TAKE (R405, R414,
R419, R422): the next ring in turn gives its oldest descriptor; a reserved opcode completes with BAD_OPCODE; the block of a
command that has one is asked for; with no ring ready nothing happens. -/
def Obligations.RegisterWritesReach : Prop :=
  (∀ (w : CsWr) (s : State) (p : PortId) (r : Fin 3) (d : Fin 4) (j : Fin 2) (a : Fin 5)
    (i : Fin 64) (q : BitVec 12) (off : BitVec 27) (image : List Byte),
  let v := w.value
  let t := kclTake 0x02 w.tag s
  ∀ x ∈ ([(.debugResume w, 0x70000, debugResume v), (.timeSet w, 0x20028, timeSet v), (.fabricGidWrite w, 0x3200000, fabricGidWrite v),
      (.linkConfigWrite p w, 0x3000008 + 0x10000 * p.val, linkConfigWrite p.val v),
      (.clkenWrite r w, 0x40000 + 8 * r.val, clkenWrite r.val v), (.domainCtlWrite d w, 0x40040 + 8 * d.val, domainCtlWrite d v),
      (.sscCtlWrite j w, 0x40080 + 8 * j.val, sscCtlWrite j v), (.farConfigWrite w, 0x2100010, farConfigWrite v),
      (.farAreaWrite a w, 0x2100100 + 8 * a.val, farAreaWrite a v), (.kclSharedWrite w, 0x120008, kclSharedWrite v)]
    ++ [(.subCfgWrite i w, 0x100000 + 16 * i.val, subCfgWrite i v), (.subDoorbell i w, 0x100008 + 16 * i.val, subDoorbell i v),
      (.cplCfgWrite i w, 0x100400 + 16 * i.val, cplCfgWrite i v), (.cplConsumerWrite i w, 0x100408 + 16 * i.val, cplConsumerWrite i v),
      (.evtCfgWrite w, 0x100800, evtCfgWrite v), (.outCfgWrite q w, 0x108000 + 16 * q.toNat, outCfgWrite q.toNat v),
      (.outConsumerWrite q w, 0x108008 + 16 * q.toNat, outConsumerWrite q.toNat v), (.editionPtrWrite w, 0x300000, editionPtrWrite v),
      (.optionCtlWrite w, 0x6001080, optionCtlWrite v), (.registerWrite off w, off.toNat, csWrite off.toNat v),
      (.fwRecoveryGo w image, 0x6000010, recoveryGo v image)]
      : List (Instr × Nat × (State → State))),
    (s.kclUp = false ∨ s.pastOptions = false → exec x.1 s = .next s) ∧
    (s.kclUp = true → s.pastOptions = true →
      (csAligned w x.2.1 = false → exec x.1 s = .next (respond 0x21 true w.tag [] t)) ∧
      (csAligned w x.2.1 = true → t.writesWait = false → exec x.1 s = .next (respond 0x21 false w.tag [] (x.2.2 t))) ∧
      (csAligned w x.2.1 = true → t.writesWait = true →
        exec x.1 s = .next { t with kcl.reqs := t.kcl.reqs ++ [.write x.2.1 w] }))) ∧
  (∀ s : State,
  (takesCommands s = false ∨ ringTurn s = none → exec .descriptorTake s = .next s) ∧
  (∀ i, takesCommands s = true → ringTurn s = some i →
    let r := s.rings.sub[i]
    let a := r.cfg.base.toNat * 1024 + r.consumer.toNat % r.cfg.slots * 64
    let d := descAt i (memRead blank s.near.mem a 64)
    let t := touchWindow { s with
      rings.sub := s.rings.sub.set i { r with consumer := BitVec.ofNat 32 ((r.consumer.toNat + 1) % 65536) }
      rings.turn := i + 1, rings.awaiting := s.rings.awaiting.set i (s.rings.awaiting[i] + 1) }
    (lineState s.kcl a = some true → exec .descriptorTake s = .next (kclSnoop a false s)) ∧
    (lineState s.kcl a ≠ some true → knownOpcodes.contains d.opcode.toNat = false →
      exec .descriptorTake s = .next (finish d stBadOpcode 0 t)) ∧
    (lineState s.kcl a ≠ some true → knownOpcodes.contains d.opcode.toNat = true → blockOpcodes.contains d.opcode.toNat = false →
      exec .descriptorTake s = .next { t with rings.taken := t.rings.taken ++ [d] })))

/-- What the writes of time, GID, clocks, links, far tier, shared window, debug mode and option block do where nothing forbids them, and
what refuses them (R20, R158, R191, R193, R199, R201, R264 to R269, R274, R404, R443): a forme loaded, an area that would overlap, a ring enabled, a
clock that is needed. A clock enable that is cleared loses the channel, takes the port DOWN or ends the port's READY, and one that is set again
begins a port's training; with a forme loaded no near channel is gated, and CLKEN_REFUSED says so. That the other bits of a write
that is refused in part take their effect is the model's choice, log entry 147. -/
def Obligations.SystemWritesDo : Prop := ∀ (v : Reg) (d : Fin 4) (j : Fin 2) (a : Fin 5) (s : State),
  (s.time.role ≤ 1 → s.forme.state = .none → timeSet v s = { s with time.ns := v, time.frac := 0, time.slew := 0 }) ∧
  (s.forme.state ≠ .none → timeSet v s = { s with time.setRefused := true }) ∧
  (s.loaded = true → fabricGidWrite v s = s) ∧
  (s.loaded = false → v.getLsbD 32 = true → fld v.toNat 0 20 ≠ 0xFFFFF →
    (fabricGidWrite v s).fab.gid = BitVec.ofNat 20 (fld v.toNat 0 20) ∧ (fabricGidWrite v s).fab.gidValid = true) ∧
  (fld v.toNat 0 2 ≠ 3 → 1 ≤ fld v.toNat 8 8 → fld v.toNat 8 8 ≤ 64 → d.val ≠ 1 →
    ∃ x, domainCtlWrite d v s = { s with clk.domains := s.clk.domains.set d x } ∧ x.source = BitVec.ofNat 2 (fld v.toNat 0 2) ∧
      x.div = BitVec.ofNat 8 (fld v.toNat 8 8) ∧ x.sourceNow = s.clk.domains[d].sourceNow ∧ x.divNow = s.clk.domains[d].divNow) ∧
  (fld v.toNat 0 4 ≤ 10 → sscCtlWrite j v s = { s with
    clk.sscDepth := s.clk.sscDepth.set j (BitVec.ofNat 4 (fld v.toNat 0 4)), clk.sscRate := s.clk.sscRate.set j (BitVec.ofNat 2 (fld v.toNat 8 2)) }) ∧
  (10 < fld v.toNat 0 4 → (sscCtlWrite j v s).clk.sscDepth = s.clk.sscDepth) ∧
  (s.loaded = true → (clkenWrite 0 v s).clk.enNear = s.clk.enNear ||| v.setWidth 32 ∧
    (clkenWrite 0 v s).clk.refused = (s.clk.refused || s.clk.enNear &&& ~~~(v.setWidth 32) != 0)) ∧
  (∀ k, k < 32 → s.clk.enNear.getLsbD k = true → v.getLsbD k = false →
    (s.loaded = true ∨ (s.chan k).ready = true → clkBit 0 v.toNat s k = { s with clk.refused := true }) ∧
    (s.loaded = false → (s.chan k).ready = false →
      clkBit 0 v.toNat s k = gateNear k { s with clk.enNear := s.clk.enNear ^^^ BitVec.ofNat 32 (2 ^ k) })) ∧
  (∀ k, k < 32 → s.clk.enLink.getLsbD k = true → v.getLsbD k = false →
    (s.portUsed k = true → clkBit 1 v.toNat s k = { s with clk.refused := true }) ∧
    (s.portUsed k = false →
      clkBit 1 v.toNat s k = portDownWith false k { s with clk.enLink := s.clk.enLink ^^^ BitVec.ofNat 32 (2 ^ k) })) ∧
  (∀ k, k < 32 → s.clk.enLink.getLsbD k = false → v.getLsbD k = true →
    clkBit 1 v.toNat s k = beginTraining k { s with clk.enLink := s.clk.enLink ^^^ BitVec.ofNat 32 (2 ^ k) }) ∧
  (∀ k, k < 2 → s.clk.enMisc.getLsbD k = true → v.getLsbD k = false →
    (s.farUsed k = true → clkBit 2 v.toNat s k = { s with clk.refused := true }) ∧
    (s.farUsed k = false → clkBit 2 v.toNat s k = gateFar k { s with clk.enMisc := s.clk.enMisc ^^^ BitVec.ofNat 3 (2 ^ k) })) ∧
  (∀ r, (∀ k, k < (if r = 2 then 3 else 32) →
      (if r = 0 then s.clk.enNear.getLsbD k else if r = 1 then s.clk.enLink.getLsbD k else s.clk.enMisc.getLsbD k) = v.getLsbD k) →
    clkenWrite r v s = s) ∧
  (v.getLsbD 2 = false ∨ s.dbg.stopped = [] → debugResume v s = s) ∧
  (v.getLsbD 2 = true → s.dbg.stopped ≠ [] → s.dbg.stopped.contains .engine = false →
    let t := debugResume v s
    t.dbg.stopped = [] ∧ t.dbg.passed = s.dbg.passed ++ s.dbg.stopped ∧ (∀ h ∈ t.tt.holds, h.cause = .debug → h.resume ≠ none) ∧
    (∀ p x, Stopped.stream p x ∈ s.dbg.stopped → ((t.press p.val).stream x).state ≠ .stopped) ∧
    (Stopped.sampler ∈ s.dbg.stopped → t.smp.stopped = false)) ∧
  (∀ k, k < 32 → s.clk.enLink.getLsbD k = false → linkConfigWrite k v s = s) ∧
  (∀ k, k < 32 → s.clk.enLink.getLsbD k = true → v.getLsbD 16 = true → (s.port k).enable = true →
    linkConfigWrite k v s = s.modPort k (fun q => { q with
      marginFloor := BitVec.ofNat 8 (fld v.toNat 8 8), enable := true
      reachCfg := if fld v.toNat 0 2 = 3 then q.reachCfg else BitVec.ofNat 2 (fld v.toNat 0 2) })) ∧
  (∀ k, k < 32 → s.clk.enLink.getLsbD k = true → v.getLsbD 16 = false → (s.port k).state ≠ .down →
    linkConfigWrite k v s = portDown k (s.modPort k (fun q => { q with
      marginFloor := BitVec.ofNat 8 (fld v.toNat 8 8), enable := false
      reachCfg := if fld v.toNat 0 2 = 3 then q.reachCfg else BitVec.ofNat 2 (fld v.toNat 0 2) }))) ∧
  (let t : State := { s with
      fw.optionDone := s.fw.optionDone && !v.getLsbD 1, fw.optionError := s.fw.optionError && !v.getLsbD 2 };
    (v.getLsbD 0 = false ∨ s.loaded = true ∨ s.nv.job ≠ none → optionCtlWrite v s = t) ∧
    (v.getLsbD 0 = true → s.loaded = false → s.nv.job = none → optionCtlWrite v s =
      if optionOk (optionRegs s) then { t with nv.job := some .option } else { t with fw.optionError := true })) ∧
  (s.loaded = true → (farConfigWrite v s).far.interleave = s.far.interleave ∧ farAreaWrite a v s = s) ∧
  (s.loaded = false → (farConfigWrite v s).far.interleave = v.getLsbD 0) ∧
  (s.loaded = false →
    (∃ k : Fin 5, k ≠ a ∧ areasMeet (fld v.toNat 0 32, fld v.toNat 32 32) (s.far.areaBase[k].toNat, s.far.areaSize[k].toNat) = true) →
    farAreaWrite a v s = { s with far.areaError := true }) ∧
  (s.loaded = false →
    (∀ k : Fin 5, k ≠ a → areasMeet (fld v.toNat 0 32, fld v.toNat 32 32) (s.far.areaBase[k].toNat, s.far.areaSize[k].toNat) = false) →
    farAreaWrite a v s = { s with
      far.areaBase := s.far.areaBase.set a (BitVec.ofNat 32 (fld v.toNat 0 32))
      far.areaSize := s.far.areaSize.set a (BitVec.ofNat 32 (fld v.toNat 32 32)) }) ∧
  ((enabledSpans s).isEmpty = false → kclSharedWrite v s = s) ∧
  ((enabledSpans s).isEmpty = true → fld v.toNat 0 32 % 4096 = 0 → fld v.toNat 0 32 ≤ 4194304 →
    kclSharedWrite v s = { s with kcl.sharedSize := BitVec.ofNat 32 (fld v.toNat 0 32) })

/-- What the writes of the rings and of the edition page do (R347, R413 to R415, R426, R476): an enabled ring takes only the
clearing of ENABLE; a ring of submissions or completions (SIZE 4 to 12), of events (6 to 12) or of output (6 to 20) that is enabled with a
legal size on a free span is empty; an illegal one leaves CFG_ERROR; one that stays disabled takes what is written; a doorbell beyond
the ring's size is ignored with an event; a consumer index makes room; an enabled edition page brings an edition at once. -/
def Obligations.RingWritesDo : Prop := ∀ (i : Fin 64) (q : Nat) (v : Reg) (s : State),
  let n := ringCfgOf 6 false v.toNat
  (s.rings.sub[i].cfg.enable = true → subCfgWrite i v s =
    { s with rings.sub := s.rings.sub.set i { s.rings.sub[i] with cfg.enable := v.getLsbD 63 } }) ∧
  (s.rings.sub[i].cfg.enable = false → v.getLsbD 63 = true → 4 ≤ n.size.toNat → n.size.toNat ≤ 12 →
    spanFree 4096 (n.base.toNat * 1024, 64 * 2 ^ n.size.toNat) s = true →
    subCfgWrite i v s = { s with rings.sub := s.rings.sub.set i ⟨n, 0, 0⟩ }) ∧
  (s.rings.sub[i].cfg.enable = false → v.getLsbD 63 = true → n.size.toNat < 4 ∨ 12 < n.size.toNat →
    subCfgWrite i v s = { s with kcl.cfgError := true }) ∧
  (s.rings.sub[i].cfg.enable = false → v.getLsbD 63 = false →
    subCfgWrite i v s = { s with rings.sub := s.rings.sub.set i { s.rings.sub[i] with cfg := n } }) ∧
  (let c := ringCfgOf 16 true v.toNat;
    (s.rings.cpl[i].cfg.enable = true → cplCfgWrite i v s =
      flushAll { s with rings.cpl := s.rings.cpl.set i { s.rings.cpl[i] with cfg.enable := v.getLsbD 63 } }) ∧
    (s.rings.cpl[i].cfg.enable = false → v.getLsbD 63 = false → cplCfgWrite i v s =
      flushAll { s with rings.cpl := s.rings.cpl.set i { s.rings.cpl[i] with cfg := c } }) ∧
    (s.rings.cpl[i].cfg.enable = false → v.getLsbD 63 = true → 4 ≤ c.size.toNat → c.size.toNat ≤ 12 →
      spanFree 4096 (c.base.toNat * 1024, 32 * 2 ^ c.size.toNat) s = true →
      cplCfgWrite i v s = flushAll { s with rings.cpl := s.rings.cpl.set i ⟨c, 0, 0⟩ }) ∧
    (s.rings.cpl[i].cfg.enable = false → v.getLsbD 63 = true →
      c.size.toNat < 4 ∨ 12 < c.size.toNat ∨ spanFree 4096 (c.base.toNat * 1024, 32 * 2 ^ c.size.toNat) s = false →
      cplCfgWrite i v s = { s with kcl.cfgError := true }) ∧
    (s.rings.evt.cfg.enable = true → evtCfgWrite v s = { s with rings.evt := { s.rings.evt with cfg.enable := v.getLsbD 63 } }) ∧
    (s.rings.evt.cfg.enable = false → v.getLsbD 63 = false → evtCfgWrite v s = { s with rings.evt := { s.rings.evt with cfg := c } }) ∧
    (s.rings.evt.cfg.enable = false → v.getLsbD 63 = true → 6 ≤ c.size.toNat → c.size.toNat ≤ 12 →
      spanFree 4096 (c.base.toNat * 1024, 32 * 2 ^ c.size.toNat) s = true → evtCfgWrite v s = { s with rings.evt := ⟨c, 0, 0⟩ }) ∧
    (s.rings.evt.cfg.enable = false → v.getLsbD 63 = true →
      c.size.toNat < 6 ∨ 12 < c.size.toNat ∨ spanFree 4096 (c.base.toNat * 1024, 32 * 2 ^ c.size.toNat) s = false →
      evtCfgWrite v s = { s with kcl.cfgError := true })) ∧
  (let c := ringCfgOf 16 false v.toNat
    let x := outRing s q;
    (x.cfg.enable = true → v.getLsbD 63 = true ∨ ringNamed s q = false →
      outCfgWrite q v s = { s with rings.out := kset q { x with cfg.enable := v.getLsbD 63 } s.rings.out }) ∧
    (x.cfg.enable = false → v.getLsbD 63 = false → outCfgWrite q v s = { s with rings.out := kset q { x with cfg := c } s.rings.out }) ∧
    (x.cfg.enable = false → v.getLsbD 63 = true → 6 ≤ c.size.toNat → c.size.toNat ≤ 20 →
      spanFree 4096 (c.base.toNat * 1024, 32 * 2 ^ c.size.toNat) s = true →
      outCfgWrite q v s = { s with rings.out := kset q ⟨c, 0, 0⟩ s.rings.out }) ∧
    (x.cfg.enable = false → v.getLsbD 63 = true →
      c.size.toNat < 6 ∨ 20 < c.size.toNat ∨ spanFree 4096 (c.base.toNat * 1024, 32 * 2 ^ c.size.toNat) s = false →
      outCfgWrite q v s = { s with kcl.cfgError := true })) ∧
  (let p := fld v.toNat 0 16
    let x := s.rings.sub[i];
    (x.cfg.slots < (p + 65536 - x.consumer.toNat) % 65536 →
      subDoorbell i v s = postEvent evRingError i.val v.toNat 0 (touchWindow s)) ∧
    ((p + 65536 - x.consumer.toNat) % 65536 ≤ x.cfg.slots →
      (subDoorbell i v s).rings.sub = s.rings.sub.set i { x with producer := BitVec.ofNat 32 p })) ∧
  (cplConsumerWrite i v s = flushAll { s with
    rings.cpl := s.rings.cpl.set i { s.rings.cpl[i] with consumer := BitVec.ofNat 32 (fld v.toNat 0 16) } }) ∧
  ((outRing s q).cfg.enable = true → v.getLsbD 63 = false → ringNamed s q = true → outCfgWrite q v s = s) ∧
  (let t : State := { s with
      rings.out := kset q { outRing s q with consumer := BitVec.ofNat 32 (fld v.toNat 0 32) } s.rings.out };
    (s.rings.commit = none → outConsumerWrite q v s = cancelGoOn t) ∧
    (s.rings.commit = none → s.eng.late = [] → outConsumerWrite q v s = t)) ∧
  (s.rings.edEnable = true → editionPtrWrite v s = { s with rings.edEnable := v.getLsbD 63 }) ∧
  (s.rings.edEnable = false → v.getLsbD 63 = false →
    editionPtrWrite v s = { s with rings.edBase := BitVec.ofNat 22 (fld v.toNat 0 22) }) ∧
  (s.rings.edEnable = false → v.getLsbD 63 = true → spanFree 32768 (fld v.toNat 0 22 * 1024, 32768) s = true →
    editionPtrWrite v s = writeEdition { s with rings.edBase := BitVec.ofNat 22 (fld v.toNat 0 22), rings.edEnable := true }) ∧
  (s.rings.edEnable = false → v.getLsbD 63 = true → spanFree 32768 (fld v.toNat 0 22 * 1024, 32768) s = false →
    editionPtrWrite v s = { s with kcl.cfgError := true })

/-- KCL requests and responses (R402 to R407, R409 to R411, R471): the companion's requests are performed in the order received, so a
control read is answered once every earlier request has been performed, and a window request waits for its channel, or for the requests
before it; one outside the window, of an illegal length, or with the near tier not READY, is answered with ERROR; a line written back that
is not held in E is only answered, and one whose data a snoop waits for does not wait for earlier requests (log entry 137); a line given up
clean leaves the directory; data of a MEM_RD is kept for its command, and one answered with ERROR ends its command, or the ROM's wait (log
entry 138); a snoop answered or timed out ends. That a bulk access beyond the near tier stops is the model's choice, log entry 157. -/
def Obligations.KclRequestsComplete : Prop := ∀ (tag : BitVec 16) (off : BitVec 27) (addr : BitVec 62) (n : BitVec 16) (mask : BitVec 64)
    (data : List Byte) (line : BitVec 512) (s : State),
  let a := lineBase addr.toNat
  let bad (k : Nat) : Prop := k < 64 ∨ 1024 < k ∨ k % 64 ≠ 0
  (∀ u : State, u.kcl.reqs = [] →
    receiveReq (.read tag off.toNat) u =
      (if u.givenWaits then { u with kcl.reqs := [.read tag off.toNat] } else csAnswer tag off.toNat u) ∧
    receiveReq (.window (.evict tag a)) u = evictLine tag a u ∧
    (lineState u.kcl a = none → evictLine tag a u = respond 0x21 false tag [] u) ∧
    receiveReq (.window (.writeback tag a line)) u =
      (if lineState u.kcl a = some true then { u with kcl.reqs := [.window (.writeback tag a line)] } else respond 0x21 false tag [] u) ∧
    (∀ h ∈ [HostAccess.readShared tag a, .readOwn tag a],
      receiveReq (.window h) u = recallFor a { u with kcl.reqs := [.window h] }) ∧
    (∀ h ∈ [HostAccess.bulkRead tag addr.toNat n.toNat, .bulkWrite tag addr.toNat mask data],
      receiveReq (.window h) u = { u with kcl.reqs := [.window h] })) ∧
  (∀ u : State, u.kcl.reqs ≠ [] → nextReady u true false u.kcl.reqs = none →
    ∀ r ∈ [Held.read tag off.toNat, .window (.readShared tag a), .window (.readOwn tag a), .window (.writeback tag a line),
        .window (.evict tag a), .window (.bulkRead tag addr.toNat n.toNat), .window (.bulkWrite tag addr.toNat mask data)],
      receiveReq r u = recallFirst { u with kcl.reqs := u.kcl.reqs ++ [r] }) ∧
  (s.kclUp = false ∨ s.pastOptions = false → exec (.csRd tag off) s = .next s) ∧
  (s.kclUp = true →
  (s.pastOptions = true → exec (.csRd tag off) s = .next (receiveReq (.read tag off.toNat) (kclTake 0x01 tag s))) ∧
  (let t := touchWindow (kclTake 0x03 tag s);
    (lineInside s addr.toNat = false ∨ t.nearReady = false → exec (.rdShared tag addr) s = .next (respond 0x22 true tag (zeros 64) t)) ∧
    (lineInside s addr.toNat = true → t.nearReady = true →
      exec (.rdShared tag addr) s = .next (receiveReq (.window (.readShared tag a)) t))) ∧
  (let t := touchWindow (kclTake 0x04 tag s);
    (lineInside s addr.toNat = false ∨ t.nearReady = false → exec (.rdOwn tag addr) s = .next (respond 0x23 true tag (zeros 64) t)) ∧
    (lineInside s addr.toNat = true → t.nearReady = true →
      exec (.rdOwn tag addr) s = .next (receiveReq (.window (.readOwn tag a)) t))) ∧
  (let t := touchWindow (kclTake 0x05 tag s)
    let u := if t.nearReady then receiveReq (.window (.writeback tag a line)) t else respond 0x21 true tag [] t
    exec (.writeback tag addr line) s = .next (if u.kcl.snoops.any (fun x => x.1 == a) then pullForward a u else u)) ∧
  (let t := touchWindow (kclTake 0x06 tag s);
    exec (.evict tag addr) s =
      .next (if t.nearReady then receiveReq (.window (.evict tag a)) t else respond 0x21 true tag [] t)) ∧
  (let t := touchWindow (kclTake 0x07 tag s);
    (bad n.toNat → exec (.bulkRd tag addr n) s = .next (respond 0x24 true tag (zeros 64) t)) ∧
    (¬bad n.toNat → addr.toNat + n.toNat ≤ nearBytes →
      exec (.bulkRd tag addr n) s = .next (if t.nearReady then receiveReq (.window (.bulkRead tag addr.toNat n.toNat)) t
        else respond 0x24 true tag (zeros 64) t)) ∧
    (¬bad n.toNat → nearBytes < addr.toNat + n.toNat → exec (.bulkRd tag addr n) s = .fault (.noSuchAddress addr.toNat))) ∧
  (let t := touchWindow (kclTake 0x08 tag s);
    (bad data.length → exec (.bulkWr tag addr mask data) s = .next (respond 0x21 true tag [] t)) ∧
    (¬bad data.length → addr.toNat + data.length ≤ nearBytes →
      exec (.bulkWr tag addr mask data) s = .next (if t.nearReady then receiveReq (.window (.bulkWrite tag addr.toNat mask data)) t
        else respond 0x21 true tag [] t)) ∧
    (¬bad data.length → nearBytes < addr.toNat + data.length →
      exec (.bulkWr tag addr mask data) s = .fault (.noSuchAddress addr.toNat))) ∧
  (let t := kclTake 0x24 tag s;
    let rest := t.kcl.reads.filter (fun x => x.tag != tag)
    (t.kcl.reads.find? (fun r => r.tag == tag) = none →
      exec (.kclData tag false data) s = .next t ∧ exec (.kclData tag true data) s = .next t) ∧
    (∀ r, t.kcl.reads.find? (fun r => r.tag == tag) = some r →
      (∀ d off, r.cmd = some d → r.off = some off → exec (.kclData tag false data) s = .next (issueReads readsInFlight
        (blockGo d { t with kcl.reads := rest, kcl.got := t.kcl.got ++ [(d, off, data)] }))) ∧
      (r.cmd = none ∨ r.off = none →
        exec (.kclData tag false data) s = .next (issueReads readsInFlight { t with kcl.reads := rest })) ∧
      (∀ d, r.cmd = some d → exec (.kclData tag true data) s = .next (issueReads readsInFlight (readError d t))) ∧
      (r.cmd = none → exec (.kclData tag true data) s = .next (issueReads readsInFlight (romReadError t))))) ∧
  (let t := kclTake 0x21 tag s;
    exec (.kclAck tag) s = .next { t with kcl.intrs := t.kcl.intrs.erase tag }) ∧
  (let t := kclTake 0x25 0 s;
    exec (.snpAck addr) s = .next (snoopAnswer addr.toNat t)) ∧
  (let t := kclTake 0x26 0 s;
    (∀ x inv, t.kcl.snoops.find? (fun x => x.1 == a) = some (x, inv) →
      exec (.snpData addr line) s = .next (if lineState t.kcl addr.toNat = some true ∧ t.lineDue addr.toNat = false then
        { t.modChan (addr.toNat / 1024 % 32) (fun c => { c with host := c.host ++ [.snpData a inv line] }) with
          kcl.snoops := t.kcl.snoops.filter (fun x => x.1 != a) }
        else snoopAnswer addr.toNat t)) ∧
    (t.kcl.snoops.find? (fun x => x.1 == a) = none → exec (.snpData addr line) s = .next t)) ∧
  (s.kcl.snoops.any (fun x => x.1 == a) = true → exec (.snoopTimeout addr) s = .next (companionGo
    (postEvent evSnoop 0 a 0 (dropLine addr.toNat { s with
      kcl.snoops := s.kcl.snoops.filter (fun x => x.1 != a), kcl.snoopTimeouts := satInc s.kcl.snoopTimeouts })))) ∧
  (s.kcl.snoops.any (fun x => x.1 == a) = false → exec (.snoopTimeout addr) s = .next s))

/-- The management endpoint. An address is taken on the auxiliary supply, with the provisional identifier presented, whose low 32 bits are
those of IDENT_SERIAL (R491). An endpoint without that supply or without an
address hears nothing (R449, R491). MCTP control assigns the EID, reads it, and answers any other command (R449); PLDM reports a
sensor, its absence, or its being unavailable with only auxiliary power (R449); a control access reads or writes control space, and
is refused at an unaligned offset or with only auxiliary power (R20, R449). SPDM answers Busy until SB0 is READY (R430, R449), and
then each request with its response, or with an error: before negotiation where it needs one, for a slot, an offset or an operation
that there is none of, and for a signature that no response before it has (R448, R450 to R452). The codes and the layouts of these
messages are the model's: log entry 52. -/
def Obligations.ManagementCommandsComplete : Prop := ∀ (addr : BitVec 7) (write : Bool) (msg : List Byte) (off : BitVec 27) (v : Reg) (s : State),
  (s.power.auxUp = true → exec (.dynamicAddressAssignment addr) s =
    .next (mgmtSend (leBytes 6 provisionalId.toNat).reverse { s with mgmt.address := some addr })) ∧
  provisionalId.setWidth 32 = Config.serial.setWidth 32 ∧
  (s.power.auxUp = false → exec (.dynamicAddressAssignment addr) s = .next s) ∧
  (endpointUp s = false → ∀ c ∈ [Instr.mctpControl msg, .pldm msg, .mgmtControlAccess write off v, .getVersion msg, .getCapabilities msg,
    .negotiateAlgorithms msg, .getDigests msg, .getCertificate msg, .challenge msg, .getMeasurements msg, .pqSignature msg,
    .pqCertificate msg], exec c s = .next s) ∧
  (endpointUp s = true →
    (let head : List Byte := leBytes 1 0 ++ leBytes 1 (leAt msg 1 1 % 32) ++ leBytes 1 (leAt msg 2 1) ++ leBytes 1 0
      let eid := leAt msg 4 1
      let assigns := leAt msg 2 1 = 1 ∧ eid ≠ 0 ∧ eid ≠ 255
      let b := freeBytes 2 msg s
      let c := freeBytes 8 msg s
      (assigns → exec (.mctpControl msg) s =
        .next (mgmtSend (head ++ leBytes 1 0 ++ leBytes 1 eid ++ leBytes 1 0) { s with mgmt.eid := BitVec.ofNat 8 eid })) ∧
      (leAt msg 2 1 = 2 → exec (.mctpControl msg) s = .next (mgmtSend (head ++ leBytes 1 s.mgmt.eid.toNat ++ b.1) b.2)) ∧
      (¬assigns → leAt msg 2 1 ≠ 2 → exec (.mctpControl msg) s = .next (mgmtSend (head ++ c.1) c.2))) ∧
    (mainUp s = false → exec (.pldm msg) s = .next (mgmtSend (sliceBytes msg 0 4 ++ leBytes 1 0 ++ leBytes 1 2) s)) ∧
    (∀ r, mainUp s = true → sensorReading s (leAt msg 4 2) = some r → exec (.pldm msg) s =
      .next (mgmtSend (sliceBytes msg 0 4 ++ leBytes 1 0 ++ leBytes 1 0 ++ leBytes 2 r) s)) ∧
    (mainUp s = true → sensorReading s (leAt msg 4 2) = none → exec (.pldm msg) s =
      .next (mgmtSend (sliceBytes msg 0 4 ++ leBytes 1 0x80) s)) ∧
    (mainUp s = false ∨ off.toNat % 8 ≠ 0 →
      exec (.mgmtControlAccess write off v) s = .next (mgmtSend (leBytes 1 0x7F ++ leBytes 1 1) s)) ∧
    (mainUp s = true → off.toNat % 8 = 0 →
      exec (.mgmtControlAccess true off v) s = .next (mgmtSend (leBytes 1 0x7F ++ leBytes 1 0) (csWrite off.toNat v s)) ∧
      (∀ r, readReg s off.toNat = some r → exec (.mgmtControlAccess false off v) s =
        .next (mgmtSend (leBytes 1 0x7F ++ leBytes 1 0 ++ leBytes 8 r) s)) ∧
      (readReg s off.toNat = none → exec (.mgmtControlAccess false off v) s =
        .next (mgmtSend (leBytes 1 0x7F ++ leBytes 1 0 ++ zeros 8) (countUnmapped s)))) ∧
    (mainUp s = false ∨ s.fw.boot ≠ .running ∨ s.power.readyBox.getLsbD 0 = false →
      ∀ c ∈ [Instr.getVersion msg, .getCapabilities msg, .negotiateAlgorithms msg, .getDigests msg, .getCertificate msg, .challenge msg,
        .getMeasurements msg, .pqSignature msg, .pqCertificate msg], exec c s = .next (spdmError spdmBusy s)) ∧
    (mainUp s = true → s.fw.boot = .running → s.power.readyBox.getLsbD 0 = true →
      exec (.getVersion msg) s = .next (mgmtSend (leBytes 1 0x10 ++ leBytes 1 0x04 ++ zeros 3 ++ leBytes 1 1 ++ leBytes 2 0x1300)
        { s with mgmt.negotiated := false, mgmt.signed := none }) ∧
      (let b := freeBytes 9 msg s;
        exec (.getCapabilities msg) s = .next (mgmtSend
          (spdm 0x61 0 0 (zeros 1 ++ b.1.take 1 ++ zeros 2 ++ leBytes 4 0x16 ++ b.1.drop 1)) b.2)) ∧
      (let asym := if bitAt (leAt msg 8 4) 10 then 0x400 else 0
        let hash := if bitAt (leAt msg 12 4) 3 then 0x8 else 0
        exec (.negotiateAlgorithms msg) s = .next (mgmtSend (spdm 0x63 0 0 (leBytes 2 36 ++ leBytes 1 1 ++ zeros 1 ++ leBytes 4 0x10
          ++ leBytes 4 asym ++ leBytes 4 hash ++ zeros 16)) { s with mgmt.negotiated := asym != 0 && hash != 0 })) ∧
      (s.mgmt.negotiated = false → ∀ c ∈ [Instr.getDigests msg, .getCertificate msg, .challenge msg, .getMeasurements msg,
        .pqSignature msg, .pqCertificate msg], exec c s = .next (spdmError spdmUnexpected s)) ∧
      (s.mgmt.negotiated = true →
        exec (.getDigests msg) s = .next (mgmtSend (spdm 0x01 0 1 (sha256 (Config.chain false))) s) ∧
        exec (.getCertificate msg) s = .next (if leAt msg 2 1 % 16 ≠ 0 ∨ (Config.chain false).length ≤ leAt msg 4 2 then
          spdmError spdmInvalid s else mgmtSend (spdm 0x02 0 0 (chainPortion false (leAt msg 4 2) (leAt msg 6 2))) s) ∧
        (let n := freeBytes 32 msg s
          let all := (List.range 10).flatMap (fun i => measurementBlock n.2 (i + 1))
          exec (.challenge msg) s = .next (if leAt msg 2 1 ≠ 0 then spdmError spdmInvalid s
            else spdmSigned 0x03 msg (spdm 0x03 0 1 (sha256 (Config.chain false) ++ n.1 ++
              (if leAt msg 3 1 = 0 then [] else sha256 all) ++ zeros 2)) n.2)) ∧
        (let op := leAt msg 3 1
          let list := if op = 0 then [] else if op = 255 then (List.range 10).map (· + 1) else [op]
          let record := list.flatMap (measurementBlock s)
          let n := freeBytes 32 msg s
          let resp := spdm 0x60 (if op = 0 then 10 else 0) 0
            (leBytes 1 list.length ++ leBytes 3 record.length ++ record ++ n.1 ++ zeros 2)
          exec (.getMeasurements msg) s = .next (if op ≠ 255 ∧ 10 < op then spdmError spdmInvalid s
            else if bitAt (leAt msg 2 1) 0 then spdmSigned 0x60 msg resp n.2
            else mgmtSend resp { n.2 with mgmt.signed := none })) ∧
        (∀ m, s.mgmt.signed = some m → exec (.pqSignature msg) s = .next (vendorResponse msg (mldsaSignature m) s)) ∧
        (s.mgmt.signed = none → exec (.pqSignature msg) s = .next (spdmError spdmInvalid s)) ∧
        exec (.pqCertificate msg) s = .next (if (Config.chain true).length ≤ leAt msg 14 4 then spdmError spdmInvalid s
          else vendorResponse msg (chainPortion true (leAt msg 14 4) 1024) s))))
end

