-- ==== Sys2Proof/Laws/Hash.lean ====
section
/-! SUPPORT. Lengths of digests. -/

namespace Sys2Proof.Machine

/-- A number as so many bytes. -/
theorem leBytes_length (n : Nat) : ∀ v : Nat, (leBytes n v).length = n := by
  induction n with
  | zero => exact fun _ => rfl
  | succ n ih => exact fun v => by simp [leBytes, ih]

/-- A round keeps 25 lanes. -/
theorem keccakRound_length (a : List (BitVec 64)) (rc : BitVec 64) : (keccakRound a rc).length = 25 := by
  simp [keccakRound, List.range_succ_eq_map]

/-- Rounds that keep 25 lanes, one after another. -/
theorem foldl_length {β : Type} (f : List (BitVec 64) → β → List (BitVec 64)) (h : ∀ a x, a.length = 25 → (f a x).length = 25) :
    ∀ (l : List β) (a : List (BitVec 64)), a.length = 25 → (l.foldl f a).length = 25
  | [], _, ha => ha
  | x :: l, a, ha => foldl_length f h l (f a x) (h a x ha)

/-- Keccak-f keeps 25 lanes. -/
theorem keccakF_length (a : List (BitVec 64)) (h : a.length = 25) : (keccakF a).length = 25 :=
  foldl_length _ (fun a rc _ => keccakRound_length a rc) _ _ h

/-- A SHA3-256 digest is 32 bytes. -/
theorem sha256_length (m : List Byte) : (sha256 m).length = 32 := by
  have h : ((chunks 136 (m.length + 1) (sha3Pad 136 m)).foldl absorbBlock (List.replicate 25 0)).length = 25 :=
    foldl_length _ (fun a b ha => keccakF_length _ (by simp [ha])) _ _ (by simp)
  simp only [sha256, sha3, List.length_take, List.length_flatMap, leBytes_length, List.map_const', List.sum_replicate, h]
  rfl

/-- Bytes that follow others, as a slice. -/
theorem sliceBytes_append (a b c : List Byte) : sliceBytes (a ++ (b ++ c)) a.length b.length = b := by
  simp [sliceBytes]
  rfl

end Sys2Proof.Machine
end

