-- ==== Sys2Proof/Laws/Memory.lean ====
section
/-! SUPPORT. Byte memories: every operation keeps the canonical form, and a read after a write. -/

namespace Sys2Proof.Machine

/-- The canonical form of a list with a first cell: the cell's byte is listed for a reason, and every other cell is above it. -/
theorem Memory.wf_cons (d : Byte) (a : Nat) (x : Byte) (m : Memory) :
    Memory.wf d ((a, x) :: m) = true ↔ x ≠ d ∧ Memory.wf d m = true ∧ ∀ c ∈ m, a < c.1 := by
  induction m generalizing a x with
  | nil => simp [Memory.wf]
  | cons c m ih =>
    obtain ⟨b, y⟩ := c
    rw [Memory.wf, Bool.and_eq_true, Bool.and_eq_true, ih]
    simp only [bne_iff_ne, decide_eq_true_eq, List.mem_cons, forall_eq_or_imp]
    constructor
    · rintro ⟨⟨h1, h2⟩, h3, h4, h5⟩
      exact ⟨h1, ⟨h3, h4, h5⟩, h2, fun c hc => Nat.lt_trans h2 (h5 c hc)⟩
    · rintro ⟨h1, ⟨h3, h4, h5⟩, h2, -⟩
      exact ⟨⟨h1, h2⟩, h3, h4, h5⟩

/-- The cells of a memory with one byte written: an old one, or the new one. -/
theorem memPut_mem (d : Byte) (a : Nat) (x : Byte) (m : Memory) : ∀ c ∈ memPut d a x m, c ∈ m ∨ c = (a, x) := by
  induction m with
  | nil =>
    intro c
    rw [memPut]
    split <;> simp
  | cons e m ih =>
    obtain ⟨b, y⟩ := e
    intro c
    rw [memPut]
    split
    · split
      · exact Or.inl
      · rw [List.mem_cons]
        exact Or.symm
    · split
      · split
        · exact fun h => .inl (List.mem_cons_of_mem _ h)
        · rw [List.mem_cons]
          exact fun h => h.elim .inr (fun h => .inl (List.mem_cons_of_mem _ h))
      · rw [List.mem_cons, List.mem_cons]
        exact fun h => h.elim (fun h => .inl (.inl h)) (fun h => (ih c h).imp .inr id)

/-- A byte written keeps the canonical form. -/
theorem memPut_wf (d : Byte) (a : Nat) (x : Byte) (m : Memory) (h : Memory.wf d m = true) : Memory.wf d (memPut d a x m) = true := by
  induction m with
  | nil =>
    rw [memPut]
    split
    · rfl
    · simp [Memory.wf, *]
  | cons e m ih =>
    obtain ⟨b, y⟩ := e
    obtain ⟨h1, h2, h3⟩ := (Memory.wf_cons d b y m).1 h
    rw [memPut]
    split
    · rename_i hab
      split
      · exact h
      · refine (Memory.wf_cons d a x _).2 ⟨‹_›, h, fun c hc => ?_⟩
        rcases List.mem_cons.1 hc with rfl | hc
        · exact hab
        · exact Nat.lt_trans hab (h3 c hc)
    · split
      · subst a
        split
        · exact h2
        · exact (Memory.wf_cons d b x m).2 ⟨‹_›, h2, h3⟩
      · refine (Memory.wf_cons d b y _).2 ⟨h1, ih h2, fun c hc => ?_⟩
        rcases memPut_mem d a x m c hc with hc | rfl
        · exact h3 c hc
        · show b < a
          omega

/-- Bytes written keep the canonical form. -/
theorem memWrite_wf (d : Byte) (bs : List Byte) : ∀ (a : Nat) (m : Memory), Memory.wf d m = true → Memory.wf d (memWrite d a bs m) = true := by
  induction bs with
  | nil => exact fun _ _ h => h
  | cons x bs ih => exact fun a m h => ih (a + 1) _ (memPut_wf d a x m h)

/-- Cells left out keep the canonical form. -/
theorem Memory.wf_filter (d : Byte) (p : Host.Cell → Bool) (m : Memory) (h : Memory.wf d m = true) :
    Memory.wf d (m.filter p) = true := by
  induction m with
  | nil => rfl
  | cons c m ih =>
    obtain ⟨a, x⟩ := c
    obtain ⟨h1, h2, h3⟩ := (Memory.wf_cons d a x m).1 h
    rw [List.filter_cons]
    split
    · exact (Memory.wf_cons d a x _).2 ⟨h1, ih h2, fun c hc => h3 c (List.mem_filter.1 hc).1⟩
    · exact ih h2

/-- A range cleared keeps the canonical form. -/
theorem memClear_wf (d : Byte) (a n : Nat) (m : Memory) (h : Memory.wf d m = true) : Memory.wf d (memClear a n m) = true :=
  Memory.wf_filter d _ m h

/-- An entry written keeps the canonical form. -/
theorem memPutEntry_wf (m : Memory) (k : Nat) (e : Entry) (h : Memory.wf blank m = true) : Memory.wf blank (memPutEntry m k e) = true :=
  memWrite_wf blank _ _ m h

/-- Below its first cell a memory reads as never written. -/
theorem memGet_below (d : Byte) (a : Nat) (m : Memory) (h : ∀ c ∈ m, a < c.1) : memGet d m a = d := by
  cases m with
  | nil => rfl
  | cons c m =>
    have h1 : a < c.1 := h c (List.mem_cons_self ..)
    obtain ⟨b, y⟩ := c
    have h1 : a < b := h1
    rw [memGet, if_neg (by omega), if_pos h1]

/-- A byte written is read back. -/
theorem memGet_memPut_same (d : Byte) (a : Nat) (x : Byte) (m : Memory) (h : Memory.wf d m = true) :
    memGet d (memPut d a x m) a = x := by
  induction m with
  | nil =>
    rw [memPut]
    split
    · simp [memGet, *]
    · simp [memGet]
  | cons e m ih =>
    obtain ⟨b, y⟩ := e
    obtain ⟨h1, h2, h3⟩ := (Memory.wf_cons d b y m).1 h
    rw [memPut]
    split
    · rename_i hab
      split
      · rename_i hx
        rw [memGet, if_neg (by omega), if_pos hab, hx]
      · rw [memGet, if_pos rfl]
    · split
      · subst a
        split
        · rename_i hx
          rw [memGet_below d b m h3, hx]
        · rw [memGet, if_pos rfl]
      · rw [memGet, if_neg ‹_›, if_neg ‹_›]
        exact ih h2

/-- A byte written leaves every other one. -/
theorem memGet_memPut_other (d : Byte) (a b : Nat) (x : Byte) (m : Memory) (h : Memory.wf d m = true) (hab : b ≠ a) :
    memGet d (memPut d a x m) b = memGet d m b := by
  induction m with
  | nil =>
    rw [memPut]
    split
    · rfl
    · simp [memGet, hab]
  | cons e m ih =>
    obtain ⟨k, y⟩ := e
    obtain ⟨h1, h2, h3⟩ := (Memory.wf_cons d k y m).1 h
    rw [memPut]
    split
    · rename_i hak
      split
      · rfl
      · rw [memGet, if_neg hab]
        split
        · rw [memGet, if_neg (by omega), if_pos (by omega)]
        · rfl
    · split
      · subst a
        have hl : memGet d m b = memGet d ((k, y) :: m) b ∨ b < k := by
          by_cases hb : b < k
          · exact .inr hb
          · exact .inl (by rw [memGet, if_neg hab, if_neg hb])
        split
        · rcases hl with hl | hb
          · exact hl
          · rw [memGet, if_neg hab, if_pos hb, memGet_below d b m (fun c hc => Nat.lt_trans hb (h3 c hc))]
        · rw [memGet, memGet]
          simp only [hab, if_false]
      · rw [memGet, memGet]
        split
        · rfl
        · split
          · rfl
          · exact ih h2

/-- Bytes written leave every address outside them. -/
theorem memGet_memWrite_other (d : Byte) (bs : List Byte) : ∀ (a b : Nat) (m : Memory), Memory.wf d m = true →
    (b < a ∨ a + bs.length ≤ b) → memGet d (memWrite d a bs m) b = memGet d m b := by
  induction bs with
  | nil => exact fun _ _ _ _ _ => rfl
  | cons x bs ih =>
    intro a b m h hb
    rw [List.length_cons] at hb
    rw [memWrite, ih (a + 1) b _ (memPut_wf d a x m h) (by omega), memGet_memPut_other d a b x m h (by omega)]

/-- Bytes written are read back. -/
theorem memGet_memWrite_same (d : Byte) (bs : List Byte) : ∀ (a i : Nat) (m : Memory), Memory.wf d m = true →
    (hi : i < bs.length) → memGet d (memWrite d a bs m) (a + i) = bs[i] := by
  induction bs with
  | nil => exact fun _ _ _ _ hi => absurd hi (Nat.not_lt_zero _)
  | cons x bs ih =>
    intro a i m h hi
    have hw := memPut_wf d a x m h
    cases i with
    | zero =>
      rw [memWrite, memGet_memWrite_other d bs (a + 1) (a + 0) _ hw (by omega)]
      exact memGet_memPut_same d a x m h
    | succ i =>
      rw [memWrite, show a + (i + 1) = a + 1 + i by omega, ih (a + 1) i _ hw]
      rfl

/-- Bytes written are read back, as a list. -/
theorem memRead_memWrite (d : Byte) (bs : List Byte) (a : Nat) (m : Memory) (h : Memory.wf d m = true) :
    memRead d (memWrite d a bs m) a bs.length = bs := by
  refine List.ext_getElem (by simp [memRead]) (fun i h1 h2 => ?_)
  simp only [memRead, List.getElem_map, List.getElem_range]
  exact memGet_memWrite_same d bs a i m h h2

end Sys2Proof.Machine
end

