-- ==== Sys2Proof/Laws/State.lean ====
section
/-! SUPPORT. One lemma for each field of the state under each accessor that updates it, and under the start of a command:
later proofs cite these and never unfold a record update. -/

namespace Sys2Proof.Machine

variable (s : State)

/-! ## State.modPress -/

@[simp] theorem State.modPress_nv (p : Nat) (f : Press → Press) : (s.modPress p f).nv = s.nv := rfl
@[simp] theorem State.modPress_power (p : Nat) (f : Press → Press) : (s.modPress p f).power = s.power := rfl
@[simp] theorem State.modPress_time (p : Nat) (f : Press → Press) : (s.modPress p f).time = s.time := rfl
@[simp] theorem State.modPress_clk (p : Nat) (f : Press → Press) : (s.modPress p f).clk = s.clk := rfl
@[simp] theorem State.modPress_tt (p : Nat) (f : Press → Press) : (s.modPress p f).tt = s.tt := rfl
@[simp] theorem State.modPress_barrier (p : Nat) (f : Press → Press) : (s.modPress p f).barrier = s.barrier := rfl
@[simp] theorem State.modPress_presses (p : Nat) (f : Press → Press) : (s.modPress p f).presses = vmod s.presses p f := rfl
@[simp] theorem State.modPress_near (p : Nat) (f : Press → Press) : (s.modPress p f).near = s.near := rfl
@[simp] theorem State.modPress_far (p : Nat) (f : Press → Press) : (s.modPress p f).far = s.far := rfl
@[simp] theorem State.modPress_conc (p : Nat) (f : Press → Press) : (s.modPress p f).conc = s.conc := rfl
@[simp] theorem State.modPress_ports (p : Nat) (f : Press → Press) : (s.modPress p f).ports = s.ports := rfl
@[simp] theorem State.modPress_fab (p : Nat) (f : Press → Press) : (s.modPress p f).fab = s.fab := rfl
@[simp] theorem State.modPress_eng (p : Nat) (f : Press → Press) : (s.modPress p f).eng = s.eng := rfl
@[simp] theorem State.modPress_smp (p : Nat) (f : Press → Press) : (s.modPress p f).smp = s.smp := rfl
@[simp] theorem State.modPress_liv (p : Nat) (f : Press → Press) : (s.modPress p f).liv = s.liv := rfl
@[simp] theorem State.modPress_forme (p : Nat) (f : Press → Press) : (s.modPress p f).forme = s.forme := rfl
@[simp] theorem State.modPress_health (p : Nat) (f : Press → Press) : (s.modPress p f).health = s.health := rfl
@[simp] theorem State.modPress_mirror (p : Nat) (f : Press → Press) : (s.modPress p f).mirror = s.mirror := rfl
@[simp] theorem State.modPress_dbg (p : Nat) (f : Press → Press) : (s.modPress p f).dbg = s.dbg := rfl
@[simp] theorem State.modPress_kcl (p : Nat) (f : Press → Press) : (s.modPress p f).kcl = s.kcl := rfl
@[simp] theorem State.modPress_rings (p : Nat) (f : Press → Press) : (s.modPress p f).rings = s.rings := rfl
@[simp] theorem State.modPress_fw (p : Nat) (f : Press → Press) : (s.modPress p f).fw = s.fw := rfl
@[simp] theorem State.modPress_mgmt (p : Nat) (f : Press → Press) : (s.modPress p f).mgmt = s.mgmt := rfl
@[simp] theorem State.modPress_free (p : Nat) (f : Press → Press) : (s.modPress p f).free = s.free := rfl
@[simp] theorem State.modPress_pending (p : Nat) (f : Press → Press) : (s.modPress p f).pending = s.pending := rfl

/-! ## State.modPresses -/

@[simp] theorem State.modPresses_nv (f : Press → Press) : (s.modPresses f).nv = s.nv := rfl
@[simp] theorem State.modPresses_power (f : Press → Press) : (s.modPresses f).power = s.power := rfl
@[simp] theorem State.modPresses_time (f : Press → Press) : (s.modPresses f).time = s.time := rfl
@[simp] theorem State.modPresses_clk (f : Press → Press) : (s.modPresses f).clk = s.clk := rfl
@[simp] theorem State.modPresses_tt (f : Press → Press) : (s.modPresses f).tt = s.tt := rfl
@[simp] theorem State.modPresses_barrier (f : Press → Press) : (s.modPresses f).barrier = s.barrier := rfl
@[simp] theorem State.modPresses_presses (f : Press → Press) : (s.modPresses f).presses = s.presses.map f := rfl
@[simp] theorem State.modPresses_near (f : Press → Press) : (s.modPresses f).near = s.near := rfl
@[simp] theorem State.modPresses_far (f : Press → Press) : (s.modPresses f).far = s.far := rfl
@[simp] theorem State.modPresses_conc (f : Press → Press) : (s.modPresses f).conc = s.conc := rfl
@[simp] theorem State.modPresses_ports (f : Press → Press) : (s.modPresses f).ports = s.ports := rfl
@[simp] theorem State.modPresses_fab (f : Press → Press) : (s.modPresses f).fab = s.fab := rfl
@[simp] theorem State.modPresses_eng (f : Press → Press) : (s.modPresses f).eng = s.eng := rfl
@[simp] theorem State.modPresses_smp (f : Press → Press) : (s.modPresses f).smp = s.smp := rfl
@[simp] theorem State.modPresses_liv (f : Press → Press) : (s.modPresses f).liv = s.liv := rfl
@[simp] theorem State.modPresses_forme (f : Press → Press) : (s.modPresses f).forme = s.forme := rfl
@[simp] theorem State.modPresses_health (f : Press → Press) : (s.modPresses f).health = s.health := rfl
@[simp] theorem State.modPresses_mirror (f : Press → Press) : (s.modPresses f).mirror = s.mirror := rfl
@[simp] theorem State.modPresses_dbg (f : Press → Press) : (s.modPresses f).dbg = s.dbg := rfl
@[simp] theorem State.modPresses_kcl (f : Press → Press) : (s.modPresses f).kcl = s.kcl := rfl
@[simp] theorem State.modPresses_rings (f : Press → Press) : (s.modPresses f).rings = s.rings := rfl
@[simp] theorem State.modPresses_fw (f : Press → Press) : (s.modPresses f).fw = s.fw := rfl
@[simp] theorem State.modPresses_mgmt (f : Press → Press) : (s.modPresses f).mgmt = s.mgmt := rfl
@[simp] theorem State.modPresses_free (f : Press → Press) : (s.modPresses f).free = s.free := rfl
@[simp] theorem State.modPresses_pending (f : Press → Press) : (s.modPresses f).pending = s.pending := rfl

/-! ## State.modPort -/

@[simp] theorem State.modPort_nv (p : Nat) (f : Port → Port) : (s.modPort p f).nv = s.nv := rfl
@[simp] theorem State.modPort_power (p : Nat) (f : Port → Port) : (s.modPort p f).power = s.power := rfl
@[simp] theorem State.modPort_time (p : Nat) (f : Port → Port) : (s.modPort p f).time = s.time := rfl
@[simp] theorem State.modPort_clk (p : Nat) (f : Port → Port) : (s.modPort p f).clk = s.clk := rfl
@[simp] theorem State.modPort_tt (p : Nat) (f : Port → Port) : (s.modPort p f).tt = s.tt := rfl
@[simp] theorem State.modPort_barrier (p : Nat) (f : Port → Port) : (s.modPort p f).barrier = s.barrier := rfl
@[simp] theorem State.modPort_presses (p : Nat) (f : Port → Port) : (s.modPort p f).presses = s.presses := rfl
@[simp] theorem State.modPort_near (p : Nat) (f : Port → Port) : (s.modPort p f).near = s.near := rfl
@[simp] theorem State.modPort_far (p : Nat) (f : Port → Port) : (s.modPort p f).far = s.far := rfl
@[simp] theorem State.modPort_conc (p : Nat) (f : Port → Port) : (s.modPort p f).conc = s.conc := rfl
@[simp] theorem State.modPort_ports (p : Nat) (f : Port → Port) : (s.modPort p f).ports = vmod s.ports p f := rfl
@[simp] theorem State.modPort_fab (p : Nat) (f : Port → Port) : (s.modPort p f).fab = s.fab := rfl
@[simp] theorem State.modPort_eng (p : Nat) (f : Port → Port) : (s.modPort p f).eng = s.eng := rfl
@[simp] theorem State.modPort_smp (p : Nat) (f : Port → Port) : (s.modPort p f).smp = s.smp := rfl
@[simp] theorem State.modPort_liv (p : Nat) (f : Port → Port) : (s.modPort p f).liv = s.liv := rfl
@[simp] theorem State.modPort_forme (p : Nat) (f : Port → Port) : (s.modPort p f).forme = s.forme := rfl
@[simp] theorem State.modPort_health (p : Nat) (f : Port → Port) : (s.modPort p f).health = s.health := rfl
@[simp] theorem State.modPort_mirror (p : Nat) (f : Port → Port) : (s.modPort p f).mirror = s.mirror := rfl
@[simp] theorem State.modPort_dbg (p : Nat) (f : Port → Port) : (s.modPort p f).dbg = s.dbg := rfl
@[simp] theorem State.modPort_kcl (p : Nat) (f : Port → Port) : (s.modPort p f).kcl = s.kcl := rfl
@[simp] theorem State.modPort_rings (p : Nat) (f : Port → Port) : (s.modPort p f).rings = s.rings := rfl
@[simp] theorem State.modPort_fw (p : Nat) (f : Port → Port) : (s.modPort p f).fw = s.fw := rfl
@[simp] theorem State.modPort_mgmt (p : Nat) (f : Port → Port) : (s.modPort p f).mgmt = s.mgmt := rfl
@[simp] theorem State.modPort_free (p : Nat) (f : Port → Port) : (s.modPort p f).free = s.free := rfl
@[simp] theorem State.modPort_pending (p : Nat) (f : Port → Port) : (s.modPort p f).pending = s.pending := rfl

/-! ## State.modChan -/

@[simp] theorem State.modChan_nv (c : Nat) (f : Channel → Channel) : (s.modChan c f).nv = s.nv := rfl
@[simp] theorem State.modChan_power (c : Nat) (f : Channel → Channel) : (s.modChan c f).power = s.power := rfl
@[simp] theorem State.modChan_time (c : Nat) (f : Channel → Channel) : (s.modChan c f).time = s.time := rfl
@[simp] theorem State.modChan_clk (c : Nat) (f : Channel → Channel) : (s.modChan c f).clk = s.clk := rfl
@[simp] theorem State.modChan_tt (c : Nat) (f : Channel → Channel) : (s.modChan c f).tt = s.tt := rfl
@[simp] theorem State.modChan_barrier (c : Nat) (f : Channel → Channel) : (s.modChan c f).barrier = s.barrier := rfl
@[simp] theorem State.modChan_presses (c : Nat) (f : Channel → Channel) : (s.modChan c f).presses = s.presses := rfl
@[simp] theorem State.modChan_near (c : Nat) (f : Channel → Channel) : (s.modChan c f).near = { s.near with channels := vmod s.near.channels c f } := rfl
@[simp] theorem State.modChan_far (c : Nat) (f : Channel → Channel) : (s.modChan c f).far = s.far := rfl
@[simp] theorem State.modChan_conc (c : Nat) (f : Channel → Channel) : (s.modChan c f).conc = s.conc := rfl
@[simp] theorem State.modChan_ports (c : Nat) (f : Channel → Channel) : (s.modChan c f).ports = s.ports := rfl
@[simp] theorem State.modChan_fab (c : Nat) (f : Channel → Channel) : (s.modChan c f).fab = s.fab := rfl
@[simp] theorem State.modChan_eng (c : Nat) (f : Channel → Channel) : (s.modChan c f).eng = s.eng := rfl
@[simp] theorem State.modChan_smp (c : Nat) (f : Channel → Channel) : (s.modChan c f).smp = s.smp := rfl
@[simp] theorem State.modChan_liv (c : Nat) (f : Channel → Channel) : (s.modChan c f).liv = s.liv := rfl
@[simp] theorem State.modChan_forme (c : Nat) (f : Channel → Channel) : (s.modChan c f).forme = s.forme := rfl
@[simp] theorem State.modChan_health (c : Nat) (f : Channel → Channel) : (s.modChan c f).health = s.health := rfl
@[simp] theorem State.modChan_mirror (c : Nat) (f : Channel → Channel) : (s.modChan c f).mirror = s.mirror := rfl
@[simp] theorem State.modChan_dbg (c : Nat) (f : Channel → Channel) : (s.modChan c f).dbg = s.dbg := rfl
@[simp] theorem State.modChan_kcl (c : Nat) (f : Channel → Channel) : (s.modChan c f).kcl = s.kcl := rfl
@[simp] theorem State.modChan_rings (c : Nat) (f : Channel → Channel) : (s.modChan c f).rings = s.rings := rfl
@[simp] theorem State.modChan_fw (c : Nat) (f : Channel → Channel) : (s.modChan c f).fw = s.fw := rfl
@[simp] theorem State.modChan_mgmt (c : Nat) (f : Channel → Channel) : (s.modChan c f).mgmt = s.mgmt := rfl
@[simp] theorem State.modChan_free (c : Nat) (f : Channel → Channel) : (s.modChan c f).free = s.free := rfl
@[simp] theorem State.modChan_pending (c : Nat) (f : Channel → Channel) : (s.modChan c f).pending = s.pending := rfl

/-! ## State.modFar -/

@[simp] theorem State.modFar_nv (p : Nat) (f : FarPort → FarPort) : (s.modFar p f).nv = s.nv := rfl
@[simp] theorem State.modFar_power (p : Nat) (f : FarPort → FarPort) : (s.modFar p f).power = s.power := rfl
@[simp] theorem State.modFar_time (p : Nat) (f : FarPort → FarPort) : (s.modFar p f).time = s.time := rfl
@[simp] theorem State.modFar_clk (p : Nat) (f : FarPort → FarPort) : (s.modFar p f).clk = s.clk := rfl
@[simp] theorem State.modFar_tt (p : Nat) (f : FarPort → FarPort) : (s.modFar p f).tt = s.tt := rfl
@[simp] theorem State.modFar_barrier (p : Nat) (f : FarPort → FarPort) : (s.modFar p f).barrier = s.barrier := rfl
@[simp] theorem State.modFar_presses (p : Nat) (f : FarPort → FarPort) : (s.modFar p f).presses = s.presses := rfl
@[simp] theorem State.modFar_near (p : Nat) (f : FarPort → FarPort) : (s.modFar p f).near = s.near := rfl
@[simp] theorem State.modFar_far (p : Nat) (f : FarPort → FarPort) : (s.modFar p f).far = { s.far with ports := vmod s.far.ports p f } := rfl
@[simp] theorem State.modFar_conc (p : Nat) (f : FarPort → FarPort) : (s.modFar p f).conc = s.conc := rfl
@[simp] theorem State.modFar_ports (p : Nat) (f : FarPort → FarPort) : (s.modFar p f).ports = s.ports := rfl
@[simp] theorem State.modFar_fab (p : Nat) (f : FarPort → FarPort) : (s.modFar p f).fab = s.fab := rfl
@[simp] theorem State.modFar_eng (p : Nat) (f : FarPort → FarPort) : (s.modFar p f).eng = s.eng := rfl
@[simp] theorem State.modFar_smp (p : Nat) (f : FarPort → FarPort) : (s.modFar p f).smp = s.smp := rfl
@[simp] theorem State.modFar_liv (p : Nat) (f : FarPort → FarPort) : (s.modFar p f).liv = s.liv := rfl
@[simp] theorem State.modFar_forme (p : Nat) (f : FarPort → FarPort) : (s.modFar p f).forme = s.forme := rfl
@[simp] theorem State.modFar_health (p : Nat) (f : FarPort → FarPort) : (s.modFar p f).health = s.health := rfl
@[simp] theorem State.modFar_mirror (p : Nat) (f : FarPort → FarPort) : (s.modFar p f).mirror = s.mirror := rfl
@[simp] theorem State.modFar_dbg (p : Nat) (f : FarPort → FarPort) : (s.modFar p f).dbg = s.dbg := rfl
@[simp] theorem State.modFar_kcl (p : Nat) (f : FarPort → FarPort) : (s.modFar p f).kcl = s.kcl := rfl
@[simp] theorem State.modFar_rings (p : Nat) (f : FarPort → FarPort) : (s.modFar p f).rings = s.rings := rfl
@[simp] theorem State.modFar_fw (p : Nat) (f : FarPort → FarPort) : (s.modFar p f).fw = s.fw := rfl
@[simp] theorem State.modFar_mgmt (p : Nat) (f : FarPort → FarPort) : (s.modFar p f).mgmt = s.mgmt := rfl
@[simp] theorem State.modFar_free (p : Nat) (f : FarPort → FarPort) : (s.modFar p f).free = s.free := rfl
@[simp] theorem State.modFar_pending (p : Nat) (f : FarPort → FarPort) : (s.modFar p f).pending = s.pending := rfl

/-! ## The start of a command -/

@[simp] theorem cmdBegin_nv (d : Descriptor) : (cmdBegin d s).nv = s.nv := rfl
@[simp] theorem cmdBegin_power (d : Descriptor) : (cmdBegin d s).power = s.power := rfl
@[simp] theorem cmdBegin_time (d : Descriptor) : (cmdBegin d s).time = s.time := rfl
@[simp] theorem cmdBegin_clk (d : Descriptor) : (cmdBegin d s).clk = s.clk := rfl
@[simp] theorem cmdBegin_tt (d : Descriptor) : (cmdBegin d s).tt = s.tt := rfl
@[simp] theorem cmdBegin_barrier (d : Descriptor) : (cmdBegin d s).barrier = s.barrier := rfl
@[simp] theorem cmdBegin_presses (d : Descriptor) : (cmdBegin d s).presses = s.presses := rfl
@[simp] theorem cmdBegin_near (d : Descriptor) : (cmdBegin d s).near = s.near := rfl
@[simp] theorem cmdBegin_far (d : Descriptor) : (cmdBegin d s).far = s.far := rfl
@[simp] theorem cmdBegin_conc (d : Descriptor) : (cmdBegin d s).conc = s.conc := rfl
@[simp] theorem cmdBegin_ports (d : Descriptor) : (cmdBegin d s).ports = s.ports := rfl
@[simp] theorem cmdBegin_fab (d : Descriptor) : (cmdBegin d s).fab = s.fab := rfl
@[simp] theorem cmdBegin_eng (d : Descriptor) : (cmdBegin d s).eng = s.eng := rfl
@[simp] theorem cmdBegin_smp (d : Descriptor) : (cmdBegin d s).smp = s.smp := rfl
@[simp] theorem cmdBegin_liv (d : Descriptor) : (cmdBegin d s).liv = s.liv := rfl
@[simp] theorem cmdBegin_forme (d : Descriptor) : (cmdBegin d s).forme = s.forme := rfl
@[simp] theorem cmdBegin_health (d : Descriptor) : (cmdBegin d s).health = s.health := rfl
@[simp] theorem cmdBegin_mirror (d : Descriptor) : (cmdBegin d s).mirror = s.mirror := rfl
@[simp] theorem cmdBegin_dbg (d : Descriptor) : (cmdBegin d s).dbg = s.dbg := rfl
@[simp] theorem cmdBegin_kcl (d : Descriptor) : (cmdBegin d s).kcl = s.kcl := rfl
@[simp] theorem cmdBegin_rings (d : Descriptor) : (cmdBegin d s).rings = { s.rings with taken := s.rings.taken.erase d } := rfl
@[simp] theorem cmdBegin_fw (d : Descriptor) : (cmdBegin d s).fw = s.fw := rfl
@[simp] theorem cmdBegin_mgmt (d : Descriptor) : (cmdBegin d s).mgmt = s.mgmt := rfl
@[simp] theorem cmdBegin_free (d : Descriptor) : (cmdBegin d s).free = s.free := rfl
@[simp] theorem cmdBegin_pending (d : Descriptor) : (cmdBegin d s).pending = s.pending := rfl
@[simp] theorem cmdBegin_loaded (d : Descriptor) : (cmdBegin d s).loaded = s.loaded := rfl
@[simp] theorem cmdBegin_isDesk (d : Descriptor) : (cmdBegin d s).isDesk = s.isDesk := rfl
@[simp] theorem cmdBegin_isRoot (d : Descriptor) : (cmdBegin d s).isRoot = s.isRoot := rfl
@[simp] theorem cmdBegin_chipIndex (d : Descriptor) : (cmdBegin d s).chipIndex = s.chipIndex := rfl
@[simp] theorem cmdBegin_now (d : Descriptor) : (cmdBegin d s).now = s.now := rfl
@[simp] theorem cmdBegin_slots (d : Descriptor) : (cmdBegin d s).slots = s.slots := rfl
@[simp] theorem cmdBegin_portUsed (d : Descriptor) (p : Nat) : (cmdBegin d s).portUsed p = s.portUsed p := rfl
@[simp] theorem cmdBegin_replyOk (d e : Descriptor) (kib : Nat) : replyOk (cmdBegin d s) e kib = replyOk s e kib := rfl

/-! ## One element of a vector -/

/-- The element that `vmod` changes. -/
@[simp] theorem vget_vmod_same {α : Type} {n : Nat} (v : Vector α n) (i : Nat) (f : α → α) (d : α) (h : i < n) :
    vget (vmod v i f) i d = f (vget v i d) := by
  simp [vget, vmod, h]

/-- An element that `vmod` does not change. -/
@[simp] theorem vget_vmod_other {α : Type} {n : Nat} (v : Vector α n) (i j : Nat) (f : α → α) (d : α) (h : i ≠ j) :
    vget (vmod v i f) j d = vget v j d := by
  by_cases hi : i < n
  · by_cases hj : j < n
    · simp [vget, vmod, hi, hj, h]
    · simp [vget, hj]
  · simp [vmod, hi]

/-- A press that a change names. -/
theorem State.press_modPress_same (p : Nat) (f : Press → Press) (h : p < 96) : (s.modPress p f).press p = f (s.press p) := by
  simp [State.press, h]

/-- A press that a change does not name. -/
theorem State.press_modPress_other (p q : Nat) (f : Press → Press) (h : p ≠ q) : (s.modPress p f).press q = s.press q := by
  simp [State.press, h]

/-- A link port that a change names. -/
theorem State.port_modPort_same (p : Nat) (f : Port → Port) (h : p < 33) : (s.modPort p f).port p = f (s.port p) := by
  simp [State.port, h]

/-- A link port that a change does not name. -/
theorem State.port_modPort_other (p q : Nat) (f : Port → Port) (h : p ≠ q) : (s.modPort p f).port q = s.port q := by
  simp [State.port, h]

/-- A near channel that a change names. -/
theorem State.chan_modChan_same (c : Nat) (f : Channel → Channel) (h : c < 32) : (s.modChan c f).chan c = f (s.chan c) := by
  simp [State.chan, h]

/-- A near channel that a change does not name. -/
theorem State.chan_modChan_other (c e : Nat) (f : Channel → Channel) (h : c ≠ e) : (s.modChan c f).chan e = s.chan e := by
  simp [State.chan, h]

/-- A far port that a change names. -/
theorem State.farPort_modFar_same (p : Nat) (f : FarPort → FarPort) (h : p < 2) : (s.modFar p f).farPort p = f (s.farPort p) := by
  simp [State.farPort, h]

/-- A far port that a change does not name. -/
theorem State.farPort_modFar_other (p q : Nat) (f : FarPort → FarPort) (h : p ≠ q) : (s.modFar p f).farPort q = s.farPort q := by
  simp [State.farPort, h]

end Sys2Proof.Machine
end

