-- ==== Sys2Proof/Laws/Ops.lean ====
section
/-! SUPPORT. What each shared operation can do, said once: the fields it may change, and the fields it never changes. -/

namespace Sys2Proof.Machine

/-! ## The shared window -/

/-- `t` differs from `s` only in the near memory, in the waits of its channels, in KCL and in EDITION_MIRROR. -/
def Drained (s t : State) : Prop := ∃ m c k v, t = { s with near.mem := m, near.channels := c, kcl := k, rings.edMirror := v }

/-- `t` differs from `s` only in the near memory, in the waits of its channels, in KCL, in the rings and in what a touch of the
window leaves. -/
def Posted (s t : State) : Prop :=
  ∃ m c k r i w, t = { s with near.mem := m, near.channels := c, kcl := k, rings := r, power.windowIdle := i, power.waking := w }

theorem Drained.refl (s : State) : Drained s s := ⟨s.near.mem, s.near.channels, s.kcl, s.rings.edMirror, rfl⟩

/-- A change of KCL alone. -/
theorem Drained.kcl (s : State) (k : Kcl) : Drained s { s with kcl := k } := ⟨s.near.mem, s.near.channels, k, s.rings.edMirror, rfl⟩

theorem Drained.trans {s t u : State} (h : Drained s t) (g : Drained t u) : Drained s u := by
  obtain ⟨m, c, k, v, rfl⟩ := h
  obtain ⟨n, d, l, w, rfl⟩ := g
  exact ⟨n, d, l, w, rfl⟩

theorem Posted.refl (s : State) : Posted s s :=
  ⟨s.near.mem, s.near.channels, s.kcl, s.rings, s.power.windowIdle, s.power.waking, rfl⟩

/-- A change of KCL alone. -/
theorem Posted.kcl (s : State) (k : Kcl) : Posted s { s with kcl := k } :=
  ⟨s.near.mem, s.near.channels, k, s.rings, s.power.windowIdle, s.power.waking, rfl⟩

/-- A change of the rings alone. -/
theorem Posted.rings (s : State) (r : Rings) : Posted s { s with rings := r } :=
  ⟨s.near.mem, s.near.channels, s.kcl, r, s.power.windowIdle, s.power.waking, rfl⟩

/-- A touch of the window. -/
theorem touchWindow_posted (s : State) : Posted s (touchWindow s) := ⟨s.near.mem, s.near.channels, s.kcl, s.rings, _, _, rfl⟩

theorem Posted.trans {s t u : State} (h : Posted s t) (g : Posted t u) : Posted s u := by
  obtain ⟨m, c, k, r, i, w, rfl⟩ := h
  obtain ⟨n, d, l, q, j, x, rfl⟩ := g
  exact ⟨n, d, l, q, j, x, rfl⟩

theorem Drained.posted {s t : State} (h : Drained s t) : Posted s t := by
  obtain ⟨m, c, k, v, rfl⟩ := h
  exact ⟨m, c, k, _, s.power.windowIdle, s.power.waking, rfl⟩

/-- KCL may take the message. -/
theorem kclSend_drained (m : KclMsg) (s : State) : Drained s (kclSend m s) := by
  unfold kclSend
  split
  · exact Drained.kcl s _
  · exact Drained.refl s

/-- A snoop touches KCL alone. -/
theorem kclSnoop_drained (a : Nat) (inv : Bool) (s : State) : Drained s (kclSnoop a inv s) := by
  unfold kclSnoop
  split
  · exact Drained.refl s
  · exact Drained.trans (Drained.kcl s _) (kclSend_drained _ _)

/-- A request of the companion handed to its channel, or moved among those that wait. -/
theorem pullForward_drained (a : Nat) (s : State) : Drained s (pullForward a s) := by
  unfold pullForward
  dsimp only
  (repeat' split) <;> exact ⟨_, _, _, s.rings.edMirror, rfl⟩

/-- The writes and INTRs that can be performed reach the near memory and KCL. -/
theorem kclDrain_drained (n : Nat) : ∀ s : State, Drained s (kclDrain n s) := by
  induction n with
  | zero => exact Drained.refl
  | succ n ih =>
    intro s
    rw [kclDrain]
    split
    · exact Drained.refl s
    · dsimp only
      refine Drained.trans ?_ (ih _)
      split
      · exact Drained.trans (Drained.kcl s _) (kclSend_drained _ _)
      · exact Drained.kcl s _
    · exact Drained.trans ⟨s.near.mem, s.near.channels, _, _, rfl⟩ (ih _)
    · split
      · exact pullForward_drained _ _
      · split
        · exact kclSnoop_drained _ _ _
        · split
          · exact Drained.trans ⟨_, s.near.channels, _, s.rings.edMirror, rfl⟩ (ih _)
          · exact Drained.refl s

theorem kclPump_drained (s : State) : Drained s (kclPump s) := kclDrain_drained _ s

/-- A write into the shared window. -/
theorem sharedWrite_posted (a : Nat) (bs : List Byte) (s : State) : Posted s (sharedWrite a bs s) :=
  Posted.trans (touchWindow_posted s) (Posted.trans (Posted.kcl _ _) (kclPump_drained _).posted)

/-- An INTR. -/
theorem sharedIntr_posted (v : BitVec 16) (s : State) : Posted s (sharedIntr v s) :=
  Posted.trans (Posted.kcl s _) (kclPump_drained _).posted

/-! ## Events and completions -/

/-- An event posted or discarded. -/
theorem postEventAt_posted (station type a b c : Nat) (s : State) : Posted s (postEventAt station type a b c s) := by
  unfold postEventAt
  dsimp only
  split
  · split
    · refine Posted.trans (Posted.trans ?_ (sharedWrite_posted _ _ _)) (sharedIntr_posted _ _)
      exact Posted.rings s _
    · refine Posted.trans ?_ (sharedWrite_posted _ _ _)
      exact Posted.rings s _
  · exact Posted.rings s _

/-- An event posted, discarded or held through a handover. -/
theorem postEvent_posted (type a b c : Nat) (s : State) : Posted s (postEvent type a b c s) := by
  unfold postEvent
  split
  · exact Posted.rings s _
  · exact postEventAt_posted _ _ _ _ _ s

/-- A completion written into its ring. -/
theorem writeCompletion_posted (c : Completion) (s : State) : Posted s (writeCompletion c s) := by
  unfold writeCompletion
  dsimp only
  split
  · refine Posted.trans (Posted.trans ?_ (sharedWrite_posted _ _ _)) (sharedIntr_posted _ _)
    exact Posted.rings s _
  · refine Posted.trans ?_ (sharedWrite_posted _ _ _)
    exact Posted.rings s _

/-- The waiting completions, as far as they find room. -/
theorem flushCompletions_posted (l : List Completion) : ∀ (blocked : List Nat) (kept : List Completion) (s : State),
    Posted s (flushCompletions l blocked kept s) := by
  induction l with
  | nil => exact fun _ _ s => Posted.rings s _
  | cons c l ih =>
    intro blocked kept s
    rw [flushCompletions]
    split
    · exact Posted.trans (writeCompletion_posted c s) (ih _ _ _)
    · exact ih _ _ _

theorem flushAll_posted (s : State) : Posted s (flushAll s) := flushCompletions_posted _ _ _ s

/-- A completion posted. -/
theorem post_posted (c : Completion) (s : State) : Posted s (post c s) :=
  Posted.trans (Posted.rings s _) (flushAll_posted _)

theorem finish_posted (d : Descriptor) (status : BitVec 16) (result : Nat) (s : State) : Posted s (finish d status result s) :=
  post_posted _ s

theorem finishReason_posted (d : Descriptor) (status : BitVec 16) (reason result : Nat) (s : State) :
    Posted s (finishReason d status reason result s) := post_posted _ s

theorem queued_posted (d : Descriptor) (result : Nat) (s : State) : Posted s (queued d result s) := post_posted _ s

theorem finishReply_posted (d : Descriptor) (status : BitVec 16) (result : Nat) (reply : List Byte) (s : State) :
    Posted s (finishReply d status result reply s) := Posted.trans (sharedWrite_posted _ _ _) (post_posted _ _)

theorem finishAtEdition_posted (d : Descriptor) (status : BitVec 16) (result : Nat) (s : State) :
    Posted s (finishAtEdition d status result s) := Posted.rings s _

theorem cmdBegin_posted (d : Descriptor) (s : State) : Posted s (cmdBegin d s) :=
  Posted.rings s _

/-! ## What a posting leaves alone -/

theorem Posted.nv_eq {s t : State} (h : Posted s t) : t.nv = s.nv := by
  obtain ⟨_, _, _, _, _, _, rfl⟩ := h
  rfl

theorem Posted.time_eq {s t : State} (h : Posted s t) : t.time = s.time := by
  obtain ⟨_, _, _, _, _, _, rfl⟩ := h
  rfl

theorem Posted.clk_eq {s t : State} (h : Posted s t) : t.clk = s.clk := by
  obtain ⟨_, _, _, _, _, _, rfl⟩ := h
  rfl

theorem Posted.tt_eq {s t : State} (h : Posted s t) : t.tt = s.tt := by
  obtain ⟨_, _, _, _, _, _, rfl⟩ := h
  rfl

theorem Posted.barrier_eq {s t : State} (h : Posted s t) : t.barrier = s.barrier := by
  obtain ⟨_, _, _, _, _, _, rfl⟩ := h
  rfl

theorem Posted.presses_eq {s t : State} (h : Posted s t) : t.presses = s.presses := by
  obtain ⟨_, _, _, _, _, _, rfl⟩ := h
  rfl

theorem Posted.far_eq {s t : State} (h : Posted s t) : t.far = s.far := by
  obtain ⟨_, _, _, _, _, _, rfl⟩ := h
  rfl

theorem Posted.conc_eq {s t : State} (h : Posted s t) : t.conc = s.conc := by
  obtain ⟨_, _, _, _, _, _, rfl⟩ := h
  rfl

theorem Posted.ports_eq {s t : State} (h : Posted s t) : t.ports = s.ports := by
  obtain ⟨_, _, _, _, _, _, rfl⟩ := h
  rfl

theorem Posted.fab_eq {s t : State} (h : Posted s t) : t.fab = s.fab := by
  obtain ⟨_, _, _, _, _, _, rfl⟩ := h
  rfl

theorem Posted.eng_eq {s t : State} (h : Posted s t) : t.eng = s.eng := by
  obtain ⟨_, _, _, _, _, _, rfl⟩ := h
  rfl

theorem Posted.smp_eq {s t : State} (h : Posted s t) : t.smp = s.smp := by
  obtain ⟨_, _, _, _, _, _, rfl⟩ := h
  rfl

theorem Posted.liv_eq {s t : State} (h : Posted s t) : t.liv = s.liv := by
  obtain ⟨_, _, _, _, _, _, rfl⟩ := h
  rfl

theorem Posted.forme_eq {s t : State} (h : Posted s t) : t.forme = s.forme := by
  obtain ⟨_, _, _, _, _, _, rfl⟩ := h
  rfl

theorem Posted.health_eq {s t : State} (h : Posted s t) : t.health = s.health := by
  obtain ⟨_, _, _, _, _, _, rfl⟩ := h
  rfl

theorem Posted.mirror_eq {s t : State} (h : Posted s t) : t.mirror = s.mirror := by
  obtain ⟨_, _, _, _, _, _, rfl⟩ := h
  rfl

theorem Posted.dbg_eq {s t : State} (h : Posted s t) : t.dbg = s.dbg := by
  obtain ⟨_, _, _, _, _, _, rfl⟩ := h
  rfl

theorem Posted.fw_eq {s t : State} (h : Posted s t) : t.fw = s.fw := by
  obtain ⟨_, _, _, _, _, _, rfl⟩ := h
  rfl

theorem Posted.mgmt_eq {s t : State} (h : Posted s t) : t.mgmt = s.mgmt := by
  obtain ⟨_, _, _, _, _, _, rfl⟩ := h
  rfl

theorem Posted.free_eq {s t : State} (h : Posted s t) : t.free = s.free := by
  obtain ⟨_, _, _, _, _, _, rfl⟩ := h
  rfl

theorem Posted.pending_eq {s t : State} (h : Posted s t) : t.pending = s.pending := by
  obtain ⟨_, _, _, _, _, _, rfl⟩ := h
  rfl

theorem Posted.near_selfRefresh_eq {s t : State} (h : Posted s t) : t.near.selfRefresh = s.near.selfRefresh := by
  obtain ⟨_, _, _, _, _, _, rfl⟩ := h
  rfl

theorem Posted.near_refreshing_eq {s t : State} (h : Posted s t) : t.near.refreshing = s.near.refreshing := by
  obtain ⟨_, _, _, _, _, _, rfl⟩ := h
  rfl

theorem Posted.power_point_eq {s t : State} (h : Posted s t) : t.power.point = s.power.point := by
  obtain ⟨_, _, _, _, _, _, rfl⟩ := h
  rfl

theorem Posted.power_chipState_eq {s t : State} (h : Posted s t) : t.power.chipState = s.power.chipState := by
  obtain ⟨_, _, _, _, _, _, rfl⟩ := h
  rfl

theorem Posted.power_phase_eq {s t : State} (h : Posted s t) : t.power.phase = s.power.phase := by
  obtain ⟨_, _, _, _, _, _, rfl⟩ := h
  rfl

@[simp] theorem postEvent_nv (type a b c : Nat) (s : State) : (postEvent type a b c s).nv = s.nv :=
  (postEvent_posted type a b c s).nv_eq
@[simp] theorem postEvent_time (type a b c : Nat) (s : State) : (postEvent type a b c s).time = s.time :=
  (postEvent_posted type a b c s).time_eq
@[simp] theorem postEvent_clk (type a b c : Nat) (s : State) : (postEvent type a b c s).clk = s.clk :=
  (postEvent_posted type a b c s).clk_eq
@[simp] theorem postEvent_tt (type a b c : Nat) (s : State) : (postEvent type a b c s).tt = s.tt :=
  (postEvent_posted type a b c s).tt_eq
@[simp] theorem postEvent_barrier (type a b c : Nat) (s : State) : (postEvent type a b c s).barrier = s.barrier :=
  (postEvent_posted type a b c s).barrier_eq
@[simp] theorem postEvent_presses (type a b c : Nat) (s : State) : (postEvent type a b c s).presses = s.presses :=
  (postEvent_posted type a b c s).presses_eq
@[simp] theorem postEvent_far (type a b c : Nat) (s : State) : (postEvent type a b c s).far = s.far :=
  (postEvent_posted type a b c s).far_eq
@[simp] theorem postEvent_conc (type a b c : Nat) (s : State) : (postEvent type a b c s).conc = s.conc :=
  (postEvent_posted type a b c s).conc_eq
@[simp] theorem postEvent_ports (type a b c : Nat) (s : State) : (postEvent type a b c s).ports = s.ports :=
  (postEvent_posted type a b c s).ports_eq
@[simp] theorem postEvent_fab (type a b c : Nat) (s : State) : (postEvent type a b c s).fab = s.fab :=
  (postEvent_posted type a b c s).fab_eq
@[simp] theorem postEvent_eng (type a b c : Nat) (s : State) : (postEvent type a b c s).eng = s.eng :=
  (postEvent_posted type a b c s).eng_eq
@[simp] theorem postEvent_smp (type a b c : Nat) (s : State) : (postEvent type a b c s).smp = s.smp :=
  (postEvent_posted type a b c s).smp_eq
@[simp] theorem postEvent_liv (type a b c : Nat) (s : State) : (postEvent type a b c s).liv = s.liv :=
  (postEvent_posted type a b c s).liv_eq
@[simp] theorem postEvent_forme (type a b c : Nat) (s : State) : (postEvent type a b c s).forme = s.forme :=
  (postEvent_posted type a b c s).forme_eq
@[simp] theorem postEvent_health (type a b c : Nat) (s : State) : (postEvent type a b c s).health = s.health :=
  (postEvent_posted type a b c s).health_eq
@[simp] theorem postEvent_mirror (type a b c : Nat) (s : State) : (postEvent type a b c s).mirror = s.mirror :=
  (postEvent_posted type a b c s).mirror_eq
@[simp] theorem postEvent_dbg (type a b c : Nat) (s : State) : (postEvent type a b c s).dbg = s.dbg :=
  (postEvent_posted type a b c s).dbg_eq
@[simp] theorem postEvent_fw (type a b c : Nat) (s : State) : (postEvent type a b c s).fw = s.fw :=
  (postEvent_posted type a b c s).fw_eq
@[simp] theorem postEvent_mgmt (type a b c : Nat) (s : State) : (postEvent type a b c s).mgmt = s.mgmt :=
  (postEvent_posted type a b c s).mgmt_eq
@[simp] theorem postEvent_free (type a b c : Nat) (s : State) : (postEvent type a b c s).free = s.free :=
  (postEvent_posted type a b c s).free_eq
@[simp] theorem postEvent_pending (type a b c : Nat) (s : State) : (postEvent type a b c s).pending = s.pending :=
  (postEvent_posted type a b c s).pending_eq

@[simp] theorem sharedWrite_nv (a : Nat) (bs : List Byte) (s : State) : (sharedWrite a bs s).nv = s.nv :=
  (sharedWrite_posted a bs s).nv_eq
@[simp] theorem sharedWrite_time (a : Nat) (bs : List Byte) (s : State) : (sharedWrite a bs s).time = s.time :=
  (sharedWrite_posted a bs s).time_eq
@[simp] theorem sharedWrite_clk (a : Nat) (bs : List Byte) (s : State) : (sharedWrite a bs s).clk = s.clk :=
  (sharedWrite_posted a bs s).clk_eq
@[simp] theorem sharedWrite_tt (a : Nat) (bs : List Byte) (s : State) : (sharedWrite a bs s).tt = s.tt :=
  (sharedWrite_posted a bs s).tt_eq
@[simp] theorem sharedWrite_barrier (a : Nat) (bs : List Byte) (s : State) : (sharedWrite a bs s).barrier = s.barrier :=
  (sharedWrite_posted a bs s).barrier_eq
@[simp] theorem sharedWrite_presses (a : Nat) (bs : List Byte) (s : State) : (sharedWrite a bs s).presses = s.presses :=
  (sharedWrite_posted a bs s).presses_eq
@[simp] theorem sharedWrite_far (a : Nat) (bs : List Byte) (s : State) : (sharedWrite a bs s).far = s.far :=
  (sharedWrite_posted a bs s).far_eq
@[simp] theorem sharedWrite_conc (a : Nat) (bs : List Byte) (s : State) : (sharedWrite a bs s).conc = s.conc :=
  (sharedWrite_posted a bs s).conc_eq
@[simp] theorem sharedWrite_ports (a : Nat) (bs : List Byte) (s : State) : (sharedWrite a bs s).ports = s.ports :=
  (sharedWrite_posted a bs s).ports_eq
@[simp] theorem sharedWrite_fab (a : Nat) (bs : List Byte) (s : State) : (sharedWrite a bs s).fab = s.fab :=
  (sharedWrite_posted a bs s).fab_eq
@[simp] theorem sharedWrite_eng (a : Nat) (bs : List Byte) (s : State) : (sharedWrite a bs s).eng = s.eng :=
  (sharedWrite_posted a bs s).eng_eq
@[simp] theorem sharedWrite_smp (a : Nat) (bs : List Byte) (s : State) : (sharedWrite a bs s).smp = s.smp :=
  (sharedWrite_posted a bs s).smp_eq
@[simp] theorem sharedWrite_liv (a : Nat) (bs : List Byte) (s : State) : (sharedWrite a bs s).liv = s.liv :=
  (sharedWrite_posted a bs s).liv_eq
@[simp] theorem sharedWrite_forme (a : Nat) (bs : List Byte) (s : State) : (sharedWrite a bs s).forme = s.forme :=
  (sharedWrite_posted a bs s).forme_eq
@[simp] theorem sharedWrite_health (a : Nat) (bs : List Byte) (s : State) : (sharedWrite a bs s).health = s.health :=
  (sharedWrite_posted a bs s).health_eq
@[simp] theorem sharedWrite_mirror (a : Nat) (bs : List Byte) (s : State) : (sharedWrite a bs s).mirror = s.mirror :=
  (sharedWrite_posted a bs s).mirror_eq
@[simp] theorem sharedWrite_dbg (a : Nat) (bs : List Byte) (s : State) : (sharedWrite a bs s).dbg = s.dbg :=
  (sharedWrite_posted a bs s).dbg_eq
@[simp] theorem sharedWrite_fw (a : Nat) (bs : List Byte) (s : State) : (sharedWrite a bs s).fw = s.fw :=
  (sharedWrite_posted a bs s).fw_eq
@[simp] theorem sharedWrite_mgmt (a : Nat) (bs : List Byte) (s : State) : (sharedWrite a bs s).mgmt = s.mgmt :=
  (sharedWrite_posted a bs s).mgmt_eq
@[simp] theorem sharedWrite_free (a : Nat) (bs : List Byte) (s : State) : (sharedWrite a bs s).free = s.free :=
  (sharedWrite_posted a bs s).free_eq
@[simp] theorem sharedWrite_pending (a : Nat) (bs : List Byte) (s : State) : (sharedWrite a bs s).pending = s.pending :=
  (sharedWrite_posted a bs s).pending_eq

@[simp] theorem post_nv (c : Completion) (s : State) : (post c s).nv = s.nv :=
  (post_posted c s).nv_eq
@[simp] theorem post_time (c : Completion) (s : State) : (post c s).time = s.time :=
  (post_posted c s).time_eq
@[simp] theorem post_clk (c : Completion) (s : State) : (post c s).clk = s.clk :=
  (post_posted c s).clk_eq
@[simp] theorem post_tt (c : Completion) (s : State) : (post c s).tt = s.tt :=
  (post_posted c s).tt_eq
@[simp] theorem post_barrier (c : Completion) (s : State) : (post c s).barrier = s.barrier :=
  (post_posted c s).barrier_eq
@[simp] theorem post_presses (c : Completion) (s : State) : (post c s).presses = s.presses :=
  (post_posted c s).presses_eq
@[simp] theorem post_far (c : Completion) (s : State) : (post c s).far = s.far :=
  (post_posted c s).far_eq
@[simp] theorem post_conc (c : Completion) (s : State) : (post c s).conc = s.conc :=
  (post_posted c s).conc_eq
@[simp] theorem post_ports (c : Completion) (s : State) : (post c s).ports = s.ports :=
  (post_posted c s).ports_eq
@[simp] theorem post_fab (c : Completion) (s : State) : (post c s).fab = s.fab :=
  (post_posted c s).fab_eq
@[simp] theorem post_eng (c : Completion) (s : State) : (post c s).eng = s.eng :=
  (post_posted c s).eng_eq
@[simp] theorem post_smp (c : Completion) (s : State) : (post c s).smp = s.smp :=
  (post_posted c s).smp_eq
@[simp] theorem post_liv (c : Completion) (s : State) : (post c s).liv = s.liv :=
  (post_posted c s).liv_eq
@[simp] theorem post_forme (c : Completion) (s : State) : (post c s).forme = s.forme :=
  (post_posted c s).forme_eq
@[simp] theorem post_health (c : Completion) (s : State) : (post c s).health = s.health :=
  (post_posted c s).health_eq
@[simp] theorem post_mirror (c : Completion) (s : State) : (post c s).mirror = s.mirror :=
  (post_posted c s).mirror_eq
@[simp] theorem post_dbg (c : Completion) (s : State) : (post c s).dbg = s.dbg :=
  (post_posted c s).dbg_eq
@[simp] theorem post_fw (c : Completion) (s : State) : (post c s).fw = s.fw :=
  (post_posted c s).fw_eq
@[simp] theorem post_mgmt (c : Completion) (s : State) : (post c s).mgmt = s.mgmt :=
  (post_posted c s).mgmt_eq
@[simp] theorem post_free (c : Completion) (s : State) : (post c s).free = s.free :=
  (post_posted c s).free_eq
@[simp] theorem post_pending (c : Completion) (s : State) : (post c s).pending = s.pending :=
  (post_posted c s).pending_eq

@[simp] theorem finish_nv (d : Descriptor) (status : BitVec 16) (result : Nat) (s : State) : (finish d status result s).nv = s.nv :=
  (finish_posted d status result s).nv_eq
@[simp] theorem finish_time (d : Descriptor) (status : BitVec 16) (result : Nat) (s : State) : (finish d status result s).time = s.time :=
  (finish_posted d status result s).time_eq
@[simp] theorem finish_clk (d : Descriptor) (status : BitVec 16) (result : Nat) (s : State) : (finish d status result s).clk = s.clk :=
  (finish_posted d status result s).clk_eq
@[simp] theorem finish_tt (d : Descriptor) (status : BitVec 16) (result : Nat) (s : State) : (finish d status result s).tt = s.tt :=
  (finish_posted d status result s).tt_eq
@[simp] theorem finish_barrier (d : Descriptor) (status : BitVec 16) (result : Nat) (s : State) : (finish d status result s).barrier = s.barrier :=
  (finish_posted d status result s).barrier_eq
@[simp] theorem finish_presses (d : Descriptor) (status : BitVec 16) (result : Nat) (s : State) : (finish d status result s).presses = s.presses :=
  (finish_posted d status result s).presses_eq
@[simp] theorem finish_far (d : Descriptor) (status : BitVec 16) (result : Nat) (s : State) : (finish d status result s).far = s.far :=
  (finish_posted d status result s).far_eq
@[simp] theorem finish_conc (d : Descriptor) (status : BitVec 16) (result : Nat) (s : State) : (finish d status result s).conc = s.conc :=
  (finish_posted d status result s).conc_eq
@[simp] theorem finish_ports (d : Descriptor) (status : BitVec 16) (result : Nat) (s : State) : (finish d status result s).ports = s.ports :=
  (finish_posted d status result s).ports_eq
@[simp] theorem finish_fab (d : Descriptor) (status : BitVec 16) (result : Nat) (s : State) : (finish d status result s).fab = s.fab :=
  (finish_posted d status result s).fab_eq
@[simp] theorem finish_eng (d : Descriptor) (status : BitVec 16) (result : Nat) (s : State) : (finish d status result s).eng = s.eng :=
  (finish_posted d status result s).eng_eq
@[simp] theorem finish_smp (d : Descriptor) (status : BitVec 16) (result : Nat) (s : State) : (finish d status result s).smp = s.smp :=
  (finish_posted d status result s).smp_eq
@[simp] theorem finish_liv (d : Descriptor) (status : BitVec 16) (result : Nat) (s : State) : (finish d status result s).liv = s.liv :=
  (finish_posted d status result s).liv_eq
@[simp] theorem finish_forme (d : Descriptor) (status : BitVec 16) (result : Nat) (s : State) : (finish d status result s).forme = s.forme :=
  (finish_posted d status result s).forme_eq
@[simp] theorem finish_health (d : Descriptor) (status : BitVec 16) (result : Nat) (s : State) : (finish d status result s).health = s.health :=
  (finish_posted d status result s).health_eq
@[simp] theorem finish_mirror (d : Descriptor) (status : BitVec 16) (result : Nat) (s : State) : (finish d status result s).mirror = s.mirror :=
  (finish_posted d status result s).mirror_eq
@[simp] theorem finish_dbg (d : Descriptor) (status : BitVec 16) (result : Nat) (s : State) : (finish d status result s).dbg = s.dbg :=
  (finish_posted d status result s).dbg_eq
@[simp] theorem finish_fw (d : Descriptor) (status : BitVec 16) (result : Nat) (s : State) : (finish d status result s).fw = s.fw :=
  (finish_posted d status result s).fw_eq
@[simp] theorem finish_mgmt (d : Descriptor) (status : BitVec 16) (result : Nat) (s : State) : (finish d status result s).mgmt = s.mgmt :=
  (finish_posted d status result s).mgmt_eq
@[simp] theorem finish_free (d : Descriptor) (status : BitVec 16) (result : Nat) (s : State) : (finish d status result s).free = s.free :=
  (finish_posted d status result s).free_eq
@[simp] theorem finish_pending (d : Descriptor) (status : BitVec 16) (result : Nat) (s : State) : (finish d status result s).pending = s.pending :=
  (finish_posted d status result s).pending_eq

@[simp] theorem finishReason_nv (d : Descriptor) (status : BitVec 16) (reason result : Nat) (s : State) : (finishReason d status reason result s).nv = s.nv :=
  (finishReason_posted d status reason result s).nv_eq
@[simp] theorem finishReason_time (d : Descriptor) (status : BitVec 16) (reason result : Nat) (s : State) : (finishReason d status reason result s).time = s.time :=
  (finishReason_posted d status reason result s).time_eq
@[simp] theorem finishReason_clk (d : Descriptor) (status : BitVec 16) (reason result : Nat) (s : State) : (finishReason d status reason result s).clk = s.clk :=
  (finishReason_posted d status reason result s).clk_eq
@[simp] theorem finishReason_tt (d : Descriptor) (status : BitVec 16) (reason result : Nat) (s : State) : (finishReason d status reason result s).tt = s.tt :=
  (finishReason_posted d status reason result s).tt_eq
@[simp] theorem finishReason_barrier (d : Descriptor) (status : BitVec 16) (reason result : Nat) (s : State) : (finishReason d status reason result s).barrier = s.barrier :=
  (finishReason_posted d status reason result s).barrier_eq
@[simp] theorem finishReason_presses (d : Descriptor) (status : BitVec 16) (reason result : Nat) (s : State) : (finishReason d status reason result s).presses = s.presses :=
  (finishReason_posted d status reason result s).presses_eq
@[simp] theorem finishReason_far (d : Descriptor) (status : BitVec 16) (reason result : Nat) (s : State) : (finishReason d status reason result s).far = s.far :=
  (finishReason_posted d status reason result s).far_eq
@[simp] theorem finishReason_conc (d : Descriptor) (status : BitVec 16) (reason result : Nat) (s : State) : (finishReason d status reason result s).conc = s.conc :=
  (finishReason_posted d status reason result s).conc_eq
@[simp] theorem finishReason_ports (d : Descriptor) (status : BitVec 16) (reason result : Nat) (s : State) : (finishReason d status reason result s).ports = s.ports :=
  (finishReason_posted d status reason result s).ports_eq
@[simp] theorem finishReason_fab (d : Descriptor) (status : BitVec 16) (reason result : Nat) (s : State) : (finishReason d status reason result s).fab = s.fab :=
  (finishReason_posted d status reason result s).fab_eq
@[simp] theorem finishReason_eng (d : Descriptor) (status : BitVec 16) (reason result : Nat) (s : State) : (finishReason d status reason result s).eng = s.eng :=
  (finishReason_posted d status reason result s).eng_eq
@[simp] theorem finishReason_smp (d : Descriptor) (status : BitVec 16) (reason result : Nat) (s : State) : (finishReason d status reason result s).smp = s.smp :=
  (finishReason_posted d status reason result s).smp_eq
@[simp] theorem finishReason_liv (d : Descriptor) (status : BitVec 16) (reason result : Nat) (s : State) : (finishReason d status reason result s).liv = s.liv :=
  (finishReason_posted d status reason result s).liv_eq
@[simp] theorem finishReason_forme (d : Descriptor) (status : BitVec 16) (reason result : Nat) (s : State) : (finishReason d status reason result s).forme = s.forme :=
  (finishReason_posted d status reason result s).forme_eq
@[simp] theorem finishReason_health (d : Descriptor) (status : BitVec 16) (reason result : Nat) (s : State) : (finishReason d status reason result s).health = s.health :=
  (finishReason_posted d status reason result s).health_eq
@[simp] theorem finishReason_mirror (d : Descriptor) (status : BitVec 16) (reason result : Nat) (s : State) : (finishReason d status reason result s).mirror = s.mirror :=
  (finishReason_posted d status reason result s).mirror_eq
@[simp] theorem finishReason_dbg (d : Descriptor) (status : BitVec 16) (reason result : Nat) (s : State) : (finishReason d status reason result s).dbg = s.dbg :=
  (finishReason_posted d status reason result s).dbg_eq
@[simp] theorem finishReason_fw (d : Descriptor) (status : BitVec 16) (reason result : Nat) (s : State) : (finishReason d status reason result s).fw = s.fw :=
  (finishReason_posted d status reason result s).fw_eq
@[simp] theorem finishReason_mgmt (d : Descriptor) (status : BitVec 16) (reason result : Nat) (s : State) : (finishReason d status reason result s).mgmt = s.mgmt :=
  (finishReason_posted d status reason result s).mgmt_eq
@[simp] theorem finishReason_free (d : Descriptor) (status : BitVec 16) (reason result : Nat) (s : State) : (finishReason d status reason result s).free = s.free :=
  (finishReason_posted d status reason result s).free_eq
@[simp] theorem finishReason_pending (d : Descriptor) (status : BitVec 16) (reason result : Nat) (s : State) : (finishReason d status reason result s).pending = s.pending :=
  (finishReason_posted d status reason result s).pending_eq

@[simp] theorem queued_nv (d : Descriptor) (result : Nat) (s : State) : (queued d result s).nv = s.nv :=
  (queued_posted d result s).nv_eq
@[simp] theorem queued_time (d : Descriptor) (result : Nat) (s : State) : (queued d result s).time = s.time :=
  (queued_posted d result s).time_eq
@[simp] theorem queued_clk (d : Descriptor) (result : Nat) (s : State) : (queued d result s).clk = s.clk :=
  (queued_posted d result s).clk_eq
@[simp] theorem queued_tt (d : Descriptor) (result : Nat) (s : State) : (queued d result s).tt = s.tt :=
  (queued_posted d result s).tt_eq
@[simp] theorem queued_barrier (d : Descriptor) (result : Nat) (s : State) : (queued d result s).barrier = s.barrier :=
  (queued_posted d result s).barrier_eq
@[simp] theorem queued_presses (d : Descriptor) (result : Nat) (s : State) : (queued d result s).presses = s.presses :=
  (queued_posted d result s).presses_eq
@[simp] theorem queued_far (d : Descriptor) (result : Nat) (s : State) : (queued d result s).far = s.far :=
  (queued_posted d result s).far_eq
@[simp] theorem queued_conc (d : Descriptor) (result : Nat) (s : State) : (queued d result s).conc = s.conc :=
  (queued_posted d result s).conc_eq
@[simp] theorem queued_ports (d : Descriptor) (result : Nat) (s : State) : (queued d result s).ports = s.ports :=
  (queued_posted d result s).ports_eq
@[simp] theorem queued_fab (d : Descriptor) (result : Nat) (s : State) : (queued d result s).fab = s.fab :=
  (queued_posted d result s).fab_eq
@[simp] theorem queued_eng (d : Descriptor) (result : Nat) (s : State) : (queued d result s).eng = s.eng :=
  (queued_posted d result s).eng_eq
@[simp] theorem queued_smp (d : Descriptor) (result : Nat) (s : State) : (queued d result s).smp = s.smp :=
  (queued_posted d result s).smp_eq
@[simp] theorem queued_liv (d : Descriptor) (result : Nat) (s : State) : (queued d result s).liv = s.liv :=
  (queued_posted d result s).liv_eq
@[simp] theorem queued_forme (d : Descriptor) (result : Nat) (s : State) : (queued d result s).forme = s.forme :=
  (queued_posted d result s).forme_eq
@[simp] theorem queued_health (d : Descriptor) (result : Nat) (s : State) : (queued d result s).health = s.health :=
  (queued_posted d result s).health_eq
@[simp] theorem queued_mirror (d : Descriptor) (result : Nat) (s : State) : (queued d result s).mirror = s.mirror :=
  (queued_posted d result s).mirror_eq
@[simp] theorem queued_dbg (d : Descriptor) (result : Nat) (s : State) : (queued d result s).dbg = s.dbg :=
  (queued_posted d result s).dbg_eq
@[simp] theorem queued_fw (d : Descriptor) (result : Nat) (s : State) : (queued d result s).fw = s.fw :=
  (queued_posted d result s).fw_eq
@[simp] theorem queued_mgmt (d : Descriptor) (result : Nat) (s : State) : (queued d result s).mgmt = s.mgmt :=
  (queued_posted d result s).mgmt_eq
@[simp] theorem queued_free (d : Descriptor) (result : Nat) (s : State) : (queued d result s).free = s.free :=
  (queued_posted d result s).free_eq
@[simp] theorem queued_pending (d : Descriptor) (result : Nat) (s : State) : (queued d result s).pending = s.pending :=
  (queued_posted d result s).pending_eq

@[simp] theorem finishReply_nv (d : Descriptor) (status : BitVec 16) (result : Nat) (reply : List Byte) (s : State) : (finishReply d status result reply s).nv = s.nv :=
  (finishReply_posted d status result reply s).nv_eq
@[simp] theorem finishReply_time (d : Descriptor) (status : BitVec 16) (result : Nat) (reply : List Byte) (s : State) : (finishReply d status result reply s).time = s.time :=
  (finishReply_posted d status result reply s).time_eq
@[simp] theorem finishReply_clk (d : Descriptor) (status : BitVec 16) (result : Nat) (reply : List Byte) (s : State) : (finishReply d status result reply s).clk = s.clk :=
  (finishReply_posted d status result reply s).clk_eq
@[simp] theorem finishReply_tt (d : Descriptor) (status : BitVec 16) (result : Nat) (reply : List Byte) (s : State) : (finishReply d status result reply s).tt = s.tt :=
  (finishReply_posted d status result reply s).tt_eq
@[simp] theorem finishReply_barrier (d : Descriptor) (status : BitVec 16) (result : Nat) (reply : List Byte) (s : State) : (finishReply d status result reply s).barrier = s.barrier :=
  (finishReply_posted d status result reply s).barrier_eq
@[simp] theorem finishReply_presses (d : Descriptor) (status : BitVec 16) (result : Nat) (reply : List Byte) (s : State) : (finishReply d status result reply s).presses = s.presses :=
  (finishReply_posted d status result reply s).presses_eq
@[simp] theorem finishReply_far (d : Descriptor) (status : BitVec 16) (result : Nat) (reply : List Byte) (s : State) : (finishReply d status result reply s).far = s.far :=
  (finishReply_posted d status result reply s).far_eq
@[simp] theorem finishReply_conc (d : Descriptor) (status : BitVec 16) (result : Nat) (reply : List Byte) (s : State) : (finishReply d status result reply s).conc = s.conc :=
  (finishReply_posted d status result reply s).conc_eq
@[simp] theorem finishReply_ports (d : Descriptor) (status : BitVec 16) (result : Nat) (reply : List Byte) (s : State) : (finishReply d status result reply s).ports = s.ports :=
  (finishReply_posted d status result reply s).ports_eq
@[simp] theorem finishReply_fab (d : Descriptor) (status : BitVec 16) (result : Nat) (reply : List Byte) (s : State) : (finishReply d status result reply s).fab = s.fab :=
  (finishReply_posted d status result reply s).fab_eq
@[simp] theorem finishReply_eng (d : Descriptor) (status : BitVec 16) (result : Nat) (reply : List Byte) (s : State) : (finishReply d status result reply s).eng = s.eng :=
  (finishReply_posted d status result reply s).eng_eq
@[simp] theorem finishReply_smp (d : Descriptor) (status : BitVec 16) (result : Nat) (reply : List Byte) (s : State) : (finishReply d status result reply s).smp = s.smp :=
  (finishReply_posted d status result reply s).smp_eq
@[simp] theorem finishReply_liv (d : Descriptor) (status : BitVec 16) (result : Nat) (reply : List Byte) (s : State) : (finishReply d status result reply s).liv = s.liv :=
  (finishReply_posted d status result reply s).liv_eq
@[simp] theorem finishReply_forme (d : Descriptor) (status : BitVec 16) (result : Nat) (reply : List Byte) (s : State) : (finishReply d status result reply s).forme = s.forme :=
  (finishReply_posted d status result reply s).forme_eq
@[simp] theorem finishReply_health (d : Descriptor) (status : BitVec 16) (result : Nat) (reply : List Byte) (s : State) : (finishReply d status result reply s).health = s.health :=
  (finishReply_posted d status result reply s).health_eq
@[simp] theorem finishReply_mirror (d : Descriptor) (status : BitVec 16) (result : Nat) (reply : List Byte) (s : State) : (finishReply d status result reply s).mirror = s.mirror :=
  (finishReply_posted d status result reply s).mirror_eq
@[simp] theorem finishReply_dbg (d : Descriptor) (status : BitVec 16) (result : Nat) (reply : List Byte) (s : State) : (finishReply d status result reply s).dbg = s.dbg :=
  (finishReply_posted d status result reply s).dbg_eq
@[simp] theorem finishReply_fw (d : Descriptor) (status : BitVec 16) (result : Nat) (reply : List Byte) (s : State) : (finishReply d status result reply s).fw = s.fw :=
  (finishReply_posted d status result reply s).fw_eq
@[simp] theorem finishReply_mgmt (d : Descriptor) (status : BitVec 16) (result : Nat) (reply : List Byte) (s : State) : (finishReply d status result reply s).mgmt = s.mgmt :=
  (finishReply_posted d status result reply s).mgmt_eq
@[simp] theorem finishReply_free (d : Descriptor) (status : BitVec 16) (result : Nat) (reply : List Byte) (s : State) : (finishReply d status result reply s).free = s.free :=
  (finishReply_posted d status result reply s).free_eq
@[simp] theorem finishReply_pending (d : Descriptor) (status : BitVec 16) (result : Nat) (reply : List Byte) (s : State) : (finishReply d status result reply s).pending = s.pending :=
  (finishReply_posted d status result reply s).pending_eq

/-! ## Holds and step faults (R30 to R35, R50, R379, R380) -/

/-- A hold touches the timetable alone. -/
theorem raiseHold_shape (u : UnitId) (c : Cause) (k : HoldKind) (freeze : Nat) (s : State) :
    ∃ h n, raiseHold u c k freeze s = { s with tt.holds := h, tt.holdCount := n } := by
  unfold raiseHold
  split
  · exact ⟨_, _, rfl⟩
  · exact ⟨s.tt.holds, s.tt.holdCount, rfl⟩

/-- A release changes only resume times. -/
theorem releaseHolds_shape (p : Hold → Bool) (s : State) : ∃ h, releaseHolds p s = { s with tt.holds := h } := ⟨_, rfl⟩

/-- The start of run-out. -/
theorem startRunout_shape (s : State) : ∃ h r t, startRunout s = { s with tt.holds := h, tt.runout := r, tt.runoutAt := t } := by
  unfold startRunout
  split
  · exact ⟨s.tt.holds, s.tt.runout, s.tt.runoutAt, rfl⟩
  · exact ⟨_, _, _, rfl⟩

/-- A step fault touches FAULT_DETAIL and the timetable alone. -/
theorem stepFault_shape (code unit : Nat) (s : State) :
    ∃ f h r t c a, stepFault code unit s =
      { s with health.fault := f, tt.holds := h, tt.runout := r, tt.runoutAt := t, tt.fault := c, tt.faultAt := a } := by
  unfold stepFault
  split
  · exact ⟨s.health.fault, s.tt.holds, s.tt.runout, s.tt.runoutAt, s.tt.fault, s.tt.faultAt, rfl⟩
  · dsimp only
    generalize hu : ite (s.tt.fault = 0) _ _ = u
    obtain ⟨h, r, t, e⟩ := startRunout_shape u
    have hs : ∃ f c a, u = { s with health.fault := f, tt.fault := c, tt.faultAt := a } := by
      subst hu
      split
      · exact ⟨_, _, _, rfl⟩
      · split
        · exact ⟨_, _, s.tt.faultAt, rfl⟩
        · exact ⟨_, s.tt.fault, s.tt.faultAt, rfl⟩
    obtain ⟨f, c, a, rfl⟩ := hs
    exact ⟨f, h, r, t, c, a, e⟩

@[simp] theorem raiseHold_nv (u : UnitId) (c : Cause) (k : HoldKind) (freeze : Nat) (s : State) : (raiseHold u c k freeze s).nv = s.nv := by
  obtain ⟨_, _, e⟩ := raiseHold_shape u c k freeze s
  rw [e]
@[simp] theorem raiseHold_power (u : UnitId) (c : Cause) (k : HoldKind) (freeze : Nat) (s : State) : (raiseHold u c k freeze s).power = s.power := by
  obtain ⟨_, _, e⟩ := raiseHold_shape u c k freeze s
  rw [e]
@[simp] theorem raiseHold_time (u : UnitId) (c : Cause) (k : HoldKind) (freeze : Nat) (s : State) : (raiseHold u c k freeze s).time = s.time := by
  obtain ⟨_, _, e⟩ := raiseHold_shape u c k freeze s
  rw [e]
@[simp] theorem raiseHold_clk (u : UnitId) (c : Cause) (k : HoldKind) (freeze : Nat) (s : State) : (raiseHold u c k freeze s).clk = s.clk := by
  obtain ⟨_, _, e⟩ := raiseHold_shape u c k freeze s
  rw [e]
@[simp] theorem raiseHold_barrier (u : UnitId) (c : Cause) (k : HoldKind) (freeze : Nat) (s : State) : (raiseHold u c k freeze s).barrier = s.barrier := by
  obtain ⟨_, _, e⟩ := raiseHold_shape u c k freeze s
  rw [e]
@[simp] theorem raiseHold_presses (u : UnitId) (c : Cause) (k : HoldKind) (freeze : Nat) (s : State) : (raiseHold u c k freeze s).presses = s.presses := by
  obtain ⟨_, _, e⟩ := raiseHold_shape u c k freeze s
  rw [e]
@[simp] theorem raiseHold_near (u : UnitId) (c : Cause) (k : HoldKind) (freeze : Nat) (s : State) : (raiseHold u c k freeze s).near = s.near := by
  obtain ⟨_, _, e⟩ := raiseHold_shape u c k freeze s
  rw [e]
@[simp] theorem raiseHold_far (u : UnitId) (c : Cause) (k : HoldKind) (freeze : Nat) (s : State) : (raiseHold u c k freeze s).far = s.far := by
  obtain ⟨_, _, e⟩ := raiseHold_shape u c k freeze s
  rw [e]
@[simp] theorem raiseHold_conc (u : UnitId) (c : Cause) (k : HoldKind) (freeze : Nat) (s : State) : (raiseHold u c k freeze s).conc = s.conc := by
  obtain ⟨_, _, e⟩ := raiseHold_shape u c k freeze s
  rw [e]
@[simp] theorem raiseHold_ports (u : UnitId) (c : Cause) (k : HoldKind) (freeze : Nat) (s : State) : (raiseHold u c k freeze s).ports = s.ports := by
  obtain ⟨_, _, e⟩ := raiseHold_shape u c k freeze s
  rw [e]
@[simp] theorem raiseHold_fab (u : UnitId) (c : Cause) (k : HoldKind) (freeze : Nat) (s : State) : (raiseHold u c k freeze s).fab = s.fab := by
  obtain ⟨_, _, e⟩ := raiseHold_shape u c k freeze s
  rw [e]
@[simp] theorem raiseHold_eng (u : UnitId) (c : Cause) (k : HoldKind) (freeze : Nat) (s : State) : (raiseHold u c k freeze s).eng = s.eng := by
  obtain ⟨_, _, e⟩ := raiseHold_shape u c k freeze s
  rw [e]
@[simp] theorem raiseHold_smp (u : UnitId) (c : Cause) (k : HoldKind) (freeze : Nat) (s : State) : (raiseHold u c k freeze s).smp = s.smp := by
  obtain ⟨_, _, e⟩ := raiseHold_shape u c k freeze s
  rw [e]
@[simp] theorem raiseHold_liv (u : UnitId) (c : Cause) (k : HoldKind) (freeze : Nat) (s : State) : (raiseHold u c k freeze s).liv = s.liv := by
  obtain ⟨_, _, e⟩ := raiseHold_shape u c k freeze s
  rw [e]
@[simp] theorem raiseHold_forme (u : UnitId) (c : Cause) (k : HoldKind) (freeze : Nat) (s : State) : (raiseHold u c k freeze s).forme = s.forme := by
  obtain ⟨_, _, e⟩ := raiseHold_shape u c k freeze s
  rw [e]
@[simp] theorem raiseHold_health (u : UnitId) (c : Cause) (k : HoldKind) (freeze : Nat) (s : State) : (raiseHold u c k freeze s).health = s.health := by
  obtain ⟨_, _, e⟩ := raiseHold_shape u c k freeze s
  rw [e]
@[simp] theorem raiseHold_mirror (u : UnitId) (c : Cause) (k : HoldKind) (freeze : Nat) (s : State) : (raiseHold u c k freeze s).mirror = s.mirror := by
  obtain ⟨_, _, e⟩ := raiseHold_shape u c k freeze s
  rw [e]
@[simp] theorem raiseHold_dbg (u : UnitId) (c : Cause) (k : HoldKind) (freeze : Nat) (s : State) : (raiseHold u c k freeze s).dbg = s.dbg := by
  obtain ⟨_, _, e⟩ := raiseHold_shape u c k freeze s
  rw [e]
@[simp] theorem raiseHold_kcl (u : UnitId) (c : Cause) (k : HoldKind) (freeze : Nat) (s : State) : (raiseHold u c k freeze s).kcl = s.kcl := by
  obtain ⟨_, _, e⟩ := raiseHold_shape u c k freeze s
  rw [e]
@[simp] theorem raiseHold_rings (u : UnitId) (c : Cause) (k : HoldKind) (freeze : Nat) (s : State) : (raiseHold u c k freeze s).rings = s.rings := by
  obtain ⟨_, _, e⟩ := raiseHold_shape u c k freeze s
  rw [e]
@[simp] theorem raiseHold_fw (u : UnitId) (c : Cause) (k : HoldKind) (freeze : Nat) (s : State) : (raiseHold u c k freeze s).fw = s.fw := by
  obtain ⟨_, _, e⟩ := raiseHold_shape u c k freeze s
  rw [e]
@[simp] theorem raiseHold_mgmt (u : UnitId) (c : Cause) (k : HoldKind) (freeze : Nat) (s : State) : (raiseHold u c k freeze s).mgmt = s.mgmt := by
  obtain ⟨_, _, e⟩ := raiseHold_shape u c k freeze s
  rw [e]
@[simp] theorem raiseHold_free (u : UnitId) (c : Cause) (k : HoldKind) (freeze : Nat) (s : State) : (raiseHold u c k freeze s).free = s.free := by
  obtain ⟨_, _, e⟩ := raiseHold_shape u c k freeze s
  rw [e]
@[simp] theorem raiseHold_pending (u : UnitId) (c : Cause) (k : HoldKind) (freeze : Nat) (s : State) : (raiseHold u c k freeze s).pending = s.pending := by
  obtain ⟨_, _, e⟩ := raiseHold_shape u c k freeze s
  rw [e]

@[simp] theorem stepFault_nv (code unit : Nat) (s : State) : (stepFault code unit s).nv = s.nv := by
  obtain ⟨_, _, _, _, _, _, e⟩ := stepFault_shape code unit s
  rw [e]
@[simp] theorem stepFault_power (code unit : Nat) (s : State) : (stepFault code unit s).power = s.power := by
  obtain ⟨_, _, _, _, _, _, e⟩ := stepFault_shape code unit s
  rw [e]
@[simp] theorem stepFault_time (code unit : Nat) (s : State) : (stepFault code unit s).time = s.time := by
  obtain ⟨_, _, _, _, _, _, e⟩ := stepFault_shape code unit s
  rw [e]
@[simp] theorem stepFault_clk (code unit : Nat) (s : State) : (stepFault code unit s).clk = s.clk := by
  obtain ⟨_, _, _, _, _, _, e⟩ := stepFault_shape code unit s
  rw [e]
@[simp] theorem stepFault_barrier (code unit : Nat) (s : State) : (stepFault code unit s).barrier = s.barrier := by
  obtain ⟨_, _, _, _, _, _, e⟩ := stepFault_shape code unit s
  rw [e]
@[simp] theorem stepFault_presses (code unit : Nat) (s : State) : (stepFault code unit s).presses = s.presses := by
  obtain ⟨_, _, _, _, _, _, e⟩ := stepFault_shape code unit s
  rw [e]
@[simp] theorem stepFault_near (code unit : Nat) (s : State) : (stepFault code unit s).near = s.near := by
  obtain ⟨_, _, _, _, _, _, e⟩ := stepFault_shape code unit s
  rw [e]
@[simp] theorem stepFault_far (code unit : Nat) (s : State) : (stepFault code unit s).far = s.far := by
  obtain ⟨_, _, _, _, _, _, e⟩ := stepFault_shape code unit s
  rw [e]
@[simp] theorem stepFault_conc (code unit : Nat) (s : State) : (stepFault code unit s).conc = s.conc := by
  obtain ⟨_, _, _, _, _, _, e⟩ := stepFault_shape code unit s
  rw [e]
@[simp] theorem stepFault_ports (code unit : Nat) (s : State) : (stepFault code unit s).ports = s.ports := by
  obtain ⟨_, _, _, _, _, _, e⟩ := stepFault_shape code unit s
  rw [e]
@[simp] theorem stepFault_fab (code unit : Nat) (s : State) : (stepFault code unit s).fab = s.fab := by
  obtain ⟨_, _, _, _, _, _, e⟩ := stepFault_shape code unit s
  rw [e]
@[simp] theorem stepFault_eng (code unit : Nat) (s : State) : (stepFault code unit s).eng = s.eng := by
  obtain ⟨_, _, _, _, _, _, e⟩ := stepFault_shape code unit s
  rw [e]
@[simp] theorem stepFault_smp (code unit : Nat) (s : State) : (stepFault code unit s).smp = s.smp := by
  obtain ⟨_, _, _, _, _, _, e⟩ := stepFault_shape code unit s
  rw [e]
@[simp] theorem stepFault_liv (code unit : Nat) (s : State) : (stepFault code unit s).liv = s.liv := by
  obtain ⟨_, _, _, _, _, _, e⟩ := stepFault_shape code unit s
  rw [e]
@[simp] theorem stepFault_forme (code unit : Nat) (s : State) : (stepFault code unit s).forme = s.forme := by
  obtain ⟨_, _, _, _, _, _, e⟩ := stepFault_shape code unit s
  rw [e]
@[simp] theorem stepFault_mirror (code unit : Nat) (s : State) : (stepFault code unit s).mirror = s.mirror := by
  obtain ⟨_, _, _, _, _, _, e⟩ := stepFault_shape code unit s
  rw [e]
@[simp] theorem stepFault_dbg (code unit : Nat) (s : State) : (stepFault code unit s).dbg = s.dbg := by
  obtain ⟨_, _, _, _, _, _, e⟩ := stepFault_shape code unit s
  rw [e]
@[simp] theorem stepFault_kcl (code unit : Nat) (s : State) : (stepFault code unit s).kcl = s.kcl := by
  obtain ⟨_, _, _, _, _, _, e⟩ := stepFault_shape code unit s
  rw [e]
@[simp] theorem stepFault_rings (code unit : Nat) (s : State) : (stepFault code unit s).rings = s.rings := by
  obtain ⟨_, _, _, _, _, _, e⟩ := stepFault_shape code unit s
  rw [e]
@[simp] theorem stepFault_fw (code unit : Nat) (s : State) : (stepFault code unit s).fw = s.fw := by
  obtain ⟨_, _, _, _, _, _, e⟩ := stepFault_shape code unit s
  rw [e]
@[simp] theorem stepFault_mgmt (code unit : Nat) (s : State) : (stepFault code unit s).mgmt = s.mgmt := by
  obtain ⟨_, _, _, _, _, _, e⟩ := stepFault_shape code unit s
  rw [e]
@[simp] theorem stepFault_free (code unit : Nat) (s : State) : (stepFault code unit s).free = s.free := by
  obtain ⟨_, _, _, _, _, _, e⟩ := stepFault_shape code unit s
  rw [e]
@[simp] theorem stepFault_pending (code unit : Nat) (s : State) : (stepFault code unit s).pending = s.pending := by
  obtain ⟨_, _, _, _, _, _, e⟩ := stepFault_shape code unit s
  rw [e]

@[simp] theorem releaseHolds_nv (p : Hold → Bool) (s : State) : (releaseHolds p s).nv = s.nv := rfl
@[simp] theorem releaseHolds_power (p : Hold → Bool) (s : State) : (releaseHolds p s).power = s.power := rfl
@[simp] theorem releaseHolds_time (p : Hold → Bool) (s : State) : (releaseHolds p s).time = s.time := rfl
@[simp] theorem releaseHolds_clk (p : Hold → Bool) (s : State) : (releaseHolds p s).clk = s.clk := rfl
@[simp] theorem releaseHolds_barrier (p : Hold → Bool) (s : State) : (releaseHolds p s).barrier = s.barrier := rfl
@[simp] theorem releaseHolds_presses (p : Hold → Bool) (s : State) : (releaseHolds p s).presses = s.presses := rfl
@[simp] theorem releaseHolds_near (p : Hold → Bool) (s : State) : (releaseHolds p s).near = s.near := rfl
@[simp] theorem releaseHolds_far (p : Hold → Bool) (s : State) : (releaseHolds p s).far = s.far := rfl
@[simp] theorem releaseHolds_conc (p : Hold → Bool) (s : State) : (releaseHolds p s).conc = s.conc := rfl
@[simp] theorem releaseHolds_ports (p : Hold → Bool) (s : State) : (releaseHolds p s).ports = s.ports := rfl
@[simp] theorem releaseHolds_fab (p : Hold → Bool) (s : State) : (releaseHolds p s).fab = s.fab := rfl
@[simp] theorem releaseHolds_eng (p : Hold → Bool) (s : State) : (releaseHolds p s).eng = s.eng := rfl
@[simp] theorem releaseHolds_smp (p : Hold → Bool) (s : State) : (releaseHolds p s).smp = s.smp := rfl
@[simp] theorem releaseHolds_liv (p : Hold → Bool) (s : State) : (releaseHolds p s).liv = s.liv := rfl
@[simp] theorem releaseHolds_forme (p : Hold → Bool) (s : State) : (releaseHolds p s).forme = s.forme := rfl
@[simp] theorem releaseHolds_health (p : Hold → Bool) (s : State) : (releaseHolds p s).health = s.health := rfl
@[simp] theorem releaseHolds_mirror (p : Hold → Bool) (s : State) : (releaseHolds p s).mirror = s.mirror := rfl
@[simp] theorem releaseHolds_dbg (p : Hold → Bool) (s : State) : (releaseHolds p s).dbg = s.dbg := rfl
@[simp] theorem releaseHolds_kcl (p : Hold → Bool) (s : State) : (releaseHolds p s).kcl = s.kcl := rfl
@[simp] theorem releaseHolds_rings (p : Hold → Bool) (s : State) : (releaseHolds p s).rings = s.rings := rfl
@[simp] theorem releaseHolds_fw (p : Hold → Bool) (s : State) : (releaseHolds p s).fw = s.fw := rfl
@[simp] theorem releaseHolds_mgmt (p : Hold → Bool) (s : State) : (releaseHolds p s).mgmt = s.mgmt := rfl
@[simp] theorem releaseHolds_free (p : Hold → Bool) (s : State) : (releaseHolds p s).free = s.free := rfl
@[simp] theorem releaseHolds_pending (p : Hold → Bool) (s : State) : (releaseHolds p s).pending = s.pending := rfl

end Sys2Proof.Machine
end

