-- ==== Sys2Proof/Laws/Streams.lean ====
section
/-! SUPPORT. The issue of instructions of the press streams, and the progress that an instruction keeps. -/

namespace Sys2Proof.Machine

/-- A stream that waits at no mark passes none. -/
theorem streamRelease_none (p : Nat) (id : StreamId) (s : State) (h : ((s.press p).stream id).mark = none) :
    streamRelease p id s = s := by
  simp [streamRelease, h]

/-- A stream that may issue, out of debug mode and with a readable word, runs the word's effect (R127, R136). -/
theorem issue_ready (ok : Bool) (run : Issue → State → Act) (i : Issue) (s : State) (hm : (s.streamOf i).mark = none)
    (hok : ok = true) (hi : mayIssue s i = true) (hd : s.dbg.enabled = false) (hf : i.fetch = .clean) :
    issue ok run i s = settle i (run i (takeWord i s)) := by
  dsimp only [issue]
  rw [streamRelease_none _ _ _ hm]
  simp only [hok, hi, State.breakAt, hd, hf]
  simp

/-- A stream that may not issue changes nothing. -/
theorem issue_not (ok : Bool) (run : Issue → State → Act) (i : Issue) (s : State) (hm : (s.streamOf i).mark = none)
    (h : ok = false ∨ mayIssue s i = false) : issue ok run i s = s := by
  dsimp only [issue]
  rw [streamRelease_none _ _ _ hm]
  rcases h with h | h <;> simp [h]

/-- A stream of a press under a change of that stream. -/
@[simp] theorem Press.modStream_stream (p : Press) (id : StreamId) (f : Stream → Stream) : (p.modStream id f).stream id = f (p.stream id) := by
  cases id <;> rfl

/-- A stream of an issue under a change of that stream. -/
@[simp] theorem streamOf_modStream (i : Issue) (f : Stream → Stream) (s : State) :
    (s.modStream i f).streamOf i = f (s.streamOf i) := by
  simp [State.streamOf, State.modStream, State.press_modPress_same, i.press.isLt]

/-- Progress recorded is progress read. -/
@[simp] theorem prog_setProg (i : Issue) (p : Progress) (s : State) : (setProg i p s).prog i = p := by
  simp [setProg, State.prog]

/-- An instruction in hand has made no progress. -/
@[simp] theorem prog_takeWord (i : Issue) (s : State) : (takeWord i s).prog i = Progress.reset := by
  simp [takeWord, State.prog]

end Sys2Proof.Machine
end

