-- ==== Sys2Proof/WellFormed.lean ====
section
/-! DEFINITION. Well-formed commands: what a row of the table allows beyond the types of its operands. -/

namespace Sys2Proof

/-- A descriptor's opcode is the row's (R422). -/
def opIs (d : Descriptor) (op : Nat) : Bool := d.opcode.toNat == op

/-- Byte 24 + `k` of a descriptor, which tells rows of one opcode apart (R422). -/
def modeIs (d : Descriptor) (k v : Nat) : Bool := d.p.toNat / 2 ^ (8 * k) % 256 == v

/-- A block holds no more bytes than its descriptor names (R419). -/
def blockOk (d : Descriptor) (blk : List Byte) : Bool := decide (blk.length ≤ d.blockLength.toNat)

/-- The number of a part with a health score (R392). -/
def partOk (part : BitVec 8) : Bool := decide (part.toNat < 164)

/-- A waybill index (R290). -/
def waybillOk (w : BitVec 16) : Bool := decide (w.toNat < 65535)

/-- 1 to 16 data units of 64 B (R402). -/
def unitsOk (data : List Byte) : Bool := decide (64 ≤ data.length) && decide (data.length ≤ 1024) && data.length % 64 == 0

/-- A packet: a control packet or a message of 32 B at least, and 64 payload units after a 64 B header at most (R204). -/
def packetOk (pkt : List Byte) : Bool := decide (32 ≤ pkt.length) && decide (pkt.length ≤ 4160) && pkt.length % 32 == 0

/-- The payload of a SERVICE packet: 1 to 64 units of 64 B (R204). -/
def payloadOk (b : List Byte) : Bool := decide (64 ≤ b.length) && decide (b.length ≤ 4096) && b.length % 64 == 0

/-- Whether a command is one that its row describes. `exec` is total all the same. -/
def Instr.wf : Instr → Bool
  | .nop d => opIs d 0x0001
  | .identify d => opIs d 0x0002
  | .getEdition d => opIs d 0x0003
  | .setOperatingPoint d => opIs d 0x0010
  | .selfTest d => opIs d 0x0020
  | .resetWarm d => opIs d 0x0030
  | .formeLoad d _ => opIs d 0x0101
  | .formeImpose d blk => opIs d 0x0102 && blockOk d blk
  | .formeStart d => opIs d 0x0103
  | .formeStop d => opIs d 0x0104
  | .formeUnload d => opIs d 0x0105
  | .weightsLoad d blk _ => opIs d 0x0201 && blockOk d blk
  | .weightsBroadcast d blk _ => opIs d 0x0202 && blockOk d blk
  | .weightsDigestRead d => opIs d 0x0203 && modeIs d 0 0
  | .weightsDigestSeal d blk => opIs d 0x0203 && modeIs d 0 1 && blockOk d blk
  | .weightsFree d => opIs d 0x0204
  | .waybillOpen d blk => opIs d 0x0301 && blockOk d blk
  | .waybillAppend d blk => opIs d 0x0302 && blockOk d blk
  | .waybillCancel d => opIs d 0x0303
  | .waybillStable d => opIs d 0x0304
  | .waybillResume d => opIs d 0x0305
  | .waybillQuery d => opIs d 0x0306
  | .liveryLoad d blk => opIs d 0x0310 && blockOk d blk
  | .liveryFree d => opIs d 0x0311
  | .linkStateRead d => opIs d 0x0401 && modeIs d 1 0
  | .linkStateEnable d => opIs d 0x0401 && modeIs d 1 1
  | .linkStateDisable d => opIs d 0x0401 && modeIs d 1 2
  | .linkRetrain d => opIs d 0x0402
  | .partitionSet d => opIs d 0x0403
  | .routeTableLoad d blk => opIs d 0x0404 && blockOk d blk
  | .timeSyncRole d => opIs d 0x0405
  | .fwStage d blk => opIs d 0x0501 && blockOk d blk
  | .fwHandover d => opIs d 0x0502
  | .fwFlashWrite d => opIs d 0x0503
  | .fwVersion d => opIs d 0x0504
  | .healthRead d => opIs d 0x0601
  | .attest d => opIs d 0x0602
  | .colophonSign d => opIs d 0x0603
  | .debugEnable d => opIs d 0x0701
  | .breakSet d => opIs d 0x0702
  | .breakClear d => opIs d 0x0703
  | .hazardRead d => opIs d 0x0704
  | .rankingComplete w => waybillOk w
  | .stablingCopyComplete w => waybillOk w
  | .restoreCopyComplete w => waybillOk w
  | .frameReceived _ f => packetOk f.packet
  | .planPacket _ pkt => packetOk pkt
  | .controlPacketForward _ pkt => packetOk pkt
  | .weightData payload => payloadOk payload
  | .weightEnd payload => payloadOk payload
  | .mirrorItem payload => payloadOk payload
  | .mirrorAck payload => payloadOk payload
  | .mirrorRelease payload => payloadOk payload
  | .recoverFetch payload => payloadOk payload
  | .recoverData payload => payloadOk payload
  | .recoverFetchResend w => waybillOk w
  | .recoverFetchTimeout w => waybillOk w
  | .selfTestRun part => partOk part
  | .selfTestRunEnd part _ _ => partOk part
  | .stationReady delays => delays.length == 102
  | .bulkWr _ _ _ data => unitsOk data
  | .kclData _ error data => error || unitsOk data
  | .streamNop _ | .departMark _ | .dueMark _ | .loop _ | .endStream _ | .wload _ | .pass _ | .wadd _ | .add _ | .mul _
  | .fma _ | .min _ | .max _ | .cmp _ | .select _ | .scale _ | .exponent _ | .mantissa _ | .rcp _ | .rsqrt _ | .cvt _
  | .rsum _ | .rmax _ | .rmin _ | .accCvt _ | .load _ | .store _ | .move _ | .moveWide _ | .platRd _ | .platWr _ | .nearRd _
  | .nearWr _ | .farRd _ | .farWr _ | .queueWaitEnd _ _ | .releaseWaitEnd _ | .seqSlotPress _ _ | .portionArrival _ _
  | .seqSlotHost _ _ | .seqSlotFirmware _ _ | .seqMark _ | .seqLoop _ | .seqEnd _ | .farStreamSlot _ _ | .farStreamMark _
  | .farStreamLoop _ | .farStreamEnd _ | .cxlCompletionTimeout _ | .cxlLinkDown _ | .pointsSlot _ | .packetRelease _
  | .pointsMark _ | .pointsLoop _ | .pointsEnd _ | .samplerRows | .samplerDueMark | .samplerDepartMark | .samplerLoop
  | .samplerEnd | .launch | .programCopy | .readinessTest _ | .holdRelease _ _ | .holdResume _ _
  | .firmwareServiceIntrusion _ | .endCountReached | .drainComplete | .drainLimitExpiry | .planWatchdogExpiry _
  | .barrierReport _ _ | .startCountReached | .barrierTimeout | .announceTimeout | .announceCommit _ | .announceAbort _
  | .announceStop _ | .announceCommitStop _ | .announceStart _ | .stagingCopyComplete _ | .logCopyComplete | .void _ _
  | .cancelWrite _ _ | .landingArrival _ _ | .refreshDue | .refreshWindowEnd | .nearTemperatureReport _ _
  | .nearTerminusRetrain | .nearInStepRetrain _ | .nearRetrainEnd _ | .nearTrainingComplete _ _ | .scrub _ _ | .frameStart _
  | .linkBlock _ _ | .initBlock _ _ | .pause _ _ | .paused _ _ | .resume _ _ | .ackTimerExpiry _ | .laneTrainingComplete _ _
  | .trainingRetry _ | .marginBelowFloor _ _ _ | .lossOfLock _ | .uncorrectableBurst _ _ | .linkTerminusRetrain _
  | .retrainComplete _ _ | .retrainTimeout _ | .timeProbe _ _ _ _ | .timeReply _ _ _ _ | .timeNotice _ _ | .portNotice _ _
  | .fwMsgRebuilt _ _ | .fwMsgAck _ _ | .fwMessageResend _ | .broadcastTimeout | .keyInstall _ | .timeProbePeriod
  | .probeLost | .timeSilence | .timeNoticePeriod | .altPortReturn | .timeCode | .ppsInEdge _ | .ppsTimeout | .ppsOutEdge
  | .refclkLoss | .refclkReturn _ | .domainRampStep _ | .sscDepthStep _ | .operatingPointSwitch | .operatingPointChangeEnd
  | .pressIdle _ | .pressWake _ | .departureGroup _ | .powerSample _ _ | .quietEntry | .deepQuietEntry | .wake
  | .healthCompute | .handoverComplete _ | .boxWatchdogExpiry _ | .sb0WatchdogExpiry | .waybillRebuild | .powerOn
  | .underVoltage | .underVoltageEnd | .auxSupplyLoss | .modResetAssert | .modResetRelease | .thermalTrip _ | .nvmWriteEnd
  | .optionLoadingComplete _ | .kclHwTrainingComplete _ | .sramTestComplete | .bootVerify | .boxServicesReady _
  | .pressSelfTestComplete _ _ | .engineSelfTestComplete _ | .farPortReady _ _ _ _ | .fwRecoveryGo _ _ | .optionCtlWrite _
  | .optionWriteDone _ | .debugResume _ | .timeSet _ | .fabricGidWrite _ | .linkConfigWrite _ _ | .clkenWrite _ _
  | .domainCtlWrite _ _ | .sscCtlWrite _ _ | .farConfigWrite _ | .farAreaWrite _ _ | .kclSharedWrite _ | .subCfgWrite _ _
  | .subDoorbell _ _ | .descriptorTake | .cplCfgWrite _ _ | .cplConsumerWrite _ _ | .evtCfgWrite _ | .outCfgWrite _ _
  | .outConsumerWrite _ _ | .editionPtrWrite _ | .registerWrite _ _ | .csRd _ _ | .rdShared _ _ | .rdOwn _ _
  | .writeback _ _ _ | .evict _ _ | .bulkRd _ _ _ | .kclAck _ | .snpAck _ | .snpData _ _ | .snoopTimeout _ | .mctpControl _
  | .pldm _ | .mgmtControlAccess _ _ _ | .getVersion _ | .getCapabilities _ | .negotiateAlgorithms _ | .getDigests _
  | .getCertificate _ | .challenge _ | .getMeasurements _ | .pqSignature _ | .pqCertificate _ | .flashSectorEraseEnd
  | .wakeComplete | .cxlWriteCompletion _ | .dynamicAddressAssignment _ => true

end Sys2Proof
end

