-- ==== Sys2Proof/Tests/Slice0.lean ====
section
/-! SUPPORT. Tests: ill-formed commands, a witness of the hypotheses of each statement, clause by clause, and a few single steps. -/

namespace Sys2Proof.Tests

open Sys2Proof Sys2Proof.Machine

set_option Elab.async false

/-! ## Small operands and states -/

/-- A command of ring 0 with opcode `op`, inline parameters `p` and no block. -/
def cmd (op p : Nat) : Descriptor := ⟨0, BitVec.ofNat 16 op, 0, 0, 7, 0, 0, 0, BitVec.ofNat 320 p⟩

/-- The same with a block of `len` bytes. -/
def cmdBlk (op p len : Nat) : Descriptor := { cmd op p with block := 4096, blockLength := BitVec.ofNat 32 len }

/-- The same with a reply area at 1 KiB of the shared window. -/
def cmdRep (op p : Nat) : Descriptor := { cmd op p with reply := 1 }

/-- A register write of eight aligned bytes at an offset, under tag 0. -/
def wr (off : Nat) (v : Reg) : CsWr := ⟨0, 0xFF <<< (off % 64), v⟩

/-- An instruction word: operation, queues A, B, C and DST, COUNT − 1, MODE with its format, and the per-operation bits. -/
def word (op a b c dst count mode bits : Nat) : PressWord :=
  BitVec.ofNat 128 (bits + dst * 2 ^ 60 + c * 2 ^ 66 + b * 2 ^ 72 + a * 2 ^ 78 + count * 2 ^ 84 + mode * 2 ^ 96 + op * 2 ^ 120)

/-- An END instruction. -/
def endWord : PressWord := word 0x03 63 63 63 63 0 0 0

/-- An END record of a list. -/
def endRec : BitVec 64 := 0x3000000000000000

/-- The queue table of a press slot that uses none of Q0 to Q47, and one entry of Q54. -/
def tinyQueues : List QueueRow :=
  .replicate 48 ⟨0, 0, 0⟩ ++ [⟨0, 4, 1⟩, ⟨0, 4, 1⟩, ⟨0, 0, 3⟩, ⟨0, 0, 3⟩, ⟨0, 5, 0⟩, ⟨0, 0, 6⟩, ⟨1, 1, 7⟩] ++ .replicate 9 ⟨0, 0, 0⟩

/-- A variant in which every stream and list ends at once, each sequencer keeps one HOST slot of four entries, and the sampler takes
one row. -/
def tinyVariant : VariantPart :=
  ⟨[⟨[endWord], [endWord], [endWord], 0, []⟩], .replicate 32 [BitVec.ofNat 64 (2 ^ 58 + 3 * 2 ^ 38), endRec], [], [], [0, endRec]⟩

/-- A placement with the host lanes alone. -/
def tinyPlacement : Placement :=
  ⟨0, 0, [], (List.finRange 32).flatMap (fun k => [⟨.west, .seq k, 0⟩, ⟨.seq k, .west, 0⟩, ⟨.east, .seq k, 1⟩, ⟨.seq k, .east, 1⟩]), [[]],
    [0], [some tinyVariant, none, none]⟩

/-- A forme of one chip and one press that does nothing, of one berth and a vocabulary of one token, for the point Stopping. -/
def tinyForme : Forme where
  tt := ⟨1, 1, 1, [64, 64, 64], .replicate 8 [4656, 3200, 2560], 0, 0, 0, 0, 0, [0xFFFFFFFF]⟩
  serving := ⟨0, [0], 1, 1, 1, 0, [1], 256, 1, 1, 1, 1, 0, 0, 1, 0, [⟨0, 0, 0⟩], []⟩
  sampler := some ⟨1, [⟨0, 0, 1⟩], 0, 1, 1024, ⟨0, 0, 0⟩⟩
  tensors := []
  flows := []
  dests := []
  keyCount := 1
  treeRoutes := []
  chip := ⟨[0], 0, 0, [tinyQueues], [[⟨0, 1, 0, 1⟩]], [[]], ⟨[], [], none⟩, [], [tinyPlacement]⟩

/-- The module in service with no forme loaded: boxes, press 0, channels and clocks READY, GID 5, 4 MiB of shared window, KCL up. -/
def board : State :=
  { State.reset with
    power.phase := .running, power.readyBox := 0x3F, power.readyPress := 1, fw.boot := .running, clk.locked := 0xFF
    near.channels := State.reset.near.channels.map (fun c => { c with ready := true, trained := true })
    fab.gidValid := true, fab.gid := 5, kcl.sharedSize := 4096
    ports := State.reset.ports.map (fun q => { q with enable := true, ready := true, state := .active, sawActive := true }) }

/-- The same with the tiny forme in a state, its empty weight set sealed. -/
def withForme (st : FormeState) : State :=
  { board with forme := { FormeSt.reset with state := st, forme := some tinyForme, sealed := true, binding := [5] }
               near.poolBase := 4259840 }

/-- The same in a step, at TT 64, which is its end count. -/
def inStep : State := { withForme .started with tt.inStep := true, tt.tt := 64, tt.endCount := 64, tt.copied := true }

/-! ## Well-formedness -/

/-- Each check of `Instr.wf` refuses a command that its row does not describe (R204, R290, R392, R402, R419, R422). -/
theorem test_illFormedRefused :
    (Instr.nop (cmd 2 0)).wf = false ∧ (Instr.weightsDigestRead (cmd 0x0203 1)).wf = false ∧
    (Instr.linkStateDisable (cmd 0x0401 0x100)).wf = false ∧ (Instr.waybillOpen (cmdBlk 0x0301 1 1) [0, 0]).wf = false ∧
    (Instr.planPacket 0 (zeros 16)).wf = false ∧ (Instr.weightData (zeros 32)).wf = false ∧
    (Instr.rankingComplete 65535).wf = false ∧ (Instr.selfTestRun 164).wf = false ∧ (Instr.stationReady [0]).wf = false ∧
    (Instr.bulkWr 0 0 0 (zeros 32)).wf = false ∧ (Instr.kclData 0 false []).wf = false := by decide +kernel

/-- The same commands as their rows describe them. -/
theorem test_wellFormedAccepted :
    (Instr.nop (cmd 1 0)).wf = true ∧ (Instr.weightsDigestRead (cmd 0x0203 0)).wf = true ∧
    (Instr.linkStateDisable (cmd 0x0401 0x200)).wf = true ∧ (Instr.waybillOpen (cmdBlk 0x0301 1 2) [0, 0]).wf = true ∧
    (Instr.planPacket 0 (zeros 128)).wf = true ∧ (Instr.weightData (zeros 64)).wf = true ∧
    (Instr.rankingComplete 65534).wf = true ∧ (Instr.selfTestRun 163).wf = true ∧
    (Instr.stationReady (.replicate 102 0)).wf = true ∧ (Instr.bulkWr 0 0 0 (zeros 64)).wf = true ∧
    (Instr.kclData 0 true []).wf = true := by decide +kernel

/-! ## Witnesses: steps, queue and reports -/

theorem wit_EmptyQueueTicks : State.reset.pending = [] ∧ State.reset.clk.locked.getLsbD 0 = false ∧
    board.pending = [] ∧ board.clk.locked.getLsbD 0 = true ∧ board.time.freq = 0 ∧ board.time.slew = 0 ∧ board.tt.inStep = false ∧
    (let s : State := { inStep with tt.tt := 63 };
      s.clk.locked.getLsbD 0 = true ∧ s.time.freq = 0 ∧ s.time.slew = 0 ∧ s.tt.inStep = true ∧ s.tt.draining = false ∧
      s.stopping = [] ∧ s.tt.tt.toNat < s.tt.endCount) ∧
    (let s := raiseHold .sampler .envelope .due 64 inStep; s.stopping ≠ [] ∧ s.tt.draining = false) := by decide +kernel

theorem wit_MemoriesStayCanonical : State.reset.memoriesOk ∧ step State.reset = .next (tick State.reset) :=
  ⟨by unfold State.memoriesOk; decide, rfl⟩

theorem wit_QueueIsFifo :
    (let s : State := { State.reset with pending := [.sramTestComplete, .wake] }; s.pending = .sramTestComplete :: [.wake] ∧
      goesOn (step s) = true) ∧ State.reset.pending = [] ∧ goesOn (step State.reset) = true := by decide +kernel

/-- A state at the first count of the refresh grid. -/
def atRefresh : State := { board with time.ns := BitVec.ofNat 64 refreshPhase }

theorem now_atRefresh : atRefresh.now = refreshPhase := by
  have h : refreshPhase < 1612 := Nat.mod_lt _ (by decide)
  simp [atRefresh, State.now]
  omega

theorem atRefresh_due : atRefresh.now % atRefresh.refreshInterval = refreshPhase := by
  have h : refreshPhase < 1612 := Nat.mod_lt _ (by decide)
  rw [now_atRefresh, show atRefresh.refreshInterval = 3224 from rfl]
  omega

theorem wit_HoldsOnlyInStep :
    (State.reset.tt.inStep = false ∧ State.reset.tt.holds = [] ∧ (tick State.reset).tt.inStep = false) ∧
    (atRefresh.tt.inStep = false ∧ atRefresh.now % atRefresh.refreshInterval = refreshPhase ∧ atRefresh.near.selfRefresh = false ∧
      atRefresh.near.refreshing = false) := ⟨by decide +kernel, rfl, atRefresh_due, rfl, rfl⟩

theorem wit_ReportingCommandsFrame : goesOn (exec (.nop (cmd 1 0)) board) = true ∧ goesOn (exec (.getEdition (cmd 3 0)) board) = true ∧
    goesOn (exec (.identify (cmdRep 2 0)) board) = true ∧ goesOn (exec (.fwVersion (cmd 0x504 0)) board) = true ∧
    goesOn (exec (.healthRead (cmdRep 0x601 0x100)) board) = true ∧ goesOn (exec (.hazardRead (cmdRep 0x704 0)) board) = true := by
  decide

/-- The state with completion ring 0 and the event ring of 16 slots enabled. -/
def ringed : State :=
  { board with rings.cpl := board.rings.cpl.set 0 ⟨⟨true, false, 0, 4, 0⟩, 0, 0⟩, rings.evt := ⟨⟨true, false, 0, 4, 1⟩, 0, 0⟩ }

theorem wit_CompletionWritten :
    (let a := (vget ringed.rings.cpl 0 Ring.reset).slotAt 32;
      ringed.memoriesOk ∧ ringed.kcl.fifo = [] ∧ ringed.rings.waiting = [] ∧ ringed.near.selfRefresh = false ∧
      ringed.cplOf (cmd 1 0) = 0 ∧ ringed.cplRoom 0 = true ∧ (vget ringed.rings.cpl 0 Ring.reset).cfg.intr = false ∧
      (cmd 1 0).flags.getLsbD 0 = false ∧ lineState ringed.kcl a = none ∧ ringed.lineDue a = false ∧
      ringed.boxMay (a / 1024 % 32) = true) ∧
    (let a := (vget ringed.rings.cpl 0 Ring.reset).slotAt 32; let b := (cmdRep 2 0).reply.toNat * 1024; let d := cmdRep 2 0;
      ringed.cplOf d = 0 ∧ d.flags.getLsbD 0 = false ∧ a + 32 ≤ b ∧ (∀ k, k < 32 → ringed.boxMay k = true)) ∧
    (board.rings.waiting = [] ∧ board.cplRoom (board.cplOf (cmd 1 0)) = false) := by
  unfold State.memoriesOk; decide +kernel

/-- No line of the window is held or due. -/
theorem wit_ReplyWritten (k : Nat) : lineState ringed.kcl k = none ∧ ringed.lineDue k = false := by
  have h : ∀ n < 32, (ringed.chan n).host = [] := by decide +kernel
  have r : ringed.kcl.reqs = [] := by decide +kernel
  refine ⟨rfl, ?_⟩
  have hk := h (k / 1024 % 32) (Nat.mod_lt _ (by decide))
  simp [State.lineDue, hk, r]

theorem wit_EventsPosted : ({ board with fw.boot := .handover } : State).fw.boot = .handover ∧
    (board.fw.boot ≠ .handover ∧ board.rings.evt.cfg.enable = false) ∧
    (let s : State := { ringed with rings.evt.producer := 16 }; s.rings.evt.room = 0 ∧ s.fw.boot ≠ .handover) ∧
    (let a := ringed.rings.evt.slotAt 32;
      ringed.fw.boot ≠ .handover ∧ ringed.rings.evt.cfg.enable = true ∧ 0 < ringed.rings.evt.room ∧ ringed.rings.evt.cfg.intr = false ∧
      ringed.memoriesOk ∧ ringed.kcl.fifo = [] ∧ lineState ringed.kcl a = none ∧ ringed.lineDue a = false ∧
      ringed.boxMay (a / 1024 % 32) = true) := by
  unfold State.memoriesOk; decide +kernel

/-- The state in which the companion holds the window's first line in E. -/
def lineHeld : State := { board with kcl.lines := [⟨0, true⟩] }

theorem wit_SharedWritesInOrder :
    (zeros 64 ≠ [] ∧ (zeros 64).length ≤ 64 - 0 % 64) ∧
    (∀ s ∈ [board, inStep], s.lineDue 0 = false ∧ s.kcl.fifo = [] ∧ lineState s.kcl 0 = none) ∧
    board.boxMay 0 = true ∧ inStep.boxMay 0 = false ∧ inStep.tt.inStep = true ∧
    (lineHeld.lineDue 0 = false ∧ lineHeld.kcl.fifo = [] ∧ lineState lineHeld.kcl 0 = some true ∧
      lineHeld.kclUp = true ∧ lineHeld.kcl.snoops.any (fun y => y.1 == lineBase 0) = false) ∧
    (let s : State := { lineHeld with kcl.fifo := [.write 63 [0]] }; s.lineDue 0 = false ∧ lineState s.kcl 63 = some true) := by
  decide +kernel

theorem wit_StepFaultsRecorded : board.tt.inStep = false ∧
    (inStep.tt.inStep = true ∧ inStep.tt.fault = 0 ∧ inStep.tt.runout = false) ∧
    (let s : State := { inStep with tt.fault := 1, health.fault := ⟨false, 1, 96, 0⟩ };
      s.tt.inStep = true ∧ s.tt.fault ≠ 0 ∧ s.now = s.tt.faultAt ∧ 95 < s.health.fault.unit.toNat ∧ s.health.fault.unit.toNat ≤ 96) ∧
    (let s : State := { inStep with tt.fault := 1, tt.faultAt := 1 }; s.tt.fault ≠ 0 ∧ s.now ≠ s.tt.faultAt) := by decide +kernel

/-! ## Witnesses: device and firmware commands -/

/-- A forme in force whose desk chip has one entry of zeros in the colophon log. -/
def logged : State := { withForme .started with fw.colophonNext := 1 }

theorem wit_ReportCommandsComplete :
    (descOk (cmd 1 0) [] = true ∧ descOk (cmd 3 0) [] = true ∧ descOk (cmdRep 2 0) [] = true ∧ replyOk board (cmdRep 2 0) 1 = true) ∧
    descOk (cmd 0x504 0) [] = true ∧
    (let d := cmdRep 0x601 (163 + 256); descOk d [(24, 1), (25, 1)] = true ∧ 1 ≤ pArg d 25 1 ∧ pArg d 24 1 + pArg d 25 1 ≤ 164 ∧
      replyOk { board with kcl.sharedSize := 2 } d (ceilDiv (8 * pArg d 25 1) 1024) = true) ∧
    (descOk (cmdRep 0x704 0) [] = true ∧ replyOk { board with kcl.sharedSize := 15 } (cmdRep 0x704 0) 14 = true) ∧
    (descOk (cmdRep 0x602 (2 ^ 256 - 1)) [(24, 32)] = true ∧
      replyOk { board with kcl.sharedSize := 9 } (cmdRep 0x602 0) 8 = true) ∧
    (let d := cmdRep 0x603 0; let s : State := { logged with kcl.sharedSize := 5 };
      descOk d [(24, 34)] = true ∧ replyOk s d 4 = true ∧ s.isDesk = true ∧
      (findColophon s (leBytes 32 (pArg d 24 32)) (pArg d 56 2) (Nat.min colophonSlots s.fw.colophonNext) s.fw.colophonNext).isSome = true) := by
  decide +kernel

theorem wit_ModeCommandsComplete :
    (let d := cmd 0x702 7; descOk d [(24, 1), (32, 8)] = true ∧ pArg d 24 1 ≤ 7 ∧ breakLegal (pArg d 32 8) = true) ∧
    descOk (cmd 0x703 255) [(24, 1)] = true ∧
    (descOk (cmd 0x701 1) [(24, 1)] = true ∧ pArg (cmd 0x701 1) 24 1 = 1 ∧ board.forme.state ≠ .started ∧ board.power.point = 0) ∧
    pArg (cmd 0x701 0) 24 1 = 0 ∧ ({ board with power.point := 2 } : State).power.point ≠ 0 ∧
    (let d := cmd 0x10 2; descOk d [(24, 1), (32, 8)] = true ∧ pArg d 24 1 ≤ 2 ∧ pointPermitted board (pArg d 24 1) = true ∧
      board.dbg.enabled = false ∧ board.loaded = false) ∧
    (let d := cmd 0x10 (2 * 2 ^ 64); let s : State := { withForme .started with tt.committed := some 0, dbg.enabled := true };
      pArg d 24 1 = 0 ∧ pointPermitted s 0 = true ∧ stepPast s (pArg d 32 8) = false) := by
  decide +kernel

/-- The SHA3-256 digest of one zero byte (FIPS 202). -/
def zeroDigest : List Byte := leBytes 32 0xD0E731F55FA6C49F602807A6686A7AC769DE4E04882BB5EAF8F4FE209F46535D

/-- A firmware image of six segments of one byte each. Its keys are zeros, of which the one is a point of order 4 and the other has
`t1` zero, so both signatures can be written out: the first is zeros, the second zero hints and the `c~` that its `z` gives. -/
def tinyImage : List Byte :=
  leBytes 4 0x4D494256 ++ leBytes 4 1 ++ leBytes 12 0 ++ leBytes 4 321 ++ zeros 40
    ++ (List.range 6).flatMap (fun b => leBytes 4 (8192 + 64 * b) ++ leBytes 4 1 ++ zeros 8 ++ zeroDigest) ++ zeros 2720
    ++ leBytes 48 0x5124344ca833668b6dc35a9e1c64f7d5152c6a90178af950dc078c8779f1deba2638c5a1f33c5fc530f3eb9e0bad58bc
    ++ (List.replicate 640 (leBytes 5 (0x80000 + 0x80000 * 2 ^ 20))).flatten ++ zeros 61 ++ zeros 2132

/-- The image verifies where its keys are the vendor's, which the spec leaves to the part. Evaluating the two signatures' checks gives
true; the kernel would take too long over it, so they stand as hypotheses. -/
theorem tinyImage_verifies (hk : digestBytes Config.vendorEdDigest = sha256 (sliceBytes tinyImage 512 32))
    (hm : digestBytes Config.vendorMldsaDigest = sha256 (sliceBytes tinyImage 1024 1952))
    (he : edVerify (sliceBytes tinyImage 512 32) (imageDigest tinyImage) (sliceBytes tinyImage 544 64) = true)
    (hv : mldsaVerify (sliceBytes tinyImage 1024 1952) (imageDigest tinyImage) (sliceBytes tinyImage 3072 3309) = true) : verifyImage 0 tinyImage = 0 := by
  have h1 : imageForm tinyImage = true := by decide +kernel
  have hs : ∀ b ∈ List.range 6, segmentBytes tinyImage b = [0] ∧ (imgSegment tinyImage b).2.2.2 = zeroDigest := by decide +kernel
  have hz : sha256 [0] = zeroDigest := by decide +kernel
  have h2 : (List.range 6).any (fun b => sha256 (segmentBytes tinyImage b) != (imgSegment tinyImage b).2.2.2) = false := by
    rw [List.any_eq_false]
    intro b hb
    rw [(hs b hb).1, (hs b hb).2, hz]
    simp
  simp only [verifyImage, h1, h2, hk, hm, he, hv]
  simp

/-- A board whose image of zeros is staged. -/
def staged : State := { board with fw.staged := some (zeros 32), fw.runningIsStaged := true }

theorem wit_FirmwareCommandsComplete (h : verifyImage 0 tinyImage = 0) :
    (let d := cmdBlk 0x501 0 8513; let s : State := { board with nv.rollback := 0 };
      descOk d [] = true ∧ hasBlock d = true ∧ d.blockLength.toNat ≤ tinyImage.length ∧ s.fw.handoverPending = false ∧
      s.fw.boot ≠ .handover ∧ (tinyImage.take d.blockLength.toNat).length ≤ 4 * 2 ^ 20 ∧
      verifyImage s.nv.rollback (tinyImage.take d.blockLength.toNat) = 0) ∧
    (staged.fw.staged = some (zeros 32) ∧ imgRecordMin (zeros 32) ≤ imgRecordMax staged.fw.image ∧
      imgRecordMax staged.fw.image ≤ imgRecordMax (zeros 32) ∧ staged.loaded = false ∧ staged.fw.handoverPending = false ∧
      staged.fw.boot ≠ .handover) ∧ board.fw.staged = none ∧
    (staged.fw.runningIsStaged = true ∧ staged.forme.state ≠ .started ∧ staged.nv.job = none) ∧
    (let d := cmd 0x20 (2 ^ 64); descOk d [(24, 1), (32, 16)] = true ∧ scopeParts (pArg d 24 1) (pArg d 32 16) = some [0] ∧
      board.power.chipState = 0 ∧ pArg d 24 1 ≠ 2 ∧
      ∀ i ∈ [0], (vget board.health.test i SelfTest.reset).state ≠ 1 ∧ (vget board.health.test i SelfTest.reset).state ≠ 2) ∧
    (let d := cmd 0x20 2; (scopeParts (pArg d 24 1) (pArg d 32 16)).isSome = true ∧ pArg d 24 1 = 2 ∧ board.loaded = false) := by
  refine ⟨?_, by decide +kernel⟩
  have hl : tinyImage.length = 8513 := by decide +kernel
  have hd : (cmdBlk 0x501 0 8513).blockLength.toNat = 8513 := by decide
  refine ⟨by decide, by decide, by omega, by decide +kernel, by decide +kernel, ?_, ?_⟩
  · rw [hd, List.length_take, hl]; omega
  · rw [hd, List.take_of_length_le (by omega)]; exact h

/-! ## Witnesses: forme and weights -/

/-- A section of one byte or more takes 64 bytes of a part, an empty one none. -/
def sectionSize (bs : List Byte) : Nat := if bs = [] then 0 else 64

/-- A part with its directory and its sections, none of more than 64 bytes. -/
def tinyPart (placements : Nat) (recs : List ((Nat × Nat × Nat) × List Byte)) : List Byte :=
  let base := 64 * ceilDiv (16 + 16 * recs.length) 64
  let start (i : Nat) : Nat := base + sumOf ((recs.take i).map (fun r => sectionSize r.2))
  let dir := (recs.mapIdx (fun i r => (i, r))).flatMap (fun (x : Nat × (Nat × Nat × Nat) × List Byte) =>
    leBytes 2 x.2.1.1 ++ leBytes 1 x.2.1.2.1 ++ leBytes 1 x.2.1.2.2 ++ leBytes 4 (start x.1) ++ leBytes 4 x.2.2.length ++ zeros 4)
  sliceBytes (leBytes 2 recs.length ++ leBytes 1 placements ++ zeros 13 ++ dir) 0 base
    ++ recs.flatMap (fun r => sliceBytes r.2 0 (sectionSize r.2))

/-- The sections of the tiny forme whose layouts the spec gives: KEYS, PRESSES, PORTS and SAMPLER_MARKS; the others are empty. -/
def tinySection (k : Nat × Nat × Nat) : List Byte :=
  if k.1 = 7 then [1] else if k.1 = 0x10 then [0] else if k.1 = 0x11 then zeros 5
  else if k.1 = 0x28 then zeros 8 ++ leBytes 8 endRec.toNat else []

/-- The tiny forme's index, with the SHA3-256 digests of its parts (FIPS 202), and the parts. What comes beside them has no tensors, no
presses and no marks: those are read from the sections. -/
def tinyParts : FormeParts :=
  let part (placements : Nat) (common : Bool) : List Byte :=
    tinyPart placements ((scopesOf tinyForme true common).map (fun k => (k, tinySection k)))
  ⟨leBytes 4 0x4D524F46 ++ leBytes 4 1 ++ leBytes 4 0 ++ leBytes 4 1 ++ zeros 16 ++ leBytes 32 0x7C0679711E3D406F3F4B57B1617E622691E5143B6E6E0AFDB9CB657913C790BB ++ leBytes 32 0x881EF94E6AD4A068380E9416676145AD2EC3BBD436790931E59F2272FEE64229,
    part 0 true, part 1 false, { tinyForme with keyCount := 0, chip.presses := [] }⟩

/-- The parts spell the tiny forme. -/
theorem tinyParts_read : readForme tinyParts true = some tinyForme := by decide +kernel

theorem wit_FormeLoad : (let d := cmdBlk 0x101 (2 ^ 32) 48; let parts := tinyParts; let s := board; let f := tinyForme;
    descOk d [(24, 4), (28, 1)] = true ∧ pArg d 28 1 < 2 ∧ hasBlock d = true ∧ 48 ≤ d.blockLength.toNat ∧ s.power.chipState = 0 ∧
    s.forme.fabricLoad = none ∧ s.forme.broadcast = none ∧ s.forme.state = .none ∧ s.fab.gidValid = true ∧
    earlierRuns d s = false ∧ pArg d 24 4 < leAt parts.index 12 4 ∧ indexOk parts.index = true ∧ leAt parts.index 8 4 = s.fw.running.toNat ∧
    sha256 parts.common = sliceBytes parts.index 32 32 ∧ sha256 parts.chip = sliceBytes parts.index 64 32 ∧
    parts.forme.serving.desk = pArg d 24 4 ∧ parts.forme.tt.chipCount = leAt parts.index 12 4 ∧
    Machine.partOk parts.forme true true parts.common = true ∧ Machine.partOk parts.forme true false parts.chip = true ∧
    loadRules f 0 (farView s) = true ∧ formeAvailable s f = true ∧ pArg d 28 1 = 1 ∧
    ((f.chip.placements.mapIdx (fun k p => (k, p))).find? (fun x => placementFits s f 0 x.2)).isSome = true) := by
  decide +kernel

/-- The envelope is met where the forme declares each class at the caps of R38, so for every part. -/
theorem wit_FormeLoadEnvelope : envelopeOk tinyForme.tt = true := by
  have cap : ∀ b : Bool, ∀ c ∈ List.range 8, ∀ p ∈ permitted tinyForme.tt,
      max 1 (sheetCap b c p) ≤ (tinyForme.tt.envelope.getD c []).getD p 0 := by decide
  simp only [envelopeOk, List.all_eq_true, decide_eq_true_eq]
  exact fun c hc p hp => le_trans (max_le_max_left 1 (Nat.min_le_right _ _)) (cap _ c hc p hp)

theorem wit_FormeImpose : (let d := cmdBlk 0x102 1 8; let blk : List Byte := leBytes 4 5 ++ leBytes 4 0xFFFFFFFF; let s := withForme .loaded;
    let keys := (List.range 4).map (fun k => pArg d (24 + 2 * k) 2);
    descOk d [(24, 8), (32, 1)] = true ∧ earlierRuns d s = false ∧ s.forme.forme = some tinyForme ∧ s.forme.state ≠ .started ∧
    pArg d 32 1 < 2 ∧ hasBlock d = true ∧ d.blockLength.toNat = 8 * tinyForme.tt.chipCount ∧ d.blockLength.toNat ≤ blk.length ∧
    (∀ g ∈ [leAt blk 0 4], g < 2 ^ 20 ∧ g ≠ 0xFFFFF) ∧ leAt blk 0 4 = s.fab.gid.toNat ∧ [leAt blk 0 4].Nodup ∧
    partnersOk 1 [leAt blk 4 4] = true ∧ keySlotsOk tinyForme.keyCount keys = true ∧
    (tinyForme.flows.mapIdx (fun i x => (i, x))).filter (fun x => x.2.sourceChip == s.chipIndex) = [] ∧ tinyForme.treeRoutes = [] ∧
    tinyForme.serving.voidRoute[s.chipIndex]? = none) := by
  decide +kernel

theorem wit_FormeStartStopUnloadComplete :
    (let s := withForme .imposed; let d := cmd 0x103 (1 + 0xFFFFFFFF * 2 ^ 64);
      earlierRuns d s = false ∧ descOk d [(24, 8), (32, 4)] = true ∧ s.power.chipState = 0 ∧ s.forme.forme = some tinyForme ∧
      s.forme.state = .imposed ∧ s.now < pArg d 24 8 ∧ s.barrier.stopped = false ∧ pArg d 32 4 = 0xFFFFFFFF ∧
      pointPermitted s s.power.point.toNat = true ∧ s.forme.sealed = true ∧
      (∀ p ∈ portsOf tinyForme.chip.portMask.toNat, (s.port p).ready = true) ∧ keysInstalled s tinyForme = true ∧
      startRoom s tinyForme = true) ∧
    (let s := withForme .started; descOk (cmd 0x104 0) [] = true ∧ earlierRuns (cmd 0x104 0) s = false ∧ s.forme.state = .started ∧
      s.barrier.stopCmd = none ∧ s.barrier.stopped = false) ∧
    (let s : State := { withForme .started with barrier.stopped := true, tt.attempt := 255, tt.nextAttempt := 1 };
      s.forme.state = .started ∧ s.barrier.stopped = true ∧ ¬(s.tt.attempt = 255 ∧ s.tt.nextStep = s.tt.step ∧ s.tt.nextAttempt = 0)) ∧
    (descOk (cmd 0x105 0) [] = true ∧ (∀ s ∈ [board, withForme .loaded], earlierRuns (cmd 0x105 0) s = false) ∧ board.forme.state = .none ∧ (withForme .loaded).forme.state = .loaded) := by
  decide +kernel

/-- The tiny forme with one tensor of one element, kept in the near tier. -/
def weighedForme : Forme :=
  { tinyForme with
    tensors := [⟨7, 1, false, false, false, 1, 1⟩]
    chip.placements := [{ tinyPlacement with nearKiB := 128, place := [⟨7, 0, 1, 0, 0⟩] }] }

/-- That forme loaded, its weight set not sealed. -/
def weighed : State := { withForme .loaded with forme.forme := some weighedForme, forme.sealed := false }

/-- The load record of an FP32 source of tensor 7. -/
def tinyRecord (flags : Nat) : List Byte := leBytes 4 7 ++ leBytes 1 0 ++ leBytes 1 flags ++ zeros 10 ++ leBytes 8 4 ++ zeros 40

/-- The hypotheses that WEIGHTS_LOAD and WEIGHTS_BROADCAST share, of one record. -/
def weightHyps (d : Descriptor) (blk : List Byte) (recs : List LoadRec) (s : State) (src : List Byte) : Prop :=
  earlierRuns d s = false ∧ s.forme.state = .loaded ∧ s.forme.sealed = false ∧ hasBlock d = true ∧ d.blockLength.toNat ≤ blk.length ∧
  recs.any (fun r => !r.zero || 4 ≤ r.flags) = false ∧ (recs.map LoadRec.tensor).Nodup ∧
  (let plain := (recs.mapIdx (fun i r => (r, [src].getD i []))).filter (fun x => !x.1.fabric);
    plain.any (fun x => x.2.length != x.1.length) = false ∧ ∃ images, recordImages s plain = .ok images)

theorem wit_WeightsLoad : ∀ flags ∈ [0, 2],
    (let d := cmdBlk 0x201 0 64; let blk := tinyRecord flags; let recs := [loadRec blk];
      weightHyps d blk recs weighed [0, 0, 0x80, 0x3F] ∧ descOk d [] = true ∧ d.blockLength.toNat % 64 = 0 ∧
      d.blockLength.toNat / 64 ≤ 4096 ∧ (recs.filter LoadRec.fabric).length = flags / 2 ∧
      recordFault weighed true (loadRec blk) [0, 0, 0x80, 0x3F] = none) := by
  intro flags h
  simp only [List.mem_cons, List.not_mem_nil, or_false] at h
  rcases h with rfl | rfl <;>
    exact ⟨⟨by decide, rfl, rfl, by decide, by decide, by decide, by decide, by decide, _, rfl⟩, by decide, by decide, by decide, by decide, by decide +kernel⟩

theorem wit_WeightsBroadcast :
    (let d := cmdBlk 0x202 1 80; let path : List Byte := leBytes 11 3 ++ leBytes 1 1 ++ leBytes 4 9; let blk := path ++ tinyRecord 0;
      let recs := [loadRec (sliceBytes blk 16 64)];
      weightHyps d blk recs weighed [0, 0, 0x80, 0x3F] ∧ descOk d [(24, 1)] = true ∧ pArg d 24 1 = 1 ∧ 16 * 1 + 64 ≤ d.blockLength.toNat ∧
      broadcastRouteOk (sliceBytes blk 0 16) = true ∧ recs.any LoadRec.fabric = false ∧
      recordFault weighed false (loadRec (sliceBytes blk 16 64)) [0, 0, 0x80, 0x3F] = none) :=
  ⟨⟨by decide, rfl, rfl, by decide, by decide, by decide, by decide, by decide, _, rfl⟩, by decide, by decide, by decide, by decide, by decide,
    by decide +kernel⟩

theorem wit_WeightsDigestAndFree :
    (let s : State := { withForme .loaded with forme.present := [(7, ⟨0, 0, 4⟩)] }; let d := cmdRep 0x203 0;
      descOk d [(24, 1)] = true ∧ pArg d 24 1 = 0 ∧ earlierRuns d s = false ∧
      s.forme.present ≠ [] ∧ replyOk s d (ceilDiv (80 * s.forme.present.length) 1024) = true) ∧
    (earlierRuns (cmdRep 0x203 0) board = false ∧ board.forme.present = []) ∧
    (let s := withForme .loaded; let d := cmd 0x203 1;
      descOk d [(24, 1)] = true ∧ pArg d 24 1 = 1 ∧ d.blockLength = 0 ∧ earlierRuns d s = false ∧
      sealOk s [] = true ∧ s.liv.slots.any (fun x => x.2.valid && x.2.weightDigest != digestOf []) = false) ∧
    (descOk (cmd 0x204 0) [] = true ∧ earlierRuns (cmd 0x204 0) (withForme .loaded) = false ∧ (withForme .loaded).forme.state ≠ .started ∧
      (withForme .loaded).liv.slots.any (fun x => x.2.valid) = false) := by
  decide +kernel

/-! ## Witnesses: waybills, liveries and fabric commands -/

/-- The forme as the desk chip serves it, on output ring 0 of tenant 0. -/
def served (st : FormeState) : State :=
  { withForme st with
    rings.out := [(0, ⟨⟨true, false, 0, 4, 16⟩, 0, 0⟩)] }

/-- The block of WAYBILL_OPEN for one token: TOP_P and REPETITION 1, MAX_NEW 1, and the SHA3-256 digest of the extra block of zeros
(FIPS 202). -/
def openBlock : List Byte :=
  zeros 76 ++ leBytes 4 0x3F800000 ++ zeros 8 ++ leBytes 4 1 ++ leBytes 4 0x3F800000 ++ zeros 16 ++ leBytes 16 0xF1BFB9C8DCA63E1E175E62D117FB62AA
    ++ zeros 548

/-- The waybill of that block, in a state. -/
def tinyWaybill (st : WbState) : Waybill := { openRecord openBlock 1 with state := st }

/-- The state with that waybill as index 0. -/
def withWaybill (st : WbState) : State := { served .started with eng.table := [(0, tinyWaybill st)] }

theorem wit_WaybillOpen : (let d := cmdBlk 0x301 1 676; let s := served .started; let blk := openBlock; let n := pArg d 24 4;
    let w := openRecord blk n; let extra := sliceBytes blk 128 w.extraBytes; let v := tinyForme.serving;
    hasBlock d = true ∧ d.blockLength.toNat ≤ blk.length ∧ s.forme.state ≠ .none ∧ s.isDesk = true ∧ s.serving = some v ∧
    descOk d [(24, 4)] = true ∧ 1 ≤ n ∧ d.blockLength.toNat = 128 + w.extraBytes + 4 * n ∧ paramsOk s.vocab w = true ∧
    extraOk s.vocab w extra = true ∧ (∀ t ∈ tokenIds blk (128 + w.extraBytes) n, t < s.vocab) ∧ openFields s v blk w = true ∧
    n + w.maxNew + v.proofMax ≤ lengthLimit ∧ fenceOk s w = true ∧ (freeIndex s).isSome = true ∧
    (inputRoom (storeSize w n) s).isSome = true ∧ frameNeed v w 0 ≤ v.frames ∧
    sliceBytes (sha256 extra) 0 16 = leBytes 16 (w.arg 48 16)) := by
  decide +kernel

theorem wit_WaybillAppend : ∀ st ∈ [WbState.queued, .prefill, .decode],
    (let d := cmdBlk 0x302 (2 ^ 32) 4; let s := withWaybill st; let w := tinyWaybill st;
      descOk d [(24, 2), (28, 4)] = true ∧ kget s.eng.table (pArg d 24 2) = some w ∧ w.state = st ∧ pArg d 28 4 = 1 ∧
      (∀ t ∈ tokenIds (zeros 4) 0 1, t < s.vocab) ∧
      (latestStore s 0 w).2 + 1 + w.maxNew + tinyForme.serving.proofMax ≤ lengthLimit ∧
      (inputRoom (storeSize w ((latestStore s 0 w).2 + 1)) s).isSome = true) := by
  decide +kernel

theorem wit_WaybillControl :
    (let d := cmd 0x303 65534; descOk d [(24, 2)] = true ∧ board.isStage = false ∧ pArg d 24 2 ≠ 65535 ∧
      kget board.eng.table (pArg d 24 2) = none) ∧
    (let s := withWaybill .decode; s.isStage = false ∧ kget s.eng.table 0 = some (tinyWaybill .decode)) ∧
    (let s := withWaybill .prefill; let d := cmd 0x304 0; descOk d [(24, 2)] = true ∧ s.forme.state ≠ .none ∧ s.isDesk = true ∧
      kget s.eng.table (pArg d 24 2) = some (tinyWaybill .prefill) ∧ (tinyWaybill .prefill).state = .prefill) ∧
    (∀ st ∈ [WbState.stabled, .expired], let w := { tinyWaybill st with ticket := 0x10000 };
      let s : State := { served .loaded with eng.table := [(0, w)] }; let d := cmd 0x305 (0x10000 + 15 * 2 ^ 128);
      descOk d [(24, 6), (32, 8), (40, 1)] = true ∧ s.isDesk = true ∧ kget s.eng.table (pArg d 24 6 % 65536) = some w ∧
      pArg d 24 6 ≠ 0 ∧ w.ticket.toNat = pArg d 24 6 ∧ w.state = st ∧ pArg d 40 1 ≤ 15 ∧ fenceOk s w = true) ∧
    (let d := cmdRep 0x306 0; descOk d [(24, 2)] = true ∧ replyOk board d 1 = true ∧ board.isStage = false ∧ pArg d 24 2 ≠ 65535) := by
  decide +kernel

/-- A livery of one row, rank 1, for a weight set of digest 0. -/
def tinyLivery : List Byte := leBytes 2 1 ++ zeros 2 ++ leBytes 1 1 ++ leBytes 1 1 ++ leBytes 2 1 ++ zeros 72

theorem wit_LiveryCommandsComplete :
    (let d := cmdBlk 0x310 (4095 + 0x056183B3DD586619034196A8E652393225B195A3148EB273487E8E0CC0BFD296 * 2 ^ 64) 80; let x := tinyLivery;
      let up (c : FarPort) : FarPort := { c with ready := true, capacity := 1 };
      let s : State := { served .loaded with far.areaSize := board.far.areaSize.set 4 1, far.ports := board.far.ports.map up };
      areaUp s 4 = true ∧ descOk d [(24, 2), (32, 32)] = true ∧ hasBlock d = true ∧ d.blockLength.toNat = x.length ∧ pArg d 24 2 < 4096 ∧
      kget s.liv.slots (pArg d 24 2) = none ∧ liveryOk x = true ∧ s.forme.sealed = true ∧ leAt x 16 32 = s.forme.weightDigest.toNat ∧
      sectionBytes s.pool.layers x ≤ 1024 ∧ (bankRoom x.length s).isSome = true ∧ leNat (sha256 x) = pArg d 32 32) ∧
    (let d := cmd 0x311 4095; descOk d [(24, 2)] = true ∧ pArg d 24 2 < 4096 ∧
      board.eng.table.any (fun x => x.2.state != .free && x.2.livery.map (·.toNat) == some (pArg d 24 2)) = false) := by
  decide +kernel

/-- A forme in force that uses port 0. -/
def portUsed (st : FormeState) : State :=
  { withForme st with forme.forme := some { tinyForme with chip.portMask := 1 } }

theorem wit_FabricCommandsComplete :
    (∀ t ∈ [0, 1, 2, 10], let d := cmd 0x401 (31 + 256 * t); descOk d [(24, 2)] = true ∧ pArg d 24 1 ≤ 31 ∧ pArg d 25 1 = t) ∧
    board.portUsed 31 = false ∧ (portUsed .started).portUsed 0 = true ∧ 10 % 4 ≠ 3 ∧ 10 / 4 % 4 ≠ 3 ∧
    (board.port 31).requestCmd = none ∧ (board.port 31).state = .active ∧ ((portUsed .started).port 0).state = .active ∧
    (State.reset.port 31).state = .down ∧
    ((board.modPort 31 (fun q => { q with state := .training })).port 31).state = .training ∧
    (let d := cmd 0x403 (0xFFFFFFFF + 2 ^ 96);
      descOk d [(24, 13)] = true ∧ pArg d 36 1 ≤ 1 ∧ dropsKey board (pArg d 24 4) (.replicate 4 0) = false) ∧
    (let d := cmdBlk 0x404 (2 ^ 20 - 1 + 2 ^ 32) 16; let blk := leBytes 16 (2 ^ 84 + 2 ^ 88);
      descOk d [(24, 8)] = true ∧ hasBlock d = true ∧ d.blockLength.toNat ≤ blk.length ∧ board.forme.state ≠ .started ∧
      pArg d 24 4 + pArg d 28 4 ≤ 2 ^ 20 ∧ d.blockLength.toNat = 16 * pArg d 28 4 ∧ routeEntryOk (routeEntryOf blk 0) = true) ∧
    (let d := cmd 0x405 (1 + 31 * 2 ^ 8 + 30 * 2 ^ 16 + 64 * 2 ^ 24 + 2 ^ 32);
      descOk d [(24, 5)] = true ∧ pArg d 24 1 = 1 ∧ pArg d 25 1 ≤ 31 ∧ pArg d 26 1 ≤ 31 ∧ pArg d 26 1 ≠ pArg d 25 1 ∧
      pArg d 27 1 ≤ 64 ∧ pArg d 28 1 = 1) := by
  decide +kernel

/-- A reserved field is set in each kind of descriptor. -/
theorem wit_ReservedFieldsRefused : (let d := { cmd 1 0 with reserved := 1 };
    ∀ used ∈ [[], [(24, 1)], [(24, 2)], [(24, 1), (32, 8)], [(24, 1), (25, 1)], [(24, 4)], [(24, 2), (28, 4)], [(24, 6), (32, 8), (40, 1)],
      [(24, 2), (32, 32)], [(24, 13)], [(24, 8)], [(24, 5)], [(24, 32)], [(24, 34)], [(24, 8), (32, 1)], [(24, 1), (32, 16)],
      [(24, 4), (28, 1)], [(24, 8), (32, 4)]], descOk d used = false) ∧
    descOk { cmd 1 0 with flags := 2 } [] = false ∧ descOk (cmd 1 256) [(24, 1)] = false ∧ board.power.chipState = 0 := by
  decide +kernel

/-! ## Witnesses: press streams -/

/-- An issue of press 0 with no errors. -/
def anIssue (id : StreamId) (w : PressWord) : Issue := ⟨0, id, w, .clean, .clean⟩

/-- A released row of an accumulator bank, of zeros. -/
def zeroRow : AccRow := ⟨.released, 0, .replicate 256 0, 0, 0⟩

/-- A step in which press 0 stands, every queue of it holds three entries and has room for more, row 5 of bank A is released, and
the stream of an issue runs at its word. -/
def issuing (i : Issue) : State :=
  (inStep.modPress 0 (fun p => { p with
    power := .stand, queues := p.queues.map (fun q => { q with cap := 8, entries := [1, 2, 3] }), bankA := ⟨[(5, zeroRow)], [5]⟩ })).modStream i
    (fun st => { st with state := .running, mem := [i.word] })

/-- Every operation with its stream. -/
def everyOp : List (Nat × StreamId) :=
  [(0, .m), (2, .v), (3, .x), (0x10, .m), (0x11, .m), (0x12, .m)] ++ (List.range 17).map (fun k => (0x20 + k, .v))
    ++ (List.range 9).map (fun k => (0x40 + k, .x))

theorem wit_StreamInstructionsIssue : (∀ x ∈ everyOp, let i := anIssue x.2 (word x.1 1 2 3 4 0 0 0); let s := issuing i;
    (s.streamOf i).mark = none ∧ wOp i.word = x.1 ∧ (i.stream == x.2) = true ∧ mayIssue s i = true ∧ s.dbg.enabled = false ∧
      i.fetch = .clean) ∧ mayIssue board (anIssue .m 0) = false ∧ wFld (word 0x42 1 63 63 4 0 0 1) 0 1 = 1 := by
  decide +kernel

/-- A DEPART mark at 32, and a DUE mark at 32 for one entry of Q1. -/
def departWord : PressWord := word 1 63 63 63 63 0 0 32
def dueWord : PressWord := word 1 1 63 63 63 0 0 (32 + 2 ^ 40)

/-- A LOOP of one instruction, twice, with a stride of 64. -/
def loopWord : PressWord := word 2 63 63 63 63 0 0 (2 ^ 12 + 64 * 2 ^ 28)

theorem wit_StreamControlCompletes :
    (∀ x ∈ [(1, 32), (1, 32 + 2 ^ 40), (2, 2 ^ 12), (3, 0)], let i := anIssue .v (word x.1 63 63 63 63 0 0 x.2); let s := issuing i;
      (s.streamOf i).mark = none ∧ mayIssue s i = true ∧ s.dbg.enabled = false ∧ i.fetch = .clean) := by
  decide +kernel

/-- The three words read as what they are (R133, R134). -/
theorem wit_StreamControlItems :
    (wordItem departWord = .mark 32 none ∧ wOp departWord = 1 ∧ wFld departWord 40 1 = 0) ∧
    (wordItem dueWord = .mark 32 (some (1, 1, 0)) ∧ wOp dueWord = 1 ∧ wFld dueWord 40 1 = 1) ∧
    (wordItem loopWord = .loop 1 2 64 ∧ wOp loopWord = 2) ∧ wOp endWord = 3 :=
  ⟨⟨rfl, rfl, rfl⟩, ⟨rfl, rfl, rfl⟩, ⟨rfl, rfl⟩, rfl⟩

/-- An instruction waiting, for a queue or for a row. -/
def waitingOn (row : Bool) : State :=
  inStep.modPress 0 (fun p => { p with
    power := .stand, m := { p.m with state := .queueWait, waiting := some (anIssue .m endWord), rowWait := row } })

theorem wit_StreamWaitsEnd : (∀ row ∈ [false, true], let s := waitingOn row;
      (s.press 0).m.side = none ∧ ((s.press 0).stream .m).waiting = some (anIssue .m endWord) ∧
      ((s.press 0).stream .m).state = .queueWait ∧ ((s.press 0).stream .m).rowWait = row ∧ s.tt.inStep = true ∧
      (s.press 0).power = .stand) ∧
    (board.press 0).m.side = none ∧ ((board.press 0).stream .v).waiting = none ∧ (board.press 0).m.waiting = none := by
  decide +kernel

/-- The operations of VectorOpsDeliver that take one round of one lane, in FP32. -/
def vecOps (w : PressWord) : List (Nat × VecOp) :=
  let one := [srcA w]
  let two := [srcA w, srcB w]
  let three := [srcA w, srcB w, srcC w]
  let f := vecFmt 0
  [(0x20, elementOp w two (laneAdd f)), (0x21, elementOp w two (laneMul f)), (0x22, elementOp w three (laneFma f)),
    (0x23, elementOp w two (laneMin f)), (0x24, elementOp w two (laneMax f)), (0x25, elementOp w two (laneCmp f 0)),
    (0x26, elementOp w three (laneSelect f)), (0x27, elementOp w two (laneScale f 0)), (0x28, elementOp w one (laneExponent f)),
    (0x29, elementOp w one (laneMantissa f)), (0x2A, elementOp w one (laneRcp f)), (0x2B, elementOp w one (laneRsqrt f)),
    (0x2C, ⟨one, ceilDiv (wCount w) (cvtLanes 0), fun r => min (cvtLanes 0) (wCount w - r * cvtLanes 0),
      fun r held es => cvtStep 0 1 (wCount w) r held (es.getD 0 0), true⟩)]
    ++ [0x2D, 0x2E, 0x2F].map (fun op => (op, ⟨one, wCount w, tileActive w, fun r held es => reduceStep w one r held es, false⟩))

theorem wit_VectorOpsDeliver : ∀ x ∈ (vecOps (word 0x20 1 2 3 4 0 0 0)).map (·.1),
    let w := word x 1 2 3 4 0 0 (if x = 0x2C then 2 ^ 27 else 0); let i := anIssue .v w; let begun := takeWord i (issuing i);
    ∀ y ∈ vecOps w, y.1 = x → let op := y.2; let read := readAll i op.srcs 0 (op.active 0) 0 op.srcs begun; let r := op.step 0 [] read.1;
      mayIssue (issuing i) i = true ∧ wOp w = x ∧ op.rounds = 1 ∧
      (∀ v ∈ op.srcs, canRead begun 0 v.q (srcIndex op.srcs v 0) = true) ∧ r.held.length = 0 ∧ r.outs.length = 1 ∧
      canPush (setProg i ⟨1, [], r.outs, 0⟩ (((eachQueues op.srcs).foldl (fun s q => popSrc 0 q s) read.2).modPress 0 (noteVec (op.periods r) r))) 0 4 = true := by
  decide +kernel

theorem wit_AccCvt : ∀ scale ∈ [0, 1], (let w := word 0x30 48 2 63 4 255 0 (scale * 2 ^ 27); let i := anIssue .v w;
    let begun := takeWord i (issuing i); let srcs := accSrcs w; let read := readAll i srcs 0 (min 256 (wCount w)) 1 (accScales w) begun;
    let lanes := accRowLanes fp32 zeroRow (min 256 (wCount w)) (accScale w (read.1.getD 0 0)); let flags := mergeFlags lanes;
    let e := entryOfLanes 0 (lanes.map LaneRes.bits);
    let noted := ((eachQueues srcs).foldl (fun s q => popSrc 0 q s) read.2).modPress 0 (noteVec 1 ⟨[], [e], flags.1, flags.2.1, flags.2.2⟩);
    mayIssue (issuing i) i = true ∧ wOp w = 0x30 ∧ wFormat w = 0 ∧ wCount w = 256 ∧ ((begun.press 0).bank 48).oldest = some (5, zeroRow) ∧
    (∀ v ∈ accScales w, canRead begun 0 v.q (srcIndex srcs v 0) = true) ∧ canPush (setProg i ⟨1, [], [e], 0⟩ noted) 0 4 = true) := by
  decide +kernel

/-- Whether a decoded lane is a number. -/
def isFin : Val → Bool
  | .fin _ _ _ => true
  | _ => false

/-- A lane met with a NaN, with a zero, with the smallest and the largest number, with an infinity of each sign; and the number 2 in two
spellings, which the format holds. -/
theorem wit_LaneRules : ∀ f ∈ [fp32, bf16, fp16], (f.decode f.nan).isNan = true ∧ (f.decode 0).isNan = false ∧
    (vMul (f.decode 0) (f.decode 0)).2 = false ∧ 2 ^ f.width - 1 < 2 ^ f.width ∧
    (∀ w ∈ [0, 1, f.infinity false - 1, f.infinity true - 1], isFin (f.decode w) = true ∧ w < 2 ^ f.width) ∧
    f.decode 0 = .fin false 0 (1 - (f.bias : Int) - f.mbits) ∧ (∀ neg ∈ [false, true], f.decode (f.infinity neg) = .inf neg) ∧
    (let w := (f.encode (.fin false 2 0)).1; w < 2 ^ f.width ∧ isFin (f.decode w) = true ∧ f.encode (.fin false 4 (-1)) = (w, false)) := by
  decide +kernel

theorem wit_MatrixInstructionsComplete :
    (let w := word 0x10 50 63 63 63 0 1 0; let i := anIssue .m w; let begun := takeWord i (issuing i);
      mayIssue (issuing i) i = true ∧ wOp w = 0x10 ∧ elemEntries (wFormat w) (wPaired w) (wCount w) = 1 ∧
      scaleEntries (wFormat w) (wPaired w) (wCount w) = 0 ∧ canRead begun 0 50 0 = true) ∧
    (let w := word 0x11 51 63 63 48 0 1 0; let i := anIssue .m w;
      let ready := (takeWord i (issuing i)).modPress 0 (fun x => { x with activePlane := 0 });
      mayIssue (issuing i) i = true ∧ wOp w = 0x11 ∧ wCount w = 1 ∧ kget ((ready.press 0).bank 48).rows 0 = none ∧
      canRead ready 0 51 0 = true) ∧
    (let w := word 0x12 1 63 63 48 0 0 0; let i := anIssue .m w; let begun := takeWord i (issuing i);
      let part (k : Nat) (s : State) : State :=
        let read := readPool i k 1 0 s
        let base := (kget ((s.press 0).bank 48).rows 0).getD (freshRow (wideWindow read.1))
        let total := wideAdd read.1 base
        let mism := base.window != wideWindow read.1
        let t := (popHead 0 1 read.2).modPress 0 (fun x =>
          putRow 48 0 total.1 (wFld w 8 1 = 1 && k == 2) (noteRow total.2.1 total.2.2 mism { x with periods := x.periods + 1 }))
        setProg i ⟨k + 1, [], [], 0⟩ (if mism then rowHazard i 3 48 0 0 t else t)
      mayIssue (issuing i) i = true ∧ wOp w = 0x12 ∧ wCount w = 1 ∧ i.read = .clean ∧
      ∀ t ∈ [begun, part 0 begun, part 1 (part 0 begun)], canRead t 0 1 0 = true ∧
        (kget ((t.press 0).bank 48).rows 0).all (fun r => r.tag != .released) = true) := by
  decide +kernel

theorem wit_MovesComplete :
    (∀ op ∈ [0x40, 0x43], let w := word op 63 63 63 4 0 0 9599; let i := anIssue .x w;
      mayIssue (issuing i) i = true ∧ wOp w = op ∧ wCount w = 1 ∧ canPush (takeWord i (issuing i)) 0 4 = true) ∧
    (∀ op ∈ [0x41, 0x44], let w := word op 1 63 63 63 0 0 9599; let i := anIssue .x w;
      mayIssue (issuing i) i = true ∧ wOp w = op ∧ canRead (takeWord i (issuing i)) 0 1 0 = true) ∧
    (∀ keep ∈ [0, 2], let w := word 0x42 1 63 63 4 0 0 keep; let i := anIssue .x w; let begun := takeWord i (issuing i);
      let read := readPool i 0 1 0 begun;
      mayIssue (issuing i) i = true ∧ wFld w 0 1 = 0 ∧ canRead begun 0 1 0 = true ∧
      canPush (setProg i ⟨1, [], [read.1], 0⟩ (if wFld w 1 1 = 1 then read.2 else popHead 0 1 read.2)) 0 4 = true) ∧
    (let w := word 0x42 48 63 63 4 0 0 1; let i := anIssue .x w; let begun := takeWord i (issuing i);
      let part (n : Nat) (s : State) : State := setProg i ⟨n + 1, [], [], n + 1⟩ (pushBy i (wideEntry 5 n zeroRow) s);
      mayIssue (issuing i) i = true ∧ wFld w 0 1 = 1 ∧ i.read = .clean ∧
      (∀ k ∈ List.range 3, let t := (List.range k).foldl (fun s n => part n s) begun;
        ((t.press 0).bank 48).oldest = some (5, zeroRow) ∧ canPush t 0 4 = true)) := by
  decide +kernel

theorem wit_RequestsComplete :
    (∀ op ∈ [0x45, 0x47], let w := word op 63 63 63 52 31 0 0; let i := anIssue .x w;
      reqIndirect w = false ∧ mayIssue (issuing i) i = true ∧ wOp w = op) ∧
    (∀ op ∈ [0x46, 0x48], let w := word op 1 63 63 63 0 0 0; let i := anIssue .x w;
      reqIndirect w = false ∧ mayIssue (issuing i) i = true ∧ wOp w = op ∧ wCount w = 1 ∧
      canRead (takeWord i (issuing i)) 0 1 0 = true) := by
  decide +kernel

/-! ## Witnesses: memory units, despatchers, landing and sampler -/

/-- A slot record of class PRESS for press slot 0 or flow 0, of class HOST, of class FIRMWARE; a mark at 32; a loop. -/
def slotRec : BitVec 64 := 0
def hostRec : BitVec 64 := 0x0400000000000000
def boxRec : BitVec 64 := 0x0800000000000000
def markRec : BitVec 64 := 0x1000000000000020
def loopRec : BitVec 64 := 0x2000000000000000

/-- A step in which S0 is at a record, with the portions given in flight and arrived. -/
def atSeq (r : BitVec 64) (coming arrived : List Request) : State :=
  inStep.modChan 0 (fun c => { c with streams := [[r]], coming := coming, arrived := arrived })

/-- A read of one entry for press slot 0. -/
def tinyRequest : Request := ⟨0, 0, false, [0], [], [true]⟩

/-- A step in which far port 0 is at a record. -/
def atFar (r : BitVec 64) (ready : Bool) (coming : List Request) : State :=
  inStep.modFar 0 (fun c => { c with streams := [[r]], ready := ready, coming := coming })

theorem wit_Sequencer :
    (let go := seqGo 0 (atSeq slotRec [] [tinyRequest]);
      seqRecord 0 go = some (0, slotRec.toNat) ∧ fld slotRec.toNat 58 2 = 0 ∧ go.chanFree 0 = true ∧
      (takeFirst (fun q => q.slot == fld slotRec.toNat 51 7) (go.chan 0).arrived).isSome = true) ∧
    (let s := atSeq slotRec [tinyRequest] []; let go := seqGo 0 s;
      seqRecord 0 go = some (0, slotRec.toNat) ∧ go.chanFree 0 = true ∧
      takeFirst (fun q => q.slot == fld slotRec.toNat 51 7) (go.chan 0).arrived = none ∧
      (takeFirst (fun q => q.slot == 0) (s.chan 0).coming).isSome = true) ∧
    (∀ x ∈ [(1, hostRec), (2, boxRec)], let s := atSeq x.2 [] []; s.tt.inStep = true ∧
      seqRecord 0 (seqGo 0 s) = some (0, x.2.toNat) ∧ fld x.2.toNat 58 2 = x.1 ∧ (seqGo 0 s).chanFree 0 = true) ∧
    (board.tt.inStep = false ∧ board.gapServes 0 = true ∧ board.gapServes 31 = true) ∧
    (∀ x ∈ [(1, markRec), (2, loopRec), (3, endRec)], seqRecord 0 (seqGo 0 (atSeq x.2 [] [])) = some (x.1, x.2.toNat)) := by
  decide +kernel

theorem wit_FarStreams :
    (let s := atFar slotRec true [tinyRequest]; let go := farGo 0 s;
      (s.farPort 0).ready = true ∧ s.tt.inStep = true ∧ farRecord 0 go = some (0, slotRec.toNat) ∧ fld slotRec.toNat 58 2 = 0 ∧
      (takeFirst (fun q => q.slot == fld slotRec.toNat 51 7) (go.farPort 0).coming).isSome = true) ∧
    (let s := atFar slotRec true []; (s.farPort 0).ready = true ∧ farRecord 0 (farGo 0 s) = some (0, slotRec.toNat) ∧
      takeFirst (fun q => q.slot == fld slotRec.toNat 51 7) ((farGo 0 s).farPort 0).coming = none) ∧
    (let s := atFar boxRec true []; (s.farPort 0).ready = true ∧ s.tt.inStep = true ∧
      farRecord 0 (farGo 0 s) = some (0, boxRec.toNat) ∧ fld boxRec.toNat 58 2 ≠ 0) ∧
    (let s := board.modFar 0 (fun c => { c with ready := true }); (s.farPort 0).ready = true ∧ s.tt.inStep = false ∧ s.gapOpen = true) ∧
    (board.farPort 0).ready = false ∧
    (∀ x ∈ [(1, markRec), (2, loopRec), (3, endRec)], farRecord 0 (farGo 0 (atFar x.2 true [])) = some (x.1, x.2.toNat)) ∧
    (let s : State := { board with clk.enMisc := 1 };
      s.power.readyBox.getLsbD 3 = true ∧ s.clk.enMisc.getLsbD 0 = true ∧ (s.farPort 0).ready = false) := by
  decide +kernel

/-- A step in which the despatcher of P0 is at a record, with a slot of flow 0 in hand or not, and packets queued. -/
def atPoints (r : BitVec 64) (busy : Bool) (q : List OutPacket) : State :=
  inStep.modPort 0 (fun p => { p with lists := [[r]], walk := { Walk.reset with busy := busy, left := 1 }, txData := q })

/-- A PLAN packet of flow 0 queued. -/
def tinyPacket : OutPacket := ⟨dataPacket 0x40 1 0 ⟨1, 2⟩ 0 0 0 0 5 6 0 0 0 (zeros 64), none, 0, 0, false⟩

theorem wit_Despatcher :
    (let go := despGo 0 (atPoints slotRec false []); despRecord 0 go = some (0, slotRec.toNat) ∧ (go.port 0).walk.busy = false) ∧
    (let s := atPoints slotRec true [tinyPacket]; let q := s.port 0;
      walkFree s q.walk = true ∧ q.walk.busy = true ∧ (takeFirst (isNext s q) q.txData).isSome = true ∧ q.ready = true ∧
      releaseRoom 0 tinyPacket.packet q = false ∧
      releaseRoom 0 tinyPacket.packet { q with credits := q.credits.set 2 { Credit.reset with hdr := 1, data := 2 } } = true) ∧
    (((atPoints slotRec true [tinyPacket]).modPort 0 (fun q => { q with ready := false })).port 0).ready = false ∧
    (let s := atPoints slotRec true []; walkFree s (s.port 0).walk = true ∧ takeFirst (isNext s (s.port 0)) (s.port 0).txData = none) ∧
    (∀ x ∈ [(1, markRec), (2, loopRec), (3, endRec)], despRecord 0 (despGo 0 (atPoints x.2 false [])) = some (x.1, x.2.toNat)) := by
  decide +kernel

/-- A step in which one entry of source S0 (code 96) has come to press 0, with its landing record in hand, its FIN queue and what it
owes, and a full landing buffer of another source. -/
def arriving (kind : Nat) (landing : Option (Nat × Nat)) (owed : List (Nat × Nat)) (cap : Nat) : State :=
  { inStep.modPress 0 (fun p => { p with
      landing := landing, owed := owed, queues := p.queues.set 52 ⟨cap, 5, 2, [], 0⟩, landBuf := .replicate 64 (7, 0) }) with
    conc := [⟨0, 96, ⟨kind, 0, 0, 0⟩, 1, 0⟩] }

theorem wit_LandingArrival :
    (∀ k ∈ [0, 1], ((arriving k none [] 0).conc.find? (fun a => a.press == 0 && a.source == 96)).map (fun a => a.landing.kind) = some k) ∧
    (takeFirst (fun x => x.1 == 96) ((arriving 0 none [(96, 1)] 0).press 0).owed).isSome = true ∧
    (∀ x ∈ [(none, 0), (some (96, 1), 1)], let p := (arriving 0 x.1 [] 1).press 0;
      takeFirst (fun x => x.1 == 96) p.owed = none ∧ (p.landBuf.filter (fun x => x.1 == 96)).length = 0 ∧
      sumOf ((p.landRecords.filter (fun x => x.1 == 96)).map (·.2)) = x.2) ∧
    (∀ cap ∈ [1, 0], let s := arriving 0 (some (96, 1)) [] cap;
      (landFin 96 1 0 (landRead 0 (s.modPress 0 (fun x => { x with landEcc := .clean })))).isSome = decide (cap = 1)) := by
  decide +kernel

/-- A step in which the sampler is at a record. -/
def atSampler (r : BitVec 64) : State := { served .started with tt := inStep.tt, smp.lists := [[r]] }

theorem wit_SamplerCommandsComplete :
    (let go := smpGo (atSampler slotRec); smpRecord go = some (0, slotRec.toNat) ∧ go.samplerPlan.isSome = true ∧ go.smp.stopped = false) ∧
    (∀ due ∈ [0, 1], let r := markRec + BitVec.ofNat 64 (due * 2 ^ 40);
      smpRecord (smpGo (atSampler r)) = some (1, r.toNat) ∧ bitAt r.toNat 40 = decide (due = 1)) ∧
    (let s : State := { atSampler markRec with tt.tt := 31 };
      (smpMark 32 (some (54, 0, 0)) s).smp.walk.mark = some ⟨32, some (54, 0, 0)⟩) ∧
    (let s : State := { atSampler markRec with tt.runout := true }; (smpMark 32 (some (54, 0, 0)) s).smp.walk.mark = none) ∧
    (∀ x ∈ [(2, loopRec), (3, endRec)], smpRecord (smpGo (atSampler x.2)) = some (x.1, x.2.toNat)) := by
  decide +kernel

/-! ## Witnesses: launch, holds, barrier and announcements -/

/-- A forme in force whose launch of step 0 is announced for station time 0, its images copied or not. -/
def toLaunch (copied : Bool) : State := { withForme .started with tt.nextLaunch := some 0, tt.copied := copied }

theorem wit_LaunchCompletes : board.tt.nextLaunch = none ∧
    ((toLaunch false).tt.nextLaunch = some 0 ∧ mayLaunch (toLaunch false) = false) ∧
    ((toLaunch true).tt.nextLaunch = some 0 ∧ mayLaunch (toLaunch true) = true ∧ (toLaunch true).forme.forme = some tinyForme) ∧
    (let s := toLaunch false; s.tt.inStep = false ∧ s.tt.nextLaunch.isSome = true ∧ s.tt.copied = false ∧ s.power.braking = false ∧
      copyWaits s = false ∧ (s.variantPart (launchPoint s)).isSome = true) := by
  decide +kernel

theorem wit_ReadinessTest :
    (let s : State := { inStep with tt.tt := 32 }; let u := UnitId.seq 0; let t := skipAbsent u (unitGo u s); let mark := unitMark t u;
      t.tt.inStep = true ∧ t.tt.draining = false ∧ followsMarks t u = true ∧ testCount mark.1 mark.2 = t.tt.tt.toNat ∧
      workDone t u = false ∧ t.holdsOpen u (fun _ => true) = false) ∧
    (let s := inStep.modPress 0 (fun p => { p with v := { p.v with mark := some ⟨64, some (1, 1, 1)⟩, state := .markWait } });
      let u := UnitId.stream 0 .v; let t := skipAbsent u (unitGo u s); let mark := unitMark t u;
      testCount mark.1 mark.2 = t.tt.tt.toNat ∧ mark.2.isSome = true ∧ itemPresent t u = false ∧ followsMarks t u = true) ∧
    inStep.holdsOpen (.box 0) (fun _ => true) = false := by
  decide +kernel

/-- A step at its end count in which every unit has ended. -/
def ended : State :=
  { inStep.modPress 0 (fun p => { p with m := { p.m with state := .ended }, v := { p.v with state := .ended }, x := { p.x with state := .ended } }) with
    near.channels := inStep.near.channels.map (fun c => { c with walk := { c.walk with ended := true } })
    smp.walk := { inStep.smp.walk with ended := true } }

theorem wit_EndOfStep :
    (ended.tt.inStep = true ∧ ended.tt.draining = false ∧ ended.tt.endCount ≤ ended.tt.tt.toNat ∧ ended.liveHolds = [] ∧
      unitsEnded ended = true) ∧
    (let s : State := { ended with tt.draining := true, time.ns := 100000 }; s.tt.inStep = true ∧ drainOver s = true ∧
      s.forme.forme = some tinyForme ∧ s.tt.drainAt + 1000 * orDefault tinyForme.tt.drainLimit 100 = s.now) ∧
    (let s : State := { ended with tt.draining := true, conc := [⟨0, 96, ⟨0, 0, 0, 0⟩, 1, 0⟩] }; drainOver s = false) ∧
    board.tt.inStep = false := by
  decide +kernel

/-- A step with a DUE hold of the sampler, raised at 0, at a station time. -/
def heldAt (runout : Bool) (ns : Nat) : State :=
  { inStep with time.ns := BitVec.ofNat 64 ns, tt.runout := runout, tt.holds := [⟨.sampler, .envelope, .due, 64, 0, none⟩] }

theorem wit_PlanWatchdog :
    (∀ x ∈ [(false, 500001), (true, 500000), (false, 500000)], let s := heldAt x.1 x.2;
      (s.tt.holds.find? (fun h => h.unit == .sampler && h.resume.isNone && h.kind != .intrusion)) =
        some ⟨.sampler, .envelope, .due, 64, 0, none⟩ ∧ s.tt.inStep = true ∧ s.tt.draining = false ∧ s.tt.runout = x.1) ∧
    0 + planWatchdog (heldAt false 500001) < (heldAt false 500001).now ∧
    Nat.max 0 (heldAt true 500000).tt.runoutAt + planWatchdog (heldAt true 500000) = (heldAt true 500000).now ∧
    (heldAt false 500000).now ≤ 0 + planWatchdog (heldAt false 500000) := by
  decide +kernel

/-- The root of a tree of two chips, or its child. -/
def paired (chip : BitVec 17) (st : FormeState) : State :=
  let s := withForme st
  { s with
    forme.forme := some { tinyForme with tt.chipCount := 2, tt.parent := [0xFFFFFFFF, 0] }, forme.chip := chip
    barrier.startCmd := some (cmd 0x103 0), barrier.startCount := some 0 }

/-- A report of step 0, attempt 0, with a status. -/
def reportBody (status : Nat) : BitVec 192 := BitVec.ofNat 192 (status * 2 ^ 72)

theorem wit_BarrierReports :
    (let t := controlTakeAny 0x10 (reportBody rsReady) (paired 0 .started); t.loaded = true ∧ t.children.contains 1 = true ∧
      (reportOf 1 (reportBody rsReady)).status.toNat = rsReady ∧ 0 = t.tt.nextStep.toNat ∧ 0 = t.tt.nextAttempt.toNat ∧
      t.barrier.readySent = false) ∧
    (let s : State := { paired 0 .started with tt := inStep.tt }; let t := controlTakeAny 0x10 (reportBody rsStop) s;
      (reportOf 1 (reportBody rsStop)).status.toNat = rsStop ∧ rsStop ≠ rsReady ∧ t.children.contains 1 = true ∧ reportFits t 0 0 = true) ∧
    rsStop < (reportOf 1 (reportBody (rsStop + 1))).status.toNat ∧
    (let s := paired 0 .started; s.barrier.startCount = some 0 ∧ s.barrier.startCmd.isSome = true ∧ s.barrier.ready = false ∧
      (0 : BitVec 64).toNat ≤ s.now ∧ s.mirror.fetches = []) := by
  decide +kernel

theorem wit_BarrierTimeouts :
    (let s := paired 0 .started; s.isRoot = true ∧ s.forme.state = .started ∧ s.barrier.decided = none ∧ s.tt.nextLaunch = none ∧
      s.barrier.startCmd.isSome = true ∧ s.barrier.readySent = false ∧ s.barrier.startCount = some 0 ∧ (0 : BitVec 64).toNat ≤ s.now) ∧
    (let s : State := { paired 0 .started with barrier.startCmd := none, tt.drained := true };
      s.isRoot = true ∧ s.barrier.startCmd = none ∧ s.tt.drained = true ∧ s.tt.inStep = false ∧ s.barrier.stopped = false) ∧
    (let s : State := { paired 1 .started with barrier.reported := true }; s.barrier.reported = true ∧ s.isRoot = false) ∧
    (paired 1 .started).barrier.reported = false := by
  decide +kernel

/-- The child of the pair, its report sent or not. -/
def childOf (reported : Bool) : State :=
  { paired 1 .started with barrier.startCmd := none, barrier.reported := reported }

theorem wit_AnnouncementsComplete :
    (∀ d ∈ [decCommit, decCommitStop, decAbort], annFits (announcement 0 0 d 0) d (childOf true) = true) ∧
    (∀ r ∈ [false, true], let body := announcement 0 0 decStop 0; let s := childOf r;
      annDecision body = decStop ∧ s.forme.state = .started ∧ s.isRoot = false ∧ s.tt.nextLaunch = none ∧
      annStep body = s.tt.step.toNat ∧ annAttempt body = s.tt.attempt.toNat ∧ s.barrier.startCmd = none ∧ s.barrier.reported = r) ∧
    (let s : State := { childOf false with tt := inStep.tt }; s.tt.inStep = true ∧ s.tt.nextLaunch = none ∧ s.tt.step = 0) := by
  decide +kernel

theorem wit_AnnouncementsOfRoot :
    (let body := announcement 0 0 decStop 0; let s : State := { paired 0 .started with barrier.decided := some body };
      s.isRoot = true ∧ s.barrier.decided = some body ∧ s.forme.state = .started) ∧
    (let body := announcement 0 0 decStart 10000;
      annDecision body = decStart ∧ annStep body = (paired 0 .started).tt.nextStep.toNat ∧
      annAttempt body = (paired 0 .started).tt.nextAttempt.toNat ∧ (paired 0 .started).barrier.startCmd.isSome = true ∧
      (paired 0 .started).isRoot = true) ∧
    (let s : State := { paired 1 .started with barrier.readySent := true };
      s.barrier.startCmd.isSome = true ∧ s.isRoot = false ∧ s.barrier.readySent = true) ∧
    (∀ st ∈ [FormeState.started, .imposed], let body := announcement 0 0 decStop 0; let s := paired 1 st;
      annDecision body = decStop ∧ s.forme.state = st ∧ s.isRoot = false ∧ s.loaded = true ∧ s.barrier.startCmd.isSome = true ∧
      annStep body = s.tt.nextStep.toNat ∧ annAttempt body = s.tt.nextAttempt.toNat ∧ s.tt.nextLaunch = none) :=
  ⟨⟨rfl, rfl, rfl⟩, ⟨by decide +kernel, by decide +kernel, by decide +kernel, rfl, rfl⟩, ⟨rfl, rfl, rfl⟩, by decide +kernel⟩

/-! ## Witnesses: engine, near-tier upkeep and links -/

/-- The board with a write of the companion waiting for its HOST slot. -/
def writing : State := { board with kcl.reqs := [.window (.bulkWrite 0 0 0 (zeros 64))] }

/-- The board with both root ports READY, of 1 GiB each. -/
def wide : State := { board with far.ports := board.far.ports.map (fun c => { c with ready := true, capacity := 1 }) }

/-- The desk chip with a copy of waybill 3 parked and wanted back, a livery being staged in slot 4095, and a log position due; nothing
of their copies is still to move. -/
def copying : State :=
  let slot : LiverySlot := ⟨0, 1, 1, some 0, true, 0, 0, 0, 0, 80, true⟩
  { served .started with
    eng.ranking := [65534], eng.parked := [(3, ⟨0, 1, 0, 0, true, []⟩)], eng.restores := [3], liv.slots := [(4095, slot)]
    mirror.logDue := [(0, 0, 0)] }

/-- The same with waybill 3 still being parked: its pages are held. -/
def parking : State :=
  { copying with eng.parked := [(3, ⟨0, 1, 0, 0, false, []⟩)], eng.allocs := [⟨4259840, 1, 3, .root⟩] }

/-- An entry of that copy, of the first bytes of both tiers, read or not. -/
def aMove (out : Bool) (data : Option (List Byte)) : Move := ⟨.stable 3, 0, 0, 1024, 0, out, data⟩

theorem wit_EngineCommandsComplete :
    (copying.eng.ranking.contains 65534 = true ∧ copying.eng.ranking.contains 0 = false) ∧
    ((kget copying.eng.parked 3).map (·.done) = some true ∧ copyRuns copying 1 = true ∧ copyRuns copying 4 = true ∧
      copyRuns copying 2 = true ∧ copying.eng.restores.contains 3 = true ∧ copying.moved (.restore 3) = true ∧
      copying.moved (.stage 4095) = true ∧ copying.moved .log = true) ∧
    ((kget parking.eng.parked 3).map (·.done) = some false ∧ parking.holdsPages 3 = true ∧ copyRuns parking 1 = true ∧
      parking.moved (.stable 3) = true ∧
      ({ parking with mirror.moves := [aMove true none] } : State).moved (.stable 3) = false) ∧
    (∀ o ∈ [true, false], (aMove o none).out = o ∧ FarAccess.bad wide ((aMove o none).far / 1024) ⟨0, false⟩ = false ∧
      (aMove o (some [1])).data = some [1]) ∧
    ({ copying with mirror.moves := [⟨.log, 0, 0, 1024, 0, true, none⟩] } : State).moved .log = false ∧
    ((kget copying.liv.slots 4095).map (fun x => (x.staged, x.copying)) = some (some 0, true) ∧ copying.samplerPlan.isSome = true) ∧
    (let f := { tinyForme with chip.pageMap.log := some ⟨0, 1, [⟨0, 0, 0⟩], ⟨0, 0, 0⟩⟩ };
      let s : State := { copying with forme.forme := some f }; f.chip.pageMap.log.isSome = true ∧ s.mirror.logDue ≠ []) ∧
    (controlTake 0 0x12 0 board).serving = none ∧ (controlTake 0 0x12 0 copying).serving = some tinyForme.serving ∧
    (board.kclUp = true ∧ board.pastOptions = true ∧ csAligned (wr 0x200000 1) 0x200000 = true ∧ csAligned (wr 0x201FF8 1) 0x201FF8 = true) ∧
    (kclTake 0x02 0 board).writesWait = false ∧ (kclTake 0x02 0 writing).writesWait = true := by
  decide +kernel

theorem wit_NearUpkeep :
    (atRefresh.now % atRefresh.refreshInterval = refreshPhase ∧ atRefresh.near.selfRefresh = false ∧ atRefresh.near.refreshing = false) ∧
    ({ atRefresh with near.selfRefresh := true } : State).near.selfRefresh = true ∧
    ({ board with near.refreshing := true } : State).refreshOpen = true ∧
    (board.tt.inStep = false ∧ board.decisionDue = false ∧ board.rings.commit = none ∧ board.near.late.any (·.commit) = false ∧
      board.near.selfRefresh = false ∧
      board.brakeOn = false ∧ board.refreshOpen = false) ∧
    (∀ x ∈ [(16, 0), (0, 17)], let s := inStep.modChan 0 (fun c => { c with deferrals := BitVec.ofNat 8 x.1, stepEdc := x.2 });
      s.tt.inStep = true ∧ s.tt.draining = false ∧ (s.chan 0).ready = true ∧ (s.chan 0).retraining = false ∧
      (16 ≤ (s.chan 0).deferrals.toNat ∨ 16 < (s.chan 0).stepEdc)) ∧
    (let s := board.modChan 0 (fun c => { c with retraining := true }); s.retrainOpen 0 = true ∧ s.refreshOpen = false) ∧
    (let s : State := { board.modChan 0 (fun c => { c with ready := false }) with clk.enNear := 1 };
      (s.chan 0).ready = false ∧ s.power.readyBox.getLsbD 3 = true ∧ s.clk.enNear.getLsbD 0 = true) :=
  ⟨⟨atRefresh_due, rfl, rfl⟩, rfl, by decide +kernel⟩

theorem wit_Scrub : (let s : State := { toLaunch true with tt.nextLaunch := some 64 };
    s.tt.inStep = false ∧ s.tt.copied = true ∧ s.power.braking = false ∧ s.tt.nextLaunch = some 64 ∧ s.now + 64 ≤ (64 : BitVec 64).toNat ∧
    s.underTest 0 = false ∧ s.testFirst = false) ∧ (∀ k, Ecc.corrected ≠ .uncorrectable k) :=
  ⟨by decide +kernel, fun _ h => by cases h⟩

/-- A frame of class CTRL that holds a control packet of zeros, by its sequence number and its CRC-32C. -/
def ctrlFrame (seq crc : Nat) : Frame := ⟨BitVec.ofNat 64 (5 + seq * 2 ^ 8 + crc * 2 ^ 32), zeros 32, false, 0⟩

/-- A packet of zeros queued for class CTRL. -/
def ctrlPacket : OutPacket := ⟨zeros 32, none, 0, 0, false⟩

/-- The board with P0 changed. -/
def onP0 (f : Port → Port) : State := board.modPort 0 f

/-- Credits for one packet in each class. -/
def oneCredit : Vector Credit 3 := .replicate 3 { Credit.reset with hdr := 1, data := 2 }

theorem wit_FramesComplete :
    ((State.reset.port 0).state ≠ .active ∧ (board.port 0).state = .active ∧ (board.port 0).sawActive = true) ∧
    (let q := (onP0 (fun q => { q with resend := 1 })).port 0; 0 < q.resend) ∧
    (board.port 0).resend = 0 ∧ (nextFrame board 0 (board.port 0)).isNone = true ∧
    (let s := onP0 (fun q => { q with txCtrl := [ctrlPacket], credits := oneCredit }); let q := s.port 0;
      q.txTime = [] ∧ q.txCtrl = [ctrlPacket] ∧ canStart 0 1 ctrlPacket.packet q = true ∧ (nextFrame s 0 q).isSome = true) ∧
    (let o := { tinyPacket with released := true };
      let q := (onP0 (fun q => { q with txData := [o], txCtrl := [ctrlPacket], credits := oneCredit.set 1 Credit.reset })).port 0;
      q.txTime = [] ∧ q.txCtrl.head? = some ctrlPacket ∧ canStart 0 1 ctrlPacket.packet q = false ∧ q.txData = [o] ∧
      canStart 0 2 o.packet q = true) ∧
    (let m : KclMsg := ⟨0x21, false, 7, 0, [], 0⟩; let s : State := { board with kcl.tx := [m] };
      let q := { s.port 32 with credits := oneCredit };
      (board.port 32).resend = 0 ∧ board.kcl.tx = [] ∧
      (takeFirst (fun m => canStart 32 (kclClass m) (kclBytes m) q) s.kcl.tx).isSome = true) ∧
    (let q := board.port 0; q.state = .active ∧ q.skipping = false ∧ q.rxExpected = 0) ∧
    ((onP0 (fun q => { q with skipping := true })).port 0).skipping = true ∧
    (frameGood 0 (ctrlFrame 0 0x06D8739E) = true ∧ rxRoom 0 1 (zeros 32) (board.port 0) = true ∧ isControl (zeros 32) = true ∧
      pkHops (zeros 32) ≤ 6) ∧
    frameGood 0 (ctrlFrame 0 0) = false ∧
    (let pkt := leBytes 1 1 ++ zeros 31; frameGood 32 ⟨BitVec.ofNat 64 (5 + 0x3B7EA355 * 2 ^ 32), pkt, false, 0⟩ = true ∧
      rxRoom 32 1 pkt (board.port 32) = true ∧ kclKnown (leAt pkt 0 1) = true) ∧
    (let full : RxPacket := ⟨1, zeros 32, false, none, false⟩;
      rxRoom 0 1 (zeros 32) (board.port 0 |> fun q => { q with rx := .replicate 1024 full }) = false) ∧
    (frameGood 0 (ctrlFrame 3072 0x0176EFB0) = true ∧ fld (ctrlFrame 3072 0).head.toNat 8 12 = 3072) ∧
    (∀ x ∈ [(1, 0x271EE5BD), (1023, 0xB0D41B43), (1024, 0xF8E62A2B), (3071, 0x4944DED8)], frameGood 0 (ctrlFrame x.1 x.2) = true ∧ fld (ctrlFrame x.1 0).head.toNat 8 12 = x.1) ∧
    (let q := (onP0 (fun q => { q with replay := [⟨0, 1, 1, zeros 32, false⟩], timeoutsRow := 2 })).port 0;
      q.state = .active ∧ q.replay ≠ [] ∧ q.timeoutsRow + 1 < 4) ∧ (board.port 0).replay = [] ∧
    4 ≤ ((onP0 (fun q => { q with timeoutsRow := 3 })).port 0).timeoutsRow + 1 := by
  decide +kernel

/-- A LINK block of a STATE, with the CRC-32C of its 60 bytes. -/
def linkBlk (state crc : Nat) : BitVec 512 := BitVec.ofNat 512 (state + crc * 2 ^ 480)

theorem wit_LinkBlocks :
    (blockGood (linkBlk 0 0x5A0B0531).toNat = true ∧ blockGood (linkBlk 1 0x2FB0A16A).toNat = true ∧ fld (linkBlk 0 0).toNat 0 8 = 0 ∧
      fld (linkBlk 1 0).toNat 0 8 = 1 ∧ blockGood (linkBlk 0 0).toNat = false) ∧
    ((board.port 0).state = .active ∧ (board.port 0).state ≠ .down ∧ (board.port 0).state ≠ .training) ∧
    ((onP0 (fun q => { q with state := .init })).port 0).state = .init ∧
    (let q := (onP0 (fun q => { q with state := .training })).port 0; q.state = .training ∧ q.reachCfg = 0 ∧ q.reachCfg ≠ 1) ∧
    ((board.modPort 32 (fun q => { q with state := .training })).port 32).state = .training ∧ (State.reset.port 32).enable = true ∧
    (State.reset.port 32).state = .down ∧
    (∀ x ∈ [(15, 0), (3, 1), (12, 1), (8, 2)], reachWidth x.1 = some x.2) ∧ reachWidth 16 = none ∧
    (let s : State := { onP0 (fun q => { q with state := .down }) with clk.enLink := 1 };
      (s.port 0).enable = true ∧ (s.port 0).state = .down ∧ s.clk.enLink.getLsbD 0 = true) := by
  decide +kernel

theorem wit_RetrainsComplete :
    (∀ x ∈ [(2, 0xB17C4D87), (3, 0xC4C7E9DC), (4, 0x8909E2AC)], blockGood (linkBlk x.1 x.2).toNat = true ∧ fld (linkBlk x.1 x.2).toNat 0 8 = x.1) ∧
    (∀ st ∈ [LinkState.pausing, .active, .resuming, .retraining], ((onP0 (fun q => { q with state := st })).port 0).state = st) ∧
    (∀ x ∈ [(15, 0), (3, 1), (8, 2)], reachWidth x.1 = some x.2) ∧ reachWidth 16 = none ∧
    ((board.modPort 32 (fun q => { q with state := .retraining })).port 32).state = .retraining ∧
    ((onP0 (fun q => { q with lanesActive := 15 })).port 0).lanesActive.getLsbD 3 = true ∧
    (256 : BitVec 32).toNat ≤ 256 ∧ 256 < (257 : BitVec 32).toNat ∧
    (∀ x ∈ [(true, 0), (false, 15), (false, 14)],
      let s := onP0 (fun q => { q with request := some ⟨0, 0⟩, partnerDrained := x.1, deferrals := BitVec.ofNat 8 x.2 });
      (s.port 0).request = some ⟨0, 0⟩ ∧ (s.port 0).state = .active ∧ s.tt.inStep = false) ∧
    (board.port 0).request = none := by
  decide +kernel

/-! ## Witnesses: packets, time and services -/

/-- P0 and P1 with key 1 installed, P1 naming flow 0. -/
def keyed : State :=
  { board with
    ports := board.ports.mapIdx (fun k q => if k < 2 then { q with keys := q.keys.set 0 1, fence := false, transit := [0] } else q) }

/-- A data packet of key 1 with so many hops left, of which the first is P1. -/
def dataPkt (type flow hops dst : Nat) : List Byte := dataPacket type 1 flow ⟨64, hops + 1⟩ 0 0 0 0 5 dst 0 0 0 (zeros 64)

/-- A control packet with so many hops left, of which the first is P1. -/
def ctrlPkt (type hops : Nat) : List Byte := controlPacket type 1 ⟨64, hops + 1⟩ 0

theorem wit_PlanPackets :
    (let pkt := leBytes 1 0x40 ++ zeros 127; crc32c (pkPayload pkt) ≠ pkCrc pkt) ∧
    (∀ hops ∈ [0, 1, 14, 15], let pkt := dataPkt 0x40 0 hops 6; let t := ensureRx 0 2 pkt keyed;
      crc32c (pkPayload pkt) = pkCrc pkt ∧ keyAccepted t.fab.gidValid (t.port 0) (pkKey pkt) true = true ∧ pkHops pkt = hops) ∧
    (let pkt := dataPkt 0x40 0 1 6; let t := ensureRx 0 2 pkt board; keyAccepted t.fab.gidValid (t.port 0) (pkKey pkt) true = false) ∧
    (let pkt := dataPacket 0x40 1 0 ⟨0, 2⟩ 0 0 0 0 5 6 0 0 0 (zeros 64); pkHops pkt = 1 ∧ pkRoute pkt % 32 = 0) ∧
    (∀ flow ∈ [0, 1], let pkt := dataPkt 0x40 flow 1 6; let t := ensureRx 0 2 pkt keyed; let out := pkRoute pkt % 32;
      out = 1 ∧ out ≠ 0 ∧ keyAccepted t.fab.gidValid (t.port out) (pkKey pkt) true = true ∧
      (t.port out).transit.contains (pkFlow pkt) = decide (flow = 0)) ∧
    (let pkt := dataPacket 0x40 1 0 ⟨128, 2⟩ 0 0 0 0 5 6 0 0 0 (zeros 64); let t := ensureRx 0 2 pkt keyed;
      pkRoute pkt % 32 = 2 ∧ keyAccepted t.fab.gidValid (t.port 2) (pkKey pkt) true = false) := by
  decide +kernel

theorem wit_ControlPackets :
    (isControl (ctrlPkt 0x10 7) = true ∧ 6 < pkHops (ctrlPkt 0x10 7)) ∧
    (let pkt := leBytes 1 0x41 ++ zeros 127; isControl pkt = false ∧ crc32c (pkPayload pkt) ≠ pkCrc pkt) ∧
    (∀ hops ∈ [0, 1, 6], let pkt := ctrlPkt 0x10 hops; let u := ensureRx 0 ((typeClass pkt).getD 1) pkt keyed;
      isControl pkt = true ∧ pkHops pkt = hops ∧ keyAccepted u.fab.gidValid (u.port 0) (pkKey pkt) false = true ∧
      typeClass pkt = ((u.port 0).rx.find? (fun r => !r.processed && r.packet == pkt)).map (fun r => r.cls.toNat) ∧
      (hops = 0 ∨ (pkRoute pkt % 32 = 1 ∧ keyAccepted u.fab.gidValid (u.port 1) (pkKey pkt) false = true ∧ (u.port 1).ready = true))) ∧
    (∀ dst ∈ [5, 6], ∀ hops ∈ [0, 14, 15], let pkt := dataPkt 0x41 0 hops dst; let u := ensureRx 0 ((typeClass pkt).getD 1) pkt keyed;
      isControl pkt = false ∧ crc32c (pkPayload pkt) = pkCrc pkt ∧ pkHops pkt = hops ∧
      keyAccepted u.fab.gidValid (u.port 0) (pkKey pkt) false = true ∧ u.fab.gid.toNat = 5 ∧ pkDestGid pkt = dst ∧
      typeClass pkt = ((u.port 0).rx.find? (fun r => !r.processed && r.packet == pkt)).map (fun r => r.cls.toNat)) ∧
    (let pkt := ctrlPkt 0x7F 0; let u := ensureRx 0 ((typeClass pkt).getD 1) pkt keyed; isControl pkt = true ∧ pkHops pkt = 0 ∧
      typeClass pkt ≠ ((u.port 0).rx.find? (fun r => !r.processed && r.packet == pkt)).map (fun r => r.cls.toNat)) ∧
    (let pkt := ctrlPkt 0x10 1; keyAccepted true ((ensureRx 0 1 pkt board).port 0) (pkKey pkt) false = false) ∧
    (let pkt := controlPacket 0x10 1 ⟨0, 2⟩ 0; pkHops pkt = 1 ∧ pkRoute pkt % 32 = 0) ∧
    (let pkt := controlPacket 0x10 1 ⟨128, 2⟩ 0; let u := ensureRx 0 1 pkt keyed;
      pkRoute pkt % 32 = 2 ∧ keyAccepted u.fab.gidValid (u.port 2) (pkKey pkt) false = false) ∧
    ((keyed.modPort 1 (fun q => { q with ready := false })).port 1).ready = false := by
  decide +kernel

theorem wit_KeysAndNotices :
    (∀ r ∈ [1, 3], 1 ≤ fld (BitVec.ofNat 192 r).toNat 0 8 ∧ fld (BitVec.ofNat 192 r).toNat 0 8 ≤ 3) ∧
    fld (0 : BitVec 192).toNat 0 8 = 0 ∧ 3 < fld (4 : BitVec 192).toNat 0 8 ∧
    (let s := onP0 (fun q => { q with partnerDrained := true, pendKeys := some ⟨.replicate 4 1, false⟩ });
      portDrained s 0 = true ∧ installsFreely s 0 = true ∧ (s.port 0).pendKeys.isSome = true) ∧
    portDrained board 0 = false ∧ installsFreely (portUsed .started) 0 = false ∧ (board.port 0).pendKeys = none := by
  decide +kernel

/-- A slave of P0 with probe 0 outstanding. -/
def slave : State := { board with time.role := 2, time.altPort := 1, time.probes := [(0, 0, 0)] }

/-- The same while SB5 restarts. -/
def slaveNoBox : State := { slave with power.readyBox := 0x1F }

/-- A disciplined master, locked to its pulse. -/
def master : State := { board with time.role := 1, time.ppsDiscipline := true, time.ppsLocked := true }

theorem wit_TimeCommands :
    ((controlTake 0 2 0 slave).time.probes = [(0, 0, 0)] ∧ (controlTake 0 2 0 slave).time.role = 2 ∧
      (takeFirst (fun x => x.1.toNat == 0 && x.2.1.toNat == 0) slave.time.probes).isSome = true ∧
      (takeFirst (fun x => x.1.toNat == 1 && x.2.1.toNat == 0) slave.time.probes).isNone = true) ∧
    (∀ k ∈ [1, 2, 3], (controlTake 0 k 0 slave).sb5Up = true ∧ (controlTake 0 k 0 slaveNoBox).sb5Up = false) ∧
    ((pickUpstream slave).sb5Up = true ∧ (pickUpstream slaveNoBox).sb5Up = false ∧ board.time.probes = [] ∧ board.time.role ≠ 2) ∧
    ((controlTake 0 3 0 slave).time.role = 2 ∧ (controlTake 0 3 0 slave).upstreamPort = 0) ∧
    ((pickUpstream slave).time.role = 2 ∧ ((pickUpstream slave).port (pickUpstream slave).upstreamPort).ready = true) ∧
    (let s : State := { slave with time.usingAlt := true }; s.time.usingAlt = true ∧ (s.port s.time.port.toNat).ready = true) ∧
    board.time.role ≠ 1 ∧
    (master.time.role = 1 ∧ master.time.ppsDiscipline = true ∧ master.time.ppsLocked = true ∧ master.alive = true ∧
      master.sb5Up = true ∧ ({ master with power.phase := .held } : State).alive = false) ∧
    ((2199 : BitVec 16).toNat < 2200 ∧ 2200 ≤ (2200 : BitVec 16).toNat) ∧
    (ppsOffset 128000000).natAbs = 128000000 ∧ 128000000 < (ppsOffset 128000001).natAbs ∧
    (let s : State := { board with clk.enMisc := 4, power.taken := 16 };
      s.now % 1000000000 = 0 ∧ s.clk.enMisc.getLsbD 2 = true ∧ s.power.taken.getLsbD 4 = true) := by
  decide +kernel

/-- A FABRIC load open for tensor 7, of whose image of zeros every byte has arrived. -/
def awaiting : State :=
  { weighed with forme.fabricLoad := some ⟨cmd 0x201 0, [7], [7], [(7, [(0, zeros 131072)])], 0, false, 0⟩ }

theorem wit_ServiceMessages :
    ((controlTake 0 0x30 0 board).fw.seen.contains (0, 0) = false ∧
      (controlTake 0 0x30 0 { board with fw.seen := [(0, 0)] }).fw.seen.contains (0, 0) = true) ∧
    (∀ n ∈ [7, 8], let m : FwMessage := ⟨5, 1, 0, 0, n⟩;
      ({ board with fw.messages := [m] } : State).fw.messages.find? (fun m => m.serial == 5) = some m) ∧
    (let payload : List Byte := leBytes 4 0 ++ leBytes 4 7 ++ zeros 56; let t := serviceTake payload awaiting;
      (t.tensor (leAt payload 4 4)).isSome = true ∧ (t.forme.fabricLoad.map (fun l => l.open'.contains 7)) = some true) ∧
    (let payload := zeros 64; (serviceTake payload board).tensor (leAt payload 4 4) = none ∧
      awaitsCopy (serviceTake payload board) 0 = false) ∧ board.forme.fabricLoad = none := by
  decide +kernel

/-- One portion at offset 0 is the image. -/
theorem assembled_one (bs : List Byte) : assembled bs.length [(0, bs)] = some bs := by
  simp [assembled, sortBy, insertBy]

/-- The end of that copy, with the digest of the image. -/
def copyEnd : List Byte :=
  leBytes 4 2 ++ leBytes 4 7 ++ leBytes 8 131072 ++ zeros 16 ++ (sha256 (zeros 131072) ++ zeros 32)

theorem wit_WeightEnd : imageLength ⟨7, 1, false, false, false, 1, 1⟩ = 131072 ∧
    assembled 131072 [(0, zeros 131072)] = some (zeros 131072) ∧ leAt copyEnd 8 8 = 131072 ∧
    sha256 (zeros 131072) = sliceBytes copyEnd 32 32 := by
  refine ⟨by decide, ?_, by decide, ?_⟩
  · have h := assembled_one (zeros 131072)
    rwa [show (zeros 131072).length = 131072 from List.length_replicate] at h
  have h := sliceBytes_append (leBytes 4 2 ++ leBytes 4 7 ++ leBytes 8 131072 ++ zeros 16) (sha256 (zeros 131072)) (zeros 32)
  rw [sha256_length] at h
  exact h.symm

/-- A chip that mirrors logical chip 1 in 16 MiB of its far tier. -/
def mirroring : State :=
  { served .started with forme.partners := [0xFFFFFFFF, 0], far.areaSize := board.far.areaSize.set 3 16 }

theorem wit_MirrorAndRecovery :
    (serviceTake (zeros 64) board).source = none ∧
    (∀ kind ∈ [0, 1, 2, 3], ∀ page ∈ [1022, 1023], let payload := mirrorHead 0x10 ⟨0, 0, page, kind⟩ 0 0 0;
      let t := serviceTake payload mirroring;
      t.source = some 1 ∧ (slotFor t (headItem payload)).isSome = true ∧ (headItem payload).kind = kind ∧ (headItem payload).page = page) ∧
    (let payload := mirrorHead 0x10 ⟨0, 0, 0, itemLedger⟩ 0 0 0; let t := serviceTake payload mirroring;
      ∀ slot ∈ [0], (slotFor (writeItem (headItem payload) (headItem payload) 0 ((headData payload).take 128) slot t)
        (keptItem 0)).isSome = true) ∧
    (headItem (mirrorHead 0x15 ⟨0, 0, 0, 6⟩ 0 0 0)).kind = 6 ∧
    (let s : State := { mirroring with far.areaSize := board.far.areaSize }; let t := serviceTake (zeros 64) s;
      t.source ≠ none ∧ slotFor t (headItem (zeros 64)) = none) ∧
    (let m : MirrorItem := ⟨0, 0, 0, 0⟩; (serviceTake (zeros 64) board).mirror.backlog.contains m = false ∧
      (serviceTake (zeros 64) { board with mirror.backlog := [m] }).mirror.backlog.contains m = true ∧ headItem (zeros 64) = m) ∧
    (let payload := mirrorHead 0x15 ⟨0, 0, 0, 2⟩ 0 1 1; let f : Fetch := ⟨0, 2, 0, 0⟩;
      let t := serviceTake payload { board with mirror.fetches := [f] };
      (headItem payload).kind = 2 ∧ t.mirror.fetches.contains f = true ∧ headTotal payload ≠ 0 ∧ headLast payload = true ∧
      (serviceTake payload board).mirror.fetches.contains f = false) ∧
    (∀ x ∈ [(65534, true), (0xFFFF, true)], ({ board with mirror.fetches := [⟨x.1, 2, 0, 0⟩] } : State).mirror.fetches.any
      (fun f => f.waybill == x.1) = x.2) ∧ board.mirror.fetches.any (fun f => f.waybill == 0) = false := by
  decide +kernel

/-! ## Witnesses: clocks, power, health, firmware and resets -/

theorem wit_ClockAndPoint :
    (∀ x ∈ [((⟨0, 3, 3, false, 0⟩ : Domain), false), (⟨0, 4, 3, true, 0⟩, true), (⟨0, 2, 3, true, 0⟩, true), (⟨1, 3, 14, true, 0⟩, true),
      (⟨1, 3, 15, true, 0⟩, true)], x.1.ramping = x.2) ∧
    (∀ x ∈ [(0, false, 0, 15), (1, false, 0, 0), (1, true, 3, 0)],
      let s : State := { board with power.switchAt := some (BitVec.ofNat 64 x.1), power.changing := x.2.1, power.regions := BitVec.ofNat 4 x.2.2.1 };
      s.power.switchAt = some (BitVec.ofNat 64 x.1) ∧ s.tt.inStep = false ∧ s.power.changing = x.2.1 ∧ regionsAt s x.1 = BitVec.ofNat 4 x.2.2.2) ∧
    (let s : State := { board with
        time.repCode := board.time.repCode.set 0 256, power.switchAt := some 1, power.changing := true, power.regions := 2 };
      regionsAt s 1 = 1 ∧ s.power.regions ||| regionsAt s 1 ≠ s.power.regions) ∧
    board.power.switchAt = none ∧ board.power.changing = false ∧ regionsIn board = false ∧
    (∀ s ∈ [board, withForme .started], let t : State := { s with power.changing := true, power.applying := some (2, 0), power.regions := 15 };
      t.power.changing = true ∧ regionsIn t = true ∧ t.power.applying = some (2, 0) ∧ t.loaded = s.forme.forme.isSome) := by
  decide +kernel

/-- A press that stands before its launch, at a time, with its images copied. -/
def idleAt (now : Nat) : State :=
  let s := (toLaunch true).modPress 0 (fun p => { p with power := .stand })
  { s with time.ns := BitVec.ofNat 64 now, tt.nextLaunch := some 24128 }

theorem wit_PowerCommands :
    (let s := withForme .loaded; s.loaded = true ∧ s.pressSlot 95 = none ∧ (s.press 95).power ≠ .shed ∧ s.underTest 95 = false) ∧
    (∀ now ∈ [0, 1, 22500, 22501, 24097], let s := idleAt now; (s.pressSlot 0).isSome = true ∧ (s.press 0).power = .stand ∧
      pressDue s (s.press 0) = some (24128, now)) ∧
    (pressDue board (board.press 0) = none ∧ board.loaded = false) ∧
    (∀ x ∈ [(PressState.layover, 22563), (.layover, 22564), (.shed, 64)], let s := (idleAt x.2).modPress 0 (fun p => { p with power := x.1 });
      (s.press 0).power ≠ .stand ∧ pressDue s (s.press 0) = some (24128, x.2)) ∧
    board.power.stagger = none ∧
    (∀ g ∈ [0, 11], ({ board with power.stagger := some (1, g) } : State).power.stagger = some (1, g)) ∧
    (let s : State := { toLaunch true with power.stagger := some (occLaunch, 0), tt.nextLaunch := some 35065 };
      s.tt.nextLaunch = some 35065 ∧ s.now + 24064 + 1000 * 11 < (35065 : BitVec 64).toNat) ∧
    (∀ w ∈ [2150, 2151], board.alive = true ∧ board.power.braking = false ∧ board.power.brakePeak = false ∧
      board.power.brakeMean = false ∧ sumOf ((w :: board.power.samples).take 1000) ≤ board.power.limit.toNat * 1000 ∧
      (BitVec.ofNat 12 w).toNat = w) ∧
    (let s : State := { board with power.phase := .held }; s.alive = false) ∧
    (∀ w ∈ [1999, 2000], let s : State := { board with power.braking := true, power.brakePeak := true };
      s.power.braking = true ∧ (!s.power.brakePeak || decide (w < 2000)) = decide (w = 1999)) ∧
    (board.power.chipState = 0 ∧ board.power.quietAllow = true ∧ quietGap board = true) ∧
    (let s : State := { board with power.chipState := 1, power.deepAllow := true, power.windowIdle := 10000000 };
      s.power.chipState = 1 ∧ s.power.deepAllow = true ∧ quietGap s = true ∧ s.forme.state ≠ .started ∧ sb3Busy s = false ∧
      10000000 ≤ s.power.windowIdle ∧ s.power.waking = false ∧ launchNear s = false) ∧
    (let s : State := { board with power.chipState := 1, power.waking := true };
      s.power.waking = true ∧ s.power.chipState = 1 ∧ s.power.pendingPoint = none ∧ s.power.stagger = none ∧ s.power.pointQuiet = false) ∧
    (∀ b ∈ [board, withForme .loaded],
      let s : State := { b with power.chipState := 1, power.waking := true, power.pointQuiet := true, power.pendingPoint := some (1, 0) };
      s.power.waking = true ∧ s.power.chipState ≠ 0 ∧ s.power.pointQuiet = true ∧ s.power.pendingPoint = some (1, 0)) := by
  decide +kernel

/-- The board with the test of part 95 in a state, and its progress. -/
def testing (st prog : Nat) : State :=
  { board with health.test := board.health.test.set 95 ⟨0, BitVec.ofNat 16 prog, BitVec.ofNat 4 st⟩ }

theorem wit_HealthCommands :
    ((vget (testing 1 0).health.test 95 SelfTest.reset).state = 1 ∧ (testing 1 0).runFits 95 = true) ∧
    (vget board.health.test 95 SelfTest.reset).state ≠ 1 ∧ board.underTest 95 = false ∧ (testing 2 0).underTest 95 = true ∧
    (let s : State := { testing 2 0 with forme := { (withForme .loaded).forme with forme := some { tinyForme with chip.presses := [95] } } };
      s.underTest 95 = true ∧ s.partUsed 95 = true ∧ (0 : Nat) + 1 < pressSegments) ∧
    board.fw.boot = .running ∧ State.reset.fw.boot ≠ .running := by
  decide +kernel

/-- A handover of an image of zeros in progress. -/
def handingOver : State := { staged with fw.boot := .handover, fw.handoverCmd := some (cmd 0x502 0) }

theorem wit_FirmwareEvents :
    (watchdogsRun State.reset = false ∧ watchdogsRun board = true ∧ (5 : BoxId).val ≠ 0) ∧
    (handingOver.fw.boot = .handover ∧ handingOver.fw.staged = some (zeros 32) ∧ handingOver.fw.handoverCmd = some (cmd 0x502 0) ∧
      (0x1F : BitVec 6) ≠ 0x3F) ∧
    (∀ job ∈ [NvmJob.erase [1], .erase [1, 0], .option, .optionProgram, .optionCheck, .program [0], .fuse 1],
      ({ board with nv.job := some job } : State).nv.job = some job) ∧
    (nvmBusy board = false ∧ nvmBusy { board with nv.job := some (.program [0]) } = true ∧ board.nv.deferred = []) ∧
    nvmBusy { board with nv.job := some .optionProgram } = true ∧
    (let s : State := { board with nv.job := some (.program [0]), nv.deferred := [.warm 1] };
      nvmBusy s = true ∧ s.nv.deferred = [.warm 1] ∧ deferredFull s.nv.deferred = []) ∧
    (let s : State := { board with nv.job := some (.fuse 1), nv.deferred := [.warm 1, .full .modReset, .full .thermalTrip] };
      nvmBusy s = true ∧ (deferredFull s.nv.deferred).head? = some .modReset) ∧
    board.power.phase ≠ .warm ∧
    (let s : State := { board with power.phase := .warm };
      s.fw.boot = .running ∧ s.power.readyBox.getLsbD 0 = true ∧ s.power.readyBox.getLsbD 4 = true) := by
  decide +kernel

theorem wit_ResetsComplete :
    (board.power.modResetLow = false ∧ board.power.holders = [] ∧ board.power.auxUp = true ∧ nvmBusy board = false) ∧
    (let s : State := { board with power.modResetLow := true };
      s.power.modResetLow = true ∧ s.power.holders.contains .modReset = false) ∧
    ({ board with power.auxUp := false } : State).power.auxUp = false ∧
    ({ board with power.underVolt := true } : State).power.underVolt = true ∧ board.power.underVolt = false ∧
    nvmBusy { board with nv.job := some (.fuse 1) } = true ∧
    (let s : State := { board with power.modResetLow := true, power.holders := [.modReset] };
      s.power.modResetLow = true ∧ s.power.holders.contains .modReset = true) ∧
    115 ≤ (115 : BitVec 8).toNat ∧ (114 : BitVec 8).toNat < 115 ∧ board.nv.job = none := by
  decide +kernel

theorem wit_MakeReady :
    (State.reset.power.phase = .options ∧ board.power.phase ≠ .options) ∧
    (board.pastOptions = true ∧ board.power.readyStation = false) ∧
    (let s : State := { State.reset with power.phase := .makeReady, power.sramTested := true };
      s.power.phase = .makeReady ∧ s.fw.boot = .rom ∧ s.power.sramTested = true ∧ s.pastOptions = true) ∧
    ((board.modPort 32 (fun q => { q with state := .training })).port 32).state = .training ∧ board.fw.boot ≠ .rom ∧
    (∀ b ∈ [0, 1, 2, 3, 4, 5], let s : State := { board with power.readyBox := 0, power.phase := if b = 0 then .makeReady else .running };
      s.fw.boot = .running ∧ s.power.readyBox.getLsbD b = false) ∧
    (∀ b ∈ [0, 1, 2, 3, 4, 5], (vget board.fw.boxes b SbState.reset).spoiled = false ∧
      (vget ({ board with fw.boxes := board.fw.boxes.map (fun x => { x with spoiled := true }) } : State).fw.boxes b
        SbState.reset).spoiled = true) ∧
    (let s : State := { board with power.phase := .warm, fw.boot := .rom }; s.fw.boot = .rom ∧ s.power.phase = .warm ∧ s.pastOptions = true) ∧
    (board.power.phase = .running ∧ departed board 95 = true ∧ board.power.readyPress.getLsbD 95 = false) ∧
    (∀ c ∈ List.range 32, (board.chan c).ready = true) ∧
    ((0x8000000000000000 : Reg).getLsbD 63 = true ∧ ({ State.reset with fw.boot := .recovery } : State).fw.boot = .recovery) := by
  decide +kernel

/-- A warm reset in which no output has been taken, and the rows that drive none. -/
theorem wit_WarmResetKeepsPins : nvmBusy board = false ∧ (let u : State := { board with power.phase := .warm, power.taken := 0 };
    u.power.phase = .warm ∧ u.power.taken = 0 ∧ u.tt.inStep = false ∧ u.pending = [] ∧
    goesOn (exec (.clkenWrite 2 (wr 0x40010 0)) u) = true ∧ goesOn (exec .ppsOutEdge u) = true ∧ goesOn (exec .healthCompute u) = true ∧
    goesOn (exec (.boxServicesReady ⟨0, []⟩) u) = true ∧ goesOn (step u) = true) := by decide +kernel

/-- The digest of an option block of blank flash is not its last 32 bytes (R443). -/
theorem wit_OptionBlockAbsent : optionOk (flashOption State.reset) = false := by decide +kernel

/-! ## Witnesses: register writes, KCL and the management endpoint -/

/-- A submission ring of 16 slots enabled at 4 KiB, with one descriptor of an opcode. -/
def submitted (op : Nat) : State :=
  { ringed with
    rings.sub := board.rings.sub.set 63 ⟨⟨true, false, 0, 4, 4⟩, 1, 0⟩
    near.mem := memWrite blank 4096 (leBytes 2 op) board.near.mem }

theorem wit_RegisterWritesReach : (kclTake 0x02 0 board).writesWait = false ∧ (kclTake 0x02 0 writing).writesWait = true ∧
    (∀ s ∈ [board, writing], s.kclUp = true ∧ s.pastOptions = true) ∧ State.reset.kclUp = false ∧
    ({ board with power.phase := .options } : State).pastOptions = false ∧
    (∀ off ∈ [0x70000, 0x20028, 0x3200000, 0x3000008, 0x3000008 + 0x10000 * 31, 0x40000, 0x40010, 0x40040, 0x40058, 0x40080, 0x40088, 0x2100010,
      0x2100100, 0x2100120, 0x120008, 0x100000, 0x1003F0, 0x1003F8, 0x1007F0, 0x1007F8, 0x100800, 0x108000, 0x117FF8, 0x300000,
      0x6001080, 0x6000010, 0x7FFFFF8], csAligned (wr off 0) off = true ∧ csAligned ⟨0, 0xF, 0⟩ off = false) ∧
    csAligned (wr 0x70004 0) 0x70004 = false ∧
    takesCommands State.reset = false ∧ ringTurn board = none ∧
    (∀ op ∈ [1, 0x101, 0x7FFF], let s := submitted op; takesCommands s = true ∧ (ringTurn s).map (·.val) = some 63 ∧
      lineState s.kcl 4096 ≠ some true ∧ (descAt 63 (memRead blank s.near.mem 4096 64)).opcode.toNat = op) ∧
    knownOpcodes.contains 0x7FFF = false ∧ knownOpcodes.contains 1 = true ∧ blockOpcodes.contains 1 = false ∧
    (let s : State := { submitted 1 with kcl.lines := [⟨4096, true⟩] }; lineState s.kcl 4096 = some true ∧ takesCommands s = true ∧
      (ringTurn s).isSome = true) := by
  decide +kernel

theorem wit_SystemWritesDo :
    (board.time.role ≤ 1 ∧ board.forme.state = .none ∧ board.loaded = false) ∧
    ((withForme .loaded).forme.state ≠ .none ∧ (withForme .loaded).loaded = true) ∧
    ((0x1FFFFFFFE : Reg).getLsbD 32 = true ∧ fld (0x1000FFFFE : Reg).toNat 0 20 ≠ 0xFFFFF) ∧
    (fld (0x4002 : Reg).toNat 0 2 ≠ 3 ∧ 1 ≤ fld (0x4002 : Reg).toNat 8 8 ∧ fld (0x4002 : Reg).toNat 8 8 = 64 ∧ (3 : Fin 4).val ≠ 1) ∧
    fld (10 : Reg).toNat 0 4 ≤ 10 ∧ 10 < fld (11 : Reg).toNat 0 4 ∧
    (let s : State := { board with far.areaSize := board.far.areaSize.set 1 1 }; let v : Reg := 0x100000000;
      s.loaded = false ∧ (1 : Fin 5) ≠ 0 ∧
      areasMeet (fld v.toNat 0 32, fld v.toNat 32 32) (s.far.areaBase[1].toNat, s.far.areaSize[1].toNat) = true) ∧
    (∀ k : Fin 5, k ≠ 1 → areasMeet (fld (0x100000000 : Reg).toNat 0 32, fld (0x100000000 : Reg).toNat 32 32)
      (board.far.areaBase[k].toNat, board.far.areaSize[k].toNat) = false) ∧
    (∀ k ∈ [0, 31], let s : State := { board with clk.enNear := 0xFFFFFFFF, clk.enLink := 0xFFFFFFFF, clk.enMisc := 7 };
      s.clk.enNear.getLsbD k = true ∧ s.clk.enLink.getLsbD k = true ∧ (0 : Reg).getLsbD k = false ∧ (s.chan k).ready = true ∧
      (State.reset.chan k).ready = false ∧ s.portUsed k = false ∧ s.farUsed (k % 2) = false ∧ s.clk.enMisc.getLsbD (k % 2) = true ∧
      ({ s with clk.enLink := 0 } : State).clk.enLink.getLsbD k = false ∧ (0xFFFFFFFF : Reg).getLsbD k = true) ∧
    (State.reset.loaded = false ∧ (portUsed .started).portUsed 0 = true) ∧
    (let s : State := { board with dbg.stopped := [.sampler] }; (4 : Reg).getLsbD 2 = true ∧ s.dbg.stopped ≠ [] ∧
      s.dbg.stopped.contains .engine = false) ∧
    (let v : Reg := 0x10003; v.getLsbD 16 = true ∧ (0 : Reg).getLsbD 16 = false ∧ (board.port 0).enable = true ∧ (board.port 0).state ≠ .down) ∧
    ((1 : Reg).getLsbD 0 = true ∧ board.nv.job = none) ∧
    ((enabledSpans ringed).isEmpty = false ∧ (enabledSpans board).isEmpty = true) ∧
    (fld (4194304 : Reg).toNat 0 32 % 4096 = 0 ∧ fld (4194304 : Reg).toNat 0 32 ≤ 4194304) := by
  decide +kernel

theorem wit_RingWritesDo :
    (submitted 1).rings.sub[63].cfg.enable = true ∧ board.rings.sub[63].cfg.enable = false ∧
    (∀ size ∈ [4, 12], let v : Reg := BitVec.ofNat 64 (2 ^ 63 + size * 2 ^ 24); let n := ringCfgOf 6 false v.toNat;
      v.getLsbD 63 = true ∧ n.size.toNat = size ∧ spanFree 4096 (n.base.toNat * 1024, 64 * 2 ^ n.size.toNat) board = true) ∧
    (∀ size ∈ [3, 13], (ringCfgOf 6 false (2 ^ 63 + size * 2 ^ 24)).size.toNat = size) ∧
    (let x := (submitted 1).rings.sub[63]; x.cfg.slots < (17 + 65536 - x.consumer.toNat) % 65536 ∧
      (16 + 65536 - x.consumer.toNat) % 65536 ≤ x.cfg.slots) ∧
    (ringed.rings.cpl[0].cfg.enable = true ∧ board.rings.cpl[0].cfg.enable = false ∧ ringed.rings.evt.cfg.enable = true ∧
      board.rings.evt.cfg.enable = false ∧ (outRing board 0).cfg.enable = false) ∧
    (∀ size ∈ [4, 6, 12, 20], let v : Reg := BitVec.ofNat 64 (2 ^ 63 + size * 2 ^ 24);
      let s : State := { board with kcl.sharedSize := 65536 };
      (∀ last ∈ [false, true], let c := ringCfgOf 16 last v.toNat; c.size.toNat = size ∧
        spanFree 4096 (c.base.toNat * 1024, 32 * 2 ^ c.size.toNat) s = true) ∧
      spanFree 4096 (0, 32 * 2 ^ size) { board with kcl.sharedSize := 0 } = false) ∧
    (∀ size ∈ [3, 5, 13, 21], ∀ last ∈ [false, true], (ringCfgOf 16 last (2 ^ 63 + size * 2 ^ 24)).size.toNat = size) ∧
    (let s := withWaybill .queued; (outRing s 0).cfg.enable = true ∧ ringNamed s 0 = true ∧ ringNamed s 1 = false ∧ ringNamed board 0 = false) ∧
    board.rings.commit = none ∧ board.eng.late = [] ∧
    board.rings.edEnable = false ∧ spanFree 32768 (fld (0x8000000000000000 : Reg).toNat 0 22 * 1024, 32768) board = true ∧
    spanFree 32768 (fld (0x8000000000000001 : Reg).toNat 0 22 * 1024, 32768) board = false := by
  decide +kernel

/-- The board with a read of a command's block outstanding under tag 7, or of the ROM, or with the line at 0 snooped. -/
def reading (c : Option Descriptor) (off : Option Nat) : State :=
  { board with rings.taken := [cmdBlk 0x501 0 64], kcl.reads := [⟨7, c, off⟩] }
def snooping : State := { lineHeld with kcl.snoops := [(0, true)] }

theorem wit_KclRequests :
    board.kclUp = true ∧
    (∀ msg ∈ [3, 4], let t := touchWindow (kclTake msg 7 board);
      lineInside board 4194303 = true ∧ lineInside board 4194304 = false ∧ t.nearReady = true ∧ t.kcl.reqs = []) ∧
    (State.reset.nearReady = false ∧ board.pastOptions = true) ∧
    (∀ u ∈ [board, lineHeld], u.kcl.reqs = []) ∧ lineState lineHeld.kcl 0 = some true ∧ lineState board.kcl 0 = none ∧
    (lineHeld.modChan 0 (fun c => { c with host := [.writeback 0 0 0] })).givenWaits = true ∧ board.givenWaits = false ∧
    (writing.kcl.reqs ≠ [] ∧ (nextReady writing true false writing.kcl.reqs).isNone = true) ∧
    (lineState (touchWindow (kclTake 0x05 7 board)).kcl (lineBase 64) ≠ some true) ∧
    (let t := touchWindow (kclTake 0x06 7 lineHeld); (lineState t.kcl 63).isSome = true ∧ lineState t.kcl 64 = none) ∧
    (∀ n ∈ [64, 1024], 64 ≤ n ∧ n ≤ 1024 ∧ n % 64 = 0 ∧ nearBytes - n + n ≤ nearBytes ∧ (BitVec.ofNat 62 (nearBytes - n)).toNat = nearBytes - n) ∧
    nearBytes < nearBytes - 64 + 128 ∧ (zeros 128).length = 128 ∧
    (kclTake 0x24 7 board).kcl.reads.find? (fun r => r.tag == 7) = none ∧
    (∀ x ∈ [(some (cmdBlk 0x501 0 64), some 0), (some (cmdBlk 0x501 0 64), none), (none, none)], let t := kclTake 0x24 7 (reading x.1 x.2);
      (t.kcl.reads.find? (fun r => r.tag == 7)).map (fun r => (r.cmd, r.off)) = some x) ∧
    (let t := kclTake 0x26 0 snooping; t.kcl.snoops.find? (fun x => x.1 == lineBase 63) = some (0, true) ∧
      t.kcl.snoops.find? (fun x => x.1 == lineBase 64) = none) ∧
    (snooping.kcl.snoops.any (fun x => x.1 == lineBase 63) = true ∧ snooping.kcl.snoops.any (fun x => x.1 == lineBase 64) = false) := by
  decide +kernel

/-- The endpoint with its address, negotiated and with a message signed. -/
def endpoint : State := { board with mgmt.address := some 0x20, mgmt.negotiated := true, mgmt.signed := some [0] }

theorem wit_Management :
    (endpoint.power.auxUp = true ∧ endpointUp endpoint = true ∧ mainUp endpoint = true ∧ endpoint.fw.boot = .running ∧
      endpoint.power.readyBox.getLsbD 0 = true ∧ endpoint.mgmt.negotiated = true ∧ endpoint.mgmt.signed = some [0]) ∧
    (∀ eid ∈ [1, 254], let msg : List Byte := leBytes 1 0 ++ leBytes 1 0 ++ leBytes 1 1 ++ leBytes 1 0 ++ leBytes 1 eid;
      leAt msg 2 1 = 1 ∧ leAt msg 4 1 = eid ∧ eid ≠ 0 ∧ eid ≠ 255) ∧
    (leAt [0, 0, 2] 2 1 = 2) ∧
    (let s : State := { endpoint with power.phase := .held }; endpointUp s = true ∧ mainUp s = false) ∧
    (∀ k ∈ [1, 2, 3], (sensorReading endpoint (leAt (zeros 4 ++ leBytes 2 k) 4 2)).isSome = true) ∧
    ((0x20028 : BitVec 27).toNat % 8 = 0 ∧ (readReg endpoint 0x20028).isSome = true) ∧
    ({ endpoint with mgmt.negotiated := false } : State).mgmt.negotiated = false ∧
    (leAt (zeros 8) 2 1 % 16 = 0 ∧ leAt (zeros 8) 2 1 = 0 ∧ leAt (zeros 8) 3 1 = 0 ∧ bitAt (leAt (zeros 8) 2 1) 0 = false) := by
  decide +kernel

/-- A portion of a certificate chain can be asked for of every chain that is not empty; the chains are the part's own (R448). -/
theorem wit_Certificates (pq : Bool) (h : 0 < (Config.chain pq).length) : leAt (zeros 20) 4 2 < (Config.chain pq).length ∧
    leAt (zeros 20) 14 4 < (Config.chain pq).length := ⟨h, h⟩

/-! ## Single steps and known answers -/

/-- CRC-32C of the nine digits, its usual check value (outside the spec; log entry 21). -/
theorem test_crc32c : crc32c [0x31, 0x32, 0x33, 0x34, 0x35, 0x36, 0x37, 0x38, 0x39] = 0xE3069283 := by decide +kernel

/-- SHA3-256 of the empty message (FIPS 202). -/
theorem test_sha3Empty : leNat (sha256 []).reverse = 0xA7FFC6F8BF1ED76651C14756A061D662F580FF4DE43B49FA82D80A4B80F8434A := by decide +kernel

/-- 1 + 2 = 3, 2 × 2 = 4 and 1/2 in FP32; the sum of the infinities is an invalid operation (R108, R109, R117). -/
theorem test_lanes : (laneAdd fp32 [0x3F800000, 0x40000000]).bits = 0x40400000 ∧ (laneMul fp32 [0x40000000, 0x40000000]).bits = 0x40800000 ∧
    (laneRcp fp32 [0x40000000]).bits = 0x3F000000 ∧ (laneAdd fp32 [0x7F800000, 0xFF800000]).invalid = true := by decide +kernel

/-- What a row answers as the next state, tested. -/
def answers (o : Host.Outcome State Fault Refusal) (p : State → Bool) : Bool := match o with
  | .next t => p t
  | .fault _ => false
  | .refused _ => false

/-- NOP posts one final completion, whose PHASE is 1 on the first pass, and moves the index (R415, R420, R422). -/
theorem test_nop : answers (exec (.nop (cmd 1 0)) ringed) (fun t => (vget t.rings.cpl 0 Ring.reset).producer == 1 &&
    let m := memRead blank t.near.mem 0 32
    leAt m 0 4 == 1 && leAt m 4 4 == 7 && leAt m 8 1 == 3) = true := by decide +kernel

/-- A step fault begins run-out and leaves TT as it stood (R50). -/
theorem test_watchdogFault : answers (exec (.planWatchdogExpiry .sampler) (heldAt false 500001)) (fun t => t.tt.runout && t.tt.tt == 64 &&
    t.tt.fault.toNat == fcWatchdog) = true := by decide +kernel

/-- A launch starts TT at 0 in the announced step, and counts its lateness (R24, R54). -/
theorem test_launch : answers (exec .launch { toLaunch true with time.ns := 5 }) (fun t => t.tt.inStep && t.tt.tt == 0 && t.tt.late == 1 &&
    t.tt.slip == 5) = true := by decide +kernel

/-- TIME_SET with no forme loaded, and with one (R274). -/
theorem test_timeSet : answers (exec (.timeSet (wr 0x20028 1000)) board) (fun t => t.time.ns == 1000) = true ∧
    answers (exec (.timeSet (wr 0x20028 1000)) (withForme .loaded)) (fun t => t.time.ns == 0 && t.time.setRefused) = true := by decide +kernel

/-- LOOP, END and a DEPART mark (R26, R133 to R135). -/
theorem test_streamControl :
    answers (exec (.endStream (anIssue .v endWord)) (issuing (anIssue .v endWord))) (fun t => (t.press 0).v.state == .ended) = true ∧
    answers (exec (.departMark (anIssue .v departWord)) { issuing (anIssue .v departWord) with tt.tt := 31 })
      (fun t => (t.press 0).v.state == .markWait) = true := by decide +kernel

/-- A bulk access that passes the end of the near tier names no address that exists (R162). -/
theorem test_bulkBeyond : (match exec (.bulkRd 0 (BitVec.ofNat 62 (nearBytes - 64)) 128) board with
    | .fault (.noSuchAddress a) => a == nearBytes - 64
    | _ => false) = true := by decide +kernel

/-- The thermal trip at 115 degrees pulls its pin and holds the module in reset; at 114 nothing happens (R458, R465). -/
theorem test_thermalTrip : answers (exec (.thermalTrip 115) board) (fun t => t.power.phase == .held && t.power.tripLatch) = true ∧
    answers (exec (.thermalTrip 114) board) (fun t => t.power.phase == .running) = true := by decide +kernel
end Sys2Proof.Tests
end

section
/-!
# Holds exist only between launch and the end count (R36)

`Tt.Confined` is the invariant of O7, stated of the timetable's part of the state. Launch sets `inStep` and the end count sets
`draining`, each with the list of holds empty; the end of the drain and the resets leave the list empty too. `raiseHold` asks the two
flags first. A release or a resume only changes or drops holds that stand, so an empty list stays empty. No other function of the model
writes these three fields. So each function that changes the state has one lemma `_confined` here, in the order of the model's files,
proved from the lemmas of the functions that it calls; `exec` and `step` come last.
-/

namespace Sys2Proof.Machine

variable {s : State}

/-- No hold stands outside launch to the end count (R36). -/
def Tt.Confined (t : Tt) : Prop := t.inStep = false ∨ t.draining = true → t.holds = []

/-- The state that an outcome goes on with, if it does, has no hold outside launch to the end count. -/
def Out.Confined (o : Out) : Prop := ∀ t, o = .next t → t.tt.Confined

/-- The state that an attempt at an instruction leaves. -/
def Act.after : Act → State
  | .done s => s
  | .wait _ _ s => s

/-- An attempt at an instruction leaves no hold outside launch to the end count. -/
def Act.Confined (a : Act) : Prop := a.after.tt.Confined

theorem Out.confined_next {s : State} (hs : s.tt.Confined) : Out.Confined (.next s) := by
  intro t h
  cases h
  exact hs

theorem Out.confined_fault {f : Fault} : Out.Confined (.fault f) := by
  intro t h
  cases h

/-- With no hold at all there is none outside launch to the end count. -/
theorem Tt.confined_of_nil {t : Tt} (h : t.holds = []) : t.Confined := fun _ => h

/-- Only the holds and the two flags of the step in progress matter. -/
theorem Tt.Confined.congr {t u : Tt} (h : t.Confined) (hi : u.inStep = t.inStep) (hd : u.draining = t.draining)
    (hh : u.holds = t.holds) : u.Confined := by
  unfold Tt.Confined
  rw [hi, hd, hh]
  exact h

theorem ite_confined {c : Prop} [Decidable c] {s t : State} (hs : s.tt.Confined) (ht : t.tt.Confined) :
    (if c then s else t).tt.Confined := by
  split
  · exact hs
  · exact ht

theorem ite_fst_confined {α} {c : Prop} [Decidable c] {p q : State × α} (hp : p.1.tt.Confined) (hq : q.1.tt.Confined) :
    (if c then p else q).1.tt.Confined := by
  split
  · exact hp
  · exact hq

theorem ite_snd_confined {α} {c : Prop} [Decidable c] {p q : α × State} (hp : p.2.tt.Confined) (hq : q.2.tt.Confined) :
    (if c then p else q).2.tt.Confined := by
  split
  · exact hp
  · exact hq

theorem Act.ite_confined {c : Prop} [Decidable c] {a b : Act} (ha : a.Confined) (hb : b.Confined) :
    (if c then a else b).Confined := by
  split
  · exact ha
  · exact hb

theorem Out.ite_confined {c : Prop} [Decidable c] {o r : Out} (ho : o.Confined) (hr : r.Confined) :
    (if c then o else r).Confined := by
  split
  · exact ho
  · exact hr

theorem foldl_confined {α} {f : State → α → State} {l : List α} (hf : ∀ s x, s.tt.Confined → (f s x).tt.Confined) :
    ∀ {s : State}, s.tt.Confined → (l.foldl f s).tt.Confined := by
  induction l with
  | nil => exact id
  | cons x l ih => exact fun hs => ih (hf _ x hs)

/-- What a posting leaves of the timetable is all of it. -/
theorem Posted.confined {s t : State} (h : Posted s t) (hs : s.tt.Confined) : t.tt.Confined := h.tt_eq ▸ hs

theorem fst_confined {α} {p : State × α} {t : State} {a : α} (e : p = (t, a)) (h : p.1.tt.Confined) : t.tt.Confined := by
  subst e
  exact h

theorem snd_confined {α} {p : α × State} {a : α} {t : State} (e : p = (a, t)) (h : p.2.tt.Confined) : t.tt.Confined := by
  subst e
  exact h

theorem snd_snd_confined {α β} {p : α × β × State} {a : α} {b : β} {t : State} (e : p = (a, b, t)) (h : p.2.2.tt.Confined) :
    t.tt.Confined := by
  subst e
  exact h


/-! ## State -/

/-- After reset no hold stands. -/
theorem State.reset_confined : State.reset.tt.Confined := Tt.confined_of_nil rfl

/-! ## Ops -/

theorem State.modPress_confined {p f} (hs : s.tt.Confined) : (s.modPress p f).tt.Confined := hs
theorem State.modPresses_confined {f} (hs : s.tt.Confined) : (s.modPresses f).tt.Confined := hs
theorem State.modPort_confined {p f} (hs : s.tt.Confined) : (s.modPort p f).tt.Confined := hs
theorem State.modChan_confined {c f} (hs : s.tt.Confined) : (s.modChan c f).tt.Confined := hs
theorem State.modFar_confined {p f} (hs : s.tt.Confined) : (s.modFar p f).tt.Confined := hs
theorem State.draw_confined (hs : s.tt.Confined) : (s.draw).2.tt.Confined := hs
theorem State.drawReads_confined (hs : s.tt.Confined) : (s.drawReads).2.tt.Confined := hs

/-- A hold is raised between launch and the end count only. -/
theorem raiseHold_eq_self {u c k freeze} (h : s.tt.inStep = false ∨ s.tt.draining = true) : raiseHold u c k freeze s = s := by
  rcases h with h | h <;> simp [raiseHold, h]

theorem raiseHold_confined {u c k freeze} (hs : s.tt.Confined) : (raiseHold u c k freeze s).tt.Confined := by
  by_cases h : s.tt.inStep = false ∨ s.tt.draining = true
  · exact (raiseHold_eq_self h).symm ▸ hs
  · have hf : (raiseHold u c k freeze s).tt.inStep = s.tt.inStep ∧ (raiseHold u c k freeze s).tt.draining = s.tt.draining := by
      unfold raiseHold
      split <;> exact ⟨rfl, rfl⟩
    intro h'
    rw [hf.1, hf.2] at h'
    exact absurd h' h

theorem intrude_confined {u c} (hs : s.tt.Confined) : (intrude u c s).tt.Confined := raiseHold_confined hs
theorem mapIf_nil {α} (p : α → Bool) (f : α → α) : mapIf p f [] = [] := rfl

/-- A release changes the holds that stand, so none stays none. -/
theorem releaseHolds_confined {p} (hs : s.tt.Confined) : (releaseHolds p s).tt.Confined := by
  intro h
  simp only [releaseHolds, hs h, mapIf_nil]

theorem State.setPin_confined {k l} (hs : s.tt.Confined) : (s.setPin k l).tt.Confined := ite_confined hs hs

theorem startRunout_confined (hs : s.tt.Confined) : (startRunout s).tt.Confined :=
  ite_confined hs (releaseHolds_confined (hs.congr rfl rfl rfl))

theorem stepFault_confined {code unit} (hs : s.tt.Confined) : (stepFault code unit s).tt.Confined := by
  unfold stepFault
  refine ite_confined hs ?_
  extract_lets _ _ _ s1
  have h1 : s1.tt.Confined := ite_confined (hs.congr rfl rfl rfl) (ite_confined (hs.congr rfl rfl rfl) hs)
  exact startRunout_confined h1

theorem kclSend_confined {m} (hs : s.tt.Confined) : (kclSend m s).tt.Confined := (kclSend_drained _ _).posted.confined hs

theorem respond_confined {msg error tag data} (hs : s.tt.Confined) :
    (respond msg error tag data s).tt.Confined := kclSend_confined hs

theorem kclSnoop_confined {a inv} (hs : s.tt.Confined) :
    (kclSnoop a inv s).tt.Confined := (kclSnoop_drained _ _ _).posted.confined hs

theorem pullForward_confined {a} (hs : s.tt.Confined) :
    (pullForward a s).tt.Confined := (pullForward_drained _ _).posted.confined hs

theorem kclDrain_confined {n} (hs : s.tt.Confined) : (kclDrain n s).tt.Confined := (kclDrain_drained _ _).posted.confined hs
theorem kclPump_confined (hs : s.tt.Confined) : (kclPump s).tt.Confined := (kclPump_drained _).posted.confined hs
theorem touchWindow_confined (hs : s.tt.Confined) : (touchWindow s).tt.Confined := (touchWindow_posted _).confined hs

theorem sharedWrite_confined {a bs} (hs : s.tt.Confined) :
    (sharedWrite a bs s).tt.Confined := (sharedWrite_posted _ _ _).confined hs

theorem sharedIntr_confined {v} (hs : s.tt.Confined) : (sharedIntr v s).tt.Confined := (sharedIntr_posted _ _).confined hs
theorem sharedMirror_confined {v} (hs : s.tt.Confined) : (sharedMirror v s).tt.Confined := kclPump_confined hs
theorem nearPut_confined {a bs} (hs : s.tt.Confined) : (nearPut a bs s).tt.Confined := ite_confined hs hs
theorem nearZero_confined {kib n} (hs : s.tt.Confined) : (nearZero kib n s).tt.Confined := ite_confined hs hs
theorem lateGo_confined (hs : s.tt.Confined) : (lateGo s).tt.Confined := hs
theorem boxesGo_confined (hs : s.tt.Confined) : (boxesGo s).tt.Confined := kclPump_confined (lateGo_confined hs)

theorem farWrite_confined {a bs} (hs : s.tt.Confined) : (farWrite a bs s).tt.Confined := by
  unfold farWrite
  refine foldl_confined (fun _ _ ht => ?_) hs
  split
  · exact ite_confined ht ht
  · exact ht

theorem postEventAt_confined {station type a b c} (hs : s.tt.Confined) : (postEventAt station type a b c s).tt.Confined :=
  (postEventAt_posted _ _ _ _ _ _).confined hs

theorem postEvent_confined {type a b c} (hs : s.tt.Confined) : (postEvent type a b c s).tt.Confined :=
  (postEvent_posted _ _ _ _ _).confined hs

theorem postHeld_confined (hs : s.tt.Confined) : (postHeld s).tt.Confined := foldl_confined (fun _ _ => postEventAt_confined) hs

theorem writeCompletion_confined {c} (hs : s.tt.Confined) :
    (writeCompletion c s).tt.Confined := (writeCompletion_posted _ _).confined hs

theorem flushCompletions_confined {l l2 l3} (hs : s.tt.Confined) : (flushCompletions l l2 l3 s).tt.Confined :=
  (flushCompletions_posted _ _ _ _).confined hs

theorem flushAll_confined (hs : s.tt.Confined) : (flushAll s).tt.Confined := (flushAll_posted _).confined hs
theorem post_confined {c} (hs : s.tt.Confined) : (post c s).tt.Confined := (post_posted _ _).confined hs

theorem finish_confined {d status result} (hs : s.tt.Confined) : (finish d status result s).tt.Confined :=
  (finish_posted _ _ _ _).confined hs

theorem finishReason_confined {d status reason result} (hs : s.tt.Confined) :
    (finishReason d status reason result s).tt.Confined :=
  (finishReason_posted _ _ _ _ _).confined hs

theorem queued_confined {d result} (hs : s.tt.Confined) : (queued d result s).tt.Confined := (queued_posted _ _ _).confined hs

theorem finishReply_confined {d status result reply} (hs : s.tt.Confined) : (finishReply d status result reply s).tt.Confined :=
  (finishReply_posted _ _ _ _ _).confined hs

theorem finishAtEdition_confined {d status result} (hs : s.tt.Confined) : (finishAtEdition d status result s).tt.Confined :=
  (finishAtEdition_posted _ _ _ _).confined hs

/-! ## Packets -/

theorem sendTime_confined {p pkt via} (hs : s.tt.Confined) : (sendTime p pkt via s).tt.Confined := State.modPort_confined hs
theorem sendCtrl_confined {p pkt via} (hs : s.tt.Confined) : (sendCtrl p pkt via s).tt.Confined := State.modPort_confined hs
theorem sendPlan_confined {p pkt via} (hs : s.tt.Confined) : (sendPlan p pkt via s).tt.Confined := State.modPort_confined hs

theorem sendControl_confined {type key r body} (hs : s.tt.Confined) : (sendControl type key r body s).tt.Confined :=
  ite_confined hs (sendCtrl_confined hs)

theorem sendService_confined {dst payload} (hs : s.tt.Confined) : (sendService dst payload s).tt.Confined := by
  unfold sendService
  split
  · exact hs
  · exact sendCtrl_confined hs

theorem outbound_confined {p e} (hs : s.tt.Confined) : (outbound p e s).tt.Confined := by
  unfold outbound
  extract_lets
  split
  · exact hs
  · extract_lets _ _ _ _ _ _ _ _ _ _ _ _ s1
    have h1 : s1.tt.Confined := State.modPress_confined (State.modPress_confined hs)
    refine ite_confined ?_ (ite_confined (sendPlan_confined h1) (State.modPress_confined (State.modPress_confined hs)))
    split
    · exact State.modPress_confined hs
    · split
      · dsimp only
        exact State.modPress_confined hs
      · exact State.modPress_confined hs

/-! ## Lanes -/

theorem countStop_confined {p} (hs : s.tt.Confined) : (countStop p s).tt.Confined := State.modPress_confined hs

theorem laneStop_confined {src p} (hs : s.tt.Confined) : (laneStop src p s).tt.Confined := by
  unfold laneStop
  extract_lets
  split
  · refine foldl_confined (fun _ _ ht => ?_) hs
    split
    · exact countStop_confined ht
    · split
      · exact countStop_confined ht
      · exact ht

/-! ## Queues -/

theorem hazard_confined {p kind stream tag icount other location} (hs : s.tt.Confined) :
    (hazard p kind stream tag icount other location s).tt.Confined :=
  ite_confined (State.modPress_confined hs) hs

theorem touchLanding_confined {p a g write} (hs : s.tt.Confined) : (touchLanding p a g write s).tt.Confined :=
  ite_confined (ite_confined (hazard_confined (State.modPress_confined hs)) (State.modPress_confined hs)) hs

theorem landRead_confined {p} (hs : s.tt.Confined) : (landRead p s).tt.Confined := by
  unfold landRead
  extract_lets _ _ _ _ s1
  have h1 : s1.tt.Confined := State.modPress_confined (touchLanding_confined hs)
  exact ite_confined hs (ite_confined (stepFault_confined h1) h1)

theorem landInto_confined {p e} (hs : s.tt.Confined) : (landInto p e s).tt.Confined := State.modPress_confined hs

theorem landPump_confined {n n2} (hs : s.tt.Confined) : (landPump n n2 s).tt.Confined := by
  induction n generalizing n2 s with
  | zero => exact hs
  | succ n ih =>
    rw [landPump]
    split
    · exact landRead_confined hs
    · refine ite_confined ?_ (landRead_confined hs)
      split
      · exact landRead_confined hs
      · exact ih (landInto_confined (State.modPress_confined (landRead_confined hs)))

theorem freeCell_confined {r c} (hs : s.tt.Confined) : (freeCell s r c).2.tt.Confined := by
  unfold freeCell
  split
  next t _ u e =>
    have hu : u.tt.Confined := snd_confined e (State.draw_confined hs)
    split
    next v _ w e =>
      have hw : w.tt.Confined := snd_confined e (State.draw_confined hu)
      exact hw

theorem popHead_confined {p q} (hs : s.tt.Confined) : (popHead p q s).tt.Confined := by
  unfold popHead
  refine ite_confined hs ?_
  split
  · exact ite_confined (landPump_confined (State.modPress_confined hs)) (State.modPress_confined hs)
  · refine ite_confined ?_ hs
    extract_lets
    split
    · exact landRead_confined hs
    · exact landPump_confined (State.modPress_confined (landRead_confined hs))

theorem poolFault_confined {p} (hs : s.tt.Confined) :
    (poolFault p s).tt.Confined := stepFault_confined (State.modPress_confined hs)

theorem sramFixed_confined {p n} (hs : s.tt.Confined) : (sramFixed p n s).tt.Confined := State.modPress_confined hs

theorem poolRead_confined {p x e} (hs : s.tt.Confined) : (poolRead p x e s).2.tt.Confined := by
  unfold poolRead
  extract_lets
  exact ite_snd_confined (poolFault_confined (sramFixed_confined hs)) (sramFixed_confined hs)

theorem foutPump_confined {n n2} (hs : s.tt.Confined) : (foutPump n n2 s).tt.Confined := by
  induction n generalizing n2 s with
  | zero => exact hs
  | succ n ih =>
    rw [foutPump]
    split
    · exact hs
    · exact ite_confined (ih (outbound_confined (poolRead_confined (State.modPress_confined hs))))
        (ite_confined hs (State.modPress_confined (countStop_confined hs)))

theorem push_confined {p q e found} (hs : s.tt.Confined) : (push p q e found s).tt.Confined := by
  unfold push
  refine ite_confined hs ?_
  extract_lets
  refine ite_confined (foutPump_confined (State.modPress_confined (State.modPress_confined hs))) ?_
  exact ite_confined (State.modPress_confined (State.modPress_confined hs)) (State.modPress_confined hs)

theorem loseCell_confined {p x c} (hx : x.2.tt.Confined) : (loseCell p x c).2.tt.Confined := by
  unfold loseCell
  split
  next t _ u e =>
    have hu : u.tt.Confined := snd_confined e (freeCell_confined hx)
    exact stepFault_confined (State.modPress_confined hu)

theorem foldl_loseCell_confined {p} {l : List Nat} :
    ∀ {x : AccRow × State}, x.2.tt.Confined → (l.foldl (loseCell p) x).2.tt.Confined := by
  induction l with
  | nil => exact id
  | cons c l ih => exact fun hx => ih (loseCell_confined hx)

theorem readCells_confined {i n r} (hs : s.tt.Confined) : (readCells i n r s).2.tt.Confined :=
  foldl_loseCell_confined (sramFixed_confined hs)

theorem readBank_confined {i n q row r} (hs : s.tt.Confined) : (readBank i n q row r s).2.tt.Confined := by
  unfold readBank
  split
  next t _ u e =>
    have hu : u.tt.Confined := snd_confined e (readCells_confined hs)
    exact ite_confined hu (State.modPress_confined hu)

theorem readPool_confined {i item q k} (hs : s.tt.Confined) : (readPool i item q k s).2.tt.Confined :=
  ite_snd_confined hs (poolRead_confined hs)

theorem State.modStream_confined {i f} (hs : s.tt.Confined) : (s.modStream i f).tt.Confined := State.modPress_confined hs
theorem setProg_confined {i p} (hs : s.tt.Confined) : (setProg i p s).tt.Confined := State.modStream_confined hs
theorem pushBy_confined {i e} (hs : s.tt.Confined) : (pushBy i e s).tt.Confined := push_confined (setProg_confined hs)
theorem retire_confined {i} (hs : s.tt.Confined) : (retire i s).tt.Confined := State.modStream_confined hs

theorem noteWait_confined {i row isPush} (hs : s.tt.Confined) : (noteWait i row isPush s).tt.Confined :=
  ite_confined (State.modStream_confined hs) (State.modPress_confined (State.modStream_confined hs))

theorem waitSources_confined {i queues} (hs : s.tt.Confined) : (waitSources i queues s).Confined :=
  ite_confined (State.modPress_confined hs) hs

theorem stepAside_confined {i} (hs : s.tt.Confined) : (stepAside i s).tt.Confined :=
  ite_confined (retire_confined (State.modStream_confined hs)) hs

theorem settle_confined {i x} (hx : x.Confined) : (settle i x).tt.Confined := by
  unfold settle
  split
  next _ t =>
    exact hx
  next _ _ _ t =>
    exact stepAside_confined (noteWait_confined hx)

theorem streamRelease_confined {p id} (hs : s.tt.Confined) : (streamRelease p id s).tt.Confined := by
  unfold streamRelease
  extract_lets
  split
  · exact hs
  · exact ite_confined (State.modPress_confined hs) hs

theorem breakHit_confined {k u tt} (hs : s.tt.Confined) : (breakHit k u tt s).tt.Confined := hs
theorem takeWord_confined {i} (hs : s.tt.Confined) : (takeWord i s).tt.Confined := State.modStream_confined hs

theorem issue_confined {ok run i} (hrun : ∀ i s, s.tt.Confined → (run i s).Confined) (hs : s.tt.Confined) :
    (issue ok run i s).tt.Confined := by
  unfold issue
  extract_lets _ _ _ _ s1
  have h1 : s1.tt.Confined := takeWord_confined (streamRelease_confined hs)
  refine ite_confined (streamRelease_confined hs) ?_
  split
  · exact intrude_confined (breakHit_confined (State.modStream_confined (streamRelease_confined hs)))
  · split
    · exact settle_confined (hrun _ _ h1)
    · exact settle_confined (hrun _ _ (State.modPress_confined h1))
    · exact settle_confined (hrun _ _ (State.modPress_confined h1))
    · exact retire_confined (stepFault_confined (State.modPress_confined h1))

/-! ## Matrix -/

theorem rowHazard_confined {i kind q row other} (hs : s.tt.Confined) :
    (rowHazard i kind q row other s).tt.Confined := hazard_confined hs

theorem wloadLoop_confined {n x} (hs : s.tt.Confined) : (wloadLoop n x s).Confined := by
  induction n generalizing x s with
  | zero => exact hs
  | succ n ih =>
    rw [wloadLoop]
    refine Act.ite_confined ?_ (State.modPress_confined hs)
    split
    · dsimp only
      exact ih (setProg_confined (popHead_confined (readPool_confined hs)))
    · exact hs

theorem wloadAct_confined {i} (hs : s.tt.Confined) : (wloadAct i s).Confined := wloadLoop_confined hs

theorem waveParity_confined {i n} (hs : s.tt.Confined) : (waveParity i n s).tt.Confined :=
  foldl_confined (fun _ _ ht => stepFault_confined (State.modPress_confined ht)) hs

theorem passWave_confined {i n e} (hs : s.tt.Confined) : (passWave i n e s).tt.Confined := by
  unfold passWave
  extract_lets
  split
  · split
    next t _ u e =>
      have hu : u.tt.Confined := snd_confined e (ite_snd_confined (readCells_confined hs) hs)
      exact ite_confined (rowHazard_confined (ite_confined (rowHazard_confined (State.modPress_confined hu))
        (State.modPress_confined hu))) (ite_confined (rowHazard_confined (State.modPress_confined hu))
        (State.modPress_confined hu))

theorem passLoop_confined {n x} (hs : s.tt.Confined) : (passLoop n x s).Confined := by
  induction n generalizing x s with
  | zero => exact hs
  | succ n ih =>
    rw [passLoop]
    refine Act.ite_confined hs ?_
    extract_lets
    split
    · exact ite_confined (rowHazard_confined hs) hs
    · refine Act.ite_confined ?_ hs
      dsimp only
      exact ih (setProg_confined (passWave_confined (waveParity_confined (popHead_confined (readPool_confined hs)))))

theorem passAct_confined {i} (hs : s.tt.Confined) : (passAct i s).Confined := passLoop_confined (State.modPress_confined hs)

theorem waddLoop_confined {n x} (hs : s.tt.Confined) : (waddLoop n x s).Confined := by
  induction n generalizing x s with
  | zero => exact hs
  | succ n ih =>
    rw [waddLoop]
    refine Act.ite_confined hs ?_
    dsimp only
    split
    · exact ite_confined (rowHazard_confined hs) hs
    · refine Act.ite_confined (ih (setProg_confined ?_)) hs
      have hcells {b i k r} : (if b = true then readCells x i r (readPool x k (wSrcA x.word) 0 s).2
          else (r, (readPool x k (wSrcA x.word) 0 s).2)).2.tt.Confined :=
        ite_snd_confined (readCells_confined (readPool_confined hs)) (readPool_confined hs)
      exact ite_confined (rowHazard_confined (State.modPress_confined (popHead_confined hcells)))
        (State.modPress_confined (popHead_confined hcells))

theorem waddAct_confined {i} (hs : s.tt.Confined) : (waddAct i s).Confined := waddLoop_confined hs

theorem execWload_confined {i} (hs : s.tt.Confined) : Out.Confined (execWload i s) :=
  Out.confined_next (issue_confined (fun _ _ => wloadAct_confined) hs)

theorem execPass_confined {i} (hs : s.tt.Confined) : Out.Confined (execPass i s) :=
  Out.confined_next (issue_confined (fun _ _ => passAct_confined) hs)

theorem execWadd_confined {i} (hs : s.tt.Confined) : Out.Confined (execWadd i s) :=
  Out.confined_next (issue_confined (fun _ _ => waddAct_confined) hs)

/-! ## Operands -/

theorem readSrc_confined {i srcs j v round active} (hs : s.tt.Confined) :
    (readSrc i srcs j v round active s).2.tt.Confined := by
  unfold readSrc
  extract_lets
  split
  · split
    · exact hs
    · split
      next t _ u e =>
        have hu : u.tt.Confined := snd_confined e (ite_snd_confined (readBank_confined hs) hs)
        exact ite_confined (State.modPress_confined hu) hu
  · exact ite_snd_confined (readPool_confined hs) hs

theorem popSrc_confined {p q} (hs : s.tt.Confined) : (popSrc p q s).tt.Confined :=
  ite_confined (State.modPress_confined hs) (popHead_confined hs)

theorem readAll_confined {i srcs round active j vs} (hs : s.tt.Confined) :
    (readAll i srcs round active j vs s).2.tt.Confined := by
  induction vs generalizing j s with
  | nil => exact hs
  | cons v vs ih => exact ih (readSrc_confined hs)

theorem vecLoop_confined {n x x3} (hs : s.tt.Confined) : (vecLoop n x x3 s).Confined := by
  induction n generalizing x x3 s with
  | zero => exact hs
  | succ n ih =>
    rw [vecLoop]
    split
    · exact Act.ite_confined (ih (pushBy_confined (setProg_confined hs))) hs
    · refine Act.ite_confined (foldl_confined (fun _ _ => popSrc_confined) hs) (Act.ite_confined ?_ (waitSources_confined hs))
      exact ih (setProg_confined (State.modPress_confined (foldl_confined (fun _ _ => popSrc_confined) (readAll_confined hs))))

theorem runVec_confined {op i} (hs : s.tt.Confined) : (runVec op i s).Confined := vecLoop_confined hs

/-! ## Mover -/

theorem readStore_confined {i item a} (hs : s.tt.Confined) : (readStore i item a s).2.tt.Confined := by
  unfold readStore
  extract_lets
  exact ite_snd_confined (stepFault_confined (State.modPress_confined (State.modPress_confined hs)))
    (State.modPress_confined hs)

theorem touchX_confined {i a write} (hs : s.tt.Confined) : (touchX i a write s).tt.Confined :=
  ite_confined (ite_confined (hazard_confined (State.modPress_confined hs)) (State.modPress_confined hs)) hs

theorem fetchLoop_confined {addr n x} (hs : s.tt.Confined) : (fetchLoop addr n x s).Confined := by
  induction n generalizing x s with
  | zero => exact hs
  | succ n ih =>
    rw [fetchLoop]
    refine Act.ite_confined hs ?_
    exact Act.ite_confined (ih (pushBy_confined (setProg_confined (readStore_confined (touchX_confined hs))))) hs

theorem storeLoop_confined {addr n x} (hs : s.tt.Confined) : (storeLoop addr n x s).Confined := by
  induction n generalizing x s with
  | zero => exact hs
  | succ n ih =>
    rw [storeLoop]
    refine Act.ite_confined hs (Act.ite_confined ?_ hs)
    extract_lets
    exact ih (setProg_confined (State.modPress_confined (touchX_confined (popHead_confined (readPool_confined hs)))))

theorem loadAct_confined {i} (hs : s.tt.Confined) : (loadAct i s).Confined := fetchLoop_confined hs
theorem storeAct_confined {i} (hs : s.tt.Confined) : (storeAct i s).Confined := storeLoop_confined hs
theorem platRdAct_confined {i} (hs : s.tt.Confined) : (platRdAct i s).Confined := fetchLoop_confined hs
theorem platWrAct_confined {i} (hs : s.tt.Confined) : (platWrAct i s).Confined := storeLoop_confined hs

theorem moveLoop_confined {n x} (hs : s.tt.Confined) : (moveLoop n x s).Confined := by
  induction n generalizing x s with
  | zero => exact hs
  | succ n ih =>
    rw [moveLoop]
    split
    · exact Act.ite_confined (ih (pushBy_confined (setProg_confined hs))) hs
    · refine Act.ite_confined hs (Act.ite_confined (ih (setProg_confined ?_)) hs)
      exact ite_confined (readPool_confined hs) (popHead_confined (readPool_confined hs))

theorem moveAct_confined {i} (hs : s.tt.Confined) : (moveAct i s).Confined := moveLoop_confined hs

theorem wideLoop_confined {n x} (hs : s.tt.Confined) : (wideLoop n x s).Confined := by
  induction n generalizing x s with
  | zero => exact hs
  | succ n ih =>
    rw [wideLoop]
    refine Act.ite_confined hs ?_
    split
    · exact hs
    · refine Act.ite_confined ?_ hs
      extract_lets
      split
      next t _ u e =>
        have hu : u.tt.Confined := snd_confined e (ite_snd_confined (readBank_confined hs) hs)
        exact ih (setProg_confined (ite_confined (popSrc_confined (pushBy_confined hu)) (pushBy_confined hu)))

theorem moveWideAct_confined {i} (hs : s.tt.Confined) : (moveWideAct i s).Confined := wideLoop_confined hs

theorem sendRequest_confined {press write far items} (hs : s.tt.Confined) :
    (sendRequest press write far items s).tt.Confined := by
  unfold sendRequest
  extract_lets
  split
  · refine foldl_confined (fun _ _ ht => ?_) hs
    split
    · exact State.modFar_confined ht
    · exact ht
  · refine foldl_confined (fun _ _ ht => ?_) hs
    split
    · exact State.modChan_confined ht
    · exact ht

theorem requestLoop_confined {write far n x} (hs : s.tt.Confined) : (requestLoop write far n x s).Confined := by
  induction n generalizing x s with
  | zero => exact hs
  | succ n ih =>
    rw [requestLoop]
    refine Act.ite_confined (Act.ite_confined ?_ hs) (sendRequest_confined hs)
    exact ih (setProg_confined (popHead_confined (readPool_confined hs)))

theorem nearRdAct_confined {i} (hs : s.tt.Confined) : (nearRdAct i s).Confined := requestLoop_confined hs
theorem nearWrAct_confined {i} (hs : s.tt.Confined) : (nearWrAct i s).Confined := requestLoop_confined hs
theorem farRdAct_confined {i} (hs : s.tt.Confined) : (farRdAct i s).Confined := requestLoop_confined hs
theorem farWrAct_confined {i} (hs : s.tt.Confined) : (farWrAct i s).Confined := requestLoop_confined hs

theorem issueX_confined {op run i} (hrun : ∀ i s, s.tt.Confined → (run i s).Confined) (hs : s.tt.Confined) :
    Out.Confined (issueX op run i s) :=
  Out.confined_next (issue_confined (fun _ _ h => hrun _ _ h) hs)

theorem execLoad_confined {i} (hs : s.tt.Confined) :
    Out.Confined (execLoad i s) := issueX_confined (fun _ _ => loadAct_confined) hs

theorem execStore_confined {i} (hs : s.tt.Confined) :
    Out.Confined (execStore i s) := issueX_confined (fun _ _ => storeAct_confined) hs

theorem execMove_confined {i} (hs : s.tt.Confined) : Out.Confined (execMove i s) :=
  Out.confined_next (issue_confined (fun _ _ => moveAct_confined) hs)

theorem execMoveWide_confined {i} (hs : s.tt.Confined) : Out.Confined (execMoveWide i s) :=
  Out.confined_next (issue_confined (fun _ _ => moveWideAct_confined) hs)

theorem execPlatRd_confined {i} (hs : s.tt.Confined) :
    Out.Confined (execPlatRd i s) := issueX_confined (fun _ _ => platRdAct_confined) hs

theorem execPlatWr_confined {i} (hs : s.tt.Confined) :
    Out.Confined (execPlatWr i s) := issueX_confined (fun _ _ => platWrAct_confined) hs

theorem execNearRd_confined {i} (hs : s.tt.Confined) :
    Out.Confined (execNearRd i s) := issueX_confined (fun _ _ => nearRdAct_confined) hs

theorem execNearWr_confined {i} (hs : s.tt.Confined) :
    Out.Confined (execNearWr i s) := issueX_confined (fun _ _ => nearWrAct_confined) hs

theorem execFarRd_confined {i} (hs : s.tt.Confined) :
    Out.Confined (execFarRd i s) := issueX_confined (fun _ _ => farRdAct_confined) hs

theorem execFarWr_confined {i} (hs : s.tt.Confined) :
    Out.Confined (execFarWr i s) := issueX_confined (fun _ _ => farWrAct_confined) hs

/-! ## Sheet -/

theorem writePlace_confined {r off bs} (hs : s.tt.Confined) : (writePlace r off bs s).tt.Confined := by
  unfold writePlace
  split
  · exact hs
  · exact State.modPress_confined hs

theorem State.modDeskSheet_confined {f} (hs : s.tt.Confined) : (s.modDeskSheet f).tt.Confined := ite_confined hs hs
theorem tallyWrite_confined {w l} (hs : s.tt.Confined) : (tallyWrite w l s).tt.Confined := nearPut_confined hs

/-! ## Sampler -/

theorem fillBerth_confined {r} (hs : s.tt.Confined) : (fillBerth r s).tt.Confined := by
  unfold fillBerth
  split
  · exact hs
  · split
    · exact hs
    · extract_lets
      split
      · exact writePlace_confined (State.modDeskSheet_confined hs)
      · exact State.modDeskSheet_confined hs

theorem smpRelease_confined (hs : s.tt.Confined) :
    (smpRelease s).tt.Confined := foldl_confined (fun _ _ => fillBerth_confined) hs

theorem smpGo_confined (hs : s.tt.Confined) : (smpGo s).tt.Confined := by
  unfold smpGo
  split
  · exact hs
  · exact ite_confined hs (ite_confined (smpRelease_confined hs) hs)

theorem pullPicker_confined {n k p} (hs : s.tt.Confined) : (pullPicker n k p s).tt.Confined := by
  induction n generalizing s with
  | zero => exact hs
  | succ n ih =>
    rw [pullPicker]
    split
    · exact hs
    · refine ih (popHead_confined ?_)
      dsimp only
      exact State.modPress_confined (poolRead_confined hs)

theorem pullAll_confined {plan rows} (hs : s.tt.Confined) : (pullAll plan rows s).tt.Confined := by
  unfold pullAll
  extract_lets
  refine foldl_confined (fun _ _ ht => ?_) (ite_confined hs hs)
  split
  · split
    · exact ht
    · exact pullPicker_confined ht

theorem smpRow_confined {plan} (hs : s.tt.Confined) : (smpRow plan s).tt.Confined := hs

theorem smpRows_confined {n x} (hs : s.tt.Confined) : (smpRows n x s).tt.Confined := by
  induction n generalizing x s with
  | zero => exact hs
  | succ n ih =>
    rw [smpRows]
    refine ite_confined hs ?_
    extract_lets
    refine ite_confined (pullAll_confined hs) ?_
    split
    · refine intrude_confined ?_
      extract_lets
      dsimp only
      exact breakHit_confined (pullAll_confined hs)
    · exact ih (smpRow_confined (pullAll_confined hs))

theorem execSamplerRows_confined (hs : s.tt.Confined) : Out.Confined (execSamplerRows s) := by
  unfold execSamplerRows
  extract_lets
  refine Out.confined_next ?_
  split
  · exact ite_confined (smpGo_confined hs) (smpRows_confined (ite_confined (smpGo_confined hs) (smpGo_confined hs)))
  · exact smpGo_confined hs

theorem smpMark_confined {v due} (hs : s.tt.Confined) : (smpMark v due s).tt.Confined := smpGo_confined hs

theorem execSamplerDueMark_confined (hs : s.tt.Confined) : Out.Confined (execSamplerDueMark s) := by
  unfold execSamplerDueMark
  extract_lets
  refine Out.confined_next ?_
  split
  · refine ite_confined ?_ (smpGo_confined hs)
    extract_lets
    split
    · exact ite_confined (raiseHold_confined (smpMark_confined (smpGo_confined hs))) (smpMark_confined (smpGo_confined hs))
    · exact smpMark_confined (smpGo_confined hs)
  · exact smpGo_confined hs

theorem execSamplerDepartMark_confined (hs : s.tt.Confined) : Out.Confined (execSamplerDepartMark s) := by
  unfold execSamplerDepartMark
  extract_lets
  refine Out.confined_next ?_
  split
  · exact ite_confined (smpGo_confined hs) (smpMark_confined (smpGo_confined hs))
  · exact smpGo_confined hs

theorem execSamplerLoop_confined (hs : s.tt.Confined) : Out.Confined (execSamplerLoop s) := by
  unfold execSamplerLoop
  extract_lets
  refine Out.confined_next ?_
  split <;> exact smpGo_confined hs

theorem execSamplerEnd_confined (hs : s.tt.Confined) : Out.Confined (execSamplerEnd s) := by
  unfold execSamplerEnd
  extract_lets
  refine Out.confined_next ?_
  split <;> exact smpGo_confined hs

/-! ## Pool -/

theorem allocRes_confined {w k size align} (hs : s.tt.Confined) : (allocRes w k size align s).2.tt.Confined := by
  unfold allocRes
  split <;> exact hs

theorem allocInput_confined {w a size} (hs : s.tt.Confined) : (allocInput w a size s).tt.Confined := hs
theorem freeAt_confined {a} (hs : s.tt.Confined) : (freeAt a s).tt.Confined := hs

theorem ensureScore_confined {w pages} (hs : s.tt.Confined) : (ensureScore w pages s).tt.Confined := by
  unfold ensureScore
  split
  · exact nearZero_confined (allocRes_confined hs)
  · extract_lets
    exact ite_confined hs (foldl_confined (fun _ _ => nearPut_confined) (nearZero_confined (allocRes_confined hs)))

theorem freePages_confined {w} (hs : s.tt.Confined) : (freePages w s).tt.Confined := hs

theorem ensureRoot_confined {w} (hs : s.tt.Confined) : (ensureRoot w s).tt.Confined :=
  ite_confined (nearZero_confined (allocRes_confined hs)) hs

theorem ensureBlock_confined {w layer page} (hs : s.tt.Confined) : (ensureBlock w layer page s).tt.Confined := by
  unfold ensureBlock
  extract_lets
  refine ite_confined hs ?_
  exact ite_confined (allocRes_confined hs) (ite_confined (nearPut_confined
    (nearPut_confined (nearZero_confined (allocRes_confined hs))))
    (nearPut_confined (nearPut_confined (nearZero_confined (allocRes_confined hs)))))

theorem ensureFrame_confined {w layer page} (hs : s.tt.Confined) : (ensureFrame w layer page s).tt.Confined := by
  unfold ensureFrame
  refine ite_confined hs ?_
  split
  next t _ u e =>
    have hu : u.tt.Confined := snd_confined e (allocRes_confined hs)
    split
    · exact nearPut_confined hu
    · exact hu

theorem ensureHead_confined {w layer page} (hs : s.tt.Confined) : (ensureHead w layer page s).tt.Confined := by
  unfold ensureHead
  refine ite_confined hs ?_
  split
  next t _ u e =>
    have hu : u.tt.Confined := snd_confined e (allocRes_confined hs)
    split
    · exact nearPut_confined hu
    · exact hu

theorem setDirFlag_confined {w layer page mask} (hs : s.tt.Confined) : (setDirFlag w layer page mask s).tt.Confined := by
  unfold setDirFlag
  split
  · exact nearPut_confined hs
  · exact hs

theorem overPages_confined {layers first n f} (hf : ∀ i j s, s.tt.Confined → (f i j s).tt.Confined) (hs : s.tt.Confined) :
    (overPages layers first n f s).tt.Confined :=
  foldl_confined (fun _ _ ht => foldl_confined (fun _ _ hu => hf _ _ _ hu) ht) hs

theorem slotPut_confined {slot a bs} (hs : s.tt.Confined) : (slotPut slot a bs s).tt.Confined := by
  unfold slotPut
  split
  · exact State.modPress_confined hs
  · exact hs

theorem writeLists_confined {m v rows} (hs : s.tt.Confined) : (writeLists m v rows s).tt.Confined :=
  foldl_confined (fun _ _ ht => slotPut_confined (slotPut_confined ht)) hs

theorem writeWindows_confined {m v sheet} (hs : s.tt.Confined) : (writeWindows m v sheet s).tt.Confined :=
  foldl_confined (fun _ _ => slotPut_confined) hs

theorem writeLogLanes_confined {m v step} (hs : s.tt.Confined) : (writeLogLanes m v step s).tt.Confined :=
  ite_confined hs (foldl_confined (fun _ _ => slotPut_confined) hs)

theorem writeLiveryList_confined {p sheet} (hs : s.tt.Confined) :
    (writeLiveryList p sheet s).tt.Confined := writePlace_confined hs

/-! ## Boot -/

theorem putImageSlot_confined {b img} (hs : s.tt.Confined) : (putImageSlot b img s).tt.Confined := nearPut_confined hs

theorem writeRecord_confined {b} (hs : s.tt.Confined) :
    (writeRecord b s).tt.Confined := nearPut_confined (State.draw_confined hs)

theorem beginHandover_confined (hs : s.tt.Confined) :
    (beginHandover s).tt.Confined := foldl_confined (fun _ _ => writeRecord_confined) hs

/-! ## Edition -/

theorem postAtEdition_confined (hs : s.tt.Confined) :
    (postAtEdition s).tt.Confined := foldl_confined (fun _ _ => post_confined) hs

theorem showTable_confined (hs : s.tt.Confined) : (showTable s).tt.Confined := hs
theorem showEntry_confined {i} (hs : s.tt.Confined) : (showEntry i s).tt.Confined := hs
theorem reportTerminus_confined (hs : s.tt.Confined) : (reportTerminus s).tt.Confined := hs

theorem writeEdition_confined (hs : s.tt.Confined) : (writeEdition s).tt.Confined := by
  unfold writeEdition
  extract_lets _ _ _ s1
  have h1 : s1.tt.Confined := ite_confined (sharedWrite_confined (sharedWrite_confined (sharedWrite_confined hs))) hs
  exact postAtEdition_confined (sharedMirror_confined h1)

/-! ## Command -/

theorem cmdBegin_confined {d} (hs : s.tt.Confined) : (cmdBegin d s).tt.Confined := (cmdBegin_posted _ _).confined hs

theorem command_confined {d used run} (hrun : ∀ s, s.tt.Confined → (run s).tt.Confined) (hs : s.tt.Confined) :
    (command d used run s).tt.Confined :=
  ite_confined (hrun _ (cmdBegin_confined hs)) (finish_confined (cmdBegin_confined hs))

theorem commandBlk_confined {d used blk run} (hrun : ∀ s, s.tt.Confined → (run s).tt.Confined) (hs : s.tt.Confined) :
    (commandBlk d used blk run s).tt.Confined :=
  command_confined (fun _ h => ite_confined (finish_confined h) (ite_confined (finish_confined h) (hrun _ h))) hs

theorem commandReply_confined {d used kib run} (hrun : ∀ s, s.tt.Confined → (run s).tt.Confined) (hs : s.tt.Confined) :
    (commandReply d used kib run s).tt.Confined :=
  command_confined (fun _ h => ite_confined (hrun _ h) (finish_confined h)) hs

theorem issueReads_confined {n} (hs : s.tt.Confined) : (issueReads n s).tt.Confined := by
  induction n generalizing s with
  | zero => exact hs
  | succ n ih =>
    rw [issueReads]
    refine ite_confined hs ?_
    split
    · exact hs
    · exact ih (kclSend_confined hs)

theorem romReads_confined {addr n} (hs : s.tt.Confined) :
    (romReads addr n s).tt.Confined := ite_confined hs (issueReads_confined hs)

theorem endRomReads_confined (hs : s.tt.Confined) : (endRomReads s).tt.Confined := hs
theorem showPresent_confined {d} (hs : s.tt.Confined) : (showPresent d s).tt.Confined := ite_confined hs hs

theorem formeRefuse_confined {d status reason} (hs : s.tt.Confined) : (formeRefuse d status reason s).tt.Confined :=
  finishReason_confined (showPresent_confined hs)

theorem formeDone_confined {d result} (hs : s.tt.Confined) :
    (formeDone d result s).tt.Confined := finish_confined (showPresent_confined hs)

theorem pageChange_confined {old new} (hnew : new.tt.Confined) : (pageChange old new).tt.Confined :=
  ite_confined hnew (writeEdition_confined hnew)

theorem formeQueued_confined {d} (hs : s.tt.Confined) : (formeQueued d s).tt.Confined := queued_confined hs

theorem readFailed_confined {d} (hs : s.tt.Confined) : (readFailed d s).tt.Confined :=
  ite_confined (formeRefuse_confined hs) (finish_confined hs)

theorem dropTensors_confined {l} (hs : s.tt.Confined) : (dropTensors l s).tt.Confined := hs

theorem readsFailed_confined {d was} (hs : s.tt.Confined) : (readsFailed d was s).tt.Confined :=
  readFailed_confined (dropTensors_confined hs)

/-! ## Sequencer -/

theorem dropLine_confined {a} (hs : s.tt.Confined) : (dropLine a s).tt.Confined := hs
theorem shareLine_confined {a} (hs : s.tt.Confined) : (shareLine a s).tt.Confined := hs

theorem spoilLine_confined {a} (hs : s.tt.Confined) : (spoilLine s a).tt.Confined := by
  have hfold : ∀ (l : List Nat) (acc : List Byte × State), acc.2.tt.Confined →
      (l.foldl (fun acc _ => let (v, s) := acc.2.draw; (acc.1 ++ leBytes 8 v.toNat, s)) acc).2.tt.Confined := by
    intro l
    induction l with
    | nil => exact fun _ => id
    | cons _ l ih => exact fun acc h => ih _ (State.draw_confined h)
  exact hfold (List.range 8) ([], s) hs

theorem spoilLines_confined {a n} (hs : s.tt.Confined) :
    (spoilLines a n s).tt.Confined := foldl_confined (fun _ _ => spoilLine_confined) hs

theorem serveHost_confined {h r} (hs : s.tt.Confined) : (serveHost h r s).tt.Confined := by
  unfold serveHost
  extract_lets _ c
  have hc : ∀ a w, (c a w s).tt.Confined := fun _ _ => State.modChan_confined hs
  clear_value c
  split
  · exact ite_confined (respond_confined (hc _ _)) (respond_confined (hc _ _))
  · exact ite_confined (respond_confined (hc _ _)) (respond_confined (hc _ _))
  · exact respond_confined (hc _ _)
  · exact ite_confined (respond_confined (hc _ _)) (respond_confined (spoilLines_confined (hc _ _)))
  · extract_lets s1
    have h1 : s1.tt.Confined := dropLine_confined (hc _ _)
    exact ite_confined (respond_confined h1) (respond_confined h1)
  · exact hs
  · extract_lets s1 s2
    have h1 : s1.tt.Confined := hc _ _
    have h2 : s2.tt.Confined := ite_confined (dropLine_confined h1) (shareLine_confined h1)
    exact ite_confined h2 h2

theorem serveBox_confined {c b r} (hs : s.tt.Confined) : (serveBox c b r s).tt.Confined := by
  unfold serveBox
  extract_lets s1
  have h1 : s1.tt.Confined := State.modChan_confined hs
  split
  · split
    · exact h1
    · exact h1
  · exact h1

theorem serveLate_confined {c w r} (hs : s.tt.Confined) : (serveLate c w r s).tt.Confined := by
  unfold serveLate
  refine ite_confined (State.modChan_confined hs) ?_
  dsimp only
  exact State.modChan_confined hs

theorem serveShared_confined {c r t} (hs : s.tt.Confined) (h : serveShared c r s = some t) : t.tt.Confined := by
  unfold serveShared at h
  split at h
  · split at h
    · cases h
    · extract_lets s1 at h
      have h1 : s1.tt.Confined := hs
      obtain rfl := Option.some.inj h
      exact ite_confined h1 h1
  · cases h

theorem seqGo_confined {c} (hs : s.tt.Confined) : (seqGo c s).tt.Confined := State.modChan_confined hs
theorem seqPass_confined {c} (hs : s.tt.Confined) : (seqPass c s).tt.Confined := State.modChan_confined hs

theorem seqEntry_confined {c r a data perform acc} (hs : s.tt.Confined) : (seqEntry c r a data perform acc s).tt.Confined := by
  unfold seqEntry
  refine ite_confined hs ?_
  extract_lets _ _ s1
  have h1 : s1.tt.Confined := ite_confined (stepFault_confined (State.modChan_confined hs)) (State.modChan_confined hs)
  exact ite_confined (ite_confined h1 h1) h1

theorem seqEntries_confined {c r l l4 l5} (hs : s.tt.Confined) : (seqEntries c r l l4 l5 s).tt.Confined := by
  induction l generalizing l4 l5 s with
  | nil => exact hs
  | cons x l ih =>
    rw [seqEntries]
    exact ih (seqEntry_confined hs)

theorem execSeqSlotPress_confined {c res} (hs : s.tt.Confined) : Out.Confined (execSeqSlotPress c res s) := by
  unfold execSeqSlotPress
  extract_lets
  split
  · refine Out.ite_confined ?_ (Out.confined_next (seqGo_confined hs))
    split
    · exact Out.confined_next (seqPass_confined (seqEntries_confined (State.modChan_confined (seqGo_confined hs))))
    · exact Out.confined_next (State.modChan_confined (seqGo_confined hs))
  · exact Out.confined_next (seqGo_confined hs)

theorem execPortionArrival_confined {c slot} (hs : s.tt.Confined) : Out.Confined (execPortionArrival c slot s) := by
  refine Out.confined_next ?_
  split
  · exact State.modChan_confined hs
  · exact hs

theorem execSeqMark_confined {c} (hs : s.tt.Confined) : Out.Confined (execSeqMark c s) := by
  unfold execSeqMark
  extract_lets
  split
  · exact Out.confined_next (seqGo_confined (State.modChan_confined (seqGo_confined hs)))
  · exact Out.confined_next (seqGo_confined hs)

theorem execSeqLoop_confined {c} (hs : s.tt.Confined) : Out.Confined (execSeqLoop c s) := by
  unfold execSeqLoop
  extract_lets
  split
  · exact Out.confined_next (State.modChan_confined (seqGo_confined hs))
  · exact Out.confined_next (seqGo_confined hs)

theorem execSeqEnd_confined {c} (hs : s.tt.Confined) : Out.Confined (execSeqEnd c s) := by
  unfold execSeqEnd
  extract_lets
  split
  · exact Out.confined_next (State.modChan_confined (seqGo_confined hs))
  · exact Out.confined_next (seqGo_confined hs)

theorem farGo_confined {f} (hs : s.tt.Confined) : (farGo f s).tt.Confined := State.modFar_confined hs

theorem farEntry_confined {f r a data perform acc} (hs : s.tt.Confined) : (farEntry f r a data perform acc s).tt.Confined := by
  unfold farEntry
  refine ite_confined hs ?_
  extract_lets _ s1
  have h1 : s1.tt.Confined := ite_confined (stepFault_confined (State.modFar_confined hs)) (State.modFar_confined hs)
  refine ite_confined ?_ h1
  split
  · exact ite_confined h1 h1
  · exact h1

theorem farEntries_confined {f r l l4 l5} (hs : s.tt.Confined) : (farEntries f r l l4 l5 s).tt.Confined := by
  induction l generalizing l4 l5 s with
  | nil => exact hs
  | cons x l ih =>
    rw [farEntries]
    exact ih (farEntry_confined hs)

theorem farBox_confined {f b acc} (hs : s.tt.Confined) : (farBox f b acc s).tt.Confined := by
  unfold farBox
  extract_lets
  exact ite_confined (stepFault_confined (State.modFar_confined hs)) (farWrite_confined (State.modFar_confined hs))

theorem farPass_confined {f} (hs : s.tt.Confined) : (farPass f s).tt.Confined := State.modFar_confined hs

theorem execFarStreamMark_confined {f} (hs : s.tt.Confined) : Out.Confined (execFarStreamMark f s) := by
  unfold execFarStreamMark
  extract_lets
  split
  · exact Out.confined_next (farGo_confined (State.modFar_confined (farGo_confined hs)))
  · exact Out.confined_next (farGo_confined hs)

theorem execFarStreamLoop_confined {f} (hs : s.tt.Confined) : Out.Confined (execFarStreamLoop f s) := by
  unfold execFarStreamLoop
  extract_lets
  split
  · exact Out.confined_next (State.modFar_confined (farGo_confined hs))
  · exact Out.confined_next (farGo_confined hs)

theorem execFarStreamEnd_confined {f} (hs : s.tt.Confined) : Out.Confined (execFarStreamEnd f s) := by
  unfold execFarStreamEnd
  extract_lets
  split
  · exact Out.confined_next (State.modFar_confined (farGo_confined hs))
  · exact Out.confined_next (farGo_confined hs)

theorem farDown_confined {f} (hs : s.tt.Confined) : (farDown f s).tt.Confined := postEvent_confined (State.modFar_confined hs)

theorem execCxlCompletionTimeout_confined {f} (hs : s.tt.Confined) : Out.Confined (execCxlCompletionTimeout f s) :=
  Out.confined_next (farDown_confined hs)

theorem execCxlLinkDown_confined {f} (hs : s.tt.Confined) : Out.Confined (execCxlLinkDown f s) :=
  Out.confined_next (State.modFar_confined (farDown_confined hs))

theorem execCxlWriteCompletion_confined {f} (hs : s.tt.Confined) : Out.Confined (execCxlWriteCompletion f s) :=
  Out.confined_next (State.modFar_confined hs)

/-! ## Berths -/

theorem queueReads_confined {kib n} (hs : s.tt.Confined) : (queueReads kib n s).tt.Confined :=
  foldl_confined (fun _ _ => State.modChan_confined) hs

theorem resendMirror_confined (hs : s.tt.Confined) : (resendMirror s).tt.Confined := by
  unfold resendMirror
  refine foldl_confined (fun _ _ ht => ?_) hs
  exact queueReads_confined ht

theorem queueMirror_confined {m} (hs : s.tt.Confined) :
    (queueMirror m s).tt.Confined := ite_confined hs (queueReads_confined hs)

theorem sendFetch_confined {x} (hs : s.tt.Confined) : (sendFetch x s).tt.Confined := by
  unfold sendFetch
  split
  · exact sendService_confined hs
  · exact hs

theorem takeSerial_confined {gid} (hs : s.tt.Confined) : (takeSerial gid s).tt.Confined := hs

theorem sendFwMessage_confined {m} (hs : s.tt.Confined) : (sendFwMessage m s).tt.Confined := by
  unfold sendFwMessage
  split
  · exact hs
  · exact sendControl_confined hs

theorem beginFetches_confined {l} (hs : s.tt.Confined) :
    (beginFetches l s).tt.Confined := foldl_confined (fun _ _ => sendFetch_confined) hs

theorem beginMoves_confined {j l} (hs : s.tt.Confined) : (beginMoves j l s).tt.Confined := hs

theorem moveNear_confined {c m r} (hs : s.tt.Confined) : (moveNear c m r s).tt.Confined := by
  unfold moveNear
  dsimp only
  split
  · exact hs
  · exact ite_confined hs hs

theorem moveFar_confined {f m r} (hs : s.tt.Confined) : (moveFar f m r s).tt.Confined := by
  unfold moveFar
  extract_lets _ _ s1
  have h1 : s1.tt.Confined := ite_confined (stepFault_confined (State.modFar_confined hs)) (State.modFar_confined hs)
  exact ite_confined (ite_confined h1 (farWrite_confined h1)) h1

theorem moveAll_confined {l} (hs : s.tt.Confined) :
    (moveAll l s).tt.Confined := foldl_confined (fun _ _ => farWrite_confined) hs

theorem startStable_confined {w len} (hs : s.tt.Confined) : (startStable w len s).tt.Confined := by
  unfold startStable
  refine ite_confined hs ?_
  extract_lets
  split
  · exact beginMoves_confined hs
  · exact freePages_confined hs

theorem stabled_confined {w k} (hs : s.tt.Confined) : (stabled w k s).tt.Confined := freePages_confined hs

theorem execStablingCopyComplete_confined {w} (hs : s.tt.Confined) : Out.Confined (execStablingCopyComplete w s) := by
  unfold execStablingCopyComplete
  extract_lets
  refine Out.confined_next ?_
  split
  · exact hs
  · exact ite_confined (stabled_confined hs) hs

theorem stablingCopy_confined {w} (hs : s.tt.Confined) : (stablingCopy w s).tt.Confined := by
  unfold stablingCopy
  split
  · exact hs
  · exact ite_confined hs (stabled_confined (moveAll_confined (beginMoves_confined hs)))

theorem execRestoreCopyComplete_confined {w} (hs : s.tt.Confined) : Out.Confined (execRestoreCopyComplete w s) := by
  unfold execRestoreCopyComplete
  extract_lets
  refine Out.confined_next ?_
  split
  · exact hs
  · refine ite_confined hs ?_
    extract_lets s1
    have h1 : s1.tt.Confined := overPages_confined (fun _ _ _ h => ite_confined (setDirFlag_confined h) h) hs
    exact ite_confined (h1.congr rfl rfl rfl) h1

theorem reachLength_confined {w l} (hs : s.tt.Confined) : (reachLength w l s).tt.Confined := by
  unfold reachLength
  split
  · exact hs
  · exact overPages_confined (fun _ _ _ h => queueMirror_confined (setDirFlag_confined h)) hs

theorem mirrorRelease_confined {i} (hs : s.tt.Confined) : (mirrorRelease i s).tt.Confined := by
  unfold mirrorRelease
  split
  · exact hs
  · exact sendService_confined hs

theorem reportNoRoom_confined {n b} (hs : s.tt.Confined) : (reportNoRoom n b s).tt.Confined := by
  unfold reportNoRoom
  split
  · exact writePlace_confined hs
  · exact hs

theorem processRelease_confined {n b} (hs : s.tt.Confined) : (processRelease n b s).tt.Confined := by
  unfold processRelease
  refine ite_confined (ite_confined (freePages_confined hs) (mirrorRelease_confined (freePages_confined hs)))
    (ite_confined ?_ hs)
  extract_lets _ _ _ _ s1
  have h1 : s1.tt.Confined := startStable_confined (reachLength_confined hs)
  exact ite_confined h1 (ite_confined (reportNoRoom_confined h1) h1)

theorem processLength_confined {b} (hs : s.tt.Confined) :
    (processLength b s).tt.Confined := ite_confined hs (reachLength_confined hs)

theorem processAlloc_confined {v b} (hs : s.tt.Confined) : (processAlloc v b s).tt.Confined := by
  unfold processAlloc
  extract_lets _ s1 _ _ _ _ _ _ copied s2 s3
  clear_value copied
  have h1 : s1.tt.Confined := ensureRoot_confined hs
  have h2 : s2.tt.Confined := by
    apply foldl_confined _ h1
    intro t _ ht
    extract_lets t1 t2 t3
    have ht1 : t1.tt.Confined := foldl_confined (fun _ _ => ensureBlock_confined) ht
    have ht2 : t2.tt.Confined := foldl_confined (fun _ _ => ensureFrame_confined) ht1
    have ht3 : t3.tt.Confined := foldl_confined (fun _ _ => ensureHead_confined) ht2
    split
    · exact ite_confined (foldl_confined (fun _ _ => ensureHead_confined) ht3) ht3
    · exact ht3
  have h3 : s3.tt.Confined := ite_confined (ensureScore_confined h2) h2
  refine ite_confined (ite_confined h3 ?_) h3
  split
  · exact ite_confined h3 (beginMoves_confined h3)
  · exact h3

theorem stageLivery_confined {slot k} (hs : s.tt.Confined) : (stageLivery slot k s).tt.Confined := beginMoves_confined hs
theorem unstage_confined {named step} (hs : s.tt.Confined) : (unstage named step s).tt.Confined := hs

theorem processLivery_confined {p stages b} (hs : s.tt.Confined) : (processLivery p stages b s).tt.Confined := by
  unfold processLivery
  refine ite_confined hs ?_
  split
  · exact hs
  · refine ite_confined hs ?_
    split
    · exact hs
    · exact stageLivery_confined hs

theorem fetchLogged_confined {v rows} (hs : s.tt.Confined) : (fetchLogged v rows s).tt.Confined := beginFetches_confined hs

theorem processSheet_confined {sheet release} (hs : s.tt.Confined) : (processSheet sheet release s).tt.Confined := by
  unfold processSheet
  split
  · exact hs
  · extract_lets _ s1 s2 s3 s4 _ s5 s6 s7
    have h1 : s1.tt.Confined := foldl_confined (fun _ _ => processRelease_confined) hs
    have h2 : s2.tt.Confined := foldl_confined (fun _ _ => processLength_confined) h1
    have h3 : s3.tt.Confined := foldl_confined (fun _ _ => processAlloc_confined) h2
    have h4 : s4.tt.Confined := by
      unfold s4
      split
      · exact foldl_confined (fun _ _ => processLivery_confined) h3
      · exact h3
    have h5 : s5.tt.Confined := writeWindows_confined (writeLists_confined h4)
    have h6 : s6.tt.Confined := by
      unfold s6
      split
      · exact writeLogLanes_confined h5
      · exact h5
    have h7 : s7.tt.Confined := by
      unfold s7
      split
      · exact writeLiveryList_confined h6
      · exact h6
    exact ite_confined (fetchLogged_confined h7) h7

theorem commitHeads_confined (hs : s.tt.Confined) : (commitHeads s).tt.Confined := by
  unfold commitHeads
  refine foldl_confined (fun t b ht => ?_) hs
  extract_lets _ s1
  have h1 : s1.tt.Confined := by
    unfold s1
    split
    · exact ht
    · exact ht
  exact overPages_confined (fun _ _ _ hu => queueMirror_confined (setDirFlag_confined hu)) h1

theorem reportRebuilt_confined {n} (hs : s.tt.Confined) : (reportRebuilt n s).tt.Confined := by
  unfold reportRebuilt
  extract_lets
  refine ite_confined hs ?_
  split
  · exact hs
  · exact sendFwMessage_confined (takeSerial_confined hs)

theorem settleRebuild_confined {n} (hs : s.tt.Confined) : (settleRebuild n s).tt.Confined := by
  unfold settleRebuild
  refine ite_confined hs ?_
  extract_lets
  exact ite_confined (ite_confined hs (reportRebuilt_confined hs)) (ite_confined hs (reportRebuilt_confined hs))

theorem commitRestores_confined (hs : s.tt.Confined) : (commitRestores s).tt.Confined := by
  unfold commitRestores
  split
  · exact hs
  · split
    · exact hs
    · refine settleRebuild_confined (foldl_confined (fun t b ht => ?_) hs)
      exact overPages_confined (fun _ _ _ hu => queueMirror_confined (setDirFlag_confined hu)) ht

theorem commitRankings_confined (hs : s.tt.Confined) : (commitRankings s).tt.Confined := hs

theorem commitLog_confined {step} (hs : s.tt.Confined) : (commitLog step s).tt.Confined := by
  unfold commitLog
  split
  · exact hs
  · split
    · exact hs
    · exact ite_confined hs hs

theorem execLogCopyComplete_confined (hs : s.tt.Confined) : Out.Confined (execLogCopyComplete s) :=
  Out.confined_next (ite_confined hs (hs.congr rfl rfl rfl))

theorem execRankingComplete_confined {w} (hs : s.tt.Confined) : Out.Confined (execRankingComplete w s) :=
  Out.confined_next (ite_confined (hs.congr rfl rfl rfl) hs)

theorem execStagingCopyComplete_confined {slot} (hs : s.tt.Confined) : Out.Confined (execStagingCopyComplete slot s) := by
  refine Out.confined_next ?_
  split
  · exact ite_confined hs (hs.congr rfl rfl rfl)
  · exact hs

/-! ## Publish -/

theorem outWrite_confined {ring rec} (hs : s.tt.Confined) : (outWrite ring rec s).tt.Confined := by
  unfold outWrite
  split
  · exact hs
  · exact sharedWrite_confined hs

theorem logColophon_confined {step i w recs} (hs : s.tt.Confined) : (logColophon step i w recs s).tt.Confined := by
  unfold logColophon
  split
  · exact hs
  · exact nearPut_confined hs

theorem publishAll_confined {step l} (hs : s.tt.Confined) : (publishAll step l s).tt.Confined := by
  unfold publishAll
  refine foldl_confined (fun _ _ ht => ?_) hs
  exact logColophon_confined (foldl_confined (fun _ _ => outWrite_confined) ht)

theorem writeLedger_confined {step} (hs : s.tt.Confined) : (writeLedger step s).tt.Confined := by
  unfold writeLedger
  extract_lets _ _ _ _ _ _ s1
  have h1 : s1.tt.Confined := foldl_confined (fun _ _ => nearPut_confined) hs
  exact ite_confined (foldl_confined (fun _ _ => queueMirror_confined) (nearPut_confined h1)) (nearPut_confined h1)

/-! ## Engine -/

theorem modWb_confined {i f} (hs : s.tt.Confined) : (modWb i f s).tt.Confined := hs

theorem timingChoice_confined {kind i} (hs : s.tt.Confined) : (timingChoice kind i s).tt.Confined := by
  unfold timingChoice
  extract_lets
  dsimp only
  exact modWb_confined hs

theorem countChoices_confined (hs : s.tt.Confined) : (countChoices s).tt.Confined := by
  unfold countChoices
  refine foldl_confined (fun _ _ ht => ?_) hs
  exact ht.congr rfl rfl rfl

theorem closeWb_confined {i st code} (hs : s.tt.Confined) : (closeWb i st code s).tt.Confined := by
  unfold closeWb
  extract_lets
  dsimp only
  exact modWb_confined hs

theorem fenceClosed_confined {i} (hs : s.tt.Confined) : (fenceClosed i s).tt.Confined := by
  unfold fenceClosed
  split
  · exact ite_confined (modWb_confined hs) hs
  · exact hs

theorem acceptRow_confined {r} (hs : s.tt.Confined) : (acceptRow r s).tt.Confined := by
  unfold acceptRow
  split
  · exact hs
  · split
    · exact hs
    · refine ite_confined hs (ite_confined (closeWb_confined hs) ?_)
      extract_lets
      exact ite_confined (closeWb_confined (foldl_confined (fun _ _ => queueMirror_confined) (tallyWrite_confined hs)))
        (foldl_confined (fun _ _ => queueMirror_confined) (tallyWrite_confined hs))

theorem endRestore_confined {b} (hs : s.tt.Confined) : (endRestore b s).tt.Confined := by
  unfold endRestore
  split
  · exact hs
  · exact ite_confined hs (ite_confined (modWb_confined hs) (modWb_confined hs))

theorem countSampler_confined (hs : s.tt.Confined) : (countSampler s).tt.Confined := hs
theorem dropTicket_confined {i cancelled} (hs : s.tt.Confined) : (dropTicket i cancelled s).tt.Confined := modWb_confined hs
theorem issueTicket_confined {ref i} (hs : s.tt.Confined) : (issueTicket ref i s).tt.Confined := modWb_confined hs

theorem expireWb_confined {ref i} (hs : s.tt.Confined) : (expireWb ref i s).tt.Confined := by
  unfold expireWb
  split
  · exact hs
  next w _ =>
    have hopen : (modWb i (fun w => { w with
        back := if w.state == .queued then (if w.restoring then w.back else .prefill) else w.state
        ticketEnd := none }) (timingChoice tcDeadline i s)).tt.Confined := modWb_confined (timingChoice_confined hs)
    have hclose : ∀ t, t.tt.Confined → (let u := closeWb i .expired stExpired t
        if w.expireStable && stableFits u i (pagesOf w.committed) then issueTicket ref i u else u).tt.Confined :=
      fun _ ht => ite_confined (issueTicket_confined (closeWb_confined ht)) (closeWb_confined ht)
    refine ite_confined hs ?_
    split
    iterate 3 exact hclose _ (ite_confined (modWb_confined hopen) (dropTicket_confined hopen))
    · exact closeWb_confined (dropTicket_confined (timingChoice_confined hs))
    · exact ite_confined (dropTicket_confined hs) hs
    · exact hs

theorem takeCancel_confined {i st cmd} (hs : s.tt.Confined) : (takeCancel i st cmd s).tt.Confined := by
  unfold takeCancel
  extract_lets fin
  have hfin : ∀ x t, t.tt.Confined → (fin x t).tt.Confined := by
    intro _ t ht
    unfold fin
    split
    · exact finishAtEdition_confined ht
    · exact ht
  split
  · exact hfin _ _ hs
  · split
    iterate 4 exact hfin _ _ (closeWb_confined (dropTicket_confined (timingChoice_confined hs)))
    · exact ite_confined (hfin _ _ (dropTicket_confined hs)) (hfin _ _ hs)
    · exact hfin _ _ hs

theorem takePending_confined {p} (hs : s.tt.Confined) : (takePending p s).tt.Confined := by
  unfold takePending
  split
  · exact ite_confined hs (takeCancel_confined (ite_confined (closeWb_confined (dropTicket_confined hs)) hs))
  · exact hs

theorem leaveBerth_confined {i kind} (hs : s.tt.Confined) : (leaveBerth i kind s).tt.Confined := by
  unfold leaveBerth
  split
  · exact hs
  · exact modWb_confined (ite_confined hs hs)

theorem issueTicketLater_confined {i} (hs : s.tt.Confined) : (issueTicketLater i s).tt.Confined := modWb_confined hs

theorem settleClose_confined {i} (hs : s.tt.Confined) : (settleClose i s).tt.Confined := by
  unfold settleClose
  split
  · exact hs
  · refine ite_confined hs ?_
    split
    · exact ite_confined (modWb_confined (leaveBerth_confined hs)) hs
    · refine leaveBerth_confined ?_
      extract_lets
      dsimp only
      exact modWb_confined hs

theorem applyStable_confined {p ref i} (hs : s.tt.Confined) : (applyStable p ref i s).tt.Confined := by
  unfold applyStable
  extract_lets fin
  have hfin : ∀ x t, t.tt.Confined → (fin x t).tt.Confined := by
    intro _ t ht
    unfold fin
    split
    · exact finishAtEdition_confined ht
    · exact finishAtEdition_confined ht
    · exact ht
  split
  · exact hfin _ _ hs
  · exact ite_confined (hfin _ _ (modWb_confined hs)) (ite_confined hs
      (ite_confined (hfin _ _ (modWb_confined hs)) (hfin _ _ (leaveBerth_confined (modWb_confined (issueTicket_confined hs))))))

theorem mirrorStore_confined {i kib} (hs : s.tt.Confined) : (mirrorStore i kib s).tt.Confined :=
  foldl_confined (fun _ _ => queueMirror_confined) hs

theorem applyAppend_confined {p i store kib n} (hs : s.tt.Confined) : (applyAppend p i store kib n s).tt.Confined := by
  unfold applyAppend
  extract_lets fin
  have hfin : ∀ x t, t.tt.Confined → (fin x t).tt.Confined := by
    intro _ t ht
    unfold fin
    split
    · exact finishAtEdition_confined ht
    · exact finishAtEdition_confined ht
    · exact ht
  split
  · exact ite_confined (hfin _ _ (freeAt_confined hs)) (ite_confined (hfin _ _ (freeAt_confined hs))
      (hfin _ _ (mirrorStore_confined (modWb_confined (freeAt_confined (nearPut_confined hs))))))
  · exact hfin _ _ (freeAt_confined hs)

theorem applyResume_confined {p ticket deadline priority} (hs : s.tt.Confined) :
    (applyResume p ticket deadline priority s).tt.Confined := by
  unfold applyResume
  extract_lets _ fin _ s1
  have hfin : ∀ x y t, t.tt.Confined → (fin x y t).tt.Confined := by
    intro _ _ t ht
    unfold fin
    split
    · exact finishAtEdition_confined ht
    · exact ht
  have h1 : s1.tt.Confined := by
    unfold s1
    split
    · exact ite_confined hs hs
    · exact hs
  split
  · exact hfin _ _ _ hs
  · refine ite_confined (hfin _ _ _ (modWb_confined h1)) ?_
    split
    · exact ite_confined (hfin _ _ _ hs) (hfin _ _ _ hs)
    · exact hfin _ _ _ hs

theorem applyPending_confined {ref p} (hs : s.tt.Confined) : (applyPending ref p s).tt.Confined := by
  unfold applyPending
  split
  · extract_lets
    split
    · exact finishAtEdition_confined (mirrorStore_confined hs)
    · exact mirrorStore_confined hs
  · exact applyAppend_confined hs
  · exact hs
  · exact applyStable_confined hs
  · exact applyResume_confined hs
  · extract_lets
    split
    · exact finishAtEdition_confined hs
    · exact hs

theorem freeWb_confined {i} (hs : s.tt.Confined) : (freeWb i s).tt.Confined := by
  unfold freeWb
  split
  · exact hs
  · exact mirrorRelease_confined (freeAt_confined hs)

theorem freeClosed_confined (hs : s.tt.Confined) : (freeClosed s).tt.Confined := foldl_confined (fun _ _ => freeWb_confined) hs
theorem engineHandles_confined (hs : s.tt.Confined) : (engineHandles s).tt.Confined := hs

theorem unstageIdle_confined {step} (hs : s.tt.Confined) : (unstageIdle step s).tt.Confined :=
  ite_confined (unstage_confined hs) (unstage_confined hs)

theorem fenceCandidate_confined {i} (hs : s.tt.Confined) : (fenceCandidate i s).tt.Confined :=
  leaveBerth_confined (closeWb_confined (dropTicket_confined hs))

theorem visit_confined {v m step acc x} (hacc : acc.2.tt.Confined) : (visit v m step acc x).2.tt.Confined := by
  obtain ⟨a, s⟩ := acc
  obtain ⟨round, i⟩ := x
  unfold visit
  dsimp only
  split
  · exact hacc
  · refine ite_snd_confined hacc (ite_snd_confined hacc (ite_snd_confined hacc
      (ite_snd_confined (fenceCandidate_confined hacc) ?_)))
    refine ite_snd_confined hacc (modWb_confined ?_)
    split
    · exact stageLivery_confined hacc
    · exact hacc

theorem admitGo_confined {v x l} (hs : s.tt.Confined) : (admitGo v x l s).2.2.tt.Confined := by
  induction l generalizing x s with
  | nil => exact hs
  | cons x l ih =>
    rw [admitGo]
    split
    · exact hs
    · split
      · split
        next t _ u e =>
          have hu : u.tt.Confined := snd_confined e (visit_confined hs)
          exact ih hu
      · split
        · exact hs
        · split
          next t _ u e =>
            have hu : u.tt.Confined := snd_confined e (visit_confined (engineHandles_confined hs))
            exact ih hu

theorem admitEnd_confined {a} (hs : s.tt.Confined) : (admitEnd a s).2.tt.Confined := by
  unfold admitEnd
  extract_lets s1
  have h1 : s1.tt.Confined := by
    unfold s1
    refine foldl_confined (fun _ _ ht => ?_) hs
    split
    · exact ite_confined (timingChoice_confined ht) ht
    · exact ht
  exact h1

theorem buildSheet_confined {v m placed} (hs : s.tt.Confined) : (buildSheet v m placed s).2.2.tt.Confined :=
  foldl_confined (fun _ _ => modWb_confined) hs

theorem sendAgain_confined (hs : s.tt.Confined) : (sendAgain s).tt.Confined := hs
theorem noteDirectories_confined (hs : s.tt.Confined) : (noteDirectories s).tt.Confined := hs

theorem deskSheets_confined {v m placed} (hs : s.tt.Confined) : (deskSheets v m placed s).tt.Confined := by
  unfold deskSheets
  extract_lets put
  have hput : ∀ x y t, t.tt.Confined → (put x y t).tt.Confined := by
    intro _ _ t ht
    unfold put
    split
    · exact writePlace_confined ht
    · exact ht
  exact ite_confined (noteDirectories_confined (processSheet_confined (hput _ _ _ (buildSheet_confined hs))))
    (noteDirectories_confined (hput _ _ _ (buildSheet_confined (processSheet_confined hs))))

theorem liveriesValid_confined (hs : s.tt.Confined) : (liveriesValid s).tt.Confined := hs

theorem deskApply_confined (hs : s.tt.Confined) :
    (deskApply s).tt.Confined := foldl_confined (fun _ _ => settleClose_confined) hs

theorem deskWalk_confined {step ref} (hs : s.tt.Confined) : (deskWalk step ref s).tt.Confined := by
  unfold deskWalk
  split
  · exact hs
  · exact unstageIdle_confined (liveriesValid_confined hs)

theorem deskSettle_confined {v w} (hs : s.tt.Confined) : (deskSettle v w s).tt.Confined :=
  countChoices_confined (freeClosed_confined (deskSheets_confined (admitEnd_confined hs)))

theorem stageApply_confined {step} (hs : s.tt.Confined) : (stageApply step s).tt.Confined := by
  unfold stageApply
  split
  · exact hs
  · exact processSheet_confined (unstageIdle_confined (liveriesValid_confined hs))

theorem deskBegin_confined {ref} (hs : s.tt.Confined) : (deskBegin ref s).tt.Confined := hs

theorem handleRow_confined {k b} (hs : s.tt.Confined) : (handleRow k b s).tt.Confined := by
  unfold handleRow
  refine ite_confined hs (ite_confined (endRestore_confined hs) ?_)
  split
  · exact acceptRow_confined hs
  · exact hs

theorem closeNoRoom_confined {i ticket} (hs : s.tt.Confined) : (closeNoRoom i ticket s).tt.Confined := by
  unfold closeNoRoom
  split
  · exact hs
  · exact ite_confined hs (ite_confined (dropTicket_confined hs) (closeWb_confined (dropTicket_confined hs)))

theorem loseWb_confined {i} (hs : s.tt.Confined) : (loseWb i s).tt.Confined := by
  unfold loseWb
  split
  · exact ite_confined hs (closeWb_confined (modWb_confined hs))
  · exact hs

theorem EngWork.run_confined {ref x} (hs : s.tt.Confined) : (EngWork.run ref x s).tt.Confined := by
  unfold EngWork.run
  split
  · exact fenceClosed_confined (closeNoRoom_confined hs)
  · exact fenceClosed_confined (loseWb_confined hs)
  · exact fenceClosed_confined (expireWb_confined hs)
  · exact takePending_confined hs
  · exact applyPending_confined hs

theorem worksGo_confined {ref l} (hs : s.tt.Confined) : (worksGo ref l s).2.tt.Confined := by
  induction l generalizing s with
  | nil => exact hs
  | cons x l ih =>
    unfold worksGo
    split
    · refine ih ?_
      split
      · exact EngWork.run_confined hs
      all_goals exact hs
    · split
      · exact hs
      · exact ih (EngWork.run_confined (engineHandles_confined hs))

theorem deskCloses_confined (hs : s.tt.Confined) :
    (deskCloses s).tt.Confined := foldl_confined (fun _ _ => fenceClosed_confined) hs

theorem pendingWorks_confined (hs : s.tt.Confined) : (pendingWorks s).tt.Confined := hs

/-! ## Blocks -/

theorem streamTick_confined (hs : s.tt.Confined) : (streamTick s).tt.Confined := hs
theorem tellState_confined {p} (hs : s.tt.Confined) : (tellState p s).tt.Confined := State.modPort_confined hs

/-! ## Link -/

theorem rxTake_confined {p f} (hs : s.tt.Confined) : (rxTake p f s).tt.Confined := by
  unfold rxTake
  split
  · exact State.modPort_confined hs
  · exact hs

theorem viaSent_confined {o} (hs : s.tt.Confined) : (viaSent o s).tt.Confined := by
  unfold viaSent
  split
  · exact hs
  · split
    · exact hs
    · refine ite_confined ?_ (rxTake_confined hs)
      split
      · exact State.modPort_confined hs
      · exact hs

theorem castGo_confined (hs : s.tt.Confined) : (castGo s).tt.Confined := by
  unfold castGo
  split
  · exact hs
  · exact ite_confined hs (ite_confined (formeRefuse_confined (dropTensors_confined hs)) (formeDone_confined hs))

theorem castDropped_confined {gone} (hs : s.tt.Confined) : (castDropped gone s).tt.Confined := ite_confined hs hs
theorem keepT1_confined {k o} (hs : s.tt.Confined) : (keepT1 k o s).tt.Confined := hs

theorem startFabric_confined {k cls o q} (hs : s.tt.Confined) : (startFabric k cls o q s).tt.Confined := by
  unfold startFabric
  extract_lets
  exact viaSent_confined (ite_confined (keepT1_confined (State.modPort_confined hs)) (State.modPort_confined hs))

theorem execFrameStart_confined {p} (hs : s.tt.Confined) : Out.Confined (execFrameStart p s) := by
  unfold execFrameStart
  extract_lets
  refine Out.confined_next (ite_confined hs (ite_confined (State.modPort_confined hs) ?_))
  split
  · split
    · extract_lets
      dsimp only
      exact State.modPort_confined hs
    · exact hs
  · split
    · exact castGo_confined (startFabric_confined hs)
    · exact hs

theorem dropBuffers_confined {p} (hs : s.tt.Confined) : (dropBuffers p s).tt.Confined := State.modPort_confined hs

theorem linkCmdEnd_confined {p} (hs : s.tt.Confined) : (linkCmdEnd p s).tt.Confined :=
  foldl_confined (fun _ _ => finish_confined) (State.modPort_confined hs)

theorem kclFail_confined (hs : s.tt.Confined) : (kclFail s).tt.Confined :=
  kclPump_confined (foldl_confined (fun _ _ => readsFailed_confined) hs)

theorem pickUpstream_confined (hs : s.tt.Confined) : (pickUpstream s).tt.Confined :=
  ite_confined hs (ite_confined hs (ite_confined hs (ite_confined hs hs)))

theorem noticeAll_confined (hs : s.tt.Confined) : (noticeAll s).tt.Confined :=
  ite_confined hs (foldl_confined (fun _ _ ht => ite_confined (sendTime_confined ht) ht) hs)

theorem noticeChange_confined {before after} (hafter : after.tt.Confined) : (noticeChange before after).tt.Confined :=
  ite_confined (noticeAll_confined hafter) hafter

theorem portDownWith_confined {fault p} (hs : s.tt.Confined) : (portDownWith fault p s).tt.Confined := by
  unfold portDownWith
  extract_lets _ _ _ _ s1 s2 s3
  have h1 : s1.tt.Confined := State.modPort_confined (dropBuffers_confined hs)
  have h2 : s2.tt.Confined := foldl_confined (fun _ _ => viaSent_confined) h1
  have h3 : s3.tt.Confined := ite_confined (ite_confined (kclFail_confined h2) h2)
    (ite_confined (postEvent_confined (ite_confined (stepFault_confined h2) h2)) h2)
  exact noticeChange_confined (pickUpstream_confined (linkCmdEnd_confined (castGo_confined (castDropped_confined h3))))

theorem portDown_confined {p} (hs : s.tt.Confined) : (portDown p s).tt.Confined := portDownWith_confined hs

theorem beginInit_confined {p f} (hs : s.tt.Confined) :
    (beginInit p f s).tt.Confined := tellState_confined (State.modPort_confined hs)

theorem beginTraining_confined {p} (hs : s.tt.Confined) : (beginTraining p s).tt.Confined :=
  ite_confined hs (ite_confined (State.modPort_confined hs) (State.modPort_confined hs))

theorem waitingTries_confined (hs : s.tt.Confined) : (waitingTries s).tt.Confined :=
  foldl_confined (fun _ _ ht => ite_confined (beginTraining_confined ht) ht) hs

theorem stopTraining_confined (hs : s.tt.Confined) : (stopTraining s).tt.Confined := hs

theorem execTrainingRetry_confined {p} (hs : s.tt.Confined) : Out.Confined (execTrainingRetry p s) :=
  Out.confined_next (beginTraining_confined hs)

theorem execLaneTrainingComplete_confined {p r} (hs : s.tt.Confined) : Out.Confined (execLaneTrainingComplete p r s) := by
  unfold execLaneTrainingComplete
  extract_lets
  refine Out.confined_next ?_
  refine ite_confined hs (ite_confined (ite_confined (beginInit_confined hs) (portDown_confined (State.modPort_confined hs)))
    ?_)
  split
  · exact portDown_confined (State.modPort_confined hs)
  · exact ite_confined (portDown_confined (State.modPort_confined hs)) (beginInit_confined hs)

theorem receiveBlock_confined {p want blk act} (hact : ∀ s, s.tt.Confined → (act s).tt.Confined) (hs : s.tt.Confined) :
    (receiveBlock p want blk act s).tt.Confined := by
  unfold receiveBlock
  extract_lets
  refine ite_confined hs (ite_confined (State.modPort_confined (State.modPort_confined hs)) ?_)
  exact ite_confined (hact _ (State.modPort_confined (State.modPort_confined hs))) (State.modPort_confined hs)

theorem execLinkBlock_confined {p blk} (hs : s.tt.Confined) : Out.Confined (execLinkBlock p blk s) :=
  Out.confined_next (receiveBlock_confined (fun _ => State.modPort_confined) hs)

theorem retrainHold_confined {p} (hs : s.tt.Confined) : (retrainHold p s).tt.Confined := by
  unfold retrainHold
  split
  · exact ite_confined (intrude_confined hs) hs
  · exact hs

theorem startRetrain_confined {p t} (hs : s.tt.Confined) : (startRetrain p t s).tt.Confined := by
  unfold startRetrain
  extract_lets
  split
  · exact retrainHold_confined (tellState_confined (State.modPort_confined hs))
  iterate 3 exact State.modPort_confined hs
  · exact hs

theorem becomeActive_confined {p} (hs : s.tt.Confined) : (becomeActive p s).tt.Confined := by
  unfold becomeActive
  extract_lets
  split
  · exact startRetrain_confined (State.modPort_confined (State.modPort_confined hs))
  · exact linkCmdEnd_confined (State.modPort_confined hs)

theorem sendNotice_confined {p notice} (hs : s.tt.Confined) : (sendNotice p notice s).tt.Confined := sendCtrl_confined hs

theorem portReady_confined {p} (hs : s.tt.Confined) : (portReady p s).tt.Confined := by
  unfold portReady
  extract_lets _ s1
  have h1 : s1.tt.Confined := becomeActive_confined (State.modPort_confined hs)
  exact ite_confined (ite_confined (postEvent_confined h1) h1) (ite_confined h1 (sendNotice_confined h1))

theorem execInitBlock_confined {p blk} (hs : s.tt.Confined) : Out.Confined (execInitBlock p blk s) := by
  unfold execInitBlock
  extract_lets
  exact Out.confined_next (ite_confined (receiveBlock_confined (fun _ h => portReady_confined (State.modPort_confined h)) hs)
    (receiveBlock_confined (fun _ h => ite_confined (beginInit_confined (dropBuffers_confined h))
    (stepFault_confined (beginInit_confined (dropBuffers_confined h)))) hs))

theorem answerPause_confined {p t} (hs : s.tt.Confined) : (answerPause p t s).tt.Confined :=
  retrainHold_confined (tellState_confined (State.modPort_confined hs))

theorem execPause_confined {p blk} (hs : s.tt.Confined) : Out.Confined (execPause p blk s) := by
  unfold execPause
  extract_lets
  refine Out.confined_next (receiveBlock_confined (fun _ h => ?_) hs)
  split
  · exact retrainHold_confined (State.modPort_confined h)
  · exact answerPause_confined h
  · exact retrainHold_confined (startRetrain_confined h)
  · exact startRetrain_confined h

theorem execPaused_confined {p blk} (hs : s.tt.Confined) : Out.Confined (execPaused p blk s) :=
  Out.confined_next (receiveBlock_confined (fun _ => State.modPort_confined) hs)

theorem execResume_confined {p blk} (hs : s.tt.Confined) : Out.Confined (execResume p blk s) := by
  unfold execResume
  extract_lets
  exact Out.confined_next (receiveBlock_confined (fun _ h => ite_confined (becomeActive_confined (State.modPort_confined h)) h)
    hs)

theorem retrained_confined {p} (hs : s.tt.Confined) : (retrained p s).tt.Confined :=
  ite_confined (beginInit_confined hs) (tellState_confined (State.modPort_confined hs))

theorem execRetrainComplete_confined {p r} (hs : s.tt.Confined) : Out.Confined (execRetrainComplete p r s) := by
  unfold execRetrainComplete
  extract_lets
  refine Out.confined_next ?_
  refine ite_confined hs (ite_confined (ite_confined (retrained_confined hs) (portDown_confined (State.modPort_confined hs)))
    ?_)
  split
  · exact portDown_confined (State.modPort_confined hs)
  · exact retrained_confined (State.modPort_confined (State.draw_confined hs))

theorem execRetrainTimeout_confined {p} (hs : s.tt.Confined) : Out.Confined (execRetrainTimeout p s) :=
  Out.confined_next (ite_confined (portDown_confined hs) hs)

theorem execMarginBelowFloor_confined {p lane code} (hs : s.tt.Confined) : Out.Confined (execMarginBelowFloor p lane code s) :=
  Out.confined_next (State.modPort_confined hs)

theorem execLossOfLock_confined {p} (hs : s.tt.Confined) :
    Out.Confined (execLossOfLock p s) := Out.confined_next (startRetrain_confined hs)

theorem execUncorrectableBurst_confined {p count} (hs : s.tt.Confined) : Out.Confined (execUncorrectableBurst p count s) := by
  unfold execUncorrectableBurst
  extract_lets
  exact Out.confined_next (ite_confined (startRetrain_confined (State.modPort_confined hs)) (State.modPort_confined hs))

theorem execLinkTerminusRetrain_confined {p} (hs : s.tt.Confined) : Out.Confined (execLinkTerminusRetrain p s) := by
  unfold execLinkTerminusRetrain
  extract_lets
  refine Out.confined_next ?_
  split
  · exact hs
  · extract_lets start
    have hstart : ∀ t, t.tt.Confined → (start t).tt.Confined := by
      intro t ht
      unfold start
      exact startRetrain_confined (State.modPort_confined ht)
    exact ite_confined hs (ite_confined (ite_confined (hstart _ hs) hs)
      (ite_confined (hstart _ hs) (ite_confined (hstart _ hs) (State.modPort_confined hs))))

theorem execAckTimerExpiry_confined {p} (hs : s.tt.Confined) : Out.Confined (execAckTimerExpiry p s) := by
  unfold execAckTimerExpiry
  extract_lets
  exact Out.confined_next (ite_confined hs (ite_confined (startRetrain_confined
    (State.modPort_confined (State.modPort_confined hs))) (State.modPort_confined hs)))

theorem acceptPacket_confined {p cls pkt} (hs : s.tt.Confined) : (acceptPacket p cls pkt s).tt.Confined := by
  unfold acceptPacket
  extract_lets
  split
  · refine ite_confined (State.modPort_confined hs) ?_
    exact ite_confined (kclSend_confined (rxTake_confined (State.modPort_confined hs)))
      (rxTake_confined (State.modPort_confined hs))
  · exact ite_confined (rxTake_confined (State.modPort_confined (State.modPort_confined hs))) (State.modPort_confined hs)

theorem execFrameReceived_confined {p f} (hs : s.tt.Confined) : Out.Confined (execFrameReceived p f s) := by
  refine Out.confined_next (ite_confined hs ?_)
  have hcount : (s.modPort p.val (fecCount f)).tt.Confined := State.modPort_confined hs
  refine ite_confined hcount (ite_confined (State.modPort_confined hcount) (ite_confined ?_ ?_))
  · exact ite_confined (acceptPacket_confined hcount) (portDown_confined (State.modPort_confined hcount))
  · refine ite_confined (State.modPort_confined hcount) ?_
    exact ite_confined (State.modPort_confined hcount) (State.modPort_confined hcount)

/-! ## Despatch -/

theorem despGo_confined {p} (hs : s.tt.Confined) : (despGo p s).tt.Confined := State.modPort_confined hs

theorem execPointsSlot_confined {p} (hs : s.tt.Confined) : Out.Confined (execPointsSlot p s) := by
  unfold execPointsSlot
  extract_lets
  refine Out.confined_next ?_
  split
  · refine ite_confined (despGo_confined hs) ?_
    extract_lets
    exact ite_confined (State.modPort_confined (State.modPort_confined (despGo_confined hs)))
      (State.modPort_confined (despGo_confined hs))
  · exact despGo_confined hs

theorem execPacketRelease_confined {p} (hs : s.tt.Confined) : Out.Confined (execPacketRelease p s) := by
  unfold execPacketRelease
  extract_lets
  refine Out.confined_next (ite_confined hs ?_)
  split
  · exact ite_confined (State.modPort_confined hs) (State.modPort_confined hs)
  · exact ite_confined (stepFault_confined (viaSent_confined (State.modPort_confined hs)))
      (ite_confined (State.modPort_confined hs) (State.modPort_confined hs))

theorem execPointsMark_confined {p} (hs : s.tt.Confined) : Out.Confined (execPointsMark p s) := by
  unfold execPointsMark
  extract_lets
  split
  · exact Out.confined_next (despGo_confined (State.modPort_confined (despGo_confined hs)))
  · exact Out.confined_next (despGo_confined hs)

theorem execPointsLoop_confined {p} (hs : s.tt.Confined) : Out.Confined (execPointsLoop p s) := by
  unfold execPointsLoop
  extract_lets
  split
  · exact Out.confined_next (State.modPort_confined (despGo_confined hs))
  · exact Out.confined_next (despGo_confined hs)

theorem execPointsEnd_confined {p} (hs : s.tt.Confined) : Out.Confined (execPointsEnd p s) := by
  unfold execPointsEnd
  extract_lets
  split
  · exact Out.confined_next (State.modPort_confined (despGo_confined hs))
  · exact Out.confined_next (despGo_confined hs)

theorem ensureRx_confined {p cls pkt} (hs : s.tt.Confined) : (ensureRx p cls pkt s).tt.Confined :=
  ite_confined hs (State.modPort_confined hs)

theorem fabricDiscard_confined {p pkt fault count} (hs : s.tt.Confined) : (fabricDiscard p pkt fault count s).tt.Confined := by
  unfold fabricDiscard
  extract_lets
  exact ite_confined (stepFault_confined (State.modPort_confined (rxTake_confined hs)))
    (State.modPort_confined (rxTake_confined hs))

theorem deliverPlan_confined {p pkt} (hs : s.tt.Confined) : (deliverPlan p pkt s).tt.Confined := by
  unfold deliverPlan
  split
  · exact hs
  · split <;> exact hs

theorem planFinal_confined {p pkt} (hs : s.tt.Confined) : (planFinal p pkt s).tt.Confined := by
  unfold planFinal
  split
  · exact fabricDiscard_confined hs
  · exact fabricDiscard_confined hs
  · exact rxTake_confined (deliverPlan_confined hs)
  · exact State.modPort_confined hs

theorem planForward_confined {p out pkt} (hs : s.tt.Confined) : (planForward p out pkt s).tt.Confined := by
  unfold planForward
  extract_lets _ del s1
  clear_value del
  have h1 : s1.tt.Confined := by
    unfold s1
    split
    · exact deliverPlan_confined hs
    · exact ite_confined (stepFault_confined (State.modPort_confined hs)) hs
    · exact ite_confined (State.modPort_confined hs) hs
    · exact hs
  clear_value s1
  split
  · exact sendPlan_confined (State.modPort_confined h1)
  · exact h1

theorem execPlanPacket_confined {p pkt} (hs : s.tt.Confined) : Out.Confined (execPlanPacket p pkt s) := by
  unfold execPlanPacket
  extract_lets _ s1
  have h1 : s1.tt.Confined := ensureRx_confined hs
  have hdiscard {k pkt fault count} : (fabricDiscard k pkt fault count s1).tt.Confined := fabricDiscard_confined h1
  refine Out.confined_next (ite_confined hdiscard (ite_confined hdiscard (ite_confined (planFinal_confined h1) ?_)))
  exact ite_confined hdiscard (ite_confined hdiscard (ite_confined hdiscard (planForward_confined h1)))

theorem deliverOne_confined {p r} (hs : s.tt.Confined) : (deliverOne p r s).tt.Confined := by
  unfold deliverOne
  extract_lets
  refine ite_confined ?_ (rxTake_confined (deliverPlan_confined hs))
  split
  · exact State.modPort_confined (deliverPlan_confined hs)
  · exact deliverPlan_confined hs

theorem deliverEach_confined {p l l3} (hs : s.tt.Confined) : (deliverEach p l l3 s).tt.Confined := by
  induction l generalizing l3 s with
  | nil => exact hs
  | cons x l ih =>
    rw [deliverEach]
    exact ite_confined (ih (deliverOne_confined hs)) (ih hs)

theorem deliverPort_confined {p} (hs : s.tt.Confined) :
    (deliverPort p s).tt.Confined := ite_confined (deliverEach_confined hs) hs

theorem deliverHeld_confined (hs : s.tt.Confined) :
    (deliverHeld s).tt.Confined := foldl_confined (fun _ _ => deliverPort_confined) hs

theorem execControlPacketForward_confined {p pkt} (hs : s.tt.Confined) : Out.Confined (execControlPacketForward p pkt s) := by
  unfold execControlPacketForward
  extract_lets _ _ s1 _ _ _ _ _ s2
  have h1 : s1.tt.Confined := ensureRx_confined hs
  have h2 : s2.tt.Confined := ite_confined (State.modPort_confined h1) h1
  have hdiscard {k pkt fault count} : (fabricDiscard k pkt fault count s1).tt.Confined := fabricDiscard_confined h1
  refine Out.confined_next (ite_confined hdiscard (ite_confined hdiscard (ite_confined hdiscard (ite_confined ?_ ?_))))
  · exact ite_confined hdiscard (ite_confined hdiscard h1)
  · refine ite_confined hdiscard (ite_confined hdiscard (ite_confined (State.modPort_confined (State.modPort_confined h2)) ?_))
    refine ite_confined (State.modPort_confined (fabricDiscard_confined h2)) ?_
    split
    · extract_lets
      exact ite_confined (sendTime_confined (State.modPort_confined h2)) (sendCtrl_confined (State.modPort_confined h2))
    · exact h2

theorem rxDeliver_confined {p f} (hs : s.tt.Confined) : (rxDeliver p f s).tt.Confined := by
  unfold rxDeliver
  extract_lets
  split
  · exact hs
  · refine ite_confined ?_ (rxTake_confined hs)
    split
    · exact State.modPort_confined hs
    · exact hs

theorem controlTake_confined {p type body} (hs : s.tt.Confined) :
    (controlTake p type body s).tt.Confined := rxDeliver_confined hs

theorem controlTakeAny_confined {type body} (hs : s.tt.Confined) : (controlTakeAny type body s).tt.Confined :=
  foldl_confined (fun _ _ => controlTake_confined) hs

theorem serviceTake_confined {payload} (hs : s.tt.Confined) : (serviceTake payload s).tt.Confined :=
  foldl_confined (fun _ _ => rxDeliver_confined) hs

theorem kclTake_confined {msg tag} (hs : s.tt.Confined) : (kclTake msg tag s).tt.Confined := rxTake_confined hs

theorem behindWrites_confined {off w run} (hrun : ∀ s, s.tt.Confined → (run s).tt.Confined) (hs : s.tt.Confined) :
    (behindWrites off w run s).tt.Confined := by
  unfold behindWrites
  refine ite_confined hs ?_
  extract_lets
  exact ite_confined (respond_confined (kclTake_confined hs))
    (ite_confined (kclTake_confined hs) (respond_confined (hrun _ (kclTake_confined hs))))

/-! ## FabricCmds -/

theorem linkCommand_confined {d action run} (hrun : ∀ i s, s.tt.Confined → (run i s).tt.Confined) (hs : s.tt.Confined) :
    (linkCommand d action run s).tt.Confined :=
  command_confined (fun _ h => ite_confined (finish_confined h) (hrun _ _ h)) hs

theorem linkReport_confined {d p} (hs : s.tt.Confined) : (linkReport d p s).tt.Confined := finish_confined hs

theorem execLinkStateRead_confined {d} (hs : s.tt.Confined) : Out.Confined (execLinkStateRead d s) :=
  Out.confined_next (linkCommand_confined (fun _ _ => linkReport_confined) hs)

theorem setEnable_confined {p on} (hs : s.tt.Confined) : (setEnable p on s).tt.Confined := by
  unfold setEnable
  extract_lets
  split
  · exact ite_confined (State.modPort_confined hs) (beginTraining_confined (State.modPort_confined hs))
  · exact ite_confined (State.modPort_confined (State.modPort_confined hs)) (portDown_confined (State.modPort_confined hs))

theorem execLinkStateEnable_confined {d} (hs : s.tt.Confined) : Out.Confined (execLinkStateEnable d s) :=
  Out.confined_next (linkCommand_confined (fun _ _ h => linkReport_confined (setEnable_confined h)) hs)

theorem execLinkStateDisable_confined {d} (hs : s.tt.Confined) : Out.Confined (execLinkStateDisable d s) :=
  Out.confined_next (linkCommand_confined (fun _ _ h => ite_confined (finish_confined h)
    (linkReport_confined (setEnable_confined h))) hs)

theorem execLinkRetrain_confined {d} (hs : s.tt.Confined) : Out.Confined (execLinkRetrain d s) := by
  refine Out.confined_next (command_confined (fun _ h => ite_confined (finish_confined h) ?_) hs)
  extract_lets _ _ s1
  have h1 : s1.tt.Confined := beginTraining_confined (State.modPort_confined h)
  split
  · exact ite_confined (finish_confined h) (ite_confined h1 (ite_confined (queued_confined h1) (linkCmdEnd_confined h1)))
  · exact ite_confined (startRetrain_confined (State.modPort_confined h))
      (ite_confined (finish_confined h) (queued_confined (State.modPort_confined (State.modPort_confined h))))
  · exact startRetrain_confined (State.modPort_confined h)

theorem partProgress_confined {p atCommit} (hs : s.tt.Confined) : (partProgress p atCommit s).tt.Confined := by
  unfold partProgress
  refine foldl_confined (fun _ _ ht => ?_) hs
  exact ite_confined ht (ite_confined (ite_confined (finishAtEdition_confined ht) (finish_confined ht)) ht)

theorem installKeys_confined {p atCommit} (hs : s.tt.Confined) : (installKeys p atCommit s).tt.Confined := by
  unfold installKeys
  split
  · exact hs
  · exact partProgress_confined (sendNotice_confined (State.modPort_confined hs))

theorem installUsed_confined (hs : s.tt.Confined) : (installUsed s).tt.Confined :=
  foldl_confined (fun _ _ ht => ite_confined (installKeys_confined ht) ht) hs

theorem execKeyInstall_confined {p} (hs : s.tt.Confined) : Out.Confined (execKeyInstall p s) :=
  Out.confined_next (ite_confined (installKeys_confined hs) hs)

theorem pendKeys_confined {p k} (hs : s.tt.Confined) : (pendKeys p k s).tt.Confined :=
  State.modPort_confined (foldl_confined (fun _ _ => finish_confined) hs)

theorem fenceForme_confined (hs : s.tt.Confined) : (fenceForme s).tt.Confined :=
  foldl_confined (fun _ _ ht => ite_confined (pendKeys_confined ht) ht) hs

theorem execPartitionSet_confined {d} (hs : s.tt.Confined) : Out.Confined (execPartitionSet d s) := by
  refine Out.confined_next (command_confined ?_ hs)
  intro t ht
  extract_lets _ _ _ s1
  have h1 : s1.tt.Confined := foldl_confined (fun _ _ => pendKeys_confined) (queued_confined ht)
  exact ite_confined (finish_confined ht) (ite_confined (finish_confined ht) (ite_confined (finish_confined h1) h1))

theorem execPortNotice_confined {p body} (hs : s.tt.Confined) : Out.Confined (execPortNotice p body s) := by
  unfold execPortNotice
  extract_lets _ _ _ _ s1
  have h1 : s1.tt.Confined := State.modPort_confined (controlTake_confined hs)
  exact Out.confined_next (ite_confined (controlTake_confined hs) (postEvent_confined h1))

theorem putRoute_confined {g e} (hs : s.tt.Confined) : (putRoute g e s).tt.Confined :=
  ite_confined (nearPut_confined hs) (nearPut_confined hs)

theorem reloadDie_confined (hs : s.tt.Confined) : (reloadDie s).tt.Confined := hs

theorem execRouteTableLoad_confined {d blk} (hs : s.tt.Confined) : Out.Confined (execRouteTableLoad d blk s) := by
  unfold execRouteTableLoad
  extract_lets
  exact Out.confined_next (commandBlk_confined (fun _ h => ite_confined (finish_confined h)
    (ite_confined (finish_confined h) (finish_confined (foldl_confined (fun _ _ => putRoute_confined) h)))) hs)

theorem fabricGidWrite_confined {value} (hs : s.tt.Confined) : (fabricGidWrite value s).tt.Confined := by
  unfold fabricGidWrite
  extract_lets
  exact ite_confined hs (ite_confined hs (foldl_confined (fun _ _ ht => ite_confined (sendNotice_confined ht) ht) hs))

theorem execFabricGidWrite_confined {w} (hs : s.tt.Confined) : Out.Confined (execFabricGidWrite w s) :=
  Out.confined_next (behindWrites_confined (fun _ => fabricGidWrite_confined) hs)

theorem linkConfigWrite_confined {k value} (hs : s.tt.Confined) : (linkConfigWrite k value s).tt.Confined :=
  ite_confined hs (setEnable_confined (State.modPort_confined hs))

theorem execLinkConfigWrite_confined {p w} (hs : s.tt.Confined) : Out.Confined (execLinkConfigWrite p w s) :=
  Out.confined_next (behindWrites_confined (fun _ => linkConfigWrite_confined) hs)

/-! ## Power -/

theorem pointDone_confined (hs : s.tt.Confined) : (pointDone s).tt.Confined := by
  unfold pointDone
  split
  · exact finish_confined hs
  · exact hs

theorem beginChange_confined (hs : s.tt.Confined) : (beginChange s).tt.Confined := hs

theorem execSetOperatingPoint_confined {d} (hs : s.tt.Confined) : Out.Confined (execSetOperatingPoint d s) := by
  refine Out.confined_next (command_confined ?_ hs)
  intro t ht
  extract_lets _ _ _ _ s1 _ _ s2
  have h1 : s1.tt.Confined := by
    unfold s1
    split
    · exact finish_confined ht
    · exact ht
  have h2 : s2.tt.Confined := queued_confined h1
  exact ite_confined (finish_confined ht) (ite_confined (finish_confined ht) (ite_confined (beginChange_confined h2) h2))

theorem execOperatingPointSwitch_confined (hs : s.tt.Confined) : Out.Confined (execOperatingPointSwitch s) := by
  refine Out.confined_next ?_
  split
  · exact ite_confined hs (ite_confined hs (beginChange_confined hs))
  · exact hs

theorem endChange_confined (hs : s.tt.Confined) : (endChange s).tt.Confined := by
  unfold endChange
  extract_lets
  split <;> exact hs

theorem execOperatingPointChangeEnd_confined (hs : s.tt.Confined) : Out.Confined (execOperatingPointChangeEnd s) :=
  Out.confined_next (ite_confined hs (ite_confined (endChange_confined hs)
    (ite_confined (beginChange_confined (writeEdition_confined (pointDone_confined (endChange_confined hs))))
    (writeEdition_confined (pointDone_confined (endChange_confined hs))))))

theorem switchAtLaunch_tt {launch} : (switchAtLaunch launch s).tt = s.tt := by
  unfold switchAtLaunch
  rfl

theorem switchAtLaunch_confined {launch} (hs : s.tt.Confined) : (switchAtLaunch launch s).tt.Confined := by
  rw [switchAtLaunch_tt]
  exact hs

theorem pointSwitchCount_confined {step launch} (hs : s.tt.Confined) : (pointSwitchCount step launch s).tt.Confined := by
  unfold pointSwitchCount
  split
  · exact ite_confined (switchAtLaunch_confined hs) hs
  · exact hs

theorem execPressIdle_confined {p} (hs : s.tt.Confined) : Out.Confined (execPressIdle p s) := by
  unfold execPressIdle
  extract_lets
  refine Out.confined_next (ite_confined (ite_confined hs (State.modPress_confined hs)) (ite_confined hs ?_))
  split
  · exact ite_confined hs (ite_confined (State.modPress_confined hs) (ite_confined (State.modPress_confined hs) hs))
  · exact hs

theorem execPressWake_confined {p} (hs : s.tt.Confined) : Out.Confined (execPressWake p s) := by
  unfold execPressWake
  extract_lets
  refine Out.confined_next (ite_confined hs ?_)
  split
  · exact ite_confined (State.modPress_confined hs) hs
  · exact hs

theorem startStagger_confined {occ} (hs : s.tt.Confined) : (startStagger occ s).tt.Confined := hs

theorem execDepartureGroup_confined {g} (hs : s.tt.Confined) : Out.Confined (execDepartureGroup g s) := by
  refine Out.confined_next ?_
  split
  · exact hs
  · exact ite_confined hs (foldl_confined (fun _ _ => State.modPress_confined) hs)

theorem execQuietEntry_confined (hs : s.tt.Confined) : Out.Confined (execQuietEntry s) :=
  Out.confined_next (ite_confined (startStagger_confined hs) hs)

theorem execDeepQuietEntry_confined (hs : s.tt.Confined) : Out.Confined (execDeepQuietEntry s) :=
  Out.confined_next (ite_confined (ite_confined (startStagger_confined hs) hs) hs)

theorem startWake_confined (hs : s.tt.Confined) : (startWake s).tt.Confined := ite_confined hs (startStagger_confined hs)

theorem execWake_confined (hs : s.tt.Confined) :
    Out.Confined (execWake s) := Out.confined_next (ite_confined (startWake_confined hs) hs)

theorem wakePoint_confined (hs : s.tt.Confined) : (wakePoint s).tt.Confined := by
  unfold wakePoint
  refine ite_confined hs ?_
  extract_lets s1
  have h1 : s1.tt.Confined := endChange_confined (beginChange_confined hs)
  exact ite_confined h1 (writeEdition_confined (pointDone_confined h1))

theorem execWakeComplete_confined (hs : s.tt.Confined) : Out.Confined (execWakeComplete s) :=
  Out.confined_next (ite_confined hs (kclPump_confined (wakePoint_confined hs)))

theorem powerSample_confined {watts junction} (hs : s.tt.Confined) : (powerSample watts junction s).tt.Confined := by
  unfold powerSample
  extract_lets _ _ _ _ _ _ _ _ _ _ _ s1
  have h1 : s1.tt.Confined := ite_confined (ite_confined hs hs) (ite_confined hs hs)
  exact ite_confined (ite_confined (intrude_confined h1) h1) (ite_confined h1 (ite_confined h1 (releaseHolds_confined h1)))

/-! ## Commit -/

theorem treeSend_confined {type chip body} (hs : s.tt.Confined) : (treeSend type chip body s).tt.Confined := by
  unfold treeSend
  split
  · exact sendControl_confined hs
  · exact hs

theorem passDown_confined {body} (hs : s.tt.Confined) :
    (passDown body s).tt.Confined := foldl_confined (fun _ _ => treeSend_confined) hs

theorem straggle_confined (hs : s.tt.Confined) : (straggle s).2.tt.Confined := by
  unfold straggle
  extract_lets
  split
  next t _ u e =>
    have hu : u.tt.Confined := snd_confined e (ite_snd_confined (State.draw_confined hs) hs)
    exact hu

theorem swapSides_confined (hs : s.tt.Confined) :
    (swapSides s).tt.Confined := foldl_confined (fun _ _ => State.modPress_confined) hs

theorem commitEnd_confined {stop} (hs : s.tt.Confined) : (commitEnd stop s).tt.Confined := by
  unfold commitEnd
  extract_lets _ _ _ _ s1
  have h1 : s1.tt.Confined := by
    unfold s1
    split
    · exact ite_confined (finish_confined (ite_confined (beginHandover_confined hs) hs))
        (finish_confined (ite_confined (beginHandover_confined hs) hs))
    · exact ite_confined (beginHandover_confined hs) hs
  exact ite_confined (startStagger_confined (fenceForme_confined h1)) h1

theorem finishLate_confined (hs : s.tt.Confined) : (finishLate s).tt.Confined := by
  unfold finishLate
  refine foldl_confined (fun _ _ ht => ?_) hs
  split
  · exact finishAtEdition_confined ht
  · exact ht

theorem commitRest_confined {body stop} (hs : s.tt.Confined) : (commitRest body stop s).tt.Confined := by
  unfold commitRest
  extract_lets _ _ s1
  have h1 : s1.tt.Confined := ite_confined (installUsed_confined hs) (pointSwitchCount_confined (installUsed_confined hs))
  exact commitEnd_confined (showTable_confined h1)

theorem commitAdmit_confined {body stop} (hs : s.tt.Confined) : (commitAdmit body stop s).tt.Confined := by
  unfold commitAdmit
  split
  · split
    next t _ _ u e =>
      have hu : u.tt.Confined := snd_snd_confined e (admitGo_confined hs)
      split
      · exact breakHit_confined hu
      · exact commitRest_confined (deskSettle_confined hu)
  · exact commitRest_confined hs

theorem commitApply_confined {body stop} (hs : s.tt.Confined) : (commitApply body stop s).tt.Confined := by
  unfold commitApply
  extract_lets
  split
  next t _ u e =>
    have hu : u.tt.Confined := snd_confined e (worksGo_confined hs)
    exact breakHit_confined hu
  next t u e =>
    have hu : u.tt.Confined := snd_confined e (worksGo_confined hs)
    exact ite_confined (commitAdmit_confined (deskWalk_confined hu)) (commitRest_confined (stageApply_confined hu))

theorem commitFinish_confined {body stop} (hs : s.tt.Confined) : (commitFinish body stop s).tt.Confined := by
  unfold commitFinish
  extract_lets
  split
  next r t e =>
    have ht : t.tt.Confined := snd_confined e (straggle_confined (writeLedger_confined hs))
    extract_lets _ _ s1 _ _ _ _ _ s2 s3
    have h1 : s1.tt.Confined := ht.congr rfl rfl rfl
    have h2 : s2.tt.Confined := by
      refine ite_confined ?_ h1
      split
      · exact finishAtEdition_confined h1
      · exact h1
    have h3 : s3.tt.Confined :=
      writeEdition_confined (showTable_confined (reportTerminus_confined (finishLate_confined h2)))
    refine ite_confined (commitRest_confined h3) (commitApply_confined (pendingWorks_confined ?_))
    exact ite_confined (deskApply_confined h3) h3

theorem commitPublish_confined {body stop first} (hs : s.tt.Confined) : (commitPublish body stop first s).tt.Confined :=
  ite_confined (commitFinish_confined (publishAll_confined hs)) hs

theorem handleRows_confined {l} (hs : s.tt.Confined) : (handleRows l s).2.tt.Confined := by
  induction l generalizing s with
  | nil => exact hs
  | cons x l ih =>
    rw [handleRows]
    split
    · exact hs
    · exact ih (handleRow_confined (engineHandles_confined hs))

theorem commitClose_confined {body stop} (hs : s.tt.Confined) : (commitClose body stop s).tt.Confined := by
  unfold commitClose
  split
  next t _ u e =>
    have hu : u.tt.Confined := snd_confined e (worksGo_confined hs)
    exact breakHit_confined hu
  next t u e =>
    have hu : u.tt.Confined := snd_confined e (worksGo_confined hs)
    exact commitPublish_confined hu

theorem commitAccept_confined {body stop} (hs : s.tt.Confined) : (commitAccept body stop s).tt.Confined := by
  unfold commitAccept
  split
  next t _ u e =>
    have hu : u.tt.Confined := snd_confined e (handleRows_confined hs)
    exact breakHit_confined hu
  next t u e =>
    have hu : u.tt.Confined := snd_confined e (handleRows_confined hs)
    exact ite_confined (commitClose_confined (deskCloses_confined hu)) (commitPublish_confined hu)

theorem asCommit_confined {run} (hrun : ∀ s, s.tt.Confined → (run s).tt.Confined) (hs : s.tt.Confined) :
    (asCommit run s).tt.Confined :=
  boxesGo_confined (hrun _ hs)

theorem commitActions_confined {body stop} (hs : s.tt.Confined) : (commitActions body stop s).tt.Confined := by
  unfold commitActions
  extract_lets _ _ _ _ _ s1
  have h1 : s1.tt.Confined := by
    unfold s1
    exact commitLog_confined (commitRankings_confined (commitHeads_confined
      (resendMirror_confined (commitRestores_confined (countSampler_confined (swapSides_confined (hs.congr rfl rfl rfl)))))))
  exact commitAccept_confined (ite_confined (deskBegin_confined h1) h1)

theorem commit_confined {body stop} (hs : s.tt.Confined) : (commit body stop s).tt.Confined :=
  asCommit_confined (fun _ => commitActions_confined) hs

theorem commitGoOn_confined (hs : s.tt.Confined) : (commitGoOn s).tt.Confined := by
  unfold commitGoOn
  split
  · exact ite_confined hs (asCommit_confined (fun _ => commitAccept_confined) hs)
  · exact ite_confined hs (asCommit_confined (fun _ => commitClose_confined) hs)
  · exact ite_confined hs (asCommit_confined (fun _ => commitApply_confined) hs)
  · exact ite_confined hs (asCommit_confined (fun _ => commitAdmit_confined) hs)
  · exact asCommit_confined (fun _ => commitPublish_confined) hs
  · exact hs

/-! ## Barrier -/

theorem decideAs_confined {body} (hs : s.tt.Confined) : (decideAs body s).tt.Confined := passDown_confined hs

theorem decide'_confined {r} (hs : s.tt.Confined) : (decide' r s).tt.Confined := by
  unfold decide'
  extract_lets
  split <;> exact ite_confined (decideAs_confined (hs.congr rfl rfl rfl)) (decideAs_confined (hs.congr rfl rfl rfl))

theorem tryReport_confined (hs : s.tt.Confined) : (tryReport s).tt.Confined := by
  unfold tryReport
  refine ite_confined hs ?_
  extract_lets
  split
  · exact decide'_confined hs
  · exact treeSend_confined hs

theorem tryReady_confined (hs : s.tt.Confined) : (tryReady s).tt.Confined := by
  unfold tryReady
  refine ite_confined hs ?_
  extract_lets
  split
  · exact decideAs_confined hs
  · exact treeSend_confined hs

theorem execBarrierReport_confined {child body} (hs : s.tt.Confined) : Out.Confined (execBarrierReport child body s) := by
  unfold execBarrierReport
  extract_lets s1
  have h1 : s1.tt.Confined := controlTakeAny_confined hs
  clear_value s1
  refine Out.confined_next (ite_confined h1 ?_)
  split
  · exact ite_confined (tryReady_confined h1) h1
  · exact ite_confined (tryReport_confined h1) h1

theorem stopForme_confined (hs : s.tt.Confined) : (stopForme s).tt.Confined := by
  unfold stopForme
  extract_lets _ _ _ s1 _ s2
  have h1 : s1.tt.Confined := pageChange_confined (fenceForme_confined (hs.congr rfl rfl rfl))
  have h2 : s2.tt.Confined := by
    unfold s2
    split
    · exact formeDone_confined h1
    · exact h1
  exact ite_confined (beginHandover_confined h2) h2

theorem stopAt_confined {step att fault faultChip} (hs : s.tt.Confined) : (stopAt step att fault faultChip s).tt.Confined := by
  unfold stopAt
  extract_lets _ _ _ _ _ s1
  have h1 : s1.tt.Confined := by
    unfold s1
    split
    · exact formeRefuse_confined (hs.congr rfl rfl rfl)
    · exact hs.congr rfl rfl rfl
  exact ite_confined (stopForme_confined (postEvent_confined h1)) (postEvent_confined h1)

theorem rootCause_confined (hs : s.tt.Confined) : (rootCause s).2.2.tt.Confined := by
  unfold rootCause
  split
  · exact hs
  · split
    next t _ u e =>
      have hu : u.tt.Confined := snd_confined e (State.draw_confined hs)
      exact hu

theorem performStop_confined {body} (hs : s.tt.Confined) : (performStop body s).tt.Confined :=
  stopAt_confined ((rootCause_confined hs).congr rfl rfl rfl)

theorem annTake_confined {body} (hs : s.tt.Confined) : (annTake body s).tt.Confined :=
  ite_confined hs (passDown_confined (controlTakeAny_confined hs))

theorem execAnnounceCommit_confined {body} (hs : s.tt.Confined) : Out.Confined (execAnnounceCommit body s) :=
  Out.confined_next (ite_confined (commit_confined (annTake_confined hs)) hs)

theorem execAnnounceCommitStop_confined {body} (hs : s.tt.Confined) : Out.Confined (execAnnounceCommitStop body s) :=
  Out.confined_next (ite_confined (commit_confined (annTake_confined hs)) hs)

theorem execAnnounceAbort_confined {body} (hs : s.tt.Confined) : Out.Confined (execAnnounceAbort body s) :=
  Out.confined_next (ite_confined ((annTake_confined hs).congr rfl rfl rfl) hs)

theorem stopUnstarted_confined {step att} (hs : s.tt.Confined) : (stopUnstarted step att s).tt.Confined :=
  postEvent_confined ((rootCause_confined hs).congr rfl rfl rfl)

theorem execAnnounceStop_confined {body} (hs : s.tt.Confined) : Out.Confined (execAnnounceStop body s) := by
  have htake : (annTake body s).tt.Confined := annTake_confined hs
  have hstop : (performStop body (annTake body s)).tt.Confined := performStop_confined htake
  refine Out.confined_next (ite_confined hs (ite_confined (ite_confined (stopUnstarted_confined htake) hs) ?_))
  refine ite_confined (ite_confined (performStop_confined hs) hs) (ite_confined hstop (ite_confined ?_ hs))
  exact ite_confined hstop (ite_confined (ite_confined htake hstop) hs)

theorem execAnnounceStart_confined {body} (hs : s.tt.Confined) : Out.Confined (execAnnounceStart body s) := by
  refine Out.confined_next (ite_confined (startStagger_confined ?_) hs)
  have htake : (annTake body s).tt.Confined := annTake_confined hs
  dsimp only
  split
  · exact ite_confined (switchAtLaunch_confined (htake.congr rfl rfl rfl)) (htake.congr rfl rfl rfl)
  · exact htake.congr rfl rfl rfl

theorem execStartCountReached_confined (hs : s.tt.Confined) : Out.Confined (execStartCountReached s) := by
  refine Out.confined_next ?_
  split
  · exact ite_confined hs (tryReady_confined hs)
  · exact hs

theorem execBarrierTimeout_confined (hs : s.tt.Confined) : Out.Confined (execBarrierTimeout s) := by
  unfold execBarrierTimeout
  extract_lets missing
  have hmissing : ∀ x y t, t.tt.Confined → (missing x y t).tt.Confined := by
    intro _ _ t ht
    unfold missing
    exact decideAs_confined (ht.congr rfl rfl rfl)
  refine Out.confined_next (ite_confined hs (ite_confined ?_
    (ite_confined (hmissing _ _ _ (ite_confined (hs.congr rfl rfl rfl) hs)) hs)))
  split
  · exact ite_confined hs (hmissing _ _ _ hs)
  · exact hs

theorem execAnnounceTimeout_confined (hs : s.tt.Confined) : Out.Confined (execAnnounceTimeout s) :=
  Out.confined_next (ite_confined (stopAt_confined (postEvent_confined (rootCause_confined hs))) hs)

/-! ## Clocks -/

theorem gateNear_confined {c} (hs : s.tt.Confined) : (gateNear c s).tt.Confined := by
  unfold gateNear
  extract_lets
  dsimp only
  exact State.modChan_confined hs

theorem farPin_confined {f} (hs : s.tt.Confined) : (farPin f s).tt.Confined := ite_confined (State.setPin_confined hs) hs
theorem gateFar_confined {f} (hs : s.tt.Confined) : (gateFar f s).tt.Confined := farPin_confined (State.modFar_confined hs)

theorem clkBit_confined {r v i} (hs : s.tt.Confined) : (clkBit r v s i).tt.Confined := by
  unfold clkBit
  extract_lets
  refine ite_confined hs (ite_confined hs (ite_confined (ite_confined hs (gateNear_confined hs)) ?_))
  refine ite_confined (ite_confined (beginTraining_confined hs) (portDownWith_confined hs)) ?_
  exact ite_confined (ite_confined hs (ite_confined (State.setPin_confined hs) hs))
    (ite_confined (farPin_confined hs) (gateFar_confined hs))

theorem clkenWrite_confined {r value} (hs : s.tt.Confined) : (clkenWrite r value s).tt.Confined :=
  foldl_confined (fun _ _ => clkBit_confined) hs

theorem execClkenWrite_confined {r w} (hs : s.tt.Confined) : Out.Confined (execClkenWrite r w s) :=
  Out.confined_next (behindWrites_confined (fun _ => clkenWrite_confined) hs)

theorem domainCtlWrite_confined {d value} (hs : s.tt.Confined) : (domainCtlWrite d value s).tt.Confined := ite_confined hs hs

theorem execDomainCtlWrite_confined {d w} (hs : s.tt.Confined) : Out.Confined (execDomainCtlWrite d w s) :=
  Out.confined_next (behindWrites_confined (fun _ => domainCtlWrite_confined) hs)

theorem execDomainRampStep_confined {d} (hs : s.tt.Confined) : Out.Confined (execDomainRampStep d s) := Out.confined_next hs
theorem sscCtlWrite_confined {j value} (hs : s.tt.Confined) : (sscCtlWrite j value s).tt.Confined := hs

theorem execSscCtlWrite_confined {j w} (hs : s.tt.Confined) : Out.Confined (execSscCtlWrite j w s) :=
  Out.confined_next (behindWrites_confined (fun _ => sscCtlWrite_confined) hs)

theorem sscTick_confined (hs : s.tt.Confined) : (sscTick s).tt.Confined := hs
theorem execSscDepthStep_confined {j} (hs : s.tt.Confined) : Out.Confined (execSscDepthStep j s) := Out.confined_next hs

/-! ## VectorOps -/

theorem unaryAct_confined {lane i} (hs : s.tt.Confined) : (unaryAct lane i s).Confined := runVec_confined hs
theorem binaryAct_confined {lane i} (hs : s.tt.Confined) : (binaryAct lane i s).Confined := runVec_confined hs
theorem ternaryAct_confined {lane i} (hs : s.tt.Confined) : (ternaryAct lane i s).Confined := runVec_confined hs
theorem addAct_confined {x} (hs : s.tt.Confined) : (addAct x s).Confined := binaryAct_confined hs
theorem mulAct_confined {x} (hs : s.tt.Confined) : (mulAct x s).Confined := binaryAct_confined hs
theorem fmaAct_confined {x} (hs : s.tt.Confined) : (fmaAct x s).Confined := ternaryAct_confined hs
theorem minAct_confined {x} (hs : s.tt.Confined) : (minAct x s).Confined := binaryAct_confined hs
theorem maxAct_confined {x} (hs : s.tt.Confined) : (maxAct x s).Confined := binaryAct_confined hs
theorem cmpAct_confined {i} (hs : s.tt.Confined) : (cmpAct i s).Confined := binaryAct_confined hs
theorem selectAct_confined {x} (hs : s.tt.Confined) : (selectAct x s).Confined := ternaryAct_confined hs
theorem scaleAct_confined {i} (hs : s.tt.Confined) : (scaleAct i s).Confined := binaryAct_confined hs
theorem exponentAct_confined {x} (hs : s.tt.Confined) : (exponentAct x s).Confined := unaryAct_confined hs
theorem mantissaAct_confined {x} (hs : s.tt.Confined) : (mantissaAct x s).Confined := unaryAct_confined hs
theorem rcpAct_confined {x} (hs : s.tt.Confined) : (rcpAct x s).Confined := unaryAct_confined hs
theorem rsqrtAct_confined {x} (hs : s.tt.Confined) : (rsqrtAct x s).Confined := unaryAct_confined hs
theorem cvtAct_confined {i} (hs : s.tt.Confined) : (cvtAct i s).Confined := runVec_confined hs
theorem reduceAct_confined {i} (hs : s.tt.Confined) : (reduceAct i s).Confined := runVec_confined hs

theorem accCvtLoop_confined {n x} (hs : s.tt.Confined) : (accCvtLoop n x s).Confined := by
  induction n generalizing x s with
  | zero => exact hs
  | succ n ih =>
    rw [accCvtLoop]
    split
    · exact Act.ite_confined (ih (pushBy_confined (setProg_confined hs))) hs
    · refine Act.ite_confined (foldl_confined (fun _ _ => popSrc_confined) hs) ?_
      split
      · exact waitSources_confined hs
      · refine ih (setProg_confined (State.modPress_confined (foldl_confined (fun _ _ => popSrc_confined) ?_)))
        exact readAll_confined (readBank_confined hs)

theorem accCvtAct_confined {i} (hs : s.tt.Confined) : (accCvtAct i s).Confined := accCvtLoop_confined hs

theorem issueV_confined {op run i} (hrun : ∀ i s, s.tt.Confined → (run i s).Confined) (hs : s.tt.Confined) :
    Out.Confined (issueV op run i s) :=
  Out.confined_next (issue_confined (fun _ _ h => hrun _ _ h) hs)

theorem execAdd_confined {i} (hs : s.tt.Confined) :
    Out.Confined (execAdd i s) := issueV_confined (fun _ _ => addAct_confined) hs

theorem execMul_confined {i} (hs : s.tt.Confined) :
    Out.Confined (execMul i s) := issueV_confined (fun _ _ => mulAct_confined) hs

theorem execFma_confined {i} (hs : s.tt.Confined) :
    Out.Confined (execFma i s) := issueV_confined (fun _ _ => fmaAct_confined) hs

theorem execMin_confined {i} (hs : s.tt.Confined) :
    Out.Confined (execMin i s) := issueV_confined (fun _ _ => minAct_confined) hs

theorem execMax_confined {i} (hs : s.tt.Confined) :
    Out.Confined (execMax i s) := issueV_confined (fun _ _ => maxAct_confined) hs

theorem execCmp_confined {i} (hs : s.tt.Confined) :
    Out.Confined (execCmp i s) := issueV_confined (fun _ _ => cmpAct_confined) hs

theorem execSelect_confined {i} (hs : s.tt.Confined) :
    Out.Confined (execSelect i s) := issueV_confined (fun _ _ => selectAct_confined) hs

theorem execScale_confined {i} (hs : s.tt.Confined) :
    Out.Confined (execScale i s) := issueV_confined (fun _ _ => scaleAct_confined) hs

theorem execExponent_confined {i} (hs : s.tt.Confined) : Out.Confined (execExponent i s) :=
  issueV_confined (fun _ _ => exponentAct_confined) hs

theorem execMantissa_confined {i} (hs : s.tt.Confined) : Out.Confined (execMantissa i s) :=
  issueV_confined (fun _ _ => mantissaAct_confined) hs

theorem execRcp_confined {i} (hs : s.tt.Confined) :
    Out.Confined (execRcp i s) := issueV_confined (fun _ _ => rcpAct_confined) hs

theorem execRsqrt_confined {i} (hs : s.tt.Confined) :
    Out.Confined (execRsqrt i s) := issueV_confined (fun _ _ => rsqrtAct_confined) hs

theorem execCvt_confined {i} (hs : s.tt.Confined) :
    Out.Confined (execCvt i s) := issueV_confined (fun _ _ => cvtAct_confined) hs

theorem execRsum_confined {i} (hs : s.tt.Confined) :
    Out.Confined (execRsum i s) := issueV_confined (fun _ _ => reduceAct_confined) hs

theorem execRmax_confined {i} (hs : s.tt.Confined) :
    Out.Confined (execRmax i s) := issueV_confined (fun _ _ => reduceAct_confined) hs

theorem execRmin_confined {i} (hs : s.tt.Confined) :
    Out.Confined (execRmin i s) := issueV_confined (fun _ _ => reduceAct_confined) hs

theorem execAccCvt_confined {i} (hs : s.tt.Confined) :
    Out.Confined (execAccCvt i s) := issueV_confined (fun _ _ => accCvtAct_confined) hs

/-! ## Serving -/

theorem deskCommand_confined {d run} (hrun : ∀ s, s.tt.Confined → (run s).tt.Confined) (hs : s.tt.Confined) :
    (deskCommand d run s).tt.Confined :=
  ite_confined (finish_confined hs) (ite_confined (finish_confined hs) (hrun _ hs))

theorem putDigest_confined {w} (hs : s.tt.Confined) : (putDigest w s).tt.Confined := nearPut_confined hs

theorem execWaybillOpen_confined {d blk} (hs : s.tt.Confined) : Out.Confined (execWaybillOpen d blk s) := by
  unfold execWaybillOpen
  extract_lets
  refine Out.confined_next (commandBlk_confined (fun _ h => deskCommand_confined (fun _ h' => ?_) h) hs)
  split
  · exact finish_confined h'
  · extract_lets
    refine ite_confined (finish_confined h') (ite_confined (finish_confined h') ?_)
    split
    · refine ite_confined (finish_confined h') (ite_confined (finish_confined h') ?_)
      extract_lets _ _ _ s1
      have h1 : s1.tt.Confined := nearPut_confined (nearZero_confined (allocInput_confined h'))
      exact queued_confined (putDigest_confined (nearPut_confined h1))
    · exact finish_confined h'

theorem execWaybillAppend_confined {d blk} (hs : s.tt.Confined) : Out.Confined (execWaybillAppend d blk s) := by
  unfold execWaybillAppend
  extract_lets
  refine Out.confined_next (commandBlk_confined (fun _ h => deskCommand_confined (fun _ h' => ?_) h) hs)
  split
  · split
    · refine ite_confined (finish_confined h') ?_
      extract_lets
      split
      · exact finish_confined h'
      · extract_lets _ s1
        have h1 : s1.tt.Confined := nearPut_confined (nearZero_confined (allocInput_confined h'))
        exact queued_confined (putDigest_confined (nearPut_confined h1))
  · exact finish_confined h'

theorem sendVoid_confined {body} (hs : s.tt.Confined) :
    (sendVoid body s).tt.Confined := ite_confined hs (sendControl_confined hs)

theorem markVoid_confined {i} (hs : s.tt.Confined) : (markVoid i s).tt.Confined := hs

theorem acceptCancel_confined {i w cmd} (hs : s.tt.Confined) : (acceptCancel i w cmd s).tt.Confined := by
  unfold acceptCancel
  extract_lets
  refine ite_confined ?_ hs
  exact ite_confined (markVoid_confined (modWb_confined hs)) (sendVoid_confined (markVoid_confined (modWb_confined hs)))

theorem cancelEdition_confined {i closed cmd code st} (hs : s.tt.Confined) :
    (cancelEdition i closed cmd code st s).tt.Confined := by
  unfold cancelEdition
  extract_lets _ _ s1
  have h1 : s1.tt.Confined := by
    unfold s1
    refine writeEdition_confined (showEntry_confined ?_)
    dsimp only
    exact modWb_confined hs
  split
  · exact finish_confined h1
  · exact h1

theorem cancelPublish_confined {i cmd st} (hs : s.tt.Confined) : (cancelPublish i cmd st s).tt.Confined := by
  unfold cancelPublish
  split
  · exact hs
  · exact ite_confined (cancelEdition_confined (publishAll_confined hs)) hs

theorem cancelNow_confined {i w cmd} (hs : s.tt.Confined) : (cancelNow i w cmd s).tt.Confined := by
  unfold cancelNow
  extract_lets _ _ s1
  have h1 : s1.tt.Confined := countChoices_confined (timingChoice_confined hs)
  exact ite_confined (cancelEdition_confined (dropTicket_confined (leaveBerth_confined hs)))
    (cancelPublish_confined (fenceClosed_confined (closeWb_confined (dropTicket_confined (leaveBerth_confined h1)))))

theorem cancelGoOn_confined (hs : s.tt.Confined) :
    (cancelGoOn s).tt.Confined := foldl_confined (fun _ _ => cancelPublish_confined) hs

theorem execWaybillCancel_confined {d} (hs : s.tt.Confined) : Out.Confined (execWaybillCancel d s) := by
  unfold execWaybillCancel
  extract_lets
  refine Out.confined_next (command_confined (fun _ h => ite_confined (finish_confined h) ?_) hs)
  split
  · exact finish_confined h
  · extract_lets
    exact ite_confined (finish_confined h) (ite_confined (acceptCancel_confined (queued_confined h)) (cancelNow_confined h))

theorem cancelWrite_confined {w value} (hs : s.tt.Confined) : (cancelWrite w value s).tt.Confined := by
  unfold cancelWrite
  refine ite_confined hs (foldl_confined (fun _ _ ht => ?_) hs)
  extract_lets
  split
  · exact ht
  · exact ite_confined ht (ite_confined (acceptCancel_confined ht) (cancelNow_confined ht))

theorem execCancelWrite_confined {w wr} (hs : s.tt.Confined) : Out.Confined (execCancelWrite w wr s) :=
  Out.confined_next (behindWrites_confined (fun _ => cancelWrite_confined) hs)

theorem execVoid_confined {p body} (hs : s.tt.Confined) : Out.Confined (execVoid p body s) := by
  unfold execVoid
  extract_lets
  refine Out.confined_next ?_
  split
  · exact controlTake_confined hs
  · exact ite_confined (markVoid_confined (controlTake_confined hs))
      (sendVoid_confined (markVoid_confined (controlTake_confined hs)))

theorem execWaybillStable_confined {d} (hs : s.tt.Confined) : Out.Confined (execWaybillStable d s) := by
  unfold execWaybillStable
  extract_lets
  refine Out.confined_next (command_confined (fun _ h => deskCommand_confined (fun _ h' => ?_) h) hs)
  split
  · exact ite_confined (queued_confined (modWb_confined h')) (finish_confined h')
  · exact finish_confined h'

theorem execWaybillResume_confined {d} (hs : s.tt.Confined) : Out.Confined (execWaybillResume d s) := by
  unfold execWaybillResume
  extract_lets
  refine Out.confined_next ?_
  refine command_confined (fun _ h => ite_confined (finish_confined h) (deskCommand_confined (fun _ h' => ?_) h)) hs
  split
  · exact ite_confined (finish_confined h') (ite_confined (finish_confined h') (queued_confined h'))
  · exact finish_confined h'

theorem execWaybillQuery_confined {d} (hs : s.tt.Confined) : Out.Confined (execWaybillQuery d s) := by
  unfold execWaybillQuery
  extract_lets
  exact Out.confined_next (commandReply_confined (fun _ h => ite_confined (finish_confined h) (finishReply_confined h)) hs)

theorem execLiveryLoad_confined {d blk} (hs : s.tt.Confined) : Out.Confined (execLiveryLoad d blk s) := by
  unfold execLiveryLoad
  extract_lets
  refine Out.confined_next ?_
  refine commandBlk_confined (fun _ h => ite_confined (finish_confined h)
    (ite_confined (finish_confined h) (ite_confined (finish_confined h) ?_))) hs
  extract_lets
  split
  · exact finish_confined h
  · exact ite_confined (finish_confined h) (finish_confined (farWrite_confined h))

theorem execLiveryFree_confined {d} (hs : s.tt.Confined) : Out.Confined (execLiveryFree d s) := by
  unfold execLiveryFree
  extract_lets
  exact Out.confined_next (command_confined (fun _ h => ite_confined (finish_confined h)
    (ite_confined (finish_confined h) (ite_confined (queued_confined h) (finish_confined h)))) hs)

/-! ## Concourse -/

theorem laneFreed_confined {src} (hs : s.tt.Confined) : (laneFreed src s).tt.Confined := by
  unfold laneFreed
  refine ite_confined ?_ (ite_confined (deliverPort_confined hs) hs)
  split
  · exact foutPump_confined hs
  · exact hs

theorem concTake_confined {f} (hs : s.tt.Confined) : (concTake f s).tt.Confined := by
  unfold concTake
  split
  · exact laneFreed_confined hs
  · exact hs

theorem landPlatform_confined {p l e} (hs : s.tt.Confined) : (landPlatform p l e s).tt.Confined := by
  unfold landPlatform
  split
  · exact hs
  · exact State.modPress_confined (touchLanding_confined hs)

theorem landStray_confined {p} (hs : s.tt.Confined) : (landStray p s).tt.Confined := State.modPress_confined hs

theorem landFin_confined {src e p t} (hs : s.tt.Confined) (h : landFin src e p s = some t) : t.tt.Confined := by
  unfold landFin at h
  extract_lets _ _ _ _ at h
  split at h
  · split at h
    · obtain rfl := Option.some.inj h
      exact landPump_confined (landInto_confined hs)
    · cases h
  · split at h
    · obtain rfl := Option.some.inj h
      exact State.modPress_confined hs
    · cases h

theorem execLandingArrival_confined {p source} (hs : s.tt.Confined) : Out.Confined (execLandingArrival p source s) := by
  unfold execLandingArrival
  extract_lets _ mine _ s1
  have h1 : s1.tt.Confined := landRead_confined (State.modPress_confined hs)
  refine Out.confined_next ?_
  split
  · exact hs
  · split
    · exact concTake_confined (landPlatform_confined hs)
    · split
      · exact landStray_confined (concTake_confined (State.modPress_confined hs))
      · split
        · exact stepFault_confined (landStray_confined (concTake_confined hs))
        · split
          next t e => exact concTake_confined (landFin_confined h1 e)
          next => exact laneStop_confined h1

/-! ## StreamCtl -/

theorem nopAct_confined {x} (hs : s.tt.Confined) : (nopAct x s).Confined := hs

theorem markAct_confined {i} (hs : s.tt.Confined) : (markAct i s).Confined := by
  unfold markAct
  split
  · exact State.modStream_confined hs
  · exact hs

theorem loopAct_confined {i} (hs : s.tt.Confined) : (loopAct i s).Confined := by
  unfold loopAct
  split
  · exact State.modStream_confined hs
  · exact hs

theorem endAct_confined {i} (hs : s.tt.Confined) : (endAct i s).Confined := State.modStream_confined hs

theorem execStreamNop_confined {i} (hs : s.tt.Confined) : Out.Confined (execStreamNop i s) :=
  Out.confined_next (issue_confined (fun _ _ => nopAct_confined) hs)

theorem execDepartMark_confined {i} (hs : s.tt.Confined) : Out.Confined (execDepartMark i s) :=
  Out.confined_next (streamRelease_confined (issue_confined (fun _ _ => markAct_confined) hs))

theorem dueTest_confined {p id u} (hs : s.tt.Confined) : (dueTest p id u s).tt.Confined := by
  unfold dueTest
  split
  · exact ite_confined (raiseHold_confined hs) hs
  · exact hs

theorem execDueMark_confined {i} (hs : s.tt.Confined) : Out.Confined (execDueMark i s) :=
  Out.confined_next (dueTest_confined (streamRelease_confined (issue_confined (fun _ _ => markAct_confined) hs)))

theorem execLoop_confined {i} (hs : s.tt.Confined) : Out.Confined (execLoop i s) :=
  Out.confined_next (issue_confined (fun _ _ => loopAct_confined) hs)

theorem execEndStream_confined {i} (hs : s.tt.Confined) : Out.Confined (execEndStream i s) :=
  Out.confined_next (issue_confined (fun _ _ => endAct_confined) hs)

/-- An instruction's effect leaves no hold outside launch to the end count. -/
def ActKeepsConfined (run : Issue → State → Act) : Prop := ∀ i s, s.tt.Confined → (run i s).Confined

theorem wordAct_keepsConfined {w} : ActKeepsConfined (wordAct w) := by
  unfold wordAct
  split
  · exact fun _ _ => wloadAct_confined
  · exact fun _ _ => passAct_confined
  · exact fun _ _ => waddAct_confined
  · exact fun _ _ => addAct_confined
  · exact fun _ _ => mulAct_confined
  · exact fun _ _ => fmaAct_confined
  · exact fun _ _ => minAct_confined
  · exact fun _ _ => maxAct_confined
  · exact fun _ _ => cmpAct_confined
  · exact fun _ _ => selectAct_confined
  · exact fun _ _ => scaleAct_confined
  · exact fun _ _ => exponentAct_confined
  · exact fun _ _ => mantissaAct_confined
  · exact fun _ _ => rcpAct_confined
  · exact fun _ _ => rsqrtAct_confined
  · exact fun _ _ => cvtAct_confined
  · exact fun _ _ => reduceAct_confined
  · exact fun _ _ => reduceAct_confined
  · exact fun _ _ => reduceAct_confined
  · exact fun _ _ => accCvtAct_confined
  · exact fun _ _ => loadAct_confined
  · exact fun _ _ => storeAct_confined
  · split
    · exact fun _ _ => moveWideAct_confined
    · exact fun _ _ => moveAct_confined
  · exact fun _ _ => platRdAct_confined
  · exact fun _ _ => platWrAct_confined
  · exact fun _ _ => nearRdAct_confined
  · exact fun _ _ => nearWrAct_confined
  · exact fun _ _ => farRdAct_confined
  · exact fun _ _ => farWrAct_confined
  · exact fun _ _ => nopAct_confined

theorem wordAct_confined {w i} (hs : s.tt.Confined) : (wordAct w i s).Confined := wordAct_keepsConfined i s hs

theorem retry_confined {p id row} (hs : s.tt.Confined) : (retry p id row s).tt.Confined := by
  unfold retry
  extract_lets
  split
  · exact ite_confined (settle_confined (wordAct_confined (State.modStream_confined hs))) hs
  · exact hs

theorem retrySide_confined {p row} (hs : s.tt.Confined) : (retrySide p row s).tt.Confined := by
  unfold retrySide
  extract_lets
  split
  · extract_lets i hand
    have hw : (wordAct i.word i hand).Confined := wordAct_confined (State.modStream_confined hs)
    split
    · split
      next t e =>
        have ht : t.tt.Confined := by rwa [e] at hw
        dsimp only
        split
        · exact ite_confined (stepAside_confined (State.modStream_confined ht)) (State.modStream_confined ht)
        · exact State.modStream_confined ht
      next t e =>
        have ht : t.tt.Confined := by rwa [e] at hw
        exact State.modStream_confined (noteWait_confined ht)
    · exact hs
  · exact hs

theorem retryAll_confined {p id row} (hs : s.tt.Confined) : (retryAll p id row s).tt.Confined :=
  retry_confined (ite_confined (retrySide_confined hs) hs)

theorem execQueueWaitEnd_confined {p id} (hs : s.tt.Confined) : Out.Confined (execQueueWaitEnd p id s) :=
  Out.confined_next (retryAll_confined hs)

theorem execReleaseWaitEnd_confined {p} (hs : s.tt.Confined) : Out.Confined (execReleaseWaitEnd p s) :=
  Out.confined_next (retryAll_confined hs)

/-! ## Timetable -/

theorem copySlot_confined {v part x} (hs : s.tt.Confined) : (copySlot v part s x).tt.Confined := by
  unfold copySlot
  split
  · exact State.modPress_confined (State.drawReads_confined hs)
  · exact hs

theorem execProgramCopy_confined (hs : s.tt.Confined) : Out.Confined (execProgramCopy s) := by
  refine Out.confined_next (ite_confined hs ?_)
  extract_lets _ s1
  have h1 : s1.tt.Confined := by
    unfold s1
    split
    · exact hs
    · exact foldl_confined (fun _ _ => copySlot_confined) hs
  exact h1.congr rfl rfl rfl

theorem launchUnits_confined (hs : s.tt.Confined) : (launchUnits s).tt.Confined :=
  foldl_confined (fun _ _ => State.modPress_confined) (State.modPresses_confined hs)

theorem countWaits_confined (hs : s.tt.Confined) : (countWaits s).tt.Confined := hs.congr rfl rfl rfl

theorem startDone_confined (hs : s.tt.Confined) : (startDone s).tt.Confined := by
  unfold startDone
  split
  · exact formeDone_confined hs
  · exact hs

theorem pointLaunched_confined (hs : s.tt.Confined) : (pointLaunched s).tt.Confined := by
  unfold pointLaunched
  split
  · exact ite_confined hs (pointDone_confined hs)
  · exact hs

/-- Launch begins the step with no hold. -/
theorem execLaunch_confined (hs : s.tt.Confined) : Out.Confined (execLaunch s) := by
  refine Out.confined_next ?_
  split
  · exact hs
  · refine ite_confined hs ?_
    extract_lets _ _ _ _ _ _ _ _ _ s1
    have h1 : s1.tt.Confined := launchUnits_confined (stopTraining_confined (Tt.confined_of_nil rfl))
    exact pointLaunched_confined (startDone_confined (deliverHeld_confined h1))

theorem unitGo_confined {u} (hs : s.tt.Confined) : (unitGo u s).tt.Confined := by
  unfold unitGo
  split
  · exact streamRelease_confined hs
  · exact seqGo_confined hs
  · exact farGo_confined hs
  · exact despGo_confined hs
  · exact smpGo_confined hs
  · exact hs

theorem skipAbsent_confined {u} (hs : s.tt.Confined) : (skipAbsent u s).tt.Confined := by
  unfold skipAbsent
  split
  · exact ite_confined (State.modPort_confined hs) hs
  · exact hs

theorem execReadinessTest_confined {u} (hs : s.tt.Confined) : Out.Confined (execReadinessTest u s) := by
  unfold execReadinessTest
  extract_lets
  split
  · extract_lets _ _ s1
    have h1 : s1.tt.Confined := raiseHold_confined (skipAbsent_confined (unitGo_confined hs))
    refine Out.confined_next (ite_confined (skipAbsent_confined (unitGo_confined hs))
      (ite_confined (skipAbsent_confined (unitGo_confined hs)) ?_))
    split
    next _ _ t _ _ =>
      exact State.modPort_confined h1
    · exact h1

theorem execHoldRelease_confined {u c} (hs : s.tt.Confined) : Out.Confined (execHoldRelease u c s) :=
  Out.confined_next (releaseHolds_confined (skipAbsent_confined hs))

/-- A resume drops holds that stand, so none stays none. -/
theorem dropHolds_confined {p} (hs : s.tt.Confined) : Tt.Confined { s.tt with holds := s.tt.holds.filter p } :=
  fun h => by simp only [hs h, List.filter_nil]

theorem execHoldResume_confined {u c} (hs : s.tt.Confined) : Out.Confined (execHoldResume u c s) := by
  unfold execHoldResume
  extract_lets _ _ _ s1
  have h1 : s1.tt.Confined := dropHolds_confined hs
  refine Out.confined_next ?_
  split
  · exact State.modPort_confined h1
  · exact unitGo_confined h1

theorem execFirmwareServiceIntrusion_confined {b} (hs : s.tt.Confined) : Out.Confined (execFirmwareServiceIntrusion b s) :=
  Out.confined_next (ite_confined hs (intrude_confined hs))

/-- The end count begins the drain with no hold. -/
theorem execEndCountReached_confined (hs : s.tt.Confined) : Out.Confined (execEndCountReached s) :=
  Out.confined_next (ite_confined (smpRelease_confined (Tt.confined_of_nil rfl)) hs)

theorem discardStray_confined {note} (hs : s.tt.Confined) : (discardStray note s).tt.Confined :=
  foldl_confined (fun _ _ ht => ite_confined (State.modPort_confined
    (foldl_confined (fun _ _ => viaSent_confined) (State.modPort_confined ht)))
    (stepFault_confined (State.modPort_confined (foldl_confined (fun _ _ => viaSent_confined) (State.modPort_confined ht))))) hs

/-- The end of the drain ends the step with no hold. -/
theorem drained_confined (hs : s.tt.Confined) : (drained s).tt.Confined := by
  unfold drained
  extract_lets _ _ s1 _ _ _ _ _ s2
  have h1 : s1.tt.Confined := foldl_confined (fun _ _ => State.modPress_confined) (State.modPresses_confined hs)
  have h2 : s2.tt.Confined := waitingTries_confined (Tt.confined_of_nil rfl)
  split
  · exact ite_confined h2 (performStop_confined h2)
  · exact tryReport_confined h2

theorem execDrainComplete_confined (hs : s.tt.Confined) : Out.Confined (execDrainComplete s) :=
  Out.confined_next (ite_confined (drained_confined (discardStray_confined hs)) hs)

theorem execDrainLimitExpiry_confined (hs : s.tt.Confined) : Out.Confined (execDrainLimitExpiry s) := by
  refine Out.confined_next ?_
  split
  · refine ite_confined hs ?_
    extract_lets _ _ s1
    have h1 : s1.tt.Confined := foldl_confined (fun _ _ => State.modPress_confined) (stepFault_confined hs)
    exact drained_confined (discardStray_confined h1)
  · exact hs

theorem feedZeros_confined {p w} (hs : s.tt.Confined) : (feedZeros p w s).tt.Confined :=
  foldl_confined (fun _ _ ht => ite_confined (State.modPress_confined ht) ht) hs

theorem abandonSide_confined {p} (hs : s.tt.Confined) : (abandonSide p s).tt.Confined := by
  unfold abandonSide
  split
  · exact hs
  · exact State.modPress_confined (retrySide_confined (feedZeros_confined hs))

theorem abandonStream_confined {p id} (hs : s.tt.Confined) : (abandonStream p id s).tt.Confined := by
  unfold abandonStream
  extract_lets
  split
  · exact ite_confined (abandonSide_confined hs) hs
  · extract_lets s1
    have h1 : s1.tt.Confined := retry_confined (feedZeros_confined (ite_confined (abandonSide_confined hs) hs))
    exact ite_confined (retire_confined h1) h1

theorem zeroReads_confined {source r} (hs : s.tt.Confined) : (zeroReads source r s).tt.Confined := ite_confined hs hs

theorem abandon_confined {u} (hs : s.tt.Confined) : (abandon u s).tt.Confined := by
  unfold abandon
  split
  · exact abandonStream_confined hs
  · extract_lets s1
    have h1 : s1.tt.Confined := by
      unfold s1
      split
      · exact zeroReads_confined (State.modChan_confined hs)
      · exact hs
    exact seqPass_confined h1
  · extract_lets s1
    have h1 : s1.tt.Confined := by
      unfold s1
      split
      · exact zeroReads_confined (State.modFar_confined hs)
      · exact hs
    exact farPass_confined h1
  · exact State.modPort_confined hs
  · exact hs
  · exact hs

theorem execPlanWatchdogExpiry_confined {u} (hs : s.tt.Confined) : Out.Confined (execPlanWatchdogExpiry u s) := by
  refine Out.confined_next ?_
  split
  · exact hs
  · extract_lets
    refine ite_confined hs ?_
    exact ite_confined (ite_confined (releaseHolds_confined (skipAbsent_confined (stepFault_confined hs))) hs)
      (ite_confined (releaseHolds_confined (abandon_confined hs)) hs)

/-! ## Forme -/

theorem formeCommandIf_confined {ok d used run} (hrun : ∀ s, s.tt.Confined → (run s).tt.Confined) (hs : s.tt.Confined) :
    (formeCommandIf ok d used run s).tt.Confined := by
  unfold formeCommandIf
  extract_lets
  refine ite_confined (formeRefuse_confined (cmdBegin_confined hs)) ?_
  exact ite_confined (formeRefuse_confined (cmdBegin_confined hs)) (hrun _ (cmdBegin_confined hs))

theorem formeCommand_confined {d used run} (hrun : ∀ s, s.tt.Confined → (run s).tt.Confined) (hs : s.tt.Confined) :
    (formeCommand d used run s).tt.Confined :=
  formeCommandIf_confined (fun _ h => hrun _ h) hs

theorem formeBlk_confined {d used blk run} (hrun : ∀ s, s.tt.Confined → (run s).tt.Confined) (hs : s.tt.Confined) :
    (formeBlk d used blk run s).tt.Confined :=
  formeCommand_confined (fun _ h => ite_confined (formeRefuse_confined h) (ite_confined (formeRefuse_confined h) (hrun _ h))) hs

theorem wakeFor_confined (hs : s.tt.Confined) : (wakeFor s).tt.Confined := ite_confined hs (startWake_confined hs)
theorem fillLists_confined {pl} (hs : s.tt.Confined) : (fillLists pl s).tt.Confined := hs
theorem clearLists_confined (hs : s.tt.Confined) : (clearLists s).tt.Confined := hs

theorem parkEntry_confined {i acc} (hacc : acc.1.tt.Confined) : (parkEntry i acc).1.tt.Confined := by
  unfold parkEntry
  split
  next t u _ _ =>
    split
    · exact hacc
    · extract_lets _ s1
      have h1 : s1.tt.Confined := stablingCopy_confined (startStable_confined (reachLength_confined hacc))
      split
      · exact hacc
      · split
        · exact ite_confined (issueTicketLater_confined (modWb_confined (modWb_confined h1))) (modWb_confined h1)
        · exact modWb_confined (closeWb_confined (freePages_confined hacc))

theorem parkShadow_confined {i acc} (hacc : acc.1.tt.Confined) : (parkShadow i acc).1.tt.Confined := by
  unfold parkShadow
  split
  next t u _ _ =>
    exact ite_fst_confined hacc (ite_fst_confined (stablingCopy_confined (startStable_confined hacc)) (freePages_confined hacc))

theorem foldl_parkEntry_confined {l : List Nat} :
    ∀ {x : State × Nat × Nat}, x.1.tt.Confined → (l.foldl (fun acc i => parkEntry i acc) x).1.tt.Confined := by
  induction l with
  | nil => exact id
  | cons i l ih => exact fun hx => ih (parkEntry_confined hx)

theorem foldl_parkShadow_confined {l : List Nat} :
    ∀ {x : State × Nat × Nat}, x.1.tt.Confined → (l.foldl (fun acc i => parkShadow i acc) x).1.tt.Confined := by
  induction l with
  | nil => exact id
  | cons i l ih => exact fun hx => ih (parkShadow_confined hx)

theorem parkAll_confined {desk} (hs : s.tt.Confined) : (parkAll desk s).1.tt.Confined := by
  unfold parkAll
  extract_lets s1
  have h1 : s1.tt.Confined := foldl_confined (fun _ _ => stablingCopy_confined) hs
  split
  next t _ _ e =>
    have ht : t.tt.Confined := by
      refine fst_confined e ?_
      split
      · exact foldl_parkEntry_confined h1
      · exact foldl_parkShadow_confined h1
    exact ht

theorem adoptPages_confined {digest f c} (hs : s.tt.Confined) : (adoptPages digest f c s).tt.Confined := by
  unfold adoptPages
  split
  · exact hs
  · exact ite_confined hs (parkAll_confined hs)

theorem storeForme_confined {f c digest k pl} (hs : s.tt.Confined) : (storeForme f c digest k pl s).tt.Confined :=
  nearZero_confined (fillLists_confined ((adoptPages_confined hs).congr rfl rfl rfl))

theorem execFormeLoad_confined {d parts} (hs : s.tt.Confined) : Out.Confined (execFormeLoad d parts s) := by
  refine Out.confined_next (formeCommandIf_confined (fun t h => ?_) hs)
  have hrefuse : ∀ {status reason}, (formeRefuse d status reason t).tt.Confined := formeRefuse_confined h
  dsimp only
  repeat refine ite_confined hrefuse ?_
  split
  · exact hrefuse
  · repeat refine ite_confined hrefuse ?_
    split
    · exact hrefuse
    · exact formeDone_confined (pageChange_confined (storeForme_confined (wakeFor_confined h)))

theorem imposeWith_confined {f m blk flows tree void} (hs : s.tt.Confined) :
    (imposeWith f m blk flows tree void s).tt.Confined := hs

theorem execFormeImpose_confined {d blk} (hs : s.tt.Confined) : Out.Confined (execFormeImpose d blk s) := by
  refine Out.confined_next (formeCommandIf_confined (fun t h => ?_) hs)
  have hrefuse : ∀ {status reason}, (formeRefuse d status reason t).tt.Confined := formeRefuse_confined h
  dsimp only
  split
  · exact hrefuse
  · repeat refine ite_confined hrefuse ?_
    split
    · exact hrefuse
    · exact formeDone_confined (pageChange_confined (imposeWith_confined h))

theorem allocRing_confined {f} (hs : s.tt.Confined) : (allocRing f s).tt.Confined := by
  unfold allocRing
  split
  · exact hs
  · refine ite_confined hs ?_
    split
    · exact allocInput_confined hs
    · exact hs

theorem zeroPlatforms_confined {f} (hs : s.tt.Confined) : (zeroPlatforms f s).tt.Confined :=
  foldl_confined (fun _ _ => State.modPress_confined) hs

theorem beginRecovery_confined {f c} (hs : s.tt.Confined) : (beginRecovery f c s).tt.Confined := by
  unfold beginRecovery
  extract_lets _ _ _ _ s1 _ _ s2
  have h1 : s1.tt.Confined := zeroPlatforms_confined (hs.congr rfl rfl rfl)
  have h2 : s2.tt.Confined := ite_confined (sendAgain_confined h1) h1
  exact ite_confined h2 (ite_confined (ite_confined (settleRebuild_confined h2) (beginFetches_confined h2))
    (beginFetches_confined h2))

theorem prepareFirst_confined {f} (hs : s.tt.Confined) :
    (prepareFirst f s).tt.Confined := ite_confined (processSheet_confined hs) hs

theorem acceptStart_confined {d f count rebuilt old} (hold : old.tt.Confined) :
    (acceptStart d f count rebuilt old).tt.Confined := by
  unfold acceptStart
  extract_lets _ _ _ _ _ s1
  have h1 : s1.tt.Confined := ite_confined (hold.congr rfl rfl rfl) (beginRecovery_confined (hold.congr rfl rfl rfl))
  exact formeQueued_confined (pageChange_confined (prepareFirst_confined (allocRing_confined h1)))

theorem execFormeStart_confined {d} (hs : s.tt.Confined) : Out.Confined (execFormeStart d s) := by
  refine Out.confined_next (formeCommand_confined (fun t h => ?_) hs)
  have hrefuse : ∀ {status reason}, (formeRefuse d status reason t).tt.Confined := formeRefuse_confined h
  dsimp only
  split
  · exact hrefuse
  · repeat refine ite_confined hrefuse ?_
    exact acceptStart_confined (wakeFor_confined h)

theorem execFormeStop_confined {d} (hs : s.tt.Confined) : Out.Confined (execFormeStop d s) :=
  Out.confined_next (formeCommand_confined (fun _ h => ite_confined (formeRefuse_confined h)
    (ite_confined (formeDone_confined (stopForme_confined h)) (formeQueued_confined h))) hs)

theorem clearReady_confined {part} (hs : s.tt.Confined) : (clearReady part s).tt.Confined := by
  unfold clearReady
  refine ite_confined hs ?_
  exact ite_confined (State.modChan_confined hs) (ite_confined (State.modPort_confined hs)
    (ite_confined (State.modFar_confined hs) hs))

theorem clearFailed_confined (hs : s.tt.Confined) : (clearFailed s).tt.Confined :=
  foldl_confined (fun _ _ ht => ite_confined (clearReady_confined ht) ht) hs

theorem execFormeUnload_confined {d} (hs : s.tt.Confined) : Out.Confined (execFormeUnload d s) :=
  Out.confined_next (formeCommand_confined (fun _ h => ite_confined (formeRefuse_confined h)
    (ite_confined (formeDone_confined h) (formeDone_confined
    (startStagger_confined (pageChange_confined (showTable_confined
    ((clearFailed_confined (clearLists_confined (parkAll_confined h))).congr rfl rfl rfl))))))) hs)

/-! ## Weights -/

theorem putPlace_confined {t off bs r} (hs : s.tt.Confined) : (putPlace t off bs r s).tt.Confined := by
  unfold putPlace
  split
  · extract_lets
    refine ite_confined hs ?_
    split
    · split
      · exact State.modPress_confined hs
      · exact hs
    · exact nearPut_confined hs
    · exact farWrite_confined hs

theorem putImageAt_confined {t off bs} (hs : s.tt.Confined) : (putImageAt t off bs s).tt.Confined :=
  foldl_confined (fun _ _ => putPlace_confined) hs

theorem countBytes_confined {n} (hs : s.tt.Confined) : (countBytes n s).tt.Confined := hs

theorem makePresent_confined {x} (hs : s.tt.Confined) : (makePresent x s).tt.Confined :=
  ite_confined (putImageAt_confined hs) (putImageAt_confined hs)

theorem withImages_confined {d recs sources placed go} (hgo : ∀ i s, s.tt.Confined → (go i s).tt.Confined)
    (hs : s.tt.Confined) :
    (withImages d recs sources placed go s).tt.Confined := by
  unfold withImages
  dsimp only
  refine ite_confined (formeRefuse_confined (dropTensors_confined hs)) ?_
  refine ite_confined (formeRefuse_confined (dropTensors_confined hs)) ?_
  split
  · exact formeRefuse_confined (dropTensors_confined hs)
  · refine ite_confined (formeRefuse_confined (dropTensors_confined hs)) ?_
    split
    · exact formeRefuse_confined (dropTensors_confined (countBytes_confined hs))
    · exact hgo _ _ (dropTensors_confined (countBytes_confined hs))

theorem weightCommand_confined {d run} (hrun : ∀ s, s.tt.Confined → (run s).tt.Confined) (hs : s.tt.Confined) :
    (weightCommand d run s).tt.Confined :=
  ite_confined (formeRefuse_confined hs) (hrun _ hs)

theorem execWeightsLoad_confined {d blk sources} (hs : s.tt.Confined) : Out.Confined (execWeightsLoad d blk sources s) := by
  refine Out.confined_next (formeBlk_confined (fun _ h => weightCommand_confined (fun _ h' => ?_) h) hs)
  refine ite_confined (formeRefuse_confined h') (withImages_confined ?_ h')
  intro _ t ht
  extract_lets s1
  have h1 : s1.tt.Confined := foldl_confined (fun _ _ => makePresent_confined) (wakeFor_confined ht)
  exact ite_confined (formeDone_confined h1) (formeQueued_confined h1)

theorem sendOn_confined {payload x} (hs : s.tt.Confined) : (sendOn payload s x).tt.Confined := sendCtrl_confined hs

theorem beginBroadcast_confined {d routes recs images} (hs : s.tt.Confined) :
    (beginBroadcast d routes recs images s).tt.Confined := by
  unfold beginBroadcast
  extract_lets _ _ s1
  have h1 : s1.tt.Confined := foldl_confined (fun _ _ ht => foldl_confined
    (fun _ _ hu => foldl_confined (fun _ _ => sendOn_confined) hu) ht) hs
  exact h1

theorem execWeightsBroadcast_confined {d blk sources} (hs : s.tt.Confined) :
    Out.Confined (execWeightsBroadcast d blk sources s) := by
  refine Out.confined_next (formeBlk_confined (fun _ h => weightCommand_confined (fun _ h' => ?_) h) hs)
  refine ite_confined (formeRefuse_confined h') (withImages_confined (fun _ _ h'' => ?_) h')
  exact castGo_confined (beginBroadcast_confined (foldl_confined (fun _ _ => makePresent_confined) (wakeFor_confined h'')))

theorem strayCopy_confined (hs : s.tt.Confined) : (strayCopy s).tt.Confined := hs

theorem execWeightData_confined {payload} (hs : s.tt.Confined) : Out.Confined (execWeightData payload s) := by
  unfold execWeightData
  extract_lets s1
  have h1 : s1.tt.Confined := serviceTake_confined hs
  clear_value s1
  split
  · exact Out.confined_next (strayCopy_confined h1)
  · split
    · exact Out.confined_next (strayCopy_confined h1)
    · exact Out.confined_next (putImageAt_confined (countBytes_confined h1))

theorem fabricDone_confined (hs : s.tt.Confined) : (fabricDone s).tt.Confined := by
  unfold fabricDone
  split
  · exact hs
  · exact ite_confined hs (ite_confined (formeRefuse_confined (dropTensors_confined hs)) (formeDone_confined hs))

theorem execWeightEnd_confined {payload} (hs : s.tt.Confined) : Out.Confined (execWeightEnd payload s) := by
  unfold execWeightEnd
  extract_lets s1
  have h1 : s1.tt.Confined := serviceTake_confined hs
  clear_value s1
  split
  · refine Out.ite_confined (Out.confined_next (strayCopy_confined h1)) (Out.confined_next (fabricDone_confined ?_))
    dsimp only
    split <;> exact h1
  · exact Out.confined_next (strayCopy_confined h1)

theorem execBroadcastTimeout_confined (hs : s.tt.Confined) : Out.Confined (execBroadcastTimeout s) := by
  refine Out.confined_next ?_
  split
  · exact hs
  · exact formeRefuse_confined (dropTensors_confined hs)

theorem execWeightsDigestRead_confined {d} (hs : s.tt.Confined) : Out.Confined (execWeightsDigestRead d s) :=
  Out.confined_next (formeCommandIf_confined (fun _ h => ite_confined (formeRefuse_confined h)
    (ite_confined (formeDone_confined h) (finishReply_confined (showPresent_confined h)))) hs)

theorem execWeightsDigestSeal_confined {d blk} (hs : s.tt.Confined) : Out.Confined (execWeightsDigestSeal d blk s) :=
  Out.confined_next (formeCommandIf_confined (fun _ h => ite_confined (formeRefuse_confined h)
    (ite_confined (formeRefuse_confined h) (ite_confined (formeRefuse_confined h)
    (ite_confined (formeRefuse_confined h) (formeDone_confined (pageChange_confined h)))))) hs)

theorem execWeightsFree_confined {d} (hs : s.tt.Confined) : Out.Confined (execWeightsFree d s) :=
  Out.confined_next (formeCommand_confined (fun _ h => ite_confined (formeRefuse_confined h)
    (ite_confined (formeRefuse_confined h) (formeDone_confined (pageChange_confined h)))) hs)

/-! ## Registers -/

theorem countUnmapped_confined (hs : s.tt.Confined) : (countUnmapped s).tt.Confined := hs

/-! ## Firmware -/

theorem execNop_confined {d} (hs : s.tt.Confined) : Out.Confined (execNop d s) :=
  Out.confined_next (command_confined (fun _ => finish_confined) hs)

theorem execIdentify_confined {d} (hs : s.tt.Confined) : Out.Confined (execIdentify d s) :=
  Out.confined_next (commandReply_confined (fun _ => finishReply_confined) hs)

theorem execGetEdition_confined {d} (hs : s.tt.Confined) : Out.Confined (execGetEdition d s) :=
  Out.confined_next (command_confined (fun _ => finish_confined) hs)

theorem execFwStage_confined {d blk} (hs : s.tt.Confined) : Out.Confined (execFwStage d blk s) :=
  Out.confined_next (commandBlk_confined (fun _ h => ite_confined (finish_confined h)
    (ite_confined (finish_confined h) (finish_confined (putImageSlot_confined h)))) hs)

theorem execFwHandover_confined {d} (hs : s.tt.Confined) : Out.Confined (execFwHandover d s) := by
  refine Out.confined_next (command_confined (fun _ h => ?_) hs)
  split
  · exact finish_confined h
  · extract_lets
    refine ite_confined (finish_confined h) (ite_confined (finish_confined h) ?_)
    exact ite_confined (finish_confined h) (ite_confined (queued_confined h) (beginHandover_confined (queued_confined h)))

theorem execHandoverComplete_confined {adopted} (hs : s.tt.Confined) : Out.Confined (execHandoverComplete adopted s) := by
  refine Out.confined_next ?_
  split
  · dsimp only
    split
    · exact ite_confined (finish_confined (ite_confined (postHeld_confined hs) (postHeld_confined hs)))
        (finish_confined (ite_confined (postHeld_confined hs) (postHeld_confined hs)))
    · exact ite_confined (postHeld_confined hs) (postHeld_confined hs)
  · exact hs

theorem execFwFlashWrite_confined {d} (hs : s.tt.Confined) : Out.Confined (execFwFlashWrite d s) :=
  Out.confined_next (command_confined (fun _ h => ite_confined (finish_confined h)
    (ite_confined (finish_confined h) (ite_confined (finish_confined h) h))) hs)

theorem execFlashSectorEraseEnd_confined (hs : s.tt.Confined) : Out.Confined (execFlashSectorEraseEnd s) := by
  refine Out.confined_next ?_
  split <;> exact hs

theorem flashDone_confined {status} (hs : s.tt.Confined) : (flashDone status s).tt.Confined := by
  unfold flashDone
  dsimp only
  split
  · exact finish_confined hs
  · exact hs

theorem flashVerify_confined (hs : s.tt.Confined) : (flashVerify s).tt.Confined :=
  ite_confined (flashDone_confined hs) (ite_confined (flashDone_confined hs) hs)

theorem nvmAdvance_confined (hs : s.tt.Confined) : (nvmAdvance s).tt.Confined := by
  unfold nvmAdvance
  split
  · exact ite_confined (flashVerify_confined hs) hs
  · exact ite_confined (flashDone_confined hs) hs
  · exact hs
  · exact hs

theorem execFwVersion_confined {d} (hs : s.tt.Confined) : Out.Confined (execFwVersion d s) :=
  Out.confined_next (command_confined (fun _ => finish_confined) hs)

theorem optionCtlWrite_confined {value} (hs : s.tt.Confined) :
    (optionCtlWrite value s).tt.Confined := ite_confined hs (ite_confined hs hs)

theorem execOptionCtlWrite_confined {w} (hs : s.tt.Confined) : Out.Confined (execOptionCtlWrite w s) :=
  Out.confined_next (behindWrites_confined (fun _ => optionCtlWrite_confined) hs)

theorem execOptionWriteDone_confined {readBackOk} (hs : s.tt.Confined) : Out.Confined (execOptionWriteDone readBackOk s) :=
  Out.confined_next (ite_confined hs (ite_confined hs (State.draw_confined hs)))

theorem execAttest_confined {d} (hs : s.tt.Confined) : Out.Confined (execAttest d s) :=
  Out.confined_next (commandReply_confined (fun _ => finishReply_confined) hs)

theorem execColophonSign_confined {d} (hs : s.tt.Confined) : Out.Confined (execColophonSign d s) := by
  refine Out.confined_next (commandReply_confined (fun _ h => ite_confined (finish_confined h) ?_) hs)
  split
  · exact finish_confined h
  · exact finishReply_confined h

theorem execDebugEnable_confined {d} (hs : s.tt.Confined) : Out.Confined (execDebugEnable d s) :=
  Out.confined_next (command_confined (fun _ h => ite_confined (finish_confined h)
    (ite_confined (ite_confined (finish_confined h) (queued_confined h))
    (ite_confined (finish_confined h) (finish_confined h)))) hs)

theorem setBreak_confined {i v} (hs : s.tt.Confined) : (setBreak i v s).tt.Confined := hs

theorem execBreakSet_confined {d} (hs : s.tt.Confined) : Out.Confined (execBreakSet d s) :=
  Out.confined_next (command_confined (fun _ h => ite_confined (finish_confined h) (finish_confined (setBreak_confined h))) hs)

theorem execBreakClear_confined {d} (hs : s.tt.Confined) : Out.Confined (execBreakClear d s) :=
  Out.confined_next (command_confined (fun _ h => finish_confined h) hs)

theorem execHazardRead_confined {d} (hs : s.tt.Confined) : Out.Confined (execHazardRead d s) :=
  Out.confined_next (commandReply_confined (fun _ => finishReply_confined) hs)

/-! ## Health -/

theorem endJob_confined {j} (hs : s.tt.Confined) : (endJob j s).tt.Confined := postEvent_confined (finish_confined hs)

theorem testStand_confined {parts} (hs : s.tt.Confined) : (testStand parts s).tt.Confined :=
  foldl_confined (fun _ _ ht => ite_confined (State.modPress_confined ht) ht) hs

theorem execSelfTest_confined {d} (hs : s.tt.Confined) : Out.Confined (execSelfTest d s) := by
  unfold execSelfTest
  extract_lets
  refine Out.confined_next (command_confined (fun _ h => ?_) hs)
  split
  · exact finish_confined h
  · extract_lets _ _ _ _ _ _ s1
    have h1 : s1.tt.Confined := testStand_confined (ite_confined (wakeFor_confined h) h)
    exact ite_confined (finish_confined h) (ite_confined (finish_confined h)
      (ite_confined (endJob_confined (ite_confined (queued_confined h1) h1)) (ite_confined (queued_confined h1) h1)))

theorem execSelfTestRun_confined {part} (hs : s.tt.Confined) : Out.Confined (execSelfTestRun part s) :=
  Out.confined_next (ite_confined (testStand_confined hs) hs)

theorem testErases_confined {i} (hs : s.tt.Confined) : (testErases i s).tt.Confined :=
  ite_confined (ite_confined hs (State.modPress_confined hs)) (ite_confined hs hs)

theorem endTest_confined {i fail block} (hs : s.tt.Confined) : (endTest i fail block s).tt.Confined := by
  unfold endTest
  extract_lets _ _ _ s1
  have h1 : s1.tt.Confined := ite_confined (State.modPress_confined (testErases_confined hs)) (testErases_confined hs)
  split
  · exact ite_confined (clearReady_confined h1) h1
  · exact ite_confined (endJob_confined (ite_confined (clearReady_confined h1) h1)) (ite_confined (clearReady_confined h1) h1)

theorem execSelfTestRunEnd_confined {part fail block} (hs : s.tt.Confined) :
    Out.Confined (execSelfTestRunEnd part fail block s) :=
  Out.confined_next (ite_confined hs (ite_confined hs (endTest_confined hs)))

theorem execScrub_confined {p ecc} (hs : s.tt.Confined) : Out.Confined (execScrub p ecc s) := by
  unfold execScrub
  extract_lets
  refine Out.confined_next (ite_confined hs ?_)
  split
  next _ _ t =>
    exact postEvent_confined (State.modPress_confined (State.modPress_confined hs))
  · exact State.modPress_confined hs

theorem healthAlert_confined {i old new points} (hs : s.tt.Confined) : (healthAlert i old new points s).tt.Confined :=
  ite_confined (postEvent_confined hs) hs

theorem alertPin_confined (hs : s.tt.Confined) : (alertPin s).tt.Confined := ite_confined (State.setPin_confined hs) hs

theorem execHealthCompute_confined (hs : s.tt.Confined) : Out.Confined (execHealthCompute s) :=
  Out.confined_next (ite_confined hs (alertPin_confined (foldl_confined (fun _ _ => healthAlert_confined) hs)))

theorem execHealthRead_confined {d} (hs : s.tt.Confined) : Out.Confined (execHealthRead d s) :=
  Out.confined_next (command_confined (fun _ h => ite_confined (finish_confined h)
    (ite_confined (finish_confined h) (finishReply_confined h))) hs)

/-! ## Recovery -/

theorem sendPieces_confined {kind size dst m extra data} (hs : s.tt.Confined) :
    (sendPieces kind size dst m extra data s).tt.Confined :=
  ite_confined (sendService_confined hs) (foldl_confined (fun _ _ => sendService_confined) hs)

theorem sendMirror_confined (hs : s.tt.Confined) : (sendMirror s).tt.Confined := by
  unfold sendMirror
  split
  · exact hs
  · refine foldl_confined (fun _ _ ht => ?_) hs
    exact ite_confined ht (sendPieces_confined ht)

theorem firmwareNext_confined {c r t} (hs : s.tt.Confined) (h : firmwareNext c r s = some t) : t.tt.Confined := by
  unfold firmwareNext at h
  split at h
  · cases h
    exact serveBox_confined (State.modChan_confined hs)
  · split at h
    · cases h
      exact serveLate_confined hs
    · split at h
      · cases h
        exact moveNear_confined hs
      · exact serveShared_confined (kclPump_confined hs) h

theorem serveFirmware_confined {n c res} (hs : s.tt.Confined) : (serveFirmware n c res s).tt.Confined := by
  induction n generalizing res s with
  | zero => exact kclPump_confined hs
  | succ n ih =>
    rw [serveFirmware]
    split
    next t e => exact ih (firmwareNext_confined hs e)
    next => exact kclPump_confined hs

theorem execSeqSlotFirmware_confined {c res} (hs : s.tt.Confined) : Out.Confined (execSeqSlotFirmware c res s) := by
  unfold execSeqSlotFirmware
  extract_lets
  refine Out.ite_confined (Out.confined_next (ite_confined (sendMirror_confined (serveFirmware_confined hs)) hs)) ?_
  split
  · refine Out.ite_confined ?_ (Out.confined_next (seqGo_confined hs))
    exact Out.confined_next (sendMirror_confined (seqPass_confined (serveFirmware_confined (seqGo_confined hs))))
  · exact Out.confined_next (seqGo_confined hs)

theorem execMirrorAck_confined {payload} (hs : s.tt.Confined) : Out.Confined (execMirrorAck payload s) := by
  unfold execMirrorAck
  extract_lets _ s1
  have h1 : s1.tt.Confined := serviceTake_confined hs
  clear_value s1
  exact Out.confined_next (ite_confined h1 (ite_confined (setDirFlag_confined h1) h1))

theorem queueFar_confined {m a bs} (hs : s.tt.Confined) : (queueFar m a bs s).tt.Confined :=
  foldl_confined (fun _ _ => State.modFar_confined) hs

theorem holdItem_confined {m whole slot} (hs : s.tt.Confined) : (holdItem m whole slot s).tt.Confined := hs

theorem writeItem_confined {of m off data slot} (hs : s.tt.Confined) : (writeItem of m off data slot s).tt.Confined :=
  queueFar_confined (holdItem_confined hs)

theorem mirrorFull_confined (hs : s.tt.Confined) : (mirrorFull s).tt.Confined := ite_confined hs (postEvent_confined hs)

theorem ackItem_confined {m} (hs : s.tt.Confined) : (ackItem m s).tt.Confined := by
  unfold ackItem
  extract_lets whole s1
  have hwhole : ∀ x t, t.tt.Confined → (whole x t).tt.Confined := by
    intro _ t ht
    unfold whole
    split
    · exact holdItem_confined ht
    · exact ht
  have h1 : s1.tt.Confined := hwhole _ _ (ite_confined (hwhole _ _ hs) hs)
  split
  · exact sendService_confined h1
  · exact h1

theorem settleMirror_confined (hs : s.tt.Confined) :
    (settleMirror s).tt.Confined := foldl_confined (fun _ _ => ackItem_confined) hs

theorem farNext_confined {f r t} (hs : s.tt.Confined) (h : farNext f r s = some t) : t.tt.Confined := by
  unfold farNext at h
  split at h
  · cases h
    exact farBox_confined (State.modFar_confined hs)
  · obtain ⟨m, _, rfl⟩ := Option.map_eq_some_iff.mp h
    exact moveFar_confined hs

theorem serveFar_confined {n f res} (hs : s.tt.Confined) : (serveFar n f res s).tt.Confined := by
  induction n generalizing res s with
  | zero => exact hs
  | succ n ih =>
    rw [serveFar]
    split
    next t e => exact ih (farNext_confined hs e)
    next => exact hs

theorem execFarStreamSlot_confined {f res} (hs : s.tt.Confined) : Out.Confined (execFarStreamSlot f res s) := by
  unfold execFarStreamSlot
  extract_lets
  refine Out.ite_confined (Out.confined_next hs) ?_
  refine Out.ite_confined (Out.confined_next (ite_confined (settleMirror_confined (serveFar_confined hs)) hs)) ?_
  split
  · split
    · split
      · exact Out.confined_next (farPass_confined (farEntries_confined (State.modFar_confined (farGo_confined hs))))
      · exact Out.confined_next (State.modFar_confined (farGo_confined hs))
    · exact Out.confined_next (settleMirror_confined (farPass_confined (serveFar_confined (farGo_confined hs))))
  · exact Out.confined_next (farGo_confined hs)

theorem execMirrorItem_confined {payload} (hs : s.tt.Confined) : Out.Confined (execMirrorItem payload s) := by
  unfold execMirrorItem
  extract_lets _ _ _ done
  have hdone : ∀ t, t.tt.Confined → (done t).tt.Confined := by
    intro t ht
    unfold done
    exact ite_confined ht ht
  refine Out.confined_next (ite_confined (serviceTake_confined hs) ?_)
  split
  · exact mirrorFull_confined (serviceTake_confined hs)
  · refine ite_confined ?_ (hdone _ (writeItem_confined (serviceTake_confined hs)))
    extract_lets s1
    have h1 : s1.tt.Confined := writeItem_confined (serviceTake_confined hs)
    split
    · exact mirrorFull_confined h1
    · exact hdone _ (writeItem_confined h1)

theorem execMirrorRelease_confined {payload} (hs : s.tt.Confined) : Out.Confined (execMirrorRelease payload s) := by
  unfold execMirrorRelease
  extract_lets _ s1
  have h1 : s1.tt.Confined := serviceTake_confined hs
  clear_value s1
  exact Out.confined_next h1

theorem execRecoverFetch_confined {payload} (hs : s.tt.Confined) : Out.Confined (execRecoverFetch payload s) :=
  Out.confined_next (sendPieces_confined (serviceTake_confined hs))

theorem loseWaybill_confined {w} (hs : s.tt.Confined) : (loseWaybill w s).tt.Confined := by
  unfold loseWaybill
  extract_lets
  refine ite_confined hs ?_
  split
  · exact sendService_confined hs
  · exact hs

theorem checkRebuilt_confined {w} (hs : s.tt.Confined) : (checkRebuilt w s).tt.Confined := by
  unfold checkRebuilt
  refine ite_confined hs ?_
  split
  · exact hs
  · exact ite_confined (loseWaybill_confined hs) hs

theorem rebuildShadow_confined {w l voided restoring} (hs : s.tt.Confined) :
    (rebuildShadow w l voided restoring s).tt.Confined := by
  unfold rebuildShadow
  extract_lets
  refine ite_confined (loseWaybill_confined (ite_confined hs hs)) ?_
  exact ite_confined (ite_confined hs hs) (checkRebuilt_confined
    (beginFetches_confined (freePages_confined (ite_confined hs hs))))

theorem takeShadows_confined {payload} (hs : s.tt.Confined) : (takeShadows payload s).tt.Confined := by
  unfold takeShadows
  extract_lets _ _ _ _ _ _ s1 _ s2
  have h1 : s1.tt.Confined := foldl_confined (fun _ _ => rebuildShadow_confined) (ite_confined (hs.congr rfl rfl rfl) hs)
  have h2 : s2.tt.Confined := foldl_confined (fun _ _ => freePages_confined) h1
  exact ite_confined h2 h1

theorem takeLedgerEntry_confined {r} (hs : s.tt.Confined) : (takeLedgerEntry r s).tt.Confined :=
  ite_confined hs (beginFetches_confined (ite_confined hs (allocInput_confined hs)))

theorem takeLedger_confined {payload} (hs : s.tt.Confined) : (takeLedger payload s).tt.Confined := by
  unfold takeLedger
  extract_lets _ _ _ _ s1
  have h1 : s1.tt.Confined := foldl_confined (fun _ _ => takeLedgerEntry_confined) (ite_confined (hs.congr rfl rfl rfl) hs)
  exact ite_confined (foldl_confined (fun _ _ => rebuildShadow_confined) h1) h1

theorem takePage_confined {m payload} (hs : s.tt.Confined) : (takePage m payload s).tt.Confined := by
  unfold takePage
  extract_lets _ s1 s2
  have h1 : s1.tt.Confined := ensureBlock_confined (ensureRoot_confined hs)
  have h2 : s2.tt.Confined := ite_confined (ensureHead_confined h1) (ensureFrame_confined h1)
  exact ite_confined h2 (ite_confined (setDirFlag_confined (nearPut_confined h2)) (nearPut_confined h2))

theorem takeLogged_confined {m payload} (hs : s.tt.Confined) : (takeLogged m payload s).tt.Confined := by
  unfold takeLogged
  split
  · exact writePlace_confined hs
  · exact hs

theorem takeStore_confined {m payload} (hs : s.tt.Confined) : (takeStore m payload s).tt.Confined := by
  unfold takeStore
  split
  · exact nearPut_confined hs
  · exact hs

theorem restartCopies_confined (hs : s.tt.Confined) : (restartCopies s).tt.Confined := by
  unfold restartCopies
  extract_lets _ _ _ _ s1 s2 s3
  have h1 : s1.tt.Confined := foldl_confined (fun _ _ => queueReads_confined) hs
  have h2 : s2.tt.Confined := foldl_confined (fun _ _ ht => ite_confined (ite_confined (beginMoves_confined ht) ht)
    (ite_confined (beginMoves_confined ht) ht)) h1
  have h3 : s3.tt.Confined := by
    unfold s3
    refine foldl_confined (fun _ _ ht => ?_) h2
    split
    · exact ite_confined (beginMoves_confined ht) ht
    · exact ht
  split
  · exact beginMoves_confined h3
  · exact h3

theorem execRecoverData_confined {payload} (hs : s.tt.Confined) : Out.Confined (execRecoverData payload s) := by
  unfold execRecoverData
  extract_lets _ s1 _ _ s2 s3 s4
  have h1 : s1.tt.Confined := serviceTake_confined hs
  clear_value s1
  have h2 : s2.tt.Confined := ite_confined h1 h1
  have h3 : s3.tt.Confined := by
    unfold s3
    split
    · exact ite_confined (loseWaybill_confined h2) h2
    · split
      · exact takeShadows_confined h2
      · exact takeLedger_confined h2
      · exact takePage_confined h2
      · exact takePage_confined h2
      · exact takeLogged_confined h2
      · exact takeStore_confined h2
  have h4 : s4.tt.Confined := ite_confined (checkRebuilt_confined h3) h3
  refine Out.confined_next ?_
  split
  · exact ite_confined (loseWaybill_confined h1) h1
  · exact ite_confined h1 (settleRebuild_confined h4)

theorem execRecoverFetchResend_confined {w} (hs : s.tt.Confined) : Out.Confined (execRecoverFetchResend w s) :=
  Out.confined_next (foldl_confined (fun _ _ => sendFetch_confined) hs)

theorem execRecoverFetchTimeout_confined {w} (hs : s.tt.Confined) : Out.Confined (execRecoverFetchTimeout w s) := by
  unfold execRecoverFetchTimeout
  extract_lets
  exact Out.confined_next (ite_confined hs (settleRebuild_confined (ite_confined hs (loseWaybill_confined hs))))

theorem execFwMsgRebuilt_confined {p body} (hs : s.tt.Confined) : Out.Confined (execFwMsgRebuilt p body s) := by
  unfold execFwMsgRebuilt
  extract_lets _ _ _ _ s1
  have h1 : s1.tt.Confined := by
    unfold s1
    split
    · exact sendControl_confined (takeSerial_confined (controlTake_confined hs))
    · exact controlTake_confined hs
  exact Out.confined_next (ite_confined h1 h1)

theorem execFwMsgAck_confined {p body} (hs : s.tt.Confined) : Out.Confined (execFwMsgAck p body s) :=
  Out.confined_next (controlTake_confined hs)

theorem execFwMessageResend_confined {serial} (hs : s.tt.Confined) : Out.Confined (execFwMessageResend serial s) := by
  refine Out.confined_next ?_
  split
  · exact hs
  · exact ite_confined (sendFwMessage_confined hs) hs

/-! ## Reset -/

theorem hardPins_confined (hs : s.tt.Confined) : (hardPins s).tt.Confined :=
  ite_confined hs (State.setPin_confined (State.setPin_confined hs))

theorem readyPin_confined (hs : s.tt.Confined) : (readyPin s).tt.Confined := ite_confined (State.setPin_confined hs) hs

theorem drivePins_confined (hs : s.tt.Confined) : (drivePins s).tt.Confined := by
  unfold drivePins
  extract_lets _ _ s1
  have h1 : s1.tt.Confined := farPin_confined (farPin_confined (alertPin_confined (readyPin_confined (hardPins_confined hs))))
  exact ite_confined (State.setPin_confined h1) h1

theorem abandonJob_confined (hs : s.tt.Confined) : (abandonJob s).tt.Confined := by
  unfold abandonJob
  split
  next t _ u e =>
    have hu : u.tt.Confined := by
      refine snd_confined e ?_
      split
      · exact State.draw_confined hs
      · exact hs
    split <;> exact hu

theorem defer_confined {d} (hs : s.tt.Confined) : (defer d s).tt.Confined := hs
theorem fullReset_confined {src holders} : (fullReset src holders s).tt.Confined := State.reset_confined
theorem endHolder_confined {src} (hs : s.tt.Confined) : (endHolder src s).tt.Confined := ite_confined hs hs

theorem sourceFull_confined {src held} (hs : s.tt.Confined) : (sourceFull src held s).tt.Confined :=
  ite_confined hs (ite_confined (defer_confined hs) fullReset_confined)

theorem execPowerOn_confined : Out.Confined (execPowerOn s) := Out.confined_next fullReset_confined

theorem execUnderVoltage_confined (hs : s.tt.Confined) : Out.Confined (execUnderVoltage s) :=
  Out.confined_next (ite_confined hs fullReset_confined)

theorem execUnderVoltageEnd_confined (hs : s.tt.Confined) : Out.Confined (execUnderVoltageEnd s) :=
  Out.confined_next (ite_confined hs (endHolder_confined hs))

theorem execAuxSupplyLoss_confined : Out.Confined (execAuxSupplyLoss s) := Out.confined_next State.reset_confined

theorem execModResetAssert_confined (hs : s.tt.Confined) :
    Out.Confined (execModResetAssert s) := Out.confined_next (sourceFull_confined hs)

theorem execModResetRelease_confined (hs : s.tt.Confined) : Out.Confined (execModResetRelease s) :=
  Out.confined_next (ite_confined hs (ite_confined (endHolder_confined hs) (drivePins_confined hs)))

theorem execRefclkLoss_confined (hs : s.tt.Confined) :
    Out.Confined (execRefclkLoss s) := Out.confined_next (sourceFull_confined hs)

theorem execRefclkReturn_confined {gap} (hs : s.tt.Confined) : Out.Confined (execRefclkReturn gap s) :=
  Out.confined_next (ite_confined hs (ite_confined (sourceFull_confined hs) hs))

theorem takeTrip_confined : (takeTrip s).tt.Confined := fullReset_confined

theorem seeJunction_confined {junction} (hs : s.tt.Confined) : (seeJunction junction s).tt.Confined :=
  ite_confined hs (ite_confined (defer_confined hs) takeTrip_confined)

theorem execThermalTrip_confined {junction} (hs : s.tt.Confined) : Out.Confined (execThermalTrip junction s) :=
  Out.confined_next (seeJunction_confined hs)

theorem execPowerSample_confined {watts junction} (hs : s.tt.Confined) : Out.Confined (execPowerSample watts junction s) :=
  Out.confined_next (ite_confined (seeJunction_confined (powerSample_confined hs)) hs)

theorem warmLink_confined {p} (hs : s.tt.Confined) : (warmLink p s).tt.Confined := by
  unfold warmLink
  extract_lets
  refine ite_confined ?_ (State.modPort_confined hs)
  exact ite_confined (State.modPort_confined hs) (tellState_confined (State.modPort_confined hs))

theorem warmLinks_confined (hs : s.tt.Confined) : (warmLinks s).tt.Confined := by
  unfold warmLinks
  extract_lets
  exact foldl_confined (fun _ _ => warmLink_confined) (foldl_confined (fun _ _ => dropBuffers_confined) hs)

/-- A warm reset leaves no hold. -/
theorem warmStop_confined {cause} : (warmStop cause s).tt.Confined := Tt.confined_of_nil rfl

theorem warmBoot_confined (hs : s.tt.Confined) : (warmBoot s).tt.Confined := hs

theorem warmReset_confined {cause} (hs : s.tt.Confined) : (warmReset cause s).tt.Confined := by
  unfold warmReset
  refine ite_confined (defer_confined hs) ?_
  extract_lets
  exact ite_confined (warmBoot_confined (abandonJob_confined hs))
    (ite_confined (warmBoot_confined warmStop_confined) (warmBoot_confined warmStop_confined))

theorem execResetWarm_confined {d} (hs : s.tt.Confined) : Out.Confined (execResetWarm d s) :=
  Out.confined_next (command_confined (fun _ h => warmReset_confined (finish_confined h)) hs)

theorem execNvmWriteEnd_confined (hs : s.tt.Confined) : Out.Confined (execNvmWriteEnd s) := by
  refine Out.confined_next (ite_confined hs ?_)
  dsimp only
  refine ite_confined (nvmAdvance_confined hs) ?_
  split
  · exact ite_confined takeTrip_confined fullReset_confined
  · exact warmReset_confined (nvmAdvance_confined hs)
  · exact nvmAdvance_confined hs

theorem lockPlls_confined {mask} (hs : s.tt.Confined) : (lockPlls mask s).tt.Confined := hs

theorem execOptionLoadingComplete_confined {strapLow} (hs : s.tt.Confined) :
    Out.Confined (execOptionLoadingComplete strapLow s) :=
  Out.confined_next (ite_confined hs (lockPlls_confined hs))

theorem execStationReady_confined {delays} (hs : s.tt.Confined) : Out.Confined (execStationReady delays s) :=
  Out.confined_next (ite_confined hs (lockPlls_confined hs))

theorem execKclHwTrainingComplete_confined {ok} (hs : s.tt.Confined) : Out.Confined (execKclHwTrainingComplete ok s) :=
  Out.confined_next (ite_confined hs (ite_confined (portDown_confined hs) (portReady_confined (State.modPort_confined hs))))

theorem execSramTestComplete_confined (hs : s.tt.Confined) :
    Out.Confined (execSramTestComplete s) := Out.confined_next (ite_confined hs hs)

theorem startImage_confined {img source} (hs : s.tt.Confined) : (startImage img source s).tt.Confined := by
  unfold startImage
  extract_lets _ _ s1 s2 _ _ _ s3
  have h1 : s1.tt.Confined := State.setPin_confined (State.setPin_confined (State.setPin_confined hs))
  have h2 : s2.tt.Confined := ite_confined h1 (State.setPin_confined (State.setPin_confined h1))
  have h3 : s3.tt.Confined := ite_confined h2 (domainCtlWrite_confined h2)
  exact putImageSlot_confined h3

theorem enterRecovery_confined {step} (hs : s.tt.Confined) : (enterRecovery step s).tt.Confined := hs

theorem bootFlash_confined (hs : s.tt.Confined) : (bootFlash s).tt.Confined := by
  unfold bootFlash
  exact ite_confined (startImage_confined hs) (enterRecovery_confined hs)

theorem execBootVerify_confined (hs : s.tt.Confined) : Out.Confined (execBootVerify s) :=
  Out.confined_next (ite_confined hs (ite_confined (ite_confined (startImage_confined hs) (bootFlash_confined hs))
    (ite_confined hs (ite_confined (enterRecovery_confined hs) (bootFlash_confined hs)))))

theorem recoveryGo_confined {value image} (hs : s.tt.Confined) : (recoveryGo value image s).tt.Confined := by
  unfold recoveryGo
  extract_lets
  exact ite_confined hs (ite_confined (startImage_confined (endRomReads_confined hs)) (endRomReads_confined hs))

theorem execFwRecoveryGo_confined {w image} (hs : s.tt.Confined) : Out.Confined (execFwRecoveryGo w image s) :=
  Out.confined_next (behindWrites_confined (fun _ => recoveryGo_confined) hs)

theorem trainPorts_confined {lo} (hs : s.tt.Confined) : (trainPorts lo s).tt.Confined :=
  foldl_confined (fun _ _ => beginTraining_confined) hs

theorem memoryReady_confined (hs : s.tt.Confined) : (memoryReady s).tt.Confined := by
  unfold memoryReady
  extract_lets s1
  have h1 : s1.tt.Confined := farPin_confined (farPin_confined (lockPlls_confined hs))
  exact ite_confined h1 h1

theorem testPresses_confined {warm} (hs : s.tt.Confined) : (testPresses warm s).tt.Confined := startStagger_confined hs

theorem execBoxServicesReady_confined {b} (hs : s.tt.Confined) : Out.Confined (execBoxServicesReady b s) := by
  unfold execBoxServicesReady
  dsimp only
  refine Out.confined_next (ite_confined hs ?_)
  split
  · exact ite_confined (testPresses_confined (readyPin_confined hs)) (readyPin_confined hs)
  · exact trainPorts_confined (lockPlls_confined hs)
  · exact trainPorts_confined (lockPlls_confined hs)
  · exact memoryReady_confined hs
  · exact hs
  · exact hs

theorem execPressSelfTestComplete_confined {p ok} (hs : s.tt.Confined) : Out.Confined (execPressSelfTestComplete p ok s) :=
  Out.confined_next (ite_confined hs (ite_confined hs hs))

theorem execEngineSelfTestComplete_confined {ok} (hs : s.tt.Confined) : Out.Confined (execEngineSelfTestComplete ok s) :=
  Out.confined_next (ite_confined hs hs)

theorem execFarPortReady_confined {f width speed capacity} (hs : s.tt.Confined) :
    Out.Confined (execFarPortReady f width speed capacity s) :=
  Out.confined_next (ite_confined hs (State.modFar_confined hs))

theorem dropPending_confined {p} (hs : s.tt.Confined) : (dropPending p s).tt.Confined := by
  unfold dropPending
  split
  · exact hs
  · extract_lets s1
    have h1 : s1.tt.Confined := by
      unfold s1
      split
      · exact freeAt_confined hs
      · exact freeAt_confined hs
      · exact modWb_confined hs
      · exact hs
    exact finish_confined h1

theorem failServed_confined {b} (hs : s.tt.Confined) : (failServed b s).tt.Confined := by
  unfold failServed
  extract_lets ports
  have hports : ∀ x y t, t.tt.Confined → (ports x y t).tt.Confined := by
    intro _ _ t ht
    unfold ports
    exact foldl_confined (fun _ _ hu => foldl_confined (fun _ _ => finish_confined) (State.modPort_confined hu)) ht
  split
  · exact hports _ _ _ (hports _ _ _ hs)
  · exact hports _ _ _ hs
  · split
    · exact formeRefuse_confined (dropTensors_confined hs)
    · split
      · exact formeRefuse_confined (dropTensors_confined hs)
      · exact hs
  · exact foldl_confined (fun _ _ => dropPending_confined) hs
  · exact hs

theorem execBoxWatchdogExpiry_confined {b} (hs : s.tt.Confined) : Out.Confined (execBoxWatchdogExpiry b s) := by
  unfold execBoxWatchdogExpiry
  extract_lets _ _ _ _ _ s1
  have h1 : s1.tt.Confined := stepFault_confined (ite_confined (restartCopies_confined hs) hs)
  exact Out.confined_next (ite_confined (warmReset_confined hs) (ite_confined hs (postEvent_confined (failServed_confined h1))))

theorem execSb0WatchdogExpiry_confined (hs : s.tt.Confined) : Out.Confined (execSb0WatchdogExpiry s) :=
  Out.confined_next (ite_confined hs (warmReset_confined hs))

theorem loseEntry_confined {i} (hs : s.tt.Confined) : (loseEntry s i).tt.Confined :=
  closeWb_confined (freePages_confined (modWb_confined hs))

theorem rebuildEntry_confined {copy bad i} (hs : s.tt.Confined) : (rebuildEntry copy bad s i).tt.Confined :=
  ite_confined (loseEntry_confined hs) (ite_confined hs (ite_confined (issueTicketLater_confined hs) hs))

theorem rebuildStage_confined {copy bad i} (hs : s.tt.Confined) : (rebuildStage copy bad s i).tt.Confined := by
  unfold rebuildStage
  refine ite_confined ?_ (ite_confined hs hs)
  extract_lets
  dsimp only
  exact freePages_confined hs

theorem copyDue_confined {copy} (hs : s.tt.Confined) : (copyDue copy s).tt.Confined := by
  unfold copyDue
  split <;> exact hs

theorem deskShadows_confined (hs : s.tt.Confined) : (deskShadows s).tt.Confined := hs

theorem execWaybillRebuild_confined (hs : s.tt.Confined) : Out.Confined (execWaybillRebuild s) := by
  unfold execWaybillRebuild
  refine Out.confined_next (ite_confined hs ?_)
  extract_lets desk copy slots bad s1 
  have h1 : s1.tt.Confined := copyDue_confined (ite_confined
    (sendAgain_confined (deskShadows_confined (foldl_confined (fun _ _ => rebuildEntry_confined) hs)))
    (foldl_confined (fun _ _ => rebuildStage_confined) hs))
  clear_value s1
  exact testPresses_confined (postEvent_confined (writeEdition_confined h1))

/-! ## Time -/

theorem followRate_confined (hs : s.tt.Confined) : (followRate s).tt.Confined := State.draw_confined hs
theorem slewBy_confined {off} (hs : s.tt.Confined) : (slewBy off s).tt.Confined := hs
theorem stepBy_confined {off} (hs : s.tt.Confined) : (stepBy off s).tt.Confined := hs

theorem execTimeProbePeriod_confined (hs : s.tt.Confined) : Out.Confined (execTimeProbePeriod s) := by
  unfold execTimeProbePeriod
  extract_lets
  exact Out.confined_next (noticeChange_confined (ite_confined (pickUpstream_confined hs)
    (sendTime_confined (pickUpstream_confined hs))))

theorem execProbeLost_confined (hs : s.tt.Confined) : Out.Confined (execProbeLost s) := Out.confined_next (ite_confined hs hs)

theorem execTimeProbe_confined {p body t2 replay} (hs : s.tt.Confined) : Out.Confined (execTimeProbe p body t2 replay s) := by
  unfold execTimeProbe
  extract_lets
  exact Out.confined_next (ite_confined (controlTake_confined hs)
    (ite_confined (controlTake_confined hs) (sendTime_confined (controlTake_confined hs))))

theorem correct_confined {off} (hs : s.tt.Confined) : (correct off s).tt.Confined :=
  ite_confined hs (ite_confined (stepBy_confined (followRate_confined hs)) (slewBy_confined (followRate_confined hs)))

theorem relock_confined {off bound} (hs : s.tt.Confined) : (relock off bound s).tt.Confined := ite_confined hs hs

theorem execTimeReply_confined {p body t4 replay} (hs : s.tt.Confined) : Out.Confined (execTimeReply p body t4 replay s) := by
  unfold execTimeReply
  extract_lets
  refine Out.confined_next (ite_confined (controlTake_confined hs) ?_)
  split
  · exact controlTake_confined hs
  · exact ite_confined (controlTake_confined hs) (noticeChange_confined
      (relock_confined (correct_confined (controlTake_confined hs))))

theorem execTimeSilence_confined (hs : s.tt.Confined) : Out.Confined (execTimeSilence s) :=
  Out.confined_next (ite_confined (noticeChange_confined hs) hs)

theorem execTimeNotice_confined {p body} (hs : s.tt.Confined) : Out.Confined (execTimeNotice p body s) := by
  unfold execTimeNotice
  extract_lets
  exact Out.confined_next (ite_confined (controlTake_confined hs)
    (noticeChange_confined (ite_confined (controlTake_confined hs) (controlTake_confined hs))))

theorem execTimeNoticePeriod_confined (hs : s.tt.Confined) : Out.Confined (execTimeNoticePeriod s) :=
  Out.confined_next (noticeAll_confined hs)

theorem execAltPortReturn_confined (hs : s.tt.Confined) :
    Out.Confined (execAltPortReturn s) := Out.confined_next (ite_confined hs hs)

theorem execTimeCode_confined (hs : s.tt.Confined) : Out.Confined (execTimeCode s) := Out.confined_next hs
theorem codeTick_confined (hs : s.tt.Confined) : (codeTick s).tt.Confined := hs
theorem settleTimes_confined (hs : s.tt.Confined) : (settleTimes s).tt.Confined := hs
theorem beatTick_confined (hs : s.tt.Confined) : (beatTick s).tt.Confined := hs

theorem execPpsInEdge_confined {t} (hs : s.tt.Confined) : Out.Confined (execPpsInEdge t s) := by
  unfold execPpsInEdge
  refine Out.ite_confined (Out.confined_next hs) ?_
  extract_lets
  exact Out.confined_next (ite_confined hs (ite_confined hs (noticeChange_confined (slewBy_confined (followRate_confined hs)))))

theorem execPpsTimeout_confined (hs : s.tt.Confined) : Out.Confined (execPpsTimeout s) :=
  Out.confined_next (ite_confined (noticeChange_confined hs) hs)

theorem execPpsOutEdge_confined (hs : s.tt.Confined) : Out.Confined (execPpsOutEdge s) :=
  Out.confined_next (ite_confined (State.setPin_confined hs) hs)

theorem timeSet_confined {value} (hs : s.tt.Confined) : (timeSet value s).tt.Confined := ite_confined hs hs

theorem execTimeSet_confined {w} (hs : s.tt.Confined) : Out.Confined (execTimeSet w s) :=
  Out.confined_next (behindWrites_confined (fun _ => timeSet_confined) hs)

theorem takeRole_confined {role} (hs : s.tt.Confined) : (takeRole role s).tt.Confined := hs

theorem execTimeSyncRole_confined {d} (hs : s.tt.Confined) : Out.Confined (execTimeSyncRole d s) :=
  Out.confined_next (command_confined (fun _ h => ite_confined (finish_confined h)
    (finish_confined (noticeChange_confined (pickUpstream_confined (ite_confined h (takeRole_confined h)))))) hs)

/-! ## Companion -/

theorem debugResume_confined {value} (hs : s.tt.Confined) : (debugResume value s).tt.Confined := by
  unfold debugResume
  refine ite_confined hs ?_
  extract_lets _ go _ s1
  have hgo : ∀ t x, t.tt.Confined → (go t x).tt.Confined := by
    intro t _ ht
    unfold go
    split
    · exact State.modPress_confined ht
    · exact ht
    · exact ht
  have h1 : s1.tt.Confined := foldl_confined (fun _ _ ht => hgo _ _ ht) hs
  exact ite_confined (commitGoOn_confined (releaseHolds_confined h1)) (releaseHolds_confined h1)

theorem execDebugResume_confined {w} (hs : s.tt.Confined) : Out.Confined (execDebugResume w s) :=
  Out.confined_next (behindWrites_confined (fun _ => debugResume_confined) hs)

theorem farConfigWrite_confined {value} (hs : s.tt.Confined) : (farConfigWrite value s).tt.Confined := hs

theorem execFarConfigWrite_confined {w} (hs : s.tt.Confined) : Out.Confined (execFarConfigWrite w s) :=
  Out.confined_next (behindWrites_confined (fun _ => farConfigWrite_confined) hs)

theorem farAreaWrite_confined {i value} (hs : s.tt.Confined) :
    (farAreaWrite i value s).tt.Confined := ite_confined hs (ite_confined hs hs)

theorem execFarAreaWrite_confined {i w} (hs : s.tt.Confined) : Out.Confined (execFarAreaWrite i w s) :=
  Out.confined_next (behindWrites_confined (fun _ => farAreaWrite_confined) hs)

theorem setCfgError_confined (hs : s.tt.Confined) : (setCfgError s).tt.Confined := hs

theorem subCfgWrite_confined {i value} (hs : s.tt.Confined) : (subCfgWrite i value s).tt.Confined := by
  unfold subCfgWrite
  split
  · exact hs
  · exact setCfgError_confined hs

theorem execSubCfgWrite_confined {i w} (hs : s.tt.Confined) : Out.Confined (execSubCfgWrite i w s) :=
  Out.confined_next (behindWrites_confined (fun _ => subCfgWrite_confined) hs)

theorem cplCfgWrite_confined {j value} (hs : s.tt.Confined) : (cplCfgWrite j value s).tt.Confined := by
  unfold cplCfgWrite
  split
  · exact flushAll_confined hs
  · exact setCfgError_confined hs

theorem execCplCfgWrite_confined {j w} (hs : s.tt.Confined) : Out.Confined (execCplCfgWrite j w s) :=
  Out.confined_next (behindWrites_confined (fun _ => cplCfgWrite_confined) hs)

theorem cplConsumerWrite_confined {j value} (hs : s.tt.Confined) :
    (cplConsumerWrite j value s).tt.Confined := flushAll_confined hs

theorem execCplConsumerWrite_confined {j w} (hs : s.tt.Confined) : Out.Confined (execCplConsumerWrite j w s) :=
  Out.confined_next (behindWrites_confined (fun _ => cplConsumerWrite_confined) hs)

theorem evtCfgWrite_confined {value} (hs : s.tt.Confined) : (evtCfgWrite value s).tt.Confined := by
  unfold evtCfgWrite
  split
  · exact hs
  · exact setCfgError_confined hs

theorem execEvtCfgWrite_confined {w} (hs : s.tt.Confined) : Out.Confined (execEvtCfgWrite w s) :=
  Out.confined_next (behindWrites_confined (fun _ => evtCfgWrite_confined) hs)

theorem evtConsumerWrite_confined {value} (hs : s.tt.Confined) : (evtConsumerWrite value s).tt.Confined := hs

theorem outCfgWrite_confined {r value} (hs : s.tt.Confined) : (outCfgWrite r value s).tt.Confined := by
  unfold outCfgWrite
  extract_lets
  refine ite_confined hs ?_
  split
  · exact hs
  · exact setCfgError_confined hs

theorem execOutCfgWrite_confined {r w} (hs : s.tt.Confined) : Out.Confined (execOutCfgWrite r w s) :=
  Out.confined_next (behindWrites_confined (fun _ => outCfgWrite_confined) hs)

theorem outConsumerWrite_confined {r value} (hs : s.tt.Confined) : (outConsumerWrite r value s).tt.Confined := by
  unfold outConsumerWrite
  extract_lets
  split
  · exact commitGoOn_confined hs
  · exact hs
  · exact cancelGoOn_confined hs

theorem execOutConsumerWrite_confined {r w} (hs : s.tt.Confined) : Out.Confined (execOutConsumerWrite r w s) :=
  Out.confined_next (behindWrites_confined (fun _ => outConsumerWrite_confined) hs)

theorem subDoorbell_confined {i value} (hs : s.tt.Confined) : (subDoorbell i value s).tt.Confined :=
  ite_confined (postEvent_confined (touchWindow_confined hs)) (touchWindow_confined hs)

theorem execSubDoorbell_confined {i w} (hs : s.tt.Confined) : Out.Confined (execSubDoorbell i w s) :=
  Out.confined_next (behindWrites_confined (fun _ => subDoorbell_confined) hs)

theorem kclSharedWrite_confined {value} (hs : s.tt.Confined) : (kclSharedWrite value s).tt.Confined := ite_confined hs hs

theorem execKclSharedWrite_confined {w} (hs : s.tt.Confined) : Out.Confined (execKclSharedWrite w s) :=
  Out.confined_next (behindWrites_confined (fun _ => kclSharedWrite_confined) hs)

theorem editionPtrWrite_confined {value} (hs : s.tt.Confined) : (editionPtrWrite value s).tt.Confined := by
  unfold editionPtrWrite
  extract_lets
  exact ite_confined hs (ite_confined hs (ite_confined (setCfgError_confined hs) (writeEdition_confined hs)))

theorem execEditionPtrWrite_confined {w} (hs : s.tt.Confined) : Out.Confined (execEditionPtrWrite w s) :=
  Out.confined_next (behindWrites_confined (fun _ => editionPtrWrite_confined) hs)

/-- Every write of a table of registers leaves no hold outside launch to the end count. -/
def WritesConfined (l : List (Nat × Nat × Nat × (Nat → State → State))) : Prop :=
  ∀ x ∈ l, ∀ i s, s.tt.Confined → (x.2.2.2 i s).tt.Confined

theorem writeFind_confined {off l f} (hl : WritesConfined l) (hs : s.tt.Confined) (h : writeFind off l = some f) :
    (f s).tt.Confined := by
  induction l with
  | nil => cases h
  | cons x l ih =>
    obtain ⟨base, stride, n, g⟩ := x
    rw [writeFind] at h
    split at h
    · obtain rfl := Option.some.inj h
      exact hl _ List.mem_cons_self _ _ hs
    · exact ih (fun y hy => hl y (List.mem_cons_of_mem _ hy)) h

theorem powerCtlWrite_confined {v} (hs : s.tt.Confined) : (powerCtlWrite v s).tt.Confined := hs
theorem alertsWrite_confined {j v} (hs : s.tt.Confined) : (alertsWrite j v s).tt.Confined := alertPin_confined hs

theorem recoveryCtlWrite_confined {v} (hs : s.tt.Confined) :
    (recoveryCtlWrite v s).tt.Confined := ite_confined (romReads_confined hs) hs

theorem WritesConfined.nil : WritesConfined [] := by
  intro x hx
  cases hx

theorem WritesConfined.cons {base stride n f l} (hf : ∀ i s, s.tt.Confined → (f i s).tt.Confined) (hl : WritesConfined l) :
    WritesConfined ((base, stride, n, f) :: l) := by
  intro x hx
  rcases List.mem_cons.mp hx with rfl | hx
  · exact hf
  · exact hl x hx

theorem writeSystem_confined {off value f} (hs : s.tt.Confined) (h : writeSystem off value = some f) : (f s).tt.Confined := by
  refine writeFind_confined ?_ hs h
  exact .cons (fun _ _ h => h) <| .cons (fun _ _ => timeSet_confined) <| .cons (fun _ _ h => h)
    <| .cons (fun _ _ => clkenWrite_confined) <| .cons (fun _ _ h => h) <| .cons (fun _ _ => domainCtlWrite_confined)
    <| .cons (fun _ _ => sscCtlWrite_confined) <| .cons (fun _ _ => powerCtlWrite_confined) <| .cons (fun _ _ h => h)
    <| .cons (fun _ _ => alertsWrite_confined) <| .cons (fun _ _ h => h) <| .cons (fun _ _ h => ite_confined h h)
    <| .cons (fun _ _ => debugResume_confined) <| .cons (fun _ _ => setBreak_confined) <| .cons (fun _ _ h => h) .nil

theorem writeOther_confined {off value f} (hs : s.tt.Confined) (h : writeOther off value = some f) : (f s).tt.Confined := by
  refine writeFind_confined ?_ hs h
  exact .cons (fun _ _ => subCfgWrite_confined) <| .cons (fun _ _ => subDoorbell_confined)
    <| .cons (fun _ _ => cplCfgWrite_confined) <| .cons (fun _ _ => cplConsumerWrite_confined)
    <| .cons (fun _ _ => evtCfgWrite_confined) <| .cons (fun _ _ => evtConsumerWrite_confined)
    <| .cons (fun _ _ => outCfgWrite_confined) <| .cons (fun _ _ => outConsumerWrite_confined) <| .cons (fun _ _ h => h)
    <| .cons (fun _ _ => kclSharedWrite_confined) <| .cons (fun _ _ => linkConfigWrite_confined)
    <| .cons (fun _ _ => cancelWrite_confined) <| .cons (fun _ _ => editionPtrWrite_confined)
    <| .cons (fun _ _ => farConfigWrite_confined) <| .cons (fun _ _ => farAreaWrite_confined)
    <| .cons (fun _ _ => linkConfigWrite_confined) <| .cons (fun _ _ => fabricGidWrite_confined)
    <| .cons (fun _ _ h => ite_confined h (reloadDie_confined h)) <| .cons (fun _ _ h => h) <| .cons (fun _ _ h => h)
    <| .cons (fun _ _ => recoveryCtlWrite_confined) <| .cons (fun _ _ h => h) <| .cons (fun _ _ => optionCtlWrite_confined) .nil

theorem csWrite_confined {off value} (hs : s.tt.Confined) : (csWrite off value s).tt.Confined := by
  unfold csWrite
  split
  · exact hs
  · split
    next f e =>
      split at e
      · exact writeSystem_confined hs e
      · exact writeOther_confined hs e
    next => exact ite_confined hs (countUnmapped_confined hs)

theorem execRegisterWrite_confined {offset w} (hs : s.tt.Confined) : Out.Confined (execRegisterWrite offset w s) :=
  Out.confined_next (behindWrites_confined (fun _ => csWrite_confined) hs)

theorem recallFor_confined {a} (hs : s.tt.Confined) : (recallFor a s).tt.Confined := by
  unfold recallFor
  extract_lets
  refine ite_confined hs ?_
  split
  · exact ite_confined hs (kclSnoop_confined hs)
  · exact hs

theorem csAnswer_confined {tag off} (hs : s.tt.Confined) : (csAnswer tag off s).tt.Confined := by
  unfold csAnswer
  refine ite_confined (respond_confined hs) ?_
  split
  · exact respond_confined hs
  · exact respond_confined (countUnmapped_confined hs)

theorem evictLine_confined {tag a} (hs : s.tt.Confined) : (evictLine tag a s).tt.Confined :=
  ite_confined (kclPump_confined (respond_confined (dropLine_confined hs))) (respond_confined hs)

theorem performReq_confined {r} (hs : s.tt.Confined) : (performReq r s).tt.Confined := by
  unfold performReq
  split
  · exact csAnswer_confined hs
  · exact respond_confined (csWrite_confined hs)
  · exact evictLine_confined hs
  · exact respond_confined hs
  · exact hs

theorem recallFirst_confined (hs : s.tt.Confined) : (recallFirst s).tt.Confined := by
  unfold recallFirst
  split
  · exact recallFor_confined hs
  · exact recallFor_confined hs
  · exact hs

theorem reqGo_confined {n} (hs : s.tt.Confined) : (reqGo n s).tt.Confined := by
  induction n generalizing s with
  | zero =>
    rw [reqGo]
    exact recallFirst_confined hs
  | succ n ih =>
    rw [reqGo]
    split
    · exact ih (performReq_confined hs)
    · exact recallFirst_confined hs

theorem companionGo_confined (hs : s.tt.Confined) : (companionGo s).tt.Confined := reqGo_confined (kclPump_confined hs)

theorem serveHosts_confined {n n2 l} (hs : s.tt.Confined) : (serveHosts n n2 l s).tt.Confined := by
  induction n generalizing n2 l s with
  | zero => exact hs
  | succ n ih =>
    rw [serveHosts]
    split
    · exact ih (companionGo_confined (serveHost_confined (State.modChan_confined hs)))
    · split
      · exact ite_confined (ih (companionGo_confined (serveHost_confined hs))) hs
      · exact hs

theorem execSeqSlotHost_confined {c res} (hs : s.tt.Confined) : Out.Confined (execSeqSlotHost c res s) := by
  unfold execSeqSlotHost
  extract_lets
  refine Out.ite_confined (Out.confined_next (ite_confined (companionGo_confined (serveHosts_confined hs)) hs)) ?_
  split
  · refine Out.ite_confined ?_ (Out.confined_next (seqGo_confined hs))
    exact Out.confined_next (companionGo_confined (seqPass_confined (serveHosts_confined (seqGo_confined hs))))
  · exact Out.confined_next (seqGo_confined hs)

theorem receiveReq_confined {r} (hs : s.tt.Confined) : (receiveReq r s).tt.Confined := reqGo_confined hs

theorem windowRequest_confined {msg answer tag data ok h} (hs : s.tt.Confined) :
    (windowRequest msg answer tag data ok h s).tt.Confined := by
  unfold windowRequest
  refine ite_confined hs ?_
  extract_lets
  exact ite_confined (respond_confined (touchWindow_confined (kclTake_confined hs)))
    (receiveReq_confined (touchWindow_confined (kclTake_confined hs)))

theorem execRdShared_confined {tag addr} (hs : s.tt.Confined) : Out.Confined (execRdShared tag addr s) :=
  Out.confined_next (windowRequest_confined hs)

theorem execRdOwn_confined {tag addr} (hs : s.tt.Confined) : Out.Confined (execRdOwn tag addr s) :=
  Out.confined_next (windowRequest_confined hs)

theorem execBulkRd_confined {tag addr length} (hs : s.tt.Confined) : Out.Confined (execBulkRd tag addr length s) := by
  unfold execBulkRd
  extract_lets
  exact Out.ite_confined Out.confined_fault (Out.confined_next (windowRequest_confined hs))

theorem execBulkWr_confined {tag addr mask data} (hs : s.tt.Confined) : Out.Confined (execBulkWr tag addr mask data s) := by
  unfold execBulkWr
  extract_lets
  exact Out.ite_confined Out.confined_fault (Out.confined_next (windowRequest_confined hs))

theorem execWriteback_confined {tag addr data} (hs : s.tt.Confined) : Out.Confined (execWriteback tag addr data s) := by
  unfold execWriteback
  extract_lets
  exact Out.confined_next (ite_confined (pullForward_confined (windowRequest_confined hs)) (windowRequest_confined hs))

theorem execEvict_confined {tag addr} (hs : s.tt.Confined) : Out.Confined (execEvict tag addr s) :=
  Out.confined_next (windowRequest_confined hs)

theorem snoopAnswer_confined {a} (hs : s.tt.Confined) : (snoopAnswer a s).tt.Confined := by
  unfold snoopAnswer
  split
  · exact hs
  · extract_lets
    exact companionGo_confined (ite_confined hs (ite_confined (dropLine_confined hs) (shareLine_confined hs)))

theorem execSnpAck_confined {addr} (hs : s.tt.Confined) : Out.Confined (execSnpAck addr s) :=
  Out.confined_next (ite_confined (snoopAnswer_confined (kclTake_confined hs)) hs)

theorem execSnpData_confined {addr data} (hs : s.tt.Confined) : Out.Confined (execSnpData addr data s) := by
  unfold execSnpData
  extract_lets
  refine Out.confined_next (ite_confined hs ?_)
  split
  · split
    · extract_lets s1
      have h1 : s1.tt.Confined := State.modChan_confined (kclTake_confined hs)
      exact h1
    · exact snoopAnswer_confined (kclTake_confined hs)
  · exact kclTake_confined hs

theorem execSnoopTimeout_confined {addr} (hs : s.tt.Confined) : Out.Confined (execSnoopTimeout addr s) := by
  unfold execSnoopTimeout
  extract_lets
  exact Out.confined_next (ite_confined (companionGo_confined (postEvent_confined (dropLine_confined hs))) hs)

theorem execCsRd_confined {tag offset} (hs : s.tt.Confined) : Out.Confined (execCsRd tag offset s) :=
  Out.confined_next (ite_confined hs (receiveReq_confined (kclTake_confined hs)))

theorem endReads_confined {d} (hs : s.tt.Confined) : (endReads d s).tt.Confined := hs
theorem blockGo_confined {d} (hs : s.tt.Confined) : (blockGo d s).tt.Confined := ite_confined hs hs

theorem accept_confined {d} (hs : s.tt.Confined) : (accept d s).tt.Confined :=
  ite_confined (finish_confined hs) (ite_confined (ite_confined (readFailed_confined hs) (issueReads_confined hs)) hs)

theorem execDescriptorTake_confined (hs : s.tt.Confined) : Out.Confined (execDescriptorTake s) := by
  refine Out.confined_next ?_
  split
  · exact hs
  · exact ite_confined (kclSnoop_confined hs) (accept_confined (touchWindow_confined hs))

theorem readError_confined {d} (hs : s.tt.Confined) : (readError d s).tt.Confined := by
  unfold readError
  extract_lets
  exact ite_confined (readsFailed_confined (cmdBegin_confined (endReads_confined hs))) (endReads_confined hs)

theorem romReadError_confined (hs : s.tt.Confined) : (romReadError s).tt.Confined := endRomReads_confined hs

theorem execKclData_confined {tag error data} (hs : s.tt.Confined) : Out.Confined (execKclData tag error data s) := by
  refine Out.confined_next (ite_confined hs ?_)
  extract_lets
  split
  · exact kclTake_confined hs
  · refine issueReads_confined ?_
    split
    · exact readError_confined (kclTake_confined hs)
    · exact romReadError_confined (kclTake_confined hs)
    · exact blockGo_confined (kclTake_confined hs)
    · exact kclTake_confined hs

theorem execKclAck_confined {tag} (hs : s.tt.Confined) : Out.Confined (execKclAck tag s) :=
  Out.confined_next (ite_confined hs (kclTake_confined hs))

/-! ## Mgmt -/

theorem mgmtSend_confined {m} (hs : s.tt.Confined) : (mgmtSend m s).tt.Confined := hs

theorem freeBytes_confined {n req} (hs : s.tt.Confined) : (freeBytes n req s).2.tt.Confined := by
  unfold freeBytes
  split
  next t _ u e =>
    have hu : u.tt.Confined := snd_confined e (State.draw_confined hs)
    exact hu

theorem execDynamicAddressAssignment_confined {addr} (hs : s.tt.Confined) :
    Out.Confined (execDynamicAddressAssignment addr s) :=
  Out.confined_next (ite_confined (mgmtSend_confined hs) hs)

theorem execMctpControl_confined {msg} (hs : s.tt.Confined) : Out.Confined (execMctpControl msg s) := by
  unfold execMctpControl
  extract_lets
  refine Out.confined_next (ite_confined hs (ite_confined (mgmtSend_confined hs) ?_))
  split
  · dsimp only
    exact mgmtSend_confined (freeBytes_confined hs)
  · dsimp only
    exact mgmtSend_confined (freeBytes_confined hs)

theorem execPldm_confined {msg} (hs : s.tt.Confined) : Out.Confined (execPldm msg s) := by
  unfold execPldm
  extract_lets
  refine Out.confined_next (ite_confined hs (ite_confined (mgmtSend_confined hs) ?_))
  split <;> exact mgmtSend_confined hs

theorem execMgmtControlAccess_confined {write offset value} (hs : s.tt.Confined) :
    Out.Confined (execMgmtControlAccess write offset value s) := by
  unfold execMgmtControlAccess
  extract_lets
  refine Out.confined_next ?_
  refine ite_confined hs (ite_confined (mgmtSend_confined hs) (ite_confined (mgmtSend_confined (csWrite_confined hs)) ?_))
  split
  · exact mgmtSend_confined hs
  · exact mgmtSend_confined (countUnmapped_confined hs)

theorem spdmError_confined {code} (hs : s.tt.Confined) : (spdmError code s).tt.Confined := mgmtSend_confined hs

theorem spdmServe_confined {run} (hrun : ∀ s, s.tt.Confined → (run s).tt.Confined) (hs : s.tt.Confined) :
    (spdmServe run s).tt.Confined :=
  ite_confined hs (ite_confined (spdmError_confined hs) (hrun _ hs))

theorem spdmAfter_confined {run} (hrun : ∀ s, s.tt.Confined → (run s).tt.Confined) (hs : s.tt.Confined) :
    (spdmAfter run s).tt.Confined :=
  spdmServe_confined (fun _ h => ite_confined (hrun _ h) (spdmError_confined h)) hs

theorem execGetVersion_confined {_req} (hs : s.tt.Confined) : Out.Confined (execGetVersion _req s) :=
  Out.confined_next (spdmServe_confined (fun _ h => mgmtSend_confined h) hs)

theorem execGetCapabilities_confined {req} (hs : s.tt.Confined) : Out.Confined (execGetCapabilities req s) := by
  refine Out.confined_next ?_
  dsimp only
  exact spdmServe_confined (fun _ h => mgmtSend_confined (freeBytes_confined h)) hs

theorem execNegotiateAlgorithms_confined {req} (hs : s.tt.Confined) : Out.Confined (execNegotiateAlgorithms req s) :=
  Out.confined_next (spdmServe_confined (fun _ h => mgmtSend_confined h) hs)

theorem execGetDigests_confined {_req} (hs : s.tt.Confined) : Out.Confined (execGetDigests _req s) :=
  Out.confined_next (spdmAfter_confined (fun _ => mgmtSend_confined) hs)

theorem execGetCertificate_confined {req} (hs : s.tt.Confined) : Out.Confined (execGetCertificate req s) := by
  unfold execGetCertificate
  extract_lets
  exact Out.confined_next (spdmAfter_confined (fun _ h => ite_confined (spdmError_confined h) (mgmtSend_confined h)) hs)

theorem spdmSigned_confined {code req resp} (hs : s.tt.Confined) :
    (spdmSigned code req resp s).tt.Confined := mgmtSend_confined hs

theorem execChallenge_confined {req} (hs : s.tt.Confined) : Out.Confined (execChallenge req s) := by
  refine Out.confined_next ?_
  dsimp only
  exact spdmAfter_confined (fun _ h => ite_confined (spdmError_confined h) (spdmSigned_confined (freeBytes_confined h))) hs

theorem execGetMeasurements_confined {req} (hs : s.tt.Confined) : Out.Confined (execGetMeasurements req s) := by
  unfold execGetMeasurements
  dsimp only
  refine Out.confined_next (spdmAfter_confined (fun _ h => ite_confined (spdmError_confined h)
    (ite_confined (spdmSigned_confined (freeBytes_confined h)) (mgmtSend_confined ?_))) hs)
  dsimp only
  exact freeBytes_confined h

theorem vendorResponse_confined {req payload} (hs : s.tt.Confined) : (vendorResponse req payload s).tt.Confined := by
  unfold vendorResponse
  dsimp only
  exact mgmtSend_confined (freeBytes_confined hs)

theorem execPqSignature_confined {req} (hs : s.tt.Confined) : Out.Confined (execPqSignature req s) := by
  refine Out.confined_next (spdmAfter_confined (fun _ h => ?_) hs)
  split
  · exact vendorResponse_confined h
  · exact spdmError_confined h

theorem execPqCertificate_confined {req} (hs : s.tt.Confined) : Out.Confined (execPqCertificate req s) := by
  unfold execPqCertificate
  extract_lets
  exact Out.confined_next (spdmAfter_confined (fun _ h => ite_confined (spdmError_confined h) (vendorResponse_confined h)) hs)

/-! ## Near -/

theorem execRefreshDue_confined (hs : s.tt.Confined) : Out.Confined (execRefreshDue s) :=
  Out.confined_next (ite_confined hs (intrude_confined hs))

theorem execRefreshWindowEnd_confined (hs : s.tt.Confined) : Out.Confined (execRefreshWindowEnd s) :=
  Out.confined_next (ite_confined (boxesGo_confined (releaseHolds_confined hs)) hs)

theorem execNearTemperatureReport_confined {c temp} (hs : s.tt.Confined) : Out.Confined (execNearTemperatureReport c temp s) :=
  Out.confined_next (State.modChan_confined hs)

theorem execNearTerminusRetrain_confined (hs : s.tt.Confined) : Out.Confined (execNearTerminusRetrain s) :=
  Out.confined_next (ite_confined hs hs)

theorem execNearInStepRetrain_confined {c} (hs : s.tt.Confined) : Out.Confined (execNearInStepRetrain c s) :=
  Out.confined_next (ite_confined (intrude_confined (State.modChan_confined hs)) hs)

theorem execNearRetrainEnd_confined {c} (hs : s.tt.Confined) : Out.Confined (execNearRetrainEnd c s) :=
  Out.confined_next (ite_confined (boxesGo_confined (releaseHolds_confined (State.modChan_confined hs))) hs)

theorem execNearTrainingComplete_confined {c ok} (hs : s.tt.Confined) : Out.Confined (execNearTrainingComplete c ok s) :=
  Out.confined_next (ite_confined hs (State.modChan_confined hs))

/-! ## Dispatch -/

/-- Every instruction keeps the invariant, one lemma for each. -/
theorem exec_confined {i} (hs : s.tt.Confined) : Out.Confined (exec i s) := by
  unfold exec
  split
  · exact execNop_confined hs
  · exact execIdentify_confined hs
  · exact execGetEdition_confined hs
  · exact execSetOperatingPoint_confined hs
  · exact execSelfTest_confined hs
  · exact execResetWarm_confined hs
  · exact execFormeLoad_confined hs
  · exact execFormeImpose_confined hs
  · exact execFormeStart_confined hs
  · exact execFormeStop_confined hs
  · exact execFormeUnload_confined hs
  · exact execWeightsLoad_confined hs
  · exact execWeightsBroadcast_confined hs
  · exact execWeightsDigestRead_confined hs
  · exact execWeightsDigestSeal_confined hs
  · exact execWeightsFree_confined hs
  · exact execWaybillOpen_confined hs
  · exact execWaybillAppend_confined hs
  · exact execWaybillCancel_confined hs
  · exact execWaybillStable_confined hs
  · exact execWaybillResume_confined hs
  · exact execWaybillQuery_confined hs
  · exact execLiveryLoad_confined hs
  · exact execLiveryFree_confined hs
  · exact execLinkStateRead_confined hs
  · exact execLinkStateEnable_confined hs
  · exact execLinkStateDisable_confined hs
  · exact execLinkRetrain_confined hs
  · exact execPartitionSet_confined hs
  · exact execRouteTableLoad_confined hs
  · exact execTimeSyncRole_confined hs
  · exact execFwStage_confined hs
  · exact execFwHandover_confined hs
  · exact execFwFlashWrite_confined hs
  · exact execFwVersion_confined hs
  · exact execHealthRead_confined hs
  · exact execAttest_confined hs
  · exact execColophonSign_confined hs
  · exact execDebugEnable_confined hs
  · exact execBreakSet_confined hs
  · exact execBreakClear_confined hs
  · exact execHazardRead_confined hs
  · exact execStreamNop_confined hs
  · exact execDepartMark_confined hs
  · exact execDueMark_confined hs
  · exact execLoop_confined hs
  · exact execEndStream_confined hs
  · exact execWload_confined hs
  · exact execPass_confined hs
  · exact execWadd_confined hs
  · exact execAdd_confined hs
  · exact execMul_confined hs
  · exact execFma_confined hs
  · exact execMin_confined hs
  · exact execMax_confined hs
  · exact execCmp_confined hs
  · exact execSelect_confined hs
  · exact execScale_confined hs
  · exact execExponent_confined hs
  · exact execMantissa_confined hs
  · exact execRcp_confined hs
  · exact execRsqrt_confined hs
  · exact execCvt_confined hs
  · exact execRsum_confined hs
  · exact execRmax_confined hs
  · exact execRmin_confined hs
  · exact execAccCvt_confined hs
  · exact execLoad_confined hs
  · exact execStore_confined hs
  · exact execMove_confined hs
  · exact execMoveWide_confined hs
  · exact execPlatRd_confined hs
  · exact execPlatWr_confined hs
  · exact execNearRd_confined hs
  · exact execNearWr_confined hs
  · exact execFarRd_confined hs
  · exact execFarWr_confined hs
  · exact execQueueWaitEnd_confined hs
  · exact execReleaseWaitEnd_confined hs
  · exact execSeqSlotPress_confined hs
  · exact execPortionArrival_confined hs
  · exact execSeqSlotHost_confined hs
  · exact execSeqSlotFirmware_confined hs
  · exact execSeqMark_confined hs
  · exact execSeqLoop_confined hs
  · exact execSeqEnd_confined hs
  · exact execFarStreamSlot_confined hs
  · exact execFarStreamMark_confined hs
  · exact execFarStreamLoop_confined hs
  · exact execFarStreamEnd_confined hs
  · exact execCxlCompletionTimeout_confined hs
  · exact execCxlLinkDown_confined hs
  · exact execPointsSlot_confined hs
  · exact execPacketRelease_confined hs
  · exact execPointsMark_confined hs
  · exact execPointsLoop_confined hs
  · exact execPointsEnd_confined hs
  · exact execSamplerRows_confined hs
  · exact execSamplerDueMark_confined hs
  · exact execSamplerDepartMark_confined hs
  · exact execSamplerLoop_confined hs
  · exact execSamplerEnd_confined hs
  · exact execLaunch_confined hs
  · exact execProgramCopy_confined hs
  · exact execReadinessTest_confined hs
  · exact execHoldRelease_confined hs
  · exact execHoldResume_confined hs
  · exact execFirmwareServiceIntrusion_confined hs
  · exact execEndCountReached_confined hs
  · exact execDrainComplete_confined hs
  · exact execDrainLimitExpiry_confined hs
  · exact execPlanWatchdogExpiry_confined hs
  · exact execBarrierReport_confined hs
  · exact execStartCountReached_confined hs
  · exact execBarrierTimeout_confined hs
  · exact execAnnounceTimeout_confined hs
  · exact execAnnounceCommit_confined hs
  · exact execAnnounceAbort_confined hs
  · exact execAnnounceStop_confined hs
  · exact execAnnounceCommitStop_confined hs
  · exact execAnnounceStart_confined hs
  · exact execRankingComplete_confined hs
  · exact execStablingCopyComplete_confined hs
  · exact execRestoreCopyComplete_confined hs
  · exact execStagingCopyComplete_confined hs
  · exact execLogCopyComplete_confined hs
  · exact execVoid_confined hs
  · exact execCancelWrite_confined hs
  · exact execLandingArrival_confined hs
  · exact execRefreshDue_confined hs
  · exact execRefreshWindowEnd_confined hs
  · exact execNearTemperatureReport_confined hs
  · exact execNearTerminusRetrain_confined hs
  · exact execNearInStepRetrain_confined hs
  · exact execNearRetrainEnd_confined hs
  · exact execNearTrainingComplete_confined hs
  · exact execScrub_confined hs
  · exact execFrameStart_confined hs
  · exact execFrameReceived_confined hs
  · exact execLinkBlock_confined hs
  · exact execInitBlock_confined hs
  · exact execPause_confined hs
  · exact execPaused_confined hs
  · exact execResume_confined hs
  · exact execAckTimerExpiry_confined hs
  · exact execLaneTrainingComplete_confined hs
  · exact execTrainingRetry_confined hs
  · exact execMarginBelowFloor_confined hs
  · exact execLossOfLock_confined hs
  · exact execUncorrectableBurst_confined hs
  · exact execLinkTerminusRetrain_confined hs
  · exact execRetrainComplete_confined hs
  · exact execRetrainTimeout_confined hs
  · exact execPlanPacket_confined hs
  · exact execControlPacketForward_confined hs
  · exact execTimeProbe_confined hs
  · exact execTimeReply_confined hs
  · exact execTimeNotice_confined hs
  · exact execPortNotice_confined hs
  · exact execFwMsgRebuilt_confined hs
  · exact execFwMsgAck_confined hs
  · exact execFwMessageResend_confined hs
  · exact execWeightData_confined hs
  · exact execWeightEnd_confined hs
  · exact execBroadcastTimeout_confined hs
  · exact execMirrorItem_confined hs
  · exact execMirrorAck_confined hs
  · exact execMirrorRelease_confined hs
  · exact execRecoverFetch_confined hs
  · exact execRecoverData_confined hs
  · exact execRecoverFetchResend_confined hs
  · exact execRecoverFetchTimeout_confined hs
  · exact execKeyInstall_confined hs
  · exact execTimeProbePeriod_confined hs
  · exact execProbeLost_confined hs
  · exact execTimeSilence_confined hs
  · exact execTimeNoticePeriod_confined hs
  · exact execAltPortReturn_confined hs
  · exact execTimeCode_confined hs
  · exact execPpsInEdge_confined hs
  · exact execPpsTimeout_confined hs
  · exact execPpsOutEdge_confined hs
  · exact execRefclkLoss_confined hs
  · exact execRefclkReturn_confined hs
  · exact execDomainRampStep_confined hs
  · exact execSscDepthStep_confined hs
  · exact execOperatingPointSwitch_confined hs
  · exact execOperatingPointChangeEnd_confined hs
  · exact execPressIdle_confined hs
  · exact execPressWake_confined hs
  · exact execDepartureGroup_confined hs
  · exact execPowerSample_confined hs
  · exact execQuietEntry_confined hs
  · exact execDeepQuietEntry_confined hs
  · exact execWake_confined hs
  · exact execSelfTestRun_confined hs
  · exact execSelfTestRunEnd_confined hs
  · exact execHealthCompute_confined hs
  · exact execHandoverComplete_confined hs
  · exact execBoxWatchdogExpiry_confined hs
  · exact execSb0WatchdogExpiry_confined hs
  · exact execWaybillRebuild_confined hs
  · exact execPowerOn_confined
  · exact execUnderVoltage_confined hs
  · exact execUnderVoltageEnd_confined hs
  · exact execAuxSupplyLoss_confined
  · exact execModResetAssert_confined hs
  · exact execModResetRelease_confined hs
  · exact execThermalTrip_confined hs
  · exact execNvmWriteEnd_confined hs
  · exact execOptionLoadingComplete_confined hs
  · exact execStationReady_confined hs
  · exact execKclHwTrainingComplete_confined hs
  · exact execSramTestComplete_confined hs
  · exact execBootVerify_confined hs
  · exact execBoxServicesReady_confined hs
  · exact execPressSelfTestComplete_confined hs
  · exact execEngineSelfTestComplete_confined hs
  · exact execFarPortReady_confined hs
  · exact execFwRecoveryGo_confined hs
  · exact execOptionCtlWrite_confined hs
  · exact execOptionWriteDone_confined hs
  · exact execDebugResume_confined hs
  · exact execTimeSet_confined hs
  · exact execFabricGidWrite_confined hs
  · exact execLinkConfigWrite_confined hs
  · exact execClkenWrite_confined hs
  · exact execDomainCtlWrite_confined hs
  · exact execSscCtlWrite_confined hs
  · exact execFarConfigWrite_confined hs
  · exact execFarAreaWrite_confined hs
  · exact execKclSharedWrite_confined hs
  · exact execSubCfgWrite_confined hs
  · exact execSubDoorbell_confined hs
  · exact execDescriptorTake_confined hs
  · exact execCplCfgWrite_confined hs
  · exact execCplConsumerWrite_confined hs
  · exact execEvtCfgWrite_confined hs
  · exact execOutCfgWrite_confined hs
  · exact execOutConsumerWrite_confined hs
  · exact execEditionPtrWrite_confined hs
  · exact execRegisterWrite_confined hs
  · exact execCsRd_confined hs
  · exact execRdShared_confined hs
  · exact execRdOwn_confined hs
  · exact execWriteback_confined hs
  · exact execEvict_confined hs
  · exact execBulkRd_confined hs
  · exact execBulkWr_confined hs
  · exact execKclData_confined hs
  · exact execKclAck_confined hs
  · exact execSnpAck_confined hs
  · exact execSnpData_confined hs
  · exact execSnoopTimeout_confined hs
  · exact execMctpControl_confined hs
  · exact execPldm_confined hs
  · exact execMgmtControlAccess_confined hs
  · exact execGetVersion_confined hs
  · exact execGetCapabilities_confined hs
  · exact execNegotiateAlgorithms_confined hs
  · exact execGetDigests_confined hs
  · exact execGetCertificate_confined hs
  · exact execChallenge_confined hs
  · exact execGetMeasurements_confined hs
  · exact execPqSignature_confined hs
  · exact execPqCertificate_confined hs
  · exact execFlashSectorEraseEnd_confined hs
  · exact execWakeComplete_confined hs
  · exact execCxlWriteCompletion_confined hs
  · exact execDynamicAddressAssignment_confined hs

/-! ## Tick -/

theorem ttTick_confined (hs : s.tt.Confined) : (ttTick s).tt.Confined := by
  unfold ttTick
  refine ite_confined hs ?_
  split
  · exact hs.congr rfl rfl rfl
  · exact ite_confined (hs.congr rfl rfl rfl) hs

theorem ppsTick_confined (hs : s.tt.Confined) : (ppsTick s).tt.Confined :=
  ite_confined hs (ite_confined (ite_confined (State.setPin_confined hs) hs) hs)

theorem stallTick_confined (hs : s.tt.Confined) : (stallTick s).tt.Confined := by
  unfold stallTick
  split
  · exact ite_confined hs hs
  · exact hs

theorem nsTick_confined (hs : s.tt.Confined) : (nsTick s).tt.Confined := by
  unfold nsTick
  extract_lets s1 s2
  have h1 : s1.tt.Confined := sscTick_confined (beatTick_confined (codeTick_confined (ttTick_confined hs)))
  have h2 : s2.tt.Confined := streamTick_confined (stallTick_confined (ppsTick_confined (State.modPresses_confined h1)))
  exact h2

theorem nsTicks_confined {n} (hs : s.tt.Confined) : (nsTicks n s).tt.Confined := by
  induction n generalizing s with
  | zero => exact hs
  | succ n ih =>
    rw [nsTicks]
    exact ih (nsTick_confined hs)

theorem marksGo_confined (hs : s.tt.Confined) : (marksGo s).tt.Confined := by
  unfold marksGo
  refine ite_confined hs ?_
  extract_lets press s1 s2 s3 s4
  have hpress : ∀ t x, t.tt.Confined → (press t x).tt.Confined := by
    intro t _ ht
    unfold press
    exact streamRelease_confined (streamRelease_confined (streamRelease_confined ht))
  have h1 : s1.tt.Confined := foldl_confined (fun _ _ ht => hpress _ _ ht) hs
  have h2 : s2.tt.Confined := foldl_confined (fun _ _ => seqGo_confined) h1
  have h3 : s3.tt.Confined := foldl_confined (fun _ _ ht => ite_confined (farGo_confined ht) ht) h2
  have h4 : s4.tt.Confined := foldl_confined (fun _ _ ht => ite_confined (despGo_confined ht) ht) h3
  exact ite_confined (smpGo_confined h4) h4

theorem tick_confined (hs : s.tt.Confined) : (tick s).tt.Confined :=
  ite_confined hs (marksGo_confined (boxesGo_confined (settleTimes_confined (nsTicks_confined hs))))

/-! ## Step -/

theorem step_confined (hs : s.tt.Confined) : Out.Confined (step s) := by
  unfold step
  split
  · exact Out.confined_next (tick_confined hs)
  · exact exec_confined hs
/-- Outside launch to the end count an intrusion takes its window without a hold. -/
theorem intrude_eq_self {u c} (h : s.tt.inStep = false ∨ s.tt.draining = true) : intrude u c s = s := raiseHold_eq_self h

/-- Outside launch to the end count a refresh that falls due begins without a hold (R36, R185). -/
theorem execRefreshDue_outside (h : s.tt.inStep = false ∨ s.tt.draining = true) (hd : s.now % s.refreshInterval = refreshPhase)
    (hr : s.near.selfRefresh = false) (hn : s.near.refreshing = false) :
    ∃ t, exec .refreshDue s = .next t ∧ t.tt = s.tt ∧ t.near.refreshing = true := by
  have hdue : ¬(s.now % s.refreshInterval != refreshPhase || s.near.selfRefresh || s.near.refreshing) = true := by
    simp [hd, hr, hn]
  exact ⟨_, congrArg Host.Outcome.next ((if_neg hdue).trans (intrude_eq_self h)), rfl, rfl⟩

/-- Settles O7: every function of the model keeps `Tt.Confined`, so a step does; `raiseHold` asks the two flags first. -/
theorem holdsOnlyInStep : Obligations.HoldsOnlyInStep := by
  unfold Obligations.HoldsOnlyInStep
  exact ⟨fun _ t hs h => step_confined hs t h, rfl, fun _ _ _ _ _ h => raiseHold_eq_self h, fun _ => execRefreshDue_outside⟩

end Sys2Proof.Machine
end

section
/-!
# Step faults (R50, R379, R380)

`stepFault` records and then begins run-out. Each way to record is one equation below; whatever was recorded, `startRunout` changes
only the run-out flag, its time and the resume times of the holds. The end of the drain takes the recorded code into the chip's own
report: what it does to the presses and the ports in between leaves the timetable and the barrier as they were.
-/

namespace Sys2Proof.Machine

variable {s : State}

/-! ## Run-out -/

@[simp] theorem startRunout_health (s : State) : (startRunout s).health = s.health := by
  obtain ⟨_, _, _, e⟩ := startRunout_shape s
  rw [e]

@[simp] theorem startRunout_tt_fault (s : State) : (startRunout s).tt.fault = s.tt.fault := by
  obtain ⟨_, _, _, e⟩ := startRunout_shape s
  rw [e]

@[simp] theorem startRunout_tt_inStep (s : State) : (startRunout s).tt.inStep = s.tt.inStep := by
  obtain ⟨_, _, _, e⟩ := startRunout_shape s
  rw [e]

@[simp] theorem startRunout_tt_tt (s : State) : (startRunout s).tt.tt = s.tt.tt := by
  obtain ⟨_, _, _, e⟩ := startRunout_shape s
  rw [e]

@[simp] theorem startRunout_tt_runout (s : State) : (startRunout s).tt.runout = true := by
  unfold startRunout
  split
  case isTrue h => exact h
  case isFalse => rfl

/-- Where no run-out is under way it begins now, and the DUE holds are released (R50). -/
theorem startRunout_of_not_runout (h : s.tt.runout = false) :
    startRunout s = releaseHolds (fun x => x.kind == .due) { s with tt.runout := true, tt.runoutAt := s.now } :=
  if_neg (by simp [h])

/-- After a release each hold that it names has a resume time: its own, or the one that the release gave it (R33). -/
theorem releaseHolds_resume {p : Hold → Bool} {h : Hold} (hm : h ∈ (releaseHolds p s).tt.holds) (hp : p h = true) :
    h.resume ≠ none := by
  obtain ⟨x, -, hx⟩ := List.mem_map.mp hm
  split at hx
  case isTrue =>
    subst hx
    exact Option.some_ne_none _
  case isFalse hnot =>
    subst hx
    exact fun hn => hnot (by simp [hp, hn])

/-! ## The record -/

/-- Outside a step there is no step fault (R379). -/
theorem stepFault_outside {code unit} (hs : s.tt.inStep = false) : stepFault code unit s = s := if_pos (by simp [hs])

/-- The first fault of an attempt is recorded with its TT (R380). -/
theorem stepFault_first {code unit} (hs : s.tt.inStep = true) (hf : s.tt.fault = 0) :
    stepFault code unit s = startRunout { s with
      health.fault := ⟨false, BitVec.ofNat 8 code, BitVec.ofNat 8 unit, s.tt.tt⟩
      tt.fault := BitVec.ofNat 8 code, tt.faultAt := s.now } := by
  simp only [stepFault, hs, hf, Bool.not_true, Bool.false_eq_true, if_false, if_true]

/-- Of faults met at one nanosecond, that of the lower unit code takes the first's place (R380). -/
theorem stepFault_lower {code unit} (hs : s.tt.inStep = true) (hf : s.tt.fault ≠ 0) (hn : s.now = s.tt.faultAt)
    (hu : unit < s.health.fault.unit.toNat) :
    stepFault code unit s = startRunout { s with
      health.fault := ⟨true, BitVec.ofNat 8 code, BitVec.ofNat 8 unit, s.tt.tt⟩, tt.fault := BitVec.ofNat 8 code } := by
  simp only [stepFault, hs, hf, Bool.not_true, Bool.false_eq_true, if_false]
  rw [if_pos (by simp [hn, hu])]

/-- Any other later fault only sets MORE (R380). -/
theorem stepFault_later {code unit} (hs : s.tt.inStep = true) (hf : s.tt.fault ≠ 0)
    (h : s.now ≠ s.tt.faultAt ∨ s.health.fault.unit.toNat ≤ unit) :
    stepFault code unit s = startRunout { s with health.fault.more := true } := by
  simp only [stepFault, hs, hf, Bool.not_true, Bool.false_eq_true, if_false]
  rw [if_neg (by simpa [imp_iff_not_or] using h)]

/-- Whatever a step fault records, run-out begins from a state that differs in the record alone. -/
theorem stepFault_inStep (code unit : Nat) (hs : s.tt.inStep = true) :
    ∃ f c a, stepFault code unit s = startRunout { s with health.fault := f, tt.fault := c, tt.faultAt := a } := by
  by_cases hf : s.tt.fault = 0
  · exact ⟨_, _, _, stepFault_first hs hf⟩
  · by_cases h : s.now = s.tt.faultAt ∧ unit < s.health.fault.unit.toNat
    · exact ⟨_, _, s.tt.faultAt, stepFault_lower hs hf h.1 h.2⟩
    · exact ⟨_, s.tt.fault, s.tt.faultAt, stepFault_later hs hf (by omega)⟩

/-- A step fault begins run-out, and the step goes on at the TT at which it stood (R50). -/
theorem stepFault_runout (code unit : Nat) (hs : s.tt.inStep = true) : (stepFault code unit s).tt.runout = true ∧
    (stepFault code unit s).tt.inStep = true ∧ (stepFault code unit s).tt.tt = s.tt.tt := by
  obtain ⟨f, c, a, e⟩ := stepFault_inStep code unit hs
  simp [e, hs]

/-- A step fault that finds no run-out under way dates it and releases every DUE hold (R50). -/
theorem stepFault_releases (code unit : Nat) (hs : s.tt.inStep = true) (hr : s.tt.runout = false) :
    (stepFault code unit s).tt.runoutAt = s.now ∧
      ∀ h ∈ (stepFault code unit s).tt.holds, h.kind = .due → h.resume ≠ none := by
  obtain ⟨f, c, a, e⟩ := stepFault_inStep code unit hs
  rw [e, startRunout_of_not_runout (by exact hr)]
  exact ⟨rfl, fun h hm hk => releaseHolds_resume hm (beq_iff_eq.mpr hk)⟩

/-! ## The report -/

/-- A training try touches its port alone. -/
theorem beginTraining_shape (p : Nat) (s : State) : ∃ q, beginTraining p s = { s with ports := q } := by
  unfold beginTraining
  dsimp only
  split
  case isTrue => exact ⟨s.ports, rfl⟩
  case isFalse =>
    split
    case isTrue => exact ⟨_, rfl⟩
    case isFalse => exact ⟨_, rfl⟩

/-- The tries that waited leave the timetable and the barrier alone. -/
theorem waitingTries_tt_barrier (s : State) : (waitingTries s).tt = s.tt ∧ (waitingTries s).barrier = s.barrier := by
  refine List.foldlRecOn (motive := fun t : State => t.tt = s.tt ∧ t.barrier = s.barrier) _ _ ⟨rfl, rfl⟩ fun t ht p _ => ?_
  split
  case isTrue =>
    obtain ⟨q, e⟩ := beginTraining_shape p t
    rw [e]
    exact ht
  case isFalse => exact ht

/-- Changes of presses leave the timetable and the barrier alone. -/
theorem foldl_modPress_tt_barrier (l : List Nat) (f : Press → Press) (s : State) :
    (l.foldl (fun s p => s.modPress p f) s).tt = s.tt ∧ (l.foldl (fun s p => s.modPress p f) s).barrier = s.barrier :=
  List.foldlRecOn (motive := fun t : State => t.tt = s.tt ∧ t.barrier = s.barrier) _ _ ⟨rfl, rfl⟩ fun _ ht _ _ => ht

/-- With no decision taken before, a chip that has drained goes on to the barrier with its own report, which carries the code that the
attempt kept (R45, R380). -/
theorem drained_tryReport (hd : s.barrier.decided = none) : ∃ (u : State) (r : Report), drained s = tryReport u ∧
    r.fault = s.tt.fault ∧ u.barrier.reports = addReport r s.barrier.reports ∧ u.tt.reported = s.tt.fault := by
  unfold drained
  extract_lets _ s1 s2 fault _ own _ _ s3
  obtain ⟨htt, hbarrier⟩ : s2.tt = s.tt ∧ s2.barrier = s.barrier := foldl_modPress_tt_barrier s1.slots _ s1
  have hfault : fault = s.tt.fault := congrArg Tt.fault htt
  obtain ⟨htt3, hbarrier3⟩ : s3.tt = _ ∧ s3.barrier = _ := waitingTries_tt_barrier _
  have hdecided : s3.barrier.decided = none :=
    (congrArg Barrier.decided hbarrier3).trans ((congrArg Barrier.decided hbarrier).trans hd)
  have hreports : s3.barrier.reports = addReport own s.barrier.reports :=
    (congrArg Barrier.reports hbarrier3).trans (congrArg (fun b : Barrier => addReport own b.reports) hbarrier)
  exact ⟨s3, own, by simp only [hdecided], hfault, hreports, (congrArg Tt.reported htt3).trans hfault⟩

/-- Settles O12: an equation for each way to record, run-out after each of them, and the end of the drain, which reports the code
that was kept. -/
theorem stepFaultsRecorded : Obligations.StepFaultsRecorded := by
  unfold Obligations.StepFaultsRecorded
  intro code unit s
  refine ⟨stepFault_outside, fun hs hf => ?first, fun hs hf hn hu => ?lower, fun hs hf h => ?later, stepFault_runout code unit,
    stepFault_releases code unit, drained_tryReport⟩
  case first => simp [stepFault_first hs hf]
  case lower => simp [stepFault_lower hs hf hn hu]
  case later => simp [stepFault_later hs hf h]

end Sys2Proof.Machine
end

section
/-!
# The memories stay canonical, and no command touches the queue (R162, R431)

`State.Kept` is the invariant of O5 and O6 in one: seen from an earlier state, the near tier, the far tier and the flash are canonical if
they were, and the queue is the same list. Only a few functions write these memories, each through `memWrite`, `memPutEntry`, `memClear` or
a filter, whose laws stand in Laws/Memory.lean; every other function leaves the three memories and the queue alone. So each function that
changes the state has one lemma `_kept` here, in the order of the model's files, proved from the lemmas of the functions that it calls;
`exec` and `step` come last.
-/

namespace Sys2Proof.Machine

variable {s base : State}

/-- What every step keeps: canonical memories stay canonical, and the queue stays as it is. -/
def State.Kept (s base : State) : Prop := (base.memoriesOk → s.memoriesOk) ∧ s.pending = base.pending

theorem State.Kept.refl (s : State) : s.Kept s := ⟨id, rfl⟩

/-- The state that an outcome goes on with, if it does, has kept what `base` had. -/
def Out.Kept (base : State) (o : Out) : Prop := ∀ t, o = .next t → t.Kept base

/-- An attempt at an instruction leaves a state that has kept what `base` had. -/
def Act.Kept (base : State) (a : Act) : Prop := a.after.Kept base

theorem Out.kept_next {s : State} (hs : s.Kept base) : Out.Kept base (.next s) := by
  intro t h
  cases h
  exact hs

theorem Out.kept_fault {f : Fault} : Out.Kept base (.fault f) := by
  intro t h
  cases h

/-- Only the three memories and the queue matter. -/
theorem State.Kept.congr {t : State} (hs : s.Kept base) (hn : t.near.mem = s.near.mem) (hf : t.far.mem = s.far.mem)
    (hv : t.nv.flash = s.nv.flash) (hp : t.pending = s.pending) : t.Kept base := by
  unfold State.Kept State.memoriesOk
  rw [hn, hf, hv, hp]
  exact hs

/-- A near tier that stays canonical. -/
theorem State.Kept.nearMem {m : Memory} (hs : s.Kept base) (hm : Memory.wf blank s.near.mem = true → Memory.wf blank m = true) :
    State.Kept { s with near.mem := m } base :=
  ⟨fun h => ⟨hm (hs.1 h).1, (hs.1 h).2⟩, hs.2⟩

/-- Bytes written into the near tier. -/
theorem State.Kept.nearWrite {a : Nat} {bs : List Byte} (hs : s.Kept base) :
    State.Kept { s with near.mem := memWrite blank a bs s.near.mem } base := hs.nearMem (memWrite_wf blank bs a _)

/-- An entry written into the near tier. -/
theorem State.Kept.nearEntry {k : Nat} {e : Entry} (hs : s.Kept base) :
    State.Kept { s with near.mem := memPutEntry s.near.mem k e } base := hs.nearMem (memPutEntry_wf _ k e)

/-- A range of the near tier cleared. -/
theorem State.Kept.nearClear {a n : Nat} (hs : s.Kept base) :
    State.Kept { s with near.mem := memClear a n s.near.mem } base := hs.nearMem (memClear_wf blank a n _)

/-- A far tier that stays canonical. -/
theorem State.Kept.farMem {m : Memory} (hs : s.Kept base) (hm : Memory.wf blank s.far.mem = true → Memory.wf blank m = true) :
    State.Kept { s with far.mem := m } base :=
  ⟨fun h => ⟨(hs.1 h).1, hm (hs.1 h).2.1, (hs.1 h).2.2⟩, hs.2⟩

/-- Bytes written into the far tier. -/
theorem State.Kept.farWrite {a : Nat} {bs : List Byte} (hs : s.Kept base) :
    State.Kept { s with far.mem := memWrite blank a bs s.far.mem } base := hs.farMem (memWrite_wf blank bs a _)

/-- An entry written into the far tier. -/
theorem State.Kept.farEntry {k : Nat} {e : Entry} (hs : s.Kept base) :
    State.Kept { s with far.mem := memPutEntry s.far.mem k e } base := hs.farMem (memPutEntry_wf _ k e)

/-- A flash that stays canonical. -/
theorem State.Kept.flash {m : Memory} (hs : s.Kept base) (hm : Memory.wf blankFlash s.nv.flash = true → Memory.wf blankFlash m = true) :
    State.Kept { s with nv.flash := m } base :=
  ⟨fun h => ⟨(hs.1 h).1, (hs.1 h).2.1, hm (hs.1 h).2.2⟩, hs.2⟩

theorem ite_kept {c : Prop} [Decidable c] {s t : State} (hs : s.Kept base) (ht : t.Kept base) :
    (if c then s else t).Kept base := by
  split
  · exact hs
  · exact ht

theorem ite_fst_kept {α} {c : Prop} [Decidable c] {p q : State × α} (hp : p.1.Kept base) (hq : q.1.Kept base) :
    (if c then p else q).1.Kept base := by
  split
  · exact hp
  · exact hq

theorem ite_snd_kept {α} {c : Prop} [Decidable c] {p q : α × State} (hp : p.2.Kept base) (hq : q.2.Kept base) :
    (if c then p else q).2.Kept base := by
  split
  · exact hp
  · exact hq

theorem Act.ite_kept {c : Prop} [Decidable c] {a b : Act} (ha : a.Kept base) (hb : b.Kept base) :
    (if c then a else b).Kept base := by
  split
  · exact ha
  · exact hb

theorem Out.ite_kept {c : Prop} [Decidable c] {o r : Out} (ho : o.Kept base) (hr : r.Kept base) :
    (if c then o else r).Kept base := by
  split
  · exact ho
  · exact hr

theorem foldl_kept {α} {f : State → α → State} {l : List α} (hf : ∀ s x, s.Kept base → (f s x).Kept base) :
    ∀ {s : State}, s.Kept base → (l.foldl f s).Kept base := by
  induction l with
  | nil => exact id
  | cons x l ih => exact fun hs => ih (hf _ x hs)

theorem fst_kept {α} {p : State × α} {t : State} {a : α} (e : p = (t, a)) (h : p.1.Kept base) : t.Kept base := by
  subst e
  exact h

theorem snd_kept {α} {p : α × State} {a : α} {t : State} (e : p = (a, t)) (h : p.2.Kept base) : t.Kept base := by
  subst e
  exact h

theorem snd_snd_kept {α β} {p : α × β × State} {a : α} {b : β} {t : State} (e : p = (a, b, t)) (h : p.2.2.Kept base) :
    t.Kept base := by
  subst e
  exact h


/-! ## Ops -/

theorem State.modPress_kept {p f} (hs : s.Kept base) : (s.modPress p f).Kept base := hs
theorem State.modPresses_kept {f} (hs : s.Kept base) : (s.modPresses f).Kept base := hs
theorem State.modPort_kept {p f} (hs : s.Kept base) : (s.modPort p f).Kept base := hs
theorem State.modChan_kept {c f} (hs : s.Kept base) : (s.modChan c f).Kept base := hs
theorem State.modFar_kept {p f} (hs : s.Kept base) : (s.modFar p f).Kept base := hs
theorem State.draw_kept (hs : s.Kept base) : (s.draw).2.Kept base := hs
theorem State.drawReads_kept (hs : s.Kept base) : (s.drawReads).2.Kept base := hs

theorem raiseHold_kept {u c k freeze} (hs : s.Kept base) : (raiseHold u c k freeze s).Kept base := ite_kept hs hs
theorem intrude_kept {u c} (hs : s.Kept base) : (intrude u c s).Kept base := raiseHold_kept hs
theorem releaseHolds_kept {p} (hs : s.Kept base) : (releaseHolds p s).Kept base := hs
theorem State.setPin_kept {k l} (hs : s.Kept base) : (s.setPin k l).Kept base := ite_kept hs hs

theorem startRunout_kept (hs : s.Kept base) : (startRunout s).Kept base :=
  ite_kept hs (releaseHolds_kept hs)

theorem stepFault_kept {code unit} (hs : s.Kept base) : (stepFault code unit s).Kept base := by
  unfold stepFault
  refine ite_kept hs ?_
  extract_lets _ _ _ s1
  have h1 : s1.Kept base := ite_kept hs (ite_kept hs hs)
  exact startRunout_kept h1

theorem kclSend_kept {m} (hs : s.Kept base) : (kclSend m s).Kept base := ite_kept hs hs

theorem respond_kept {msg error tag data} (hs : s.Kept base) :
    (respond msg error tag data s).Kept base := kclSend_kept hs

theorem kclSnoop_kept {a inv} (hs : s.Kept base) : (kclSnoop a inv s).Kept base := by
  unfold kclSnoop
  refine ite_kept hs (kclSend_kept ?_)
  exact hs

theorem pullForward_kept {a} (hs : s.Kept base) : (pullForward a s).Kept base := by
  unfold pullForward
  split
  · exact State.modChan_kept hs
  · exact hs

theorem kclDrain_kept {n} (hs : s.Kept base) : (kclDrain n s).Kept base := by
  induction n generalizing s with
  | zero => exact hs
  | succ n ih =>
    rw [kclDrain]
    split
    · exact hs
    · exact ih (ite_kept (kclSend_kept hs) hs)
    · exact ih hs
    · refine ite_kept (pullForward_kept hs) ?_
      split
      · exact kclSnoop_kept hs
      · exact ite_kept (ih hs.nearWrite) hs

theorem kclPump_kept (hs : s.Kept base) : (kclPump s).Kept base := kclDrain_kept hs
theorem touchWindow_kept (hs : s.Kept base) : (touchWindow s).Kept base := hs
theorem sharedWrite_kept {a bs} (hs : s.Kept base) : (sharedWrite a bs s).Kept base := kclPump_kept (touchWindow_kept hs)
theorem sharedIntr_kept {v} (hs : s.Kept base) : (sharedIntr v s).Kept base := kclPump_kept hs
theorem sharedMirror_kept {v} (hs : s.Kept base) : (sharedMirror v s).Kept base := kclPump_kept hs

theorem nearPut_kept {a bs} (hs : s.Kept base) : (nearPut a bs s).Kept base := ite_kept hs.nearWrite hs
theorem nearZero_kept {kib n} (hs : s.Kept base) : (nearZero kib n s).Kept base := ite_kept hs.nearClear hs

/-- Writes made one after another keep the canonical form. -/
theorem foldl_memWrite_wf {α} (addr : α → Nat) (data : α → List Byte) (l : List α) {m : Memory} (hm : Memory.wf blank m = true) :
    Memory.wf blank (l.foldl (fun m x => memWrite blank (addr x) (data x) m) m) = true :=
  List.foldlRecOn (motive := fun m => Memory.wf blank m = true) l _ hm fun _ h _ _ => memWrite_wf blank _ _ _ h

theorem lateGo_kept (hs : s.Kept base) : (lateGo s).Kept base := hs.nearMem (foldl_memWrite_wf _ _ _)
theorem boxesGo_kept (hs : s.Kept base) : (boxesGo s).Kept base := kclPump_kept (lateGo_kept hs)

theorem farWrite_kept {a bs} (hs : s.Kept base) : (farWrite a bs s).Kept base := by
  unfold farWrite
  refine foldl_kept (fun _ _ ht => ?_) hs
  split
  · exact ite_kept ht.farWrite ht
  · exact ht

theorem postEventAt_kept {station type a b c} (hs : s.Kept base) : (postEventAt station type a b c s).Kept base := by
  unfold postEventAt
  refine ite_kept ?_ hs
  extract_lets _ _ _ s1
  have h1 : s1.Kept base := sharedWrite_kept (hs.congr rfl rfl rfl rfl)
  exact ite_kept (sharedIntr_kept h1) h1

theorem postEvent_kept {type a b c} (hs : s.Kept base) : (postEvent type a b c s).Kept base :=
  ite_kept hs (postEventAt_kept hs)

theorem postHeld_kept (hs : s.Kept base) : (postHeld s).Kept base := foldl_kept (fun _ _ => postEventAt_kept) hs

theorem writeCompletion_kept {c} (hs : s.Kept base) : (writeCompletion c s).Kept base := by
  unfold writeCompletion
  extract_lets _ _ _ _ s1
  have h1 : s1.Kept base := sharedWrite_kept hs
  exact ite_kept (sharedIntr_kept h1) h1

theorem flushCompletions_kept {l l2 l3} (hs : s.Kept base) : (flushCompletions l l2 l3 s).Kept base := by
  induction l generalizing l2 l3 s with
  | nil => exact hs
  | cons c l ih => exact ite_kept (ih (writeCompletion_kept hs)) (ih hs)

theorem flushAll_kept (hs : s.Kept base) : (flushAll s).Kept base := flushCompletions_kept hs
theorem post_kept {c} (hs : s.Kept base) : (post c s).Kept base := flushAll_kept hs
theorem finish_kept {d status result} (hs : s.Kept base) : (finish d status result s).Kept base := post_kept hs
theorem finishReason_kept {d status reason result} (hs : s.Kept base) :
    (finishReason d status reason result s).Kept base := post_kept hs
theorem queued_kept {d result} (hs : s.Kept base) : (queued d result s).Kept base := post_kept hs
theorem finishReply_kept {d status result reply} (hs : s.Kept base) : (finishReply d status result reply s).Kept base :=
  post_kept (sharedWrite_kept hs)
theorem finishAtEdition_kept {d status result} (hs : s.Kept base) : (finishAtEdition d status result s).Kept base := hs

/-! ## Packets -/

theorem sendTime_kept {p pkt via} (hs : s.Kept base) : (sendTime p pkt via s).Kept base := State.modPort_kept hs
theorem sendCtrl_kept {p pkt via} (hs : s.Kept base) : (sendCtrl p pkt via s).Kept base := State.modPort_kept hs
theorem sendPlan_kept {p pkt via} (hs : s.Kept base) : (sendPlan p pkt via s).Kept base := State.modPort_kept hs

theorem sendControl_kept {type key r body} (hs : s.Kept base) : (sendControl type key r body s).Kept base :=
  ite_kept hs (sendCtrl_kept hs)

theorem sendService_kept {dst payload} (hs : s.Kept base) : (sendService dst payload s).Kept base := by
  unfold sendService
  split
  · exact hs
  · exact sendCtrl_kept hs

theorem outbound_kept {p e} (hs : s.Kept base) : (outbound p e s).Kept base := by
  unfold outbound
  extract_lets
  split
  · exact hs
  · extract_lets _ _ _ _ _ _ _ _ _ _ _ _ s1
    have h1 : s1.Kept base := State.modPress_kept (State.modPress_kept hs)
    refine ite_kept ?_ (ite_kept (sendPlan_kept h1) (State.modPress_kept (State.modPress_kept hs)))
    split
    · exact State.modPress_kept hs
    · split
      · exact hs.congr rfl rfl rfl rfl
      · exact State.modPress_kept hs

/-! ## Lanes -/

theorem countStop_kept {p} (hs : s.Kept base) : (countStop p s).Kept base := State.modPress_kept hs

theorem laneStop_kept {src p} (hs : s.Kept base) : (laneStop src p s).Kept base := by
  unfold laneStop
  extract_lets
  split
  · refine foldl_kept (fun _ _ ht => ?_) hs
    split
    · exact countStop_kept ht
    · split
      · exact countStop_kept ht
      · exact ht

/-! ## Queues -/

theorem hazard_kept {p kind stream tag icount other location} (hs : s.Kept base) :
    (hazard p kind stream tag icount other location s).Kept base :=
  ite_kept (State.modPress_kept hs) hs

theorem touchLanding_kept {p a g write} (hs : s.Kept base) : (touchLanding p a g write s).Kept base :=
  ite_kept (ite_kept (hazard_kept (State.modPress_kept hs)) (State.modPress_kept hs)) hs

theorem landRead_kept {p} (hs : s.Kept base) : (landRead p s).Kept base := by
  unfold landRead
  extract_lets _ _ _ _ s1
  have h1 : s1.Kept base := State.modPress_kept (touchLanding_kept hs)
  exact ite_kept hs (ite_kept (stepFault_kept h1) h1)

theorem landInto_kept {p e} (hs : s.Kept base) : (landInto p e s).Kept base := State.modPress_kept hs

theorem landPump_kept {n n2} (hs : s.Kept base) : (landPump n n2 s).Kept base := by
  induction n generalizing n2 s with
  | zero => exact hs
  | succ n ih =>
    rw [landPump]
    split
    · exact landRead_kept hs
    · refine ite_kept ?_ (landRead_kept hs)
      split
      · exact landRead_kept hs
      · exact ih (landInto_kept (State.modPress_kept (landRead_kept hs)))

theorem freeCell_kept {r c} (hs : s.Kept base) : (freeCell s r c).2.Kept base := by
  unfold freeCell
  split
  next t _ u e =>
    have hu : u.Kept base := snd_kept e (State.draw_kept hs)
    split
    next v _ w e =>
      have hw : w.Kept base := snd_kept e (State.draw_kept hu)
      exact hw

theorem popHead_kept {p q} (hs : s.Kept base) : (popHead p q s).Kept base := by
  unfold popHead
  refine ite_kept hs ?_
  split
  · exact ite_kept (landPump_kept (State.modPress_kept hs)) (State.modPress_kept hs)
  · refine ite_kept ?_ hs
    extract_lets
    split
    · exact landRead_kept hs
    · exact landPump_kept (State.modPress_kept (landRead_kept hs))

theorem poolFault_kept {p} (hs : s.Kept base) :
    (poolFault p s).Kept base := stepFault_kept (State.modPress_kept hs)

theorem sramFixed_kept {p n} (hs : s.Kept base) : (sramFixed p n s).Kept base := State.modPress_kept hs

theorem poolRead_kept {p x e} (hs : s.Kept base) : (poolRead p x e s).2.Kept base := by
  unfold poolRead
  extract_lets
  exact ite_snd_kept (poolFault_kept (sramFixed_kept hs)) (sramFixed_kept hs)

theorem foutPump_kept {n n2} (hs : s.Kept base) : (foutPump n n2 s).Kept base := by
  induction n generalizing n2 s with
  | zero => exact hs
  | succ n ih =>
    rw [foutPump]
    split
    · exact hs
    · exact ite_kept (ih (outbound_kept (poolRead_kept (State.modPress_kept hs))))
        (ite_kept hs (State.modPress_kept (countStop_kept hs)))

theorem push_kept {p q e found} (hs : s.Kept base) : (push p q e found s).Kept base := by
  unfold push
  refine ite_kept hs ?_
  extract_lets
  refine ite_kept (foutPump_kept (State.modPress_kept (State.modPress_kept hs))) ?_
  exact ite_kept (State.modPress_kept (State.modPress_kept hs)) (State.modPress_kept hs)

theorem loseCell_kept {p x c} (hx : x.2.Kept base) : (loseCell p x c).2.Kept base := by
  unfold loseCell
  split
  next t _ u e =>
    have hu : u.Kept base := snd_kept e (freeCell_kept hx)
    exact stepFault_kept (State.modPress_kept hu)

theorem foldl_loseCell_kept {p} {l : List Nat} :
    ∀ {x : AccRow × State}, x.2.Kept base → (l.foldl (loseCell p) x).2.Kept base := by
  induction l with
  | nil => exact id
  | cons c l ih => exact fun hx => ih (loseCell_kept hx)

theorem readCells_kept {i n r} (hs : s.Kept base) : (readCells i n r s).2.Kept base :=
  foldl_loseCell_kept (sramFixed_kept hs)

theorem readBank_kept {i n q row r} (hs : s.Kept base) : (readBank i n q row r s).2.Kept base := by
  unfold readBank
  split
  next t _ u e =>
    have hu : u.Kept base := snd_kept e (readCells_kept hs)
    exact ite_kept hu (State.modPress_kept hu)

theorem readPool_kept {i item q k} (hs : s.Kept base) : (readPool i item q k s).2.Kept base :=
  ite_snd_kept hs (poolRead_kept hs)

theorem State.modStream_kept {i f} (hs : s.Kept base) : (s.modStream i f).Kept base := State.modPress_kept hs
theorem setProg_kept {i p} (hs : s.Kept base) : (setProg i p s).Kept base := State.modStream_kept hs
theorem pushBy_kept {i e} (hs : s.Kept base) : (pushBy i e s).Kept base := push_kept (setProg_kept hs)
theorem retire_kept {i} (hs : s.Kept base) : (retire i s).Kept base := State.modStream_kept hs

theorem noteWait_kept {i row isPush} (hs : s.Kept base) : (noteWait i row isPush s).Kept base :=
  ite_kept (State.modStream_kept hs) (State.modPress_kept (State.modStream_kept hs))

theorem waitSources_kept {i queues} (hs : s.Kept base) : (waitSources i queues s).Kept base :=
  ite_kept (State.modPress_kept hs) hs

theorem stepAside_kept {i} (hs : s.Kept base) : (stepAside i s).Kept base :=
  ite_kept (retire_kept (State.modStream_kept hs)) hs

theorem settle_kept {i x} (hx : x.Kept base) : (settle i x).Kept base := by
  unfold settle
  split
  next _ t =>
    exact hx
  next _ _ _ t =>
    exact stepAside_kept (noteWait_kept hx)

theorem streamRelease_kept {p id} (hs : s.Kept base) : (streamRelease p id s).Kept base := by
  unfold streamRelease
  extract_lets
  split
  · exact hs
  · exact ite_kept (State.modPress_kept hs) hs

theorem breakHit_kept {k u tt} (hs : s.Kept base) : (breakHit k u tt s).Kept base := hs
theorem takeWord_kept {i} (hs : s.Kept base) : (takeWord i s).Kept base := State.modStream_kept hs

theorem issue_kept {ok run i} (hrun : ∀ i s, s.Kept base → (run i s).Kept base) (hs : s.Kept base) :
    (issue ok run i s).Kept base := by
  unfold issue
  extract_lets _ _ _ _ s1
  have h1 : s1.Kept base := takeWord_kept (streamRelease_kept hs)
  refine ite_kept (streamRelease_kept hs) ?_
  split
  · exact intrude_kept (breakHit_kept (State.modStream_kept (streamRelease_kept hs)))
  · split
    · exact settle_kept (hrun _ _ h1)
    · exact settle_kept (hrun _ _ (State.modPress_kept h1))
    · exact settle_kept (hrun _ _ (State.modPress_kept h1))
    · exact retire_kept (stepFault_kept (State.modPress_kept h1))

/-! ## Matrix -/

theorem rowHazard_kept {i kind q row other} (hs : s.Kept base) :
    (rowHazard i kind q row other s).Kept base := hazard_kept hs

theorem wloadLoop_kept {n x} (hs : s.Kept base) : (wloadLoop n x s).Kept base := by
  induction n generalizing x s with
  | zero => exact hs
  | succ n ih =>
    rw [wloadLoop]
    refine Act.ite_kept ?_ (State.modPress_kept hs)
    split
    · dsimp only
      exact ih (setProg_kept (popHead_kept (readPool_kept hs)))
    · exact hs

theorem wloadAct_kept {i} (hs : s.Kept base) : (wloadAct i s).Kept base := wloadLoop_kept hs

theorem waveParity_kept {i n} (hs : s.Kept base) : (waveParity i n s).Kept base :=
  foldl_kept (fun _ _ ht => stepFault_kept (State.modPress_kept ht)) hs

theorem passWave_kept {i n e} (hs : s.Kept base) : (passWave i n e s).Kept base := by
  unfold passWave
  extract_lets
  split
  · split
    next t _ u e =>
      have hu : u.Kept base := snd_kept e (ite_snd_kept (readCells_kept hs) hs)
      exact ite_kept (rowHazard_kept (ite_kept (rowHazard_kept (State.modPress_kept hu))
        (State.modPress_kept hu))) (ite_kept (rowHazard_kept (State.modPress_kept hu))
        (State.modPress_kept hu))

theorem passLoop_kept {n x} (hs : s.Kept base) : (passLoop n x s).Kept base := by
  induction n generalizing x s with
  | zero => exact hs
  | succ n ih =>
    rw [passLoop]
    refine Act.ite_kept hs ?_
    extract_lets
    split
    · exact ite_kept (rowHazard_kept hs) hs
    · refine Act.ite_kept ?_ hs
      dsimp only
      exact ih (setProg_kept (passWave_kept (waveParity_kept (popHead_kept (readPool_kept hs)))))

theorem passAct_kept {i} (hs : s.Kept base) : (passAct i s).Kept base := passLoop_kept (State.modPress_kept hs)

theorem waddLoop_kept {n x} (hs : s.Kept base) : (waddLoop n x s).Kept base := by
  induction n generalizing x s with
  | zero => exact hs
  | succ n ih =>
    rw [waddLoop]
    refine Act.ite_kept hs ?_
    dsimp only
    split
    · exact ite_kept (rowHazard_kept hs) hs
    · refine Act.ite_kept (ih (setProg_kept ?_)) hs
      have hcells {b i k r} : (if b = true then readCells x i r (readPool x k (wSrcA x.word) 0 s).2
          else (r, (readPool x k (wSrcA x.word) 0 s).2)).2.Kept base :=
        ite_snd_kept (readCells_kept (readPool_kept hs)) (readPool_kept hs)
      exact ite_kept (rowHazard_kept (State.modPress_kept (popHead_kept hcells)))
        (State.modPress_kept (popHead_kept hcells))

theorem waddAct_kept {i} (hs : s.Kept base) : (waddAct i s).Kept base := waddLoop_kept hs

theorem execWload_kept {i} (hs : s.Kept base) : Out.Kept base (execWload i s) :=
  Out.kept_next (issue_kept (fun _ _ => wloadAct_kept) hs)

theorem execPass_kept {i} (hs : s.Kept base) : Out.Kept base (execPass i s) :=
  Out.kept_next (issue_kept (fun _ _ => passAct_kept) hs)

theorem execWadd_kept {i} (hs : s.Kept base) : Out.Kept base (execWadd i s) :=
  Out.kept_next (issue_kept (fun _ _ => waddAct_kept) hs)

/-! ## Operands -/

theorem readSrc_kept {i srcs j v round active} (hs : s.Kept base) :
    (readSrc i srcs j v round active s).2.Kept base := by
  unfold readSrc
  extract_lets
  split
  · split
    · exact hs
    · split
      next t _ u e =>
        have hu : u.Kept base := snd_kept e (ite_snd_kept (readBank_kept hs) hs)
        exact ite_kept (State.modPress_kept hu) hu
  · exact ite_snd_kept (readPool_kept hs) hs

theorem popSrc_kept {p q} (hs : s.Kept base) : (popSrc p q s).Kept base :=
  ite_kept (State.modPress_kept hs) (popHead_kept hs)

theorem readAll_kept {i srcs round active j vs} (hs : s.Kept base) :
    (readAll i srcs round active j vs s).2.Kept base := by
  induction vs generalizing j s with
  | nil => exact hs
  | cons v vs ih => exact ih (readSrc_kept hs)

theorem vecLoop_kept {n x x3} (hs : s.Kept base) : (vecLoop n x x3 s).Kept base := by
  induction n generalizing x x3 s with
  | zero => exact hs
  | succ n ih =>
    rw [vecLoop]
    split
    · exact Act.ite_kept (ih (pushBy_kept (setProg_kept hs))) hs
    · refine Act.ite_kept (foldl_kept (fun _ _ => popSrc_kept) hs) (Act.ite_kept ?_ (waitSources_kept hs))
      exact ih (setProg_kept (State.modPress_kept (foldl_kept (fun _ _ => popSrc_kept) (readAll_kept hs))))

theorem runVec_kept {op i} (hs : s.Kept base) : (runVec op i s).Kept base := vecLoop_kept hs

/-! ## Mover -/

theorem readStore_kept {i item a} (hs : s.Kept base) : (readStore i item a s).2.Kept base := by
  unfold readStore
  extract_lets
  exact ite_snd_kept (stepFault_kept (State.modPress_kept (State.modPress_kept hs)))
    (State.modPress_kept hs)

theorem touchX_kept {i a write} (hs : s.Kept base) : (touchX i a write s).Kept base :=
  ite_kept (ite_kept (hazard_kept (State.modPress_kept hs)) (State.modPress_kept hs)) hs

theorem fetchLoop_kept {addr n x} (hs : s.Kept base) : (fetchLoop addr n x s).Kept base := by
  induction n generalizing x s with
  | zero => exact hs
  | succ n ih =>
    rw [fetchLoop]
    refine Act.ite_kept hs ?_
    exact Act.ite_kept (ih (pushBy_kept (setProg_kept (readStore_kept (touchX_kept hs))))) hs

theorem storeLoop_kept {addr n x} (hs : s.Kept base) : (storeLoop addr n x s).Kept base := by
  induction n generalizing x s with
  | zero => exact hs
  | succ n ih =>
    rw [storeLoop]
    refine Act.ite_kept hs (Act.ite_kept ?_ hs)
    extract_lets
    exact ih (setProg_kept (State.modPress_kept (touchX_kept (popHead_kept (readPool_kept hs)))))

theorem loadAct_kept {i} (hs : s.Kept base) : (loadAct i s).Kept base := fetchLoop_kept hs
theorem storeAct_kept {i} (hs : s.Kept base) : (storeAct i s).Kept base := storeLoop_kept hs
theorem platRdAct_kept {i} (hs : s.Kept base) : (platRdAct i s).Kept base := fetchLoop_kept hs
theorem platWrAct_kept {i} (hs : s.Kept base) : (platWrAct i s).Kept base := storeLoop_kept hs

theorem moveLoop_kept {n x} (hs : s.Kept base) : (moveLoop n x s).Kept base := by
  induction n generalizing x s with
  | zero => exact hs
  | succ n ih =>
    rw [moveLoop]
    split
    · exact Act.ite_kept (ih (pushBy_kept (setProg_kept hs))) hs
    · refine Act.ite_kept hs (Act.ite_kept (ih (setProg_kept ?_)) hs)
      exact ite_kept (readPool_kept hs) (popHead_kept (readPool_kept hs))

theorem moveAct_kept {i} (hs : s.Kept base) : (moveAct i s).Kept base := moveLoop_kept hs

theorem wideLoop_kept {n x} (hs : s.Kept base) : (wideLoop n x s).Kept base := by
  induction n generalizing x s with
  | zero => exact hs
  | succ n ih =>
    rw [wideLoop]
    refine Act.ite_kept hs ?_
    split
    · exact hs
    · refine Act.ite_kept ?_ hs
      extract_lets
      split
      next t _ u e =>
        have hu : u.Kept base := snd_kept e (ite_snd_kept (readBank_kept hs) hs)
        exact ih (setProg_kept (ite_kept (popSrc_kept (pushBy_kept hu)) (pushBy_kept hu)))

theorem moveWideAct_kept {i} (hs : s.Kept base) : (moveWideAct i s).Kept base := wideLoop_kept hs

theorem sendRequest_kept {press write far items} (hs : s.Kept base) :
    (sendRequest press write far items s).Kept base := by
  unfold sendRequest
  extract_lets
  split
  · refine foldl_kept (fun _ _ ht => ?_) hs
    split
    · exact State.modFar_kept ht
    · exact ht
  · refine foldl_kept (fun _ _ ht => ?_) hs
    split
    · exact State.modChan_kept ht
    · exact ht

theorem requestLoop_kept {write far n x} (hs : s.Kept base) : (requestLoop write far n x s).Kept base := by
  induction n generalizing x s with
  | zero => exact hs
  | succ n ih =>
    rw [requestLoop]
    refine Act.ite_kept (Act.ite_kept ?_ hs) (sendRequest_kept hs)
    exact ih (setProg_kept (popHead_kept (readPool_kept hs)))

theorem nearRdAct_kept {i} (hs : s.Kept base) : (nearRdAct i s).Kept base := requestLoop_kept hs
theorem nearWrAct_kept {i} (hs : s.Kept base) : (nearWrAct i s).Kept base := requestLoop_kept hs
theorem farRdAct_kept {i} (hs : s.Kept base) : (farRdAct i s).Kept base := requestLoop_kept hs
theorem farWrAct_kept {i} (hs : s.Kept base) : (farWrAct i s).Kept base := requestLoop_kept hs

theorem issueX_kept {op run i} (hrun : ∀ i s, s.Kept base → (run i s).Kept base) (hs : s.Kept base) :
    Out.Kept base (issueX op run i s) :=
  Out.kept_next (issue_kept (fun _ _ h => hrun _ _ h) hs)

theorem execLoad_kept {i} (hs : s.Kept base) :
    Out.Kept base (execLoad i s) := issueX_kept (fun _ _ => loadAct_kept) hs

theorem execStore_kept {i} (hs : s.Kept base) :
    Out.Kept base (execStore i s) := issueX_kept (fun _ _ => storeAct_kept) hs

theorem execMove_kept {i} (hs : s.Kept base) : Out.Kept base (execMove i s) :=
  Out.kept_next (issue_kept (fun _ _ => moveAct_kept) hs)

theorem execMoveWide_kept {i} (hs : s.Kept base) : Out.Kept base (execMoveWide i s) :=
  Out.kept_next (issue_kept (fun _ _ => moveWideAct_kept) hs)

theorem execPlatRd_kept {i} (hs : s.Kept base) :
    Out.Kept base (execPlatRd i s) := issueX_kept (fun _ _ => platRdAct_kept) hs

theorem execPlatWr_kept {i} (hs : s.Kept base) :
    Out.Kept base (execPlatWr i s) := issueX_kept (fun _ _ => platWrAct_kept) hs

theorem execNearRd_kept {i} (hs : s.Kept base) :
    Out.Kept base (execNearRd i s) := issueX_kept (fun _ _ => nearRdAct_kept) hs

theorem execNearWr_kept {i} (hs : s.Kept base) :
    Out.Kept base (execNearWr i s) := issueX_kept (fun _ _ => nearWrAct_kept) hs

theorem execFarRd_kept {i} (hs : s.Kept base) :
    Out.Kept base (execFarRd i s) := issueX_kept (fun _ _ => farRdAct_kept) hs

theorem execFarWr_kept {i} (hs : s.Kept base) :
    Out.Kept base (execFarWr i s) := issueX_kept (fun _ _ => farWrAct_kept) hs

/-! ## Sheet -/

theorem writePlace_kept {r off bs} (hs : s.Kept base) : (writePlace r off bs s).Kept base := by
  unfold writePlace
  split
  · exact hs
  · exact State.modPress_kept hs

theorem State.modDeskSheet_kept {f} (hs : s.Kept base) : (s.modDeskSheet f).Kept base := ite_kept hs hs
theorem tallyWrite_kept {w l} (hs : s.Kept base) : (tallyWrite w l s).Kept base := nearPut_kept hs

/-! ## Sampler -/

theorem fillBerth_kept {r} (hs : s.Kept base) : (fillBerth r s).Kept base := by
  unfold fillBerth
  split
  · exact hs
  · split
    · exact hs
    · extract_lets
      split
      · exact writePlace_kept (State.modDeskSheet_kept hs)
      · exact State.modDeskSheet_kept hs

theorem smpRelease_kept (hs : s.Kept base) :
    (smpRelease s).Kept base := foldl_kept (fun _ _ => fillBerth_kept) hs

theorem smpGo_kept (hs : s.Kept base) : (smpGo s).Kept base := by
  unfold smpGo
  split
  · exact hs
  · exact ite_kept hs (ite_kept (smpRelease_kept hs) hs)

theorem pullPicker_kept {n k p} (hs : s.Kept base) : (pullPicker n k p s).Kept base := by
  induction n generalizing s with
  | zero => exact hs
  | succ n ih =>
    rw [pullPicker]
    split
    · exact hs
    · refine ih (popHead_kept ?_)
      exact (poolRead_kept hs).congr rfl rfl rfl rfl

theorem pullAll_kept {plan rows} (hs : s.Kept base) : (pullAll plan rows s).Kept base := by
  unfold pullAll
  extract_lets
  refine foldl_kept (fun _ _ ht => ?_) (ite_kept hs hs)
  split
  · split
    · exact ht
    · exact pullPicker_kept ht

theorem smpRow_kept {plan} (hs : s.Kept base) : (smpRow plan s).Kept base := hs

theorem smpRows_kept {n x} (hs : s.Kept base) : (smpRows n x s).Kept base := by
  induction n generalizing x s with
  | zero => exact hs
  | succ n ih =>
    rw [smpRows]
    refine ite_kept hs ?_
    extract_lets
    refine ite_kept (pullAll_kept hs) ?_
    split
    · refine intrude_kept ?_
      extract_lets t
      have ht : t.Kept base := breakHit_kept (pullAll_kept hs)
      exact ht
    · exact ih (smpRow_kept (pullAll_kept hs))

theorem execSamplerRows_kept (hs : s.Kept base) : Out.Kept base (execSamplerRows s) := by
  unfold execSamplerRows
  extract_lets
  refine Out.kept_next ?_
  split
  · exact ite_kept (smpGo_kept hs) (smpRows_kept (ite_kept (smpGo_kept hs) (smpGo_kept hs)))
  · exact smpGo_kept hs

theorem smpMark_kept {v due} (hs : s.Kept base) : (smpMark v due s).Kept base := smpGo_kept hs

theorem execSamplerDueMark_kept (hs : s.Kept base) : Out.Kept base (execSamplerDueMark s) := by
  unfold execSamplerDueMark
  extract_lets
  refine Out.kept_next ?_
  split
  · refine ite_kept ?_ (smpGo_kept hs)
    extract_lets
    split
    · exact ite_kept (raiseHold_kept (smpMark_kept (smpGo_kept hs))) (smpMark_kept (smpGo_kept hs))
    · exact smpMark_kept (smpGo_kept hs)
  · exact smpGo_kept hs

theorem execSamplerDepartMark_kept (hs : s.Kept base) : Out.Kept base (execSamplerDepartMark s) := by
  unfold execSamplerDepartMark
  extract_lets
  refine Out.kept_next ?_
  split
  · exact ite_kept (smpGo_kept hs) (smpMark_kept (smpGo_kept hs))
  · exact smpGo_kept hs

theorem execSamplerLoop_kept (hs : s.Kept base) : Out.Kept base (execSamplerLoop s) := by
  unfold execSamplerLoop
  extract_lets
  refine Out.kept_next ?_
  split <;> exact smpGo_kept hs

theorem execSamplerEnd_kept (hs : s.Kept base) : Out.Kept base (execSamplerEnd s) := by
  unfold execSamplerEnd
  extract_lets
  refine Out.kept_next ?_
  split <;> exact smpGo_kept hs

/-! ## Pool -/

theorem allocRes_kept {w k size align} (hs : s.Kept base) : (allocRes w k size align s).2.Kept base := by
  unfold allocRes
  split <;> exact hs

theorem allocInput_kept {w a size} (hs : s.Kept base) : (allocInput w a size s).Kept base := hs
theorem freeAt_kept {a} (hs : s.Kept base) : (freeAt a s).Kept base := hs

theorem ensureScore_kept {w pages} (hs : s.Kept base) : (ensureScore w pages s).Kept base := by
  unfold ensureScore
  split
  · exact nearZero_kept (allocRes_kept hs)
  · extract_lets
    exact ite_kept hs (foldl_kept (fun _ _ => nearPut_kept) (nearZero_kept (allocRes_kept hs)))

theorem freePages_kept {w} (hs : s.Kept base) : (freePages w s).Kept base := hs

theorem ensureRoot_kept {w} (hs : s.Kept base) : (ensureRoot w s).Kept base :=
  ite_kept (nearZero_kept (allocRes_kept hs)) hs

theorem ensureBlock_kept {w layer page} (hs : s.Kept base) : (ensureBlock w layer page s).Kept base := by
  unfold ensureBlock
  extract_lets
  refine ite_kept hs ?_
  exact ite_kept (allocRes_kept hs) (ite_kept (nearPut_kept
    (nearPut_kept (nearZero_kept (allocRes_kept hs))))
    (nearPut_kept (nearPut_kept (nearZero_kept (allocRes_kept hs)))))

theorem ensureFrame_kept {w layer page} (hs : s.Kept base) : (ensureFrame w layer page s).Kept base := by
  unfold ensureFrame
  refine ite_kept hs ?_
  split
  next t _ u e =>
    have hu : u.Kept base := snd_kept e (allocRes_kept hs)
    split
    · exact nearPut_kept hu
    · exact hu

theorem ensureHead_kept {w layer page} (hs : s.Kept base) : (ensureHead w layer page s).Kept base := by
  unfold ensureHead
  refine ite_kept hs ?_
  split
  next t _ u e =>
    have hu : u.Kept base := snd_kept e (allocRes_kept hs)
    split
    · exact nearPut_kept hu
    · exact hu

theorem setDirFlag_kept {w layer page mask} (hs : s.Kept base) : (setDirFlag w layer page mask s).Kept base := by
  unfold setDirFlag
  split
  · exact nearPut_kept hs
  · exact hs

theorem overPages_kept {layers first n f} (hf : ∀ i j s, s.Kept base → (f i j s).Kept base) (hs : s.Kept base) :
    (overPages layers first n f s).Kept base :=
  foldl_kept (fun _ _ ht => foldl_kept (fun _ _ hu => hf _ _ _ hu) ht) hs

theorem slotPut_kept {slot a bs} (hs : s.Kept base) : (slotPut slot a bs s).Kept base := by
  unfold slotPut
  split
  · exact State.modPress_kept hs
  · exact hs

theorem writeLists_kept {m v rows} (hs : s.Kept base) : (writeLists m v rows s).Kept base :=
  foldl_kept (fun _ _ ht => slotPut_kept (slotPut_kept ht)) hs

theorem writeWindows_kept {m v sheet} (hs : s.Kept base) : (writeWindows m v sheet s).Kept base :=
  foldl_kept (fun _ _ => slotPut_kept) hs

theorem writeLogLanes_kept {m v step} (hs : s.Kept base) : (writeLogLanes m v step s).Kept base :=
  ite_kept hs (foldl_kept (fun _ _ => slotPut_kept) hs)

theorem writeLiveryList_kept {p sheet} (hs : s.Kept base) :
    (writeLiveryList p sheet s).Kept base := writePlace_kept hs

/-! ## Boot -/

theorem putImageSlot_kept {b img} (hs : s.Kept base) : (putImageSlot b img s).Kept base := nearPut_kept hs

theorem writeRecord_kept {b} (hs : s.Kept base) :
    (writeRecord b s).Kept base := nearPut_kept (State.draw_kept hs)

theorem beginHandover_kept (hs : s.Kept base) :
    (beginHandover s).Kept base := foldl_kept (fun _ _ => writeRecord_kept) hs

/-! ## Edition -/

theorem postAtEdition_kept (hs : s.Kept base) :
    (postAtEdition s).Kept base := foldl_kept (fun _ _ => post_kept) hs

theorem showTable_kept (hs : s.Kept base) : (showTable s).Kept base := hs
theorem showEntry_kept {i} (hs : s.Kept base) : (showEntry i s).Kept base := hs
theorem reportTerminus_kept (hs : s.Kept base) : (reportTerminus s).Kept base := hs

theorem writeEdition_kept (hs : s.Kept base) : (writeEdition s).Kept base := by
  unfold writeEdition
  extract_lets _ _ _ s1
  have h1 : s1.Kept base := ite_kept (sharedWrite_kept (sharedWrite_kept (sharedWrite_kept hs))) hs
  exact postAtEdition_kept (sharedMirror_kept h1)

/-! ## Command -/

theorem cmdBegin_kept {d} (hs : s.Kept base) : (cmdBegin d s).Kept base := hs

theorem command_kept {d used run} (hrun : ∀ s, s.Kept base → (run s).Kept base) (hs : s.Kept base) :
    (command d used run s).Kept base :=
  ite_kept (hrun _ (cmdBegin_kept hs)) (finish_kept (cmdBegin_kept hs))

theorem commandBlk_kept {d used blk run} (hrun : ∀ s, s.Kept base → (run s).Kept base) (hs : s.Kept base) :
    (commandBlk d used blk run s).Kept base :=
  command_kept (fun _ h => ite_kept (finish_kept h) (ite_kept (finish_kept h) (hrun _ h))) hs

theorem commandReply_kept {d used kib run} (hrun : ∀ s, s.Kept base → (run s).Kept base) (hs : s.Kept base) :
    (commandReply d used kib run s).Kept base :=
  command_kept (fun _ h => ite_kept (hrun _ h) (finish_kept h)) hs

theorem issueReads_kept {n} (hs : s.Kept base) : (issueReads n s).Kept base := by
  induction n generalizing s with
  | zero => exact hs
  | succ n ih =>
    rw [issueReads]
    refine ite_kept hs ?_
    split
    · exact hs
    · exact ih (kclSend_kept hs)

theorem romReads_kept {addr n} (hs : s.Kept base) :
    (romReads addr n s).Kept base := ite_kept hs (issueReads_kept hs)

theorem endRomReads_kept (hs : s.Kept base) : (endRomReads s).Kept base := hs
theorem showPresent_kept {d} (hs : s.Kept base) : (showPresent d s).Kept base := ite_kept hs hs

theorem formeRefuse_kept {d status reason} (hs : s.Kept base) : (formeRefuse d status reason s).Kept base :=
  finishReason_kept (showPresent_kept hs)

theorem formeDone_kept {d result} (hs : s.Kept base) :
    (formeDone d result s).Kept base := finish_kept (showPresent_kept hs)

theorem pageChange_kept {old new} (hnew : new.Kept base) : (pageChange old new).Kept base :=
  ite_kept hnew (writeEdition_kept hnew)

theorem formeQueued_kept {d} (hs : s.Kept base) : (formeQueued d s).Kept base := queued_kept hs

theorem readFailed_kept {d} (hs : s.Kept base) : (readFailed d s).Kept base :=
  ite_kept (formeRefuse_kept hs) (finish_kept hs)

theorem dropTensors_kept {l} (hs : s.Kept base) : (dropTensors l s).Kept base := hs

theorem readsFailed_kept {d was} (hs : s.Kept base) : (readsFailed d was s).Kept base :=
  readFailed_kept (dropTensors_kept hs)

/-! ## Sequencer -/

theorem dropLine_kept {a} (hs : s.Kept base) : (dropLine a s).Kept base := hs
theorem shareLine_kept {a} (hs : s.Kept base) : (shareLine a s).Kept base := hs

theorem foldl_snd_kept {α β} {f : β × State → α → β × State} {l : List α} (hf : ∀ p x, p.2.Kept base → (f p x).2.Kept base) :
    ∀ {p : β × State}, p.2.Kept base → (l.foldl f p).2.Kept base := by
  induction l with
  | nil => exact id
  | cons x l ih => exact fun hp => ih (hf _ x hp)

theorem spoilLine_kept {a} (hs : s.Kept base) : (spoilLine s a).Kept base := by
  unfold spoilLine
  split
  next words t e =>
    have ht : t.Kept base := by
      refine snd_kept e (foldl_snd_kept ?_ hs)
      exact fun _ _ h => State.draw_kept h
    exact ht.nearWrite

theorem spoilLines_kept {a n} (hs : s.Kept base) :
    (spoilLines a n s).Kept base := foldl_kept (fun _ _ => spoilLine_kept) hs

theorem serveHost_kept {h r} (hs : s.Kept base) : (serveHost h r s).Kept base := by
  unfold serveHost
  extract_lets _ c
  have hc : ∀ a w, (c a w s).Kept base := fun _ _ => State.modChan_kept hs
  clear_value c
  split
  · exact ite_kept (respond_kept (hc _ _)) (respond_kept (hc _ _))
  · exact ite_kept (respond_kept (hc _ _)) (respond_kept (hc _ _))
  · exact respond_kept (hc _ _)
  · exact ite_kept (respond_kept (hc _ _)) (respond_kept (spoilLines_kept (hc _ _).nearWrite))
  · extract_lets s1
    have h1 : s1.Kept base := dropLine_kept (hc _ _)
    clear_value s1
    exact ite_kept (respond_kept h1) (respond_kept h1.nearWrite)
  · exact hs
  · extract_lets s1 s2
    have h1 : s1.Kept base := hc _ _
    have h2 : s2.Kept base := ite_kept (dropLine_kept h1) (shareLine_kept h1)
    exact ite_kept h2 h2.nearWrite

theorem serveBox_kept {c b r} (hs : s.Kept base) : (serveBox c b r s).Kept base := by
  unfold serveBox
  extract_lets s1
  have h1 : s1.Kept base := State.modChan_kept hs
  split
  · exact ite_kept h1 h1.nearEntry
  · exact h1

theorem serveLate_kept {c w r} (hs : s.Kept base) : (serveLate c w r s).Kept base := by
  unfold serveLate
  extract_lets s1
  have h1 : s1.Kept base := State.modChan_kept hs
  exact ite_kept h1 h1.nearWrite

theorem serveShared_kept {c r t} (hs : s.Kept base) (h : serveShared c r s = some t) : t.Kept base := by
  unfold serveShared at h
  split at h
  · split at h
    · cases h
    · extract_lets s1 at h
      have h1 : s1.Kept base := hs
      obtain rfl := Option.some.inj h
      exact ite_kept h1 h1.nearWrite
  · cases h

theorem seqGo_kept {c} (hs : s.Kept base) : (seqGo c s).Kept base := State.modChan_kept hs
theorem seqPass_kept {c} (hs : s.Kept base) : (seqPass c s).Kept base := State.modChan_kept hs

theorem seqEntry_kept {c r a data perform acc} (hs : s.Kept base) : (seqEntry c r a data perform acc s).Kept base := by
  unfold seqEntry
  refine ite_kept hs ?_
  extract_lets _ _ s1
  have h1 : s1.Kept base := ite_kept (stepFault_kept (State.modChan_kept hs)) (State.modChan_kept hs)
  exact ite_kept (ite_kept h1 h1.nearEntry) h1

theorem seqEntries_kept {c r l l4 l5} (hs : s.Kept base) : (seqEntries c r l l4 l5 s).Kept base := by
  induction l generalizing l4 l5 s with
  | nil => exact hs
  | cons x l ih =>
    rw [seqEntries]
    exact ih (seqEntry_kept hs)

theorem execSeqSlotPress_kept {c res} (hs : s.Kept base) : Out.Kept base (execSeqSlotPress c res s) := by
  unfold execSeqSlotPress
  extract_lets
  split
  · refine Out.ite_kept ?_ (Out.kept_next (seqGo_kept hs))
    split
    · exact Out.kept_next (seqPass_kept (seqEntries_kept (State.modChan_kept (seqGo_kept hs))))
    · exact Out.kept_next (State.modChan_kept (seqGo_kept hs))
  · exact Out.kept_next (seqGo_kept hs)

theorem execPortionArrival_kept {c slot} (hs : s.Kept base) : Out.Kept base (execPortionArrival c slot s) := by
  refine Out.kept_next ?_
  split
  · exact State.modChan_kept hs
  · exact hs

theorem execSeqMark_kept {c} (hs : s.Kept base) : Out.Kept base (execSeqMark c s) := by
  unfold execSeqMark
  extract_lets
  split
  · exact Out.kept_next (seqGo_kept (State.modChan_kept (seqGo_kept hs)))
  · exact Out.kept_next (seqGo_kept hs)

theorem execSeqLoop_kept {c} (hs : s.Kept base) : Out.Kept base (execSeqLoop c s) := by
  unfold execSeqLoop
  extract_lets
  split
  · exact Out.kept_next (State.modChan_kept (seqGo_kept hs))
  · exact Out.kept_next (seqGo_kept hs)

theorem execSeqEnd_kept {c} (hs : s.Kept base) : Out.Kept base (execSeqEnd c s) := by
  unfold execSeqEnd
  extract_lets
  split
  · exact Out.kept_next (State.modChan_kept (seqGo_kept hs))
  · exact Out.kept_next (seqGo_kept hs)

theorem farGo_kept {f} (hs : s.Kept base) : (farGo f s).Kept base := State.modFar_kept hs

theorem farEntry_kept {f r a data perform acc} (hs : s.Kept base) : (farEntry f r a data perform acc s).Kept base := by
  unfold farEntry
  refine ite_kept hs ?_
  extract_lets _ s1
  have h1 : s1.Kept base := ite_kept (stepFault_kept (State.modFar_kept hs)) (State.modFar_kept hs)
  refine ite_kept ?_ h1
  split
  · exact ite_kept h1 h1.farEntry
  · exact h1

theorem farEntries_kept {f r l l4 l5} (hs : s.Kept base) : (farEntries f r l l4 l5 s).Kept base := by
  induction l generalizing l4 l5 s with
  | nil => exact hs
  | cons x l ih =>
    rw [farEntries]
    exact ih (farEntry_kept hs)

theorem farBox_kept {f b acc} (hs : s.Kept base) : (farBox f b acc s).Kept base := by
  unfold farBox
  extract_lets
  exact ite_kept (stepFault_kept (State.modFar_kept hs)) (farWrite_kept (State.modFar_kept hs))

theorem farPass_kept {f} (hs : s.Kept base) : (farPass f s).Kept base := State.modFar_kept hs

theorem execFarStreamMark_kept {f} (hs : s.Kept base) : Out.Kept base (execFarStreamMark f s) := by
  unfold execFarStreamMark
  extract_lets
  split
  · exact Out.kept_next (farGo_kept (State.modFar_kept (farGo_kept hs)))
  · exact Out.kept_next (farGo_kept hs)

theorem execFarStreamLoop_kept {f} (hs : s.Kept base) : Out.Kept base (execFarStreamLoop f s) := by
  unfold execFarStreamLoop
  extract_lets
  split
  · exact Out.kept_next (State.modFar_kept (farGo_kept hs))
  · exact Out.kept_next (farGo_kept hs)

theorem execFarStreamEnd_kept {f} (hs : s.Kept base) : Out.Kept base (execFarStreamEnd f s) := by
  unfold execFarStreamEnd
  extract_lets
  split
  · exact Out.kept_next (State.modFar_kept (farGo_kept hs))
  · exact Out.kept_next (farGo_kept hs)

theorem farDown_kept {f} (hs : s.Kept base) : (farDown f s).Kept base := postEvent_kept (State.modFar_kept hs)

theorem execCxlCompletionTimeout_kept {f} (hs : s.Kept base) : Out.Kept base (execCxlCompletionTimeout f s) :=
  Out.kept_next (farDown_kept hs)

theorem execCxlLinkDown_kept {f} (hs : s.Kept base) : Out.Kept base (execCxlLinkDown f s) :=
  Out.kept_next (State.modFar_kept (farDown_kept hs))

theorem execCxlWriteCompletion_kept {f} (hs : s.Kept base) : Out.Kept base (execCxlWriteCompletion f s) :=
  Out.kept_next (State.modFar_kept hs)

/-! ## Berths -/

theorem queueReads_kept {kib n} (hs : s.Kept base) : (queueReads kib n s).Kept base :=
  foldl_kept (fun _ _ => State.modChan_kept) hs

theorem resendMirror_kept (hs : s.Kept base) : (resendMirror s).Kept base := by
  unfold resendMirror
  refine foldl_kept (fun _ _ ht => ?_) hs
  exact queueReads_kept ht

theorem queueMirror_kept {m} (hs : s.Kept base) :
    (queueMirror m s).Kept base := ite_kept hs (queueReads_kept hs)

theorem sendFetch_kept {x} (hs : s.Kept base) : (sendFetch x s).Kept base := by
  unfold sendFetch
  split
  · exact sendService_kept hs
  · exact hs

theorem takeSerial_kept {gid} (hs : s.Kept base) : (takeSerial gid s).Kept base := hs

theorem sendFwMessage_kept {m} (hs : s.Kept base) : (sendFwMessage m s).Kept base := by
  unfold sendFwMessage
  split
  · exact hs
  · exact sendControl_kept hs

theorem beginFetches_kept {l} (hs : s.Kept base) :
    (beginFetches l s).Kept base := foldl_kept (fun _ _ => sendFetch_kept) hs

theorem beginMoves_kept {j l} (hs : s.Kept base) : (beginMoves j l s).Kept base := hs

theorem moveNear_kept {c m r} (hs : s.Kept base) : (moveNear c m r s).Kept base := by
  unfold moveNear
  extract_lets s1
  have h1 : s1.Kept base := State.modChan_kept hs
  clear_value s1
  exact ite_kept h1 (ite_kept h1 (State.Kept.nearWrite (s := { s1 with mirror.moves := s1.mirror.moves.erase m }) h1))

theorem moveFar_kept {f m r} (hs : s.Kept base) : (moveFar f m r s).Kept base := by
  unfold moveFar
  extract_lets _ _ s1
  have h1 : s1.Kept base := ite_kept (stepFault_kept (State.modFar_kept hs)) (State.modFar_kept hs)
  exact ite_kept (ite_kept h1 (farWrite_kept h1)) h1

theorem moveAll_kept {l} (hs : s.Kept base) :
    (moveAll l s).Kept base := foldl_kept (fun _ _ => farWrite_kept) hs

theorem startStable_kept {w len} (hs : s.Kept base) : (startStable w len s).Kept base := by
  unfold startStable
  refine ite_kept hs ?_
  extract_lets
  split
  · exact beginMoves_kept hs
  · exact freePages_kept hs

theorem stabled_kept {w k} (hs : s.Kept base) : (stabled w k s).Kept base := freePages_kept hs

theorem execStablingCopyComplete_kept {w} (hs : s.Kept base) : Out.Kept base (execStablingCopyComplete w s) := by
  unfold execStablingCopyComplete
  extract_lets
  refine Out.kept_next ?_
  split
  · exact hs
  · exact ite_kept (stabled_kept hs) hs

theorem stablingCopy_kept {w} (hs : s.Kept base) : (stablingCopy w s).Kept base := by
  unfold stablingCopy
  split
  · exact hs
  · exact ite_kept hs (stabled_kept (moveAll_kept (beginMoves_kept hs)))

theorem execRestoreCopyComplete_kept {w} (hs : s.Kept base) : Out.Kept base (execRestoreCopyComplete w s) := by
  unfold execRestoreCopyComplete
  extract_lets
  refine Out.kept_next ?_
  split
  · exact hs
  · refine ite_kept hs ?_
    extract_lets s1
    have h1 : s1.Kept base := overPages_kept (fun _ _ _ h => ite_kept (setDirFlag_kept h) h) hs
    exact ite_kept h1 h1

theorem reachLength_kept {w l} (hs : s.Kept base) : (reachLength w l s).Kept base := by
  unfold reachLength
  split
  · exact hs
  · exact overPages_kept (fun _ _ _ h => queueMirror_kept (setDirFlag_kept h)) hs

theorem mirrorRelease_kept {i} (hs : s.Kept base) : (mirrorRelease i s).Kept base := by
  unfold mirrorRelease
  split
  · exact hs
  · exact sendService_kept hs

theorem reportNoRoom_kept {n b} (hs : s.Kept base) : (reportNoRoom n b s).Kept base := by
  unfold reportNoRoom
  split
  · exact writePlace_kept hs
  · exact hs

theorem processRelease_kept {n b} (hs : s.Kept base) : (processRelease n b s).Kept base := by
  unfold processRelease
  refine ite_kept (ite_kept (freePages_kept hs) (mirrorRelease_kept (freePages_kept hs)))
    (ite_kept ?_ hs)
  extract_lets _ _ _ _ s1
  have h1 : s1.Kept base := startStable_kept (reachLength_kept hs)
  exact ite_kept h1 (ite_kept (reportNoRoom_kept h1) h1)

theorem processLength_kept {b} (hs : s.Kept base) :
    (processLength b s).Kept base := ite_kept hs (reachLength_kept hs)

theorem processAlloc_kept {v b} (hs : s.Kept base) : (processAlloc v b s).Kept base := by
  unfold processAlloc
  extract_lets _ s1 _ _ _ _ _ _ copied s2 s3
  clear_value copied
  have h1 : s1.Kept base := ensureRoot_kept hs
  have h2 : s2.Kept base := by
    apply foldl_kept _ h1
    intro t _ ht
    extract_lets t1 t2 t3
    have ht1 : t1.Kept base := foldl_kept (fun _ _ => ensureBlock_kept) ht
    have ht2 : t2.Kept base := foldl_kept (fun _ _ => ensureFrame_kept) ht1
    have ht3 : t3.Kept base := foldl_kept (fun _ _ => ensureHead_kept) ht2
    split
    · exact ite_kept (foldl_kept (fun _ _ => ensureHead_kept) ht3) ht3
    · exact ht3
  have h3 : s3.Kept base := ite_kept (ensureScore_kept h2) h2
  refine ite_kept (ite_kept h3 ?_) h3
  split
  · exact ite_kept h3 (beginMoves_kept h3)
  · exact h3

theorem stageLivery_kept {slot k} (hs : s.Kept base) : (stageLivery slot k s).Kept base := beginMoves_kept hs
theorem unstage_kept {named step} (hs : s.Kept base) : (unstage named step s).Kept base := hs

theorem processLivery_kept {p stages b} (hs : s.Kept base) : (processLivery p stages b s).Kept base := by
  unfold processLivery
  refine ite_kept hs ?_
  split
  · exact hs
  · refine ite_kept hs ?_
    split
    · exact hs
    · exact stageLivery_kept hs

theorem fetchLogged_kept {v rows} (hs : s.Kept base) : (fetchLogged v rows s).Kept base := beginFetches_kept hs

theorem processSheet_kept {sheet release} (hs : s.Kept base) : (processSheet sheet release s).Kept base := by
  unfold processSheet
  split
  · exact hs
  · extract_lets _ s1 s2 s3 s4 _ s5 s6 s7
    have h1 : s1.Kept base := foldl_kept (fun _ _ => processRelease_kept) hs
    have h2 : s2.Kept base := foldl_kept (fun _ _ => processLength_kept) h1
    have h3 : s3.Kept base := foldl_kept (fun _ _ => processAlloc_kept) h2
    have h4 : s4.Kept base := by
      unfold s4
      split
      · exact foldl_kept (fun _ _ => processLivery_kept) h3
      · exact h3
    have h5 : s5.Kept base := writeWindows_kept (writeLists_kept h4)
    have h6 : s6.Kept base := by
      unfold s6
      split
      · exact writeLogLanes_kept h5
      · exact h5
    have h7 : s7.Kept base := by
      unfold s7
      split
      · exact writeLiveryList_kept h6
      · exact h6
    exact ite_kept (fetchLogged_kept h7) h7

theorem commitHeads_kept (hs : s.Kept base) : (commitHeads s).Kept base := by
  unfold commitHeads
  refine foldl_kept (fun t b ht => ?_) hs
  extract_lets _ s1
  have h1 : s1.Kept base := by
    unfold s1
    split
    · exact ht
    · exact ht
  exact overPages_kept (fun _ _ _ hu => queueMirror_kept (setDirFlag_kept hu)) h1

theorem reportRebuilt_kept {n} (hs : s.Kept base) : (reportRebuilt n s).Kept base := by
  unfold reportRebuilt
  extract_lets
  refine ite_kept hs ?_
  split
  · exact hs
  · exact sendFwMessage_kept (takeSerial_kept hs)

theorem settleRebuild_kept {n} (hs : s.Kept base) : (settleRebuild n s).Kept base := by
  unfold settleRebuild
  refine ite_kept hs ?_
  extract_lets
  exact ite_kept (ite_kept hs (reportRebuilt_kept hs)) (ite_kept hs (reportRebuilt_kept hs))

theorem commitRestores_kept (hs : s.Kept base) : (commitRestores s).Kept base := by
  unfold commitRestores
  split
  · exact hs
  · split
    · exact hs
    · refine settleRebuild_kept (foldl_kept (fun t b ht => ?_) hs)
      exact overPages_kept (fun _ _ _ hu => queueMirror_kept (setDirFlag_kept hu)) ht

theorem commitRankings_kept (hs : s.Kept base) : (commitRankings s).Kept base := hs

theorem commitLog_kept {step} (hs : s.Kept base) : (commitLog step s).Kept base := by
  unfold commitLog
  split
  · exact hs
  · split
    · exact hs
    · exact ite_kept hs hs

theorem execLogCopyComplete_kept (hs : s.Kept base) : Out.Kept base (execLogCopyComplete s) :=
  Out.kept_next (ite_kept hs hs)

theorem execRankingComplete_kept {w} (hs : s.Kept base) : Out.Kept base (execRankingComplete w s) :=
  Out.kept_next (ite_kept hs hs)

theorem execStagingCopyComplete_kept {slot} (hs : s.Kept base) : Out.Kept base (execStagingCopyComplete slot s) := by
  refine Out.kept_next ?_
  split
  · exact ite_kept hs hs
  · exact hs

/-! ## Publish -/

theorem outWrite_kept {ring rec} (hs : s.Kept base) : (outWrite ring rec s).Kept base := by
  unfold outWrite
  split
  · exact hs
  · exact sharedWrite_kept hs

theorem logColophon_kept {step i w recs} (hs : s.Kept base) : (logColophon step i w recs s).Kept base := by
  unfold logColophon
  split
  · exact hs
  · exact nearPut_kept hs

theorem publishAll_kept {step l} (hs : s.Kept base) : (publishAll step l s).Kept base := by
  unfold publishAll
  refine foldl_kept (fun _ _ ht => ?_) hs
  exact logColophon_kept (foldl_kept (fun _ _ => outWrite_kept) ht)

theorem writeLedger_kept {step} (hs : s.Kept base) : (writeLedger step s).Kept base := by
  unfold writeLedger
  extract_lets _ _ _ _ _ _ s1 s2 _ s3
  have h1 : s1.Kept base := foldl_kept (fun _ _ => nearPut_kept) hs
  have h2 : s2.Kept base := nearPut_kept h1
  have h3 : s3.Kept base := h2.congr rfl rfl rfl rfl
  exact ite_kept (foldl_kept (fun _ _ => queueMirror_kept) h3) h3

/-! ## Engine -/

theorem modWb_kept {i f} (hs : s.Kept base) : (modWb i f s).Kept base := hs

theorem timingChoice_kept {kind i} (hs : s.Kept base) : (timingChoice kind i s).Kept base := by
  unfold timingChoice
  extract_lets t
  have ht : t.Kept base := modWb_kept hs
  exact ht

theorem countChoices_kept (hs : s.Kept base) : (countChoices s).Kept base := by
  unfold countChoices
  refine foldl_kept (fun _ _ ht => ?_) hs
  exact ht

theorem closeWb_kept {i st code} (hs : s.Kept base) : (closeWb i st code s).Kept base := by
  unfold closeWb
  extract_lets t
  have ht : t.Kept base := modWb_kept hs
  exact ht

theorem fenceClosed_kept {i} (hs : s.Kept base) : (fenceClosed i s).Kept base := by
  unfold fenceClosed
  split
  · exact ite_kept (modWb_kept hs) hs
  · exact hs

theorem acceptRow_kept {r} (hs : s.Kept base) : (acceptRow r s).Kept base := by
  unfold acceptRow
  split
  · exact hs
  · split
    · exact hs
    · refine ite_kept hs (ite_kept (closeWb_kept hs) ?_)
      extract_lets
      exact ite_kept (closeWb_kept (foldl_kept (fun _ _ => queueMirror_kept) (tallyWrite_kept hs)))
        (foldl_kept (fun _ _ => queueMirror_kept) (tallyWrite_kept hs))

theorem endRestore_kept {b} (hs : s.Kept base) : (endRestore b s).Kept base := by
  unfold endRestore
  split
  · exact hs
  · exact ite_kept hs (ite_kept (modWb_kept hs) (modWb_kept hs))

theorem countSampler_kept (hs : s.Kept base) : (countSampler s).Kept base := hs
theorem dropTicket_kept {i cancelled} (hs : s.Kept base) : (dropTicket i cancelled s).Kept base := modWb_kept hs
theorem issueTicket_kept {ref i} (hs : s.Kept base) : (issueTicket ref i s).Kept base := modWb_kept hs

theorem expireWb_kept {ref i} (hs : s.Kept base) : (expireWb ref i s).Kept base := by
  unfold expireWb
  split
  · exact hs
  next w _ =>
    have hopen : (modWb i (fun w => { w with
        back := if w.state == .queued then (if w.restoring then w.back else .prefill) else w.state
        ticketEnd := none }) (timingChoice tcDeadline i s)).Kept base := modWb_kept (timingChoice_kept hs)
    have hclose : ∀ t, t.Kept base → (let u := closeWb i .expired stExpired t
        if w.expireStable && stableFits u i (pagesOf w.committed) then issueTicket ref i u else u).Kept base :=
      fun _ ht => ite_kept (issueTicket_kept (closeWb_kept ht)) (closeWb_kept ht)
    refine ite_kept hs ?_
    split
    iterate 3 exact hclose _ (ite_kept (modWb_kept hopen) (dropTicket_kept hopen))
    · exact closeWb_kept (dropTicket_kept (timingChoice_kept hs))
    · exact ite_kept (dropTicket_kept hs) hs
    · exact hs

theorem takeCancel_kept {i st cmd} (hs : s.Kept base) : (takeCancel i st cmd s).Kept base := by
  unfold takeCancel
  extract_lets fin
  have hfin : ∀ x t, t.Kept base → (fin x t).Kept base := by
    intro _ t ht
    unfold fin
    split
    · exact finishAtEdition_kept ht
    · exact ht
  split
  · exact hfin _ _ hs
  · split
    iterate 4 exact hfin _ _ (closeWb_kept (dropTicket_kept (timingChoice_kept hs)))
    · exact ite_kept (hfin _ _ (dropTicket_kept hs)) (hfin _ _ hs)
    · exact hfin _ _ hs

theorem takePending_kept {p} (hs : s.Kept base) : (takePending p s).Kept base := by
  unfold takePending
  split
  · exact ite_kept hs (takeCancel_kept (ite_kept (closeWb_kept (dropTicket_kept hs)) hs))
  · exact hs

theorem leaveBerth_kept {i kind} (hs : s.Kept base) : (leaveBerth i kind s).Kept base := by
  unfold leaveBerth
  split
  · exact hs
  · exact modWb_kept (ite_kept hs hs)

theorem issueTicketLater_kept {i} (hs : s.Kept base) : (issueTicketLater i s).Kept base := modWb_kept hs

theorem settleClose_kept {i} (hs : s.Kept base) : (settleClose i s).Kept base := by
  unfold settleClose
  split
  · exact hs
  · refine ite_kept hs ?_
    split
    · exact ite_kept (modWb_kept (leaveBerth_kept hs)) hs
    · refine leaveBerth_kept ?_
      extract_lets t
      have ht : t.Kept base := modWb_kept hs
      exact ht

theorem applyStable_kept {p ref i} (hs : s.Kept base) : (applyStable p ref i s).Kept base := by
  unfold applyStable
  extract_lets fin
  have hfin : ∀ x t, t.Kept base → (fin x t).Kept base := by
    intro _ t ht
    unfold fin
    split
    · exact finishAtEdition_kept ht
    · exact finishAtEdition_kept ht
    · exact ht
  split
  · exact hfin _ _ hs
  · exact ite_kept (hfin _ _ (modWb_kept hs)) (ite_kept hs
      (ite_kept (hfin _ _ (modWb_kept hs)) (hfin _ _ (leaveBerth_kept (modWb_kept (issueTicket_kept hs))))))

theorem mirrorStore_kept {i kib} (hs : s.Kept base) : (mirrorStore i kib s).Kept base :=
  foldl_kept (fun _ _ => queueMirror_kept) hs

theorem applyAppend_kept {p i store kib n} (hs : s.Kept base) : (applyAppend p i store kib n s).Kept base := by
  unfold applyAppend
  extract_lets fin
  have hfin : ∀ x t, t.Kept base → (fin x t).Kept base := by
    intro _ t ht
    unfold fin
    split
    · exact finishAtEdition_kept ht
    · exact finishAtEdition_kept ht
    · exact ht
  split
  · exact ite_kept (hfin _ _ (freeAt_kept hs)) (ite_kept (hfin _ _ (freeAt_kept hs))
      (hfin _ _ (mirrorStore_kept (modWb_kept (freeAt_kept (nearPut_kept hs))))))
  · exact hfin _ _ (freeAt_kept hs)

theorem applyResume_kept {p ticket deadline priority} (hs : s.Kept base) :
    (applyResume p ticket deadline priority s).Kept base := by
  unfold applyResume
  extract_lets _ fin _ s1
  have hfin : ∀ x y t, t.Kept base → (fin x y t).Kept base := by
    intro _ _ t ht
    unfold fin
    split
    · exact finishAtEdition_kept ht
    · exact ht
  have h1 : s1.Kept base := by
    unfold s1
    split
    · exact ite_kept hs hs
    · exact hs
  split
  · exact hfin _ _ _ hs
  · refine ite_kept (hfin _ _ _ (modWb_kept h1)) ?_
    split
    · exact ite_kept (hfin _ _ _ hs) (hfin _ _ _ hs)
    · exact hfin _ _ _ hs

theorem applyPending_kept {ref p} (hs : s.Kept base) : (applyPending ref p s).Kept base := by
  unfold applyPending
  split
  · extract_lets
    split
    · exact finishAtEdition_kept (mirrorStore_kept hs)
    · exact mirrorStore_kept hs
  · exact applyAppend_kept hs
  · exact hs
  · exact applyStable_kept hs
  · exact applyResume_kept hs
  · extract_lets
    split
    · exact finishAtEdition_kept hs
    · exact hs

theorem freeWb_kept {i} (hs : s.Kept base) : (freeWb i s).Kept base := by
  unfold freeWb
  split
  · exact hs
  · exact mirrorRelease_kept (freeAt_kept hs)

theorem freeClosed_kept (hs : s.Kept base) : (freeClosed s).Kept base := foldl_kept (fun _ _ => freeWb_kept) hs
theorem engineHandles_kept (hs : s.Kept base) : (engineHandles s).Kept base := hs

theorem unstageIdle_kept {step} (hs : s.Kept base) : (unstageIdle step s).Kept base :=
  ite_kept (unstage_kept hs) (unstage_kept hs)

theorem fenceCandidate_kept {i} (hs : s.Kept base) : (fenceCandidate i s).Kept base :=
  leaveBerth_kept (closeWb_kept (dropTicket_kept hs))

theorem visit_kept {v m step acc x} (hacc : acc.2.Kept base) : (visit v m step acc x).2.Kept base := by
  obtain ⟨a, s⟩ := acc
  obtain ⟨round, i⟩ := x
  unfold visit
  dsimp only
  split
  · exact hacc
  · refine ite_snd_kept hacc (ite_snd_kept hacc (ite_snd_kept hacc
      (ite_snd_kept (fenceCandidate_kept hacc) ?_)))
    refine ite_snd_kept hacc (modWb_kept ?_)
    split
    · exact stageLivery_kept hacc
    · exact hacc

theorem admitGo_kept {v x l} (hs : s.Kept base) : (admitGo v x l s).2.2.Kept base := by
  induction l generalizing x s with
  | nil => exact hs
  | cons x l ih =>
    rw [admitGo]
    split
    · exact hs
    · split
      · split
        next t _ u e =>
          have hu : u.Kept base := snd_kept e (visit_kept hs)
          exact ih hu
      · split
        · exact hs
        · split
          next t _ u e =>
            have hu : u.Kept base := snd_kept e (visit_kept (engineHandles_kept hs))
            exact ih hu

theorem admitEnd_kept {a} (hs : s.Kept base) : (admitEnd a s).2.Kept base := by
  unfold admitEnd
  extract_lets s1
  have h1 : s1.Kept base := by
    unfold s1
    refine foldl_kept (fun _ _ ht => ?_) hs
    split
    · exact ite_kept (timingChoice_kept ht) ht
    · exact ht
  exact h1

theorem buildSheet_kept {v m placed} (hs : s.Kept base) : (buildSheet v m placed s).2.2.Kept base :=
  foldl_kept (fun _ _ => modWb_kept) hs

theorem sendAgain_kept (hs : s.Kept base) : (sendAgain s).Kept base := hs
theorem noteDirectories_kept (hs : s.Kept base) : (noteDirectories s).Kept base := hs

theorem deskSheets_kept {v m placed} (hs : s.Kept base) : (deskSheets v m placed s).Kept base := by
  unfold deskSheets
  extract_lets put
  have hput : ∀ x y t, t.Kept base → (put x y t).Kept base := by
    intro _ _ t ht
    unfold put
    split
    · exact writePlace_kept ht
    · exact ht
  exact ite_kept (noteDirectories_kept (processSheet_kept (hput _ _ _ (buildSheet_kept hs))))
    (noteDirectories_kept (hput _ _ _ (buildSheet_kept (processSheet_kept hs))))

theorem liveriesValid_kept (hs : s.Kept base) : (liveriesValid s).Kept base := hs

theorem deskApply_kept (hs : s.Kept base) :
    (deskApply s).Kept base := foldl_kept (fun _ _ => settleClose_kept) hs

theorem deskWalk_kept {step ref} (hs : s.Kept base) : (deskWalk step ref s).Kept base := by
  unfold deskWalk
  split
  · exact hs
  · exact unstageIdle_kept (liveriesValid_kept hs)

theorem deskSettle_kept {v w} (hs : s.Kept base) : (deskSettle v w s).Kept base :=
  countChoices_kept (freeClosed_kept (deskSheets_kept (admitEnd_kept hs)))

theorem stageApply_kept {step} (hs : s.Kept base) : (stageApply step s).Kept base := by
  unfold stageApply
  split
  · exact hs
  · exact processSheet_kept (unstageIdle_kept (liveriesValid_kept hs))

theorem deskBegin_kept {ref} (hs : s.Kept base) : (deskBegin ref s).Kept base := hs

theorem handleRow_kept {k b} (hs : s.Kept base) : (handleRow k b s).Kept base := by
  unfold handleRow
  refine ite_kept hs (ite_kept (endRestore_kept hs) ?_)
  split
  · exact acceptRow_kept hs
  · exact hs

theorem closeNoRoom_kept {i ticket} (hs : s.Kept base) : (closeNoRoom i ticket s).Kept base := by
  unfold closeNoRoom
  split
  · exact hs
  · exact ite_kept hs (ite_kept (dropTicket_kept hs) (closeWb_kept (dropTicket_kept hs)))

theorem loseWb_kept {i} (hs : s.Kept base) : (loseWb i s).Kept base := by
  unfold loseWb
  split
  · exact ite_kept hs (closeWb_kept (modWb_kept hs))
  · exact hs

theorem EngWork.run_kept {ref x} (hs : s.Kept base) : (EngWork.run ref x s).Kept base := by
  unfold EngWork.run
  split
  · exact fenceClosed_kept (closeNoRoom_kept hs)
  · exact fenceClosed_kept (loseWb_kept hs)
  · exact fenceClosed_kept (expireWb_kept hs)
  · exact takePending_kept hs
  · exact applyPending_kept hs

theorem worksGo_kept {ref l} (hs : s.Kept base) : (worksGo ref l s).2.Kept base := by
  induction l generalizing s with
  | nil => exact hs
  | cons x l ih =>
    unfold worksGo
    split
    · refine ih ?_
      split
      · exact EngWork.run_kept hs
      all_goals exact hs
    · split
      · exact hs
      · exact ih (EngWork.run_kept (engineHandles_kept hs))

theorem deskCloses_kept (hs : s.Kept base) :
    (deskCloses s).Kept base := foldl_kept (fun _ _ => fenceClosed_kept) hs

theorem pendingWorks_kept (hs : s.Kept base) : (pendingWorks s).Kept base := hs

/-! ## Blocks -/

theorem streamTick_kept (hs : s.Kept base) : (streamTick s).Kept base := hs
theorem tellState_kept {p} (hs : s.Kept base) : (tellState p s).Kept base := State.modPort_kept hs

/-! ## Link -/

theorem rxTake_kept {p f} (hs : s.Kept base) : (rxTake p f s).Kept base := by
  unfold rxTake
  split
  · exact State.modPort_kept hs
  · exact hs

theorem viaSent_kept {o} (hs : s.Kept base) : (viaSent o s).Kept base := by
  unfold viaSent
  split
  · exact hs
  · split
    · exact hs
    · refine ite_kept ?_ (rxTake_kept hs)
      split
      · exact State.modPort_kept hs
      · exact hs

theorem castGo_kept (hs : s.Kept base) : (castGo s).Kept base := by
  unfold castGo
  split
  · exact hs
  · exact ite_kept hs (ite_kept (formeRefuse_kept (dropTensors_kept hs)) (formeDone_kept hs))

theorem castDropped_kept {gone} (hs : s.Kept base) : (castDropped gone s).Kept base := ite_kept hs hs
theorem keepT1_kept {k o} (hs : s.Kept base) : (keepT1 k o s).Kept base := hs

theorem startFabric_kept {k cls o q} (hs : s.Kept base) : (startFabric k cls o q s).Kept base := by
  unfold startFabric
  extract_lets
  exact viaSent_kept (ite_kept (keepT1_kept (State.modPort_kept hs)) (State.modPort_kept hs))

theorem execFrameStart_kept {p} (hs : s.Kept base) : Out.Kept base (execFrameStart p s) := by
  unfold execFrameStart
  extract_lets
  refine Out.kept_next (ite_kept hs (ite_kept (State.modPort_kept hs) ?_))
  split
  · split
    · extract_lets t
      have ht : t.Kept base := State.modPort_kept hs
      exact ht
    · exact hs
  · split
    · exact castGo_kept (startFabric_kept hs)
    · exact hs

theorem dropBuffers_kept {p} (hs : s.Kept base) : (dropBuffers p s).Kept base := State.modPort_kept hs

theorem linkCmdEnd_kept {p} (hs : s.Kept base) : (linkCmdEnd p s).Kept base :=
  foldl_kept (fun _ _ => finish_kept) (State.modPort_kept hs)

theorem kclFail_kept (hs : s.Kept base) : (kclFail s).Kept base :=
  kclPump_kept (foldl_kept (fun _ _ => readsFailed_kept) hs)

theorem pickUpstream_kept (hs : s.Kept base) : (pickUpstream s).Kept base :=
  ite_kept hs (ite_kept hs (ite_kept hs (ite_kept hs hs)))

theorem noticeAll_kept (hs : s.Kept base) : (noticeAll s).Kept base :=
  ite_kept hs (foldl_kept (fun _ _ ht => ite_kept (sendTime_kept ht) ht) hs)

theorem noticeChange_kept {before after} (hafter : after.Kept base) : (noticeChange before after).Kept base :=
  ite_kept (noticeAll_kept hafter) hafter

theorem portDownWith_kept {fault p} (hs : s.Kept base) : (portDownWith fault p s).Kept base := by
  unfold portDownWith
  extract_lets _ _ _ _ s1 s2 s3
  have h1 : s1.Kept base := State.modPort_kept (dropBuffers_kept hs)
  have h2 : s2.Kept base := foldl_kept (fun _ _ => viaSent_kept) h1
  have h3 : s3.Kept base := ite_kept (ite_kept (kclFail_kept h2) h2)
    (ite_kept (postEvent_kept (ite_kept (stepFault_kept h2) h2)) h2)
  exact noticeChange_kept (pickUpstream_kept (linkCmdEnd_kept (castGo_kept (castDropped_kept h3))))

theorem portDown_kept {p} (hs : s.Kept base) : (portDown p s).Kept base := portDownWith_kept hs

theorem beginInit_kept {p f} (hs : s.Kept base) :
    (beginInit p f s).Kept base := tellState_kept (State.modPort_kept hs)

theorem beginTraining_kept {p} (hs : s.Kept base) : (beginTraining p s).Kept base :=
  ite_kept hs (ite_kept (State.modPort_kept hs) (State.modPort_kept hs))

theorem waitingTries_kept (hs : s.Kept base) : (waitingTries s).Kept base :=
  foldl_kept (fun _ _ ht => ite_kept (beginTraining_kept ht) ht) hs

theorem stopTraining_kept (hs : s.Kept base) : (stopTraining s).Kept base := hs

theorem execTrainingRetry_kept {p} (hs : s.Kept base) : Out.Kept base (execTrainingRetry p s) :=
  Out.kept_next (beginTraining_kept hs)

theorem execLaneTrainingComplete_kept {p r} (hs : s.Kept base) : Out.Kept base (execLaneTrainingComplete p r s) := by
  unfold execLaneTrainingComplete
  extract_lets
  refine Out.kept_next ?_
  refine ite_kept hs (ite_kept (ite_kept (beginInit_kept hs) (portDown_kept (State.modPort_kept hs)))
    ?_)
  split
  · exact portDown_kept (State.modPort_kept hs)
  · exact ite_kept (portDown_kept (State.modPort_kept hs)) (beginInit_kept hs)

theorem receiveBlock_kept {p want blk act} (hact : ∀ s, s.Kept base → (act s).Kept base) (hs : s.Kept base) :
    (receiveBlock p want blk act s).Kept base := by
  unfold receiveBlock
  extract_lets
  refine ite_kept hs (ite_kept (State.modPort_kept (State.modPort_kept hs)) ?_)
  exact ite_kept (hact _ (State.modPort_kept (State.modPort_kept hs))) (State.modPort_kept hs)

theorem execLinkBlock_kept {p blk} (hs : s.Kept base) : Out.Kept base (execLinkBlock p blk s) :=
  Out.kept_next (receiveBlock_kept (fun _ => State.modPort_kept) hs)

theorem retrainHold_kept {p} (hs : s.Kept base) : (retrainHold p s).Kept base := by
  unfold retrainHold
  split
  · exact ite_kept (intrude_kept hs) hs
  · exact hs

theorem startRetrain_kept {p t} (hs : s.Kept base) : (startRetrain p t s).Kept base := by
  unfold startRetrain
  extract_lets
  split
  · exact retrainHold_kept (tellState_kept (State.modPort_kept hs))
  iterate 3 exact State.modPort_kept hs
  · exact hs

theorem becomeActive_kept {p} (hs : s.Kept base) : (becomeActive p s).Kept base := by
  unfold becomeActive
  extract_lets
  split
  · exact startRetrain_kept (State.modPort_kept (State.modPort_kept hs))
  · exact linkCmdEnd_kept (State.modPort_kept hs)

theorem sendNotice_kept {p notice} (hs : s.Kept base) : (sendNotice p notice s).Kept base := sendCtrl_kept hs

theorem portReady_kept {p} (hs : s.Kept base) : (portReady p s).Kept base := by
  unfold portReady
  extract_lets _ s1
  have h1 : s1.Kept base := becomeActive_kept (State.modPort_kept hs)
  exact ite_kept (ite_kept (postEvent_kept h1) h1) (ite_kept h1 (sendNotice_kept h1))

theorem execInitBlock_kept {p blk} (hs : s.Kept base) : Out.Kept base (execInitBlock p blk s) := by
  unfold execInitBlock
  extract_lets
  exact Out.kept_next (ite_kept (receiveBlock_kept (fun _ h => portReady_kept (State.modPort_kept h)) hs)
    (receiveBlock_kept (fun _ h => ite_kept (beginInit_kept (dropBuffers_kept h))
    (stepFault_kept (beginInit_kept (dropBuffers_kept h)))) hs))

theorem answerPause_kept {p t} (hs : s.Kept base) : (answerPause p t s).Kept base :=
  retrainHold_kept (tellState_kept (State.modPort_kept hs))

theorem execPause_kept {p blk} (hs : s.Kept base) : Out.Kept base (execPause p blk s) := by
  unfold execPause
  extract_lets
  refine Out.kept_next (receiveBlock_kept (fun _ h => ?_) hs)
  split
  · exact retrainHold_kept (State.modPort_kept h)
  · exact answerPause_kept h
  · exact retrainHold_kept (startRetrain_kept h)
  · exact startRetrain_kept h

theorem execPaused_kept {p blk} (hs : s.Kept base) : Out.Kept base (execPaused p blk s) :=
  Out.kept_next (receiveBlock_kept (fun _ => State.modPort_kept) hs)

theorem execResume_kept {p blk} (hs : s.Kept base) : Out.Kept base (execResume p blk s) := by
  unfold execResume
  extract_lets
  exact Out.kept_next (receiveBlock_kept (fun _ h => ite_kept (becomeActive_kept (State.modPort_kept h)) h)
    hs)

theorem retrained_kept {p} (hs : s.Kept base) : (retrained p s).Kept base :=
  ite_kept (beginInit_kept hs) (tellState_kept (State.modPort_kept hs))

theorem execRetrainComplete_kept {p r} (hs : s.Kept base) : Out.Kept base (execRetrainComplete p r s) := by
  unfold execRetrainComplete
  extract_lets
  refine Out.kept_next ?_
  refine ite_kept hs (ite_kept (ite_kept (retrained_kept hs) (portDown_kept (State.modPort_kept hs)))
    ?_)
  split
  · exact portDown_kept (State.modPort_kept hs)
  · exact retrained_kept (State.modPort_kept (State.draw_kept hs))

theorem execRetrainTimeout_kept {p} (hs : s.Kept base) : Out.Kept base (execRetrainTimeout p s) :=
  Out.kept_next (ite_kept (portDown_kept hs) hs)

theorem execMarginBelowFloor_kept {p lane code} (hs : s.Kept base) : Out.Kept base (execMarginBelowFloor p lane code s) :=
  Out.kept_next (State.modPort_kept hs)

theorem execLossOfLock_kept {p} (hs : s.Kept base) :
    Out.Kept base (execLossOfLock p s) := Out.kept_next (startRetrain_kept hs)

theorem execUncorrectableBurst_kept {p count} (hs : s.Kept base) : Out.Kept base (execUncorrectableBurst p count s) := by
  unfold execUncorrectableBurst
  extract_lets
  exact Out.kept_next (ite_kept (startRetrain_kept (State.modPort_kept hs)) (State.modPort_kept hs))

theorem execLinkTerminusRetrain_kept {p} (hs : s.Kept base) : Out.Kept base (execLinkTerminusRetrain p s) := by
  unfold execLinkTerminusRetrain
  extract_lets
  refine Out.kept_next ?_
  split
  · exact hs
  · extract_lets start
    have hstart : ∀ t, t.Kept base → (start t).Kept base := by
      intro t ht
      unfold start
      exact startRetrain_kept (State.modPort_kept ht)
    exact ite_kept hs (ite_kept (ite_kept (hstart _ hs) hs)
      (ite_kept (hstart _ hs) (ite_kept (hstart _ hs) (State.modPort_kept hs))))

theorem execAckTimerExpiry_kept {p} (hs : s.Kept base) : Out.Kept base (execAckTimerExpiry p s) := by
  unfold execAckTimerExpiry
  extract_lets
  exact Out.kept_next (ite_kept hs (ite_kept (startRetrain_kept
    (State.modPort_kept (State.modPort_kept hs))) (State.modPort_kept hs)))

theorem acceptPacket_kept {p cls pkt} (hs : s.Kept base) : (acceptPacket p cls pkt s).Kept base := by
  unfold acceptPacket
  extract_lets
  split
  · refine ite_kept (State.modPort_kept hs) ?_
    exact ite_kept (kclSend_kept (rxTake_kept (State.modPort_kept hs)))
      (rxTake_kept (State.modPort_kept hs))
  · exact ite_kept (rxTake_kept (State.modPort_kept (State.modPort_kept hs))) (State.modPort_kept hs)

theorem execFrameReceived_kept {p f} (hs : s.Kept base) : Out.Kept base (execFrameReceived p f s) := by
  refine Out.kept_next (ite_kept hs ?_)
  have hcount : (s.modPort p.val (fecCount f)).Kept base := State.modPort_kept hs
  refine ite_kept hcount (ite_kept (State.modPort_kept hcount) (ite_kept ?_ ?_))
  · exact ite_kept (acceptPacket_kept hcount) (portDown_kept (State.modPort_kept hcount))
  · refine ite_kept (State.modPort_kept hcount) ?_
    exact ite_kept (State.modPort_kept hcount) (State.modPort_kept hcount)

/-! ## Despatch -/

theorem despGo_kept {p} (hs : s.Kept base) : (despGo p s).Kept base := State.modPort_kept hs

theorem execPointsSlot_kept {p} (hs : s.Kept base) : Out.Kept base (execPointsSlot p s) := by
  unfold execPointsSlot
  extract_lets
  refine Out.kept_next ?_
  split
  · refine ite_kept (despGo_kept hs) ?_
    extract_lets
    exact ite_kept (State.modPort_kept (State.modPort_kept (despGo_kept hs)))
      (State.modPort_kept (despGo_kept hs))
  · exact despGo_kept hs

theorem execPacketRelease_kept {p} (hs : s.Kept base) : Out.Kept base (execPacketRelease p s) := by
  unfold execPacketRelease
  extract_lets
  refine Out.kept_next (ite_kept hs ?_)
  split
  · exact ite_kept (State.modPort_kept hs) (State.modPort_kept hs)
  · exact ite_kept (stepFault_kept (viaSent_kept (State.modPort_kept hs)))
      (ite_kept (State.modPort_kept hs) (State.modPort_kept hs))

theorem execPointsMark_kept {p} (hs : s.Kept base) : Out.Kept base (execPointsMark p s) := by
  unfold execPointsMark
  extract_lets
  split
  · exact Out.kept_next (despGo_kept (State.modPort_kept (despGo_kept hs)))
  · exact Out.kept_next (despGo_kept hs)

theorem execPointsLoop_kept {p} (hs : s.Kept base) : Out.Kept base (execPointsLoop p s) := by
  unfold execPointsLoop
  extract_lets
  split
  · exact Out.kept_next (State.modPort_kept (despGo_kept hs))
  · exact Out.kept_next (despGo_kept hs)

theorem execPointsEnd_kept {p} (hs : s.Kept base) : Out.Kept base (execPointsEnd p s) := by
  unfold execPointsEnd
  extract_lets
  split
  · exact Out.kept_next (State.modPort_kept (despGo_kept hs))
  · exact Out.kept_next (despGo_kept hs)

theorem ensureRx_kept {p cls pkt} (hs : s.Kept base) : (ensureRx p cls pkt s).Kept base :=
  ite_kept hs (State.modPort_kept hs)

theorem fabricDiscard_kept {p pkt fault count} (hs : s.Kept base) : (fabricDiscard p pkt fault count s).Kept base := by
  unfold fabricDiscard
  extract_lets
  exact ite_kept (stepFault_kept (State.modPort_kept (rxTake_kept hs)))
    (State.modPort_kept (rxTake_kept hs))

theorem deliverPlan_kept {p pkt} (hs : s.Kept base) : (deliverPlan p pkt s).Kept base := by
  unfold deliverPlan
  split
  · exact hs
  · split <;> exact hs

theorem planFinal_kept {p pkt} (hs : s.Kept base) : (planFinal p pkt s).Kept base := by
  unfold planFinal
  split
  · exact fabricDiscard_kept hs
  · exact fabricDiscard_kept hs
  · exact rxTake_kept (deliverPlan_kept hs)
  · exact State.modPort_kept hs

theorem planForward_kept {p out pkt} (hs : s.Kept base) : (planForward p out pkt s).Kept base := by
  unfold planForward
  extract_lets _ del s1
  clear_value del
  have h1 : s1.Kept base := by
    unfold s1
    split
    · exact deliverPlan_kept hs
    · exact ite_kept (stepFault_kept (State.modPort_kept hs)) hs
    · exact ite_kept (State.modPort_kept hs) hs
    · exact hs
  clear_value s1
  split
  · exact sendPlan_kept (State.modPort_kept h1)
  · exact h1

theorem execPlanPacket_kept {p pkt} (hs : s.Kept base) : Out.Kept base (execPlanPacket p pkt s) := by
  unfold execPlanPacket
  extract_lets _ s1
  have h1 : s1.Kept base := ensureRx_kept hs
  have hdiscard {k pkt fault count} : (fabricDiscard k pkt fault count s1).Kept base := fabricDiscard_kept h1
  refine Out.kept_next (ite_kept hdiscard (ite_kept hdiscard (ite_kept (planFinal_kept h1) ?_)))
  exact ite_kept hdiscard (ite_kept hdiscard (ite_kept hdiscard (planForward_kept h1)))

theorem deliverOne_kept {p r} (hs : s.Kept base) : (deliverOne p r s).Kept base := by
  unfold deliverOne
  extract_lets
  refine ite_kept ?_ (rxTake_kept (deliverPlan_kept hs))
  split
  · exact State.modPort_kept (deliverPlan_kept hs)
  · exact deliverPlan_kept hs

theorem deliverEach_kept {p l l3} (hs : s.Kept base) : (deliverEach p l l3 s).Kept base := by
  induction l generalizing l3 s with
  | nil => exact hs
  | cons x l ih =>
    rw [deliverEach]
    exact ite_kept (ih (deliverOne_kept hs)) (ih hs)

theorem deliverPort_kept {p} (hs : s.Kept base) :
    (deliverPort p s).Kept base := ite_kept (deliverEach_kept hs) hs

theorem deliverHeld_kept (hs : s.Kept base) :
    (deliverHeld s).Kept base := foldl_kept (fun _ _ => deliverPort_kept) hs

theorem execControlPacketForward_kept {p pkt} (hs : s.Kept base) : Out.Kept base (execControlPacketForward p pkt s) := by
  unfold execControlPacketForward
  extract_lets _ _ s1 _ _ _ _ _ s2
  have h1 : s1.Kept base := ensureRx_kept hs
  have h2 : s2.Kept base := ite_kept (State.modPort_kept h1) h1
  have hdiscard {k pkt fault count} : (fabricDiscard k pkt fault count s1).Kept base := fabricDiscard_kept h1
  refine Out.kept_next (ite_kept hdiscard (ite_kept hdiscard (ite_kept hdiscard (ite_kept ?_ ?_))))
  · exact ite_kept hdiscard (ite_kept hdiscard h1)
  · refine ite_kept hdiscard (ite_kept hdiscard (ite_kept (State.modPort_kept (State.modPort_kept h2)) ?_))
    refine ite_kept (State.modPort_kept (fabricDiscard_kept h2)) ?_
    split
    · extract_lets
      exact ite_kept (sendTime_kept (State.modPort_kept h2)) (sendCtrl_kept (State.modPort_kept h2))
    · exact h2

theorem rxDeliver_kept {p f} (hs : s.Kept base) : (rxDeliver p f s).Kept base := by
  unfold rxDeliver
  extract_lets
  split
  · exact hs
  · refine ite_kept ?_ (rxTake_kept hs)
    split
    · exact State.modPort_kept hs
    · exact hs

theorem controlTake_kept {p type body} (hs : s.Kept base) :
    (controlTake p type body s).Kept base := rxDeliver_kept hs

theorem controlTakeAny_kept {type body} (hs : s.Kept base) : (controlTakeAny type body s).Kept base :=
  foldl_kept (fun _ _ => controlTake_kept) hs

theorem serviceTake_kept {payload} (hs : s.Kept base) : (serviceTake payload s).Kept base :=
  foldl_kept (fun _ _ => rxDeliver_kept) hs

theorem kclTake_kept {msg tag} (hs : s.Kept base) : (kclTake msg tag s).Kept base := rxTake_kept hs

theorem behindWrites_kept {off w run} (hrun : ∀ s, s.Kept base → (run s).Kept base) (hs : s.Kept base) :
    (behindWrites off w run s).Kept base := by
  unfold behindWrites
  refine ite_kept hs ?_
  extract_lets
  exact ite_kept (respond_kept (kclTake_kept hs))
    (ite_kept (kclTake_kept hs) (respond_kept (hrun _ (kclTake_kept hs))))

/-! ## FabricCmds -/

theorem linkCommand_kept {d action run} (hrun : ∀ i s, s.Kept base → (run i s).Kept base) (hs : s.Kept base) :
    (linkCommand d action run s).Kept base :=
  command_kept (fun _ h => ite_kept (finish_kept h) (hrun _ _ h)) hs

theorem linkReport_kept {d p} (hs : s.Kept base) : (linkReport d p s).Kept base := finish_kept hs

theorem execLinkStateRead_kept {d} (hs : s.Kept base) : Out.Kept base (execLinkStateRead d s) :=
  Out.kept_next (linkCommand_kept (fun _ _ => linkReport_kept) hs)

theorem setEnable_kept {p on} (hs : s.Kept base) : (setEnable p on s).Kept base := by
  unfold setEnable
  extract_lets
  split
  · exact ite_kept (State.modPort_kept hs) (beginTraining_kept (State.modPort_kept hs))
  · exact ite_kept (State.modPort_kept (State.modPort_kept hs)) (portDown_kept (State.modPort_kept hs))

theorem execLinkStateEnable_kept {d} (hs : s.Kept base) : Out.Kept base (execLinkStateEnable d s) :=
  Out.kept_next (linkCommand_kept (fun _ _ h => linkReport_kept (setEnable_kept h)) hs)

theorem execLinkStateDisable_kept {d} (hs : s.Kept base) : Out.Kept base (execLinkStateDisable d s) :=
  Out.kept_next (linkCommand_kept (fun _ _ h => ite_kept (finish_kept h)
    (linkReport_kept (setEnable_kept h))) hs)

theorem execLinkRetrain_kept {d} (hs : s.Kept base) : Out.Kept base (execLinkRetrain d s) := by
  refine Out.kept_next (command_kept (fun _ h => ite_kept (finish_kept h) ?_) hs)
  extract_lets _ _ s1
  have h1 : s1.Kept base := beginTraining_kept (State.modPort_kept h)
  split
  · exact ite_kept (finish_kept h) (ite_kept h1 (ite_kept (queued_kept h1) (linkCmdEnd_kept h1)))
  · exact ite_kept (startRetrain_kept (State.modPort_kept h))
      (ite_kept (finish_kept h) (queued_kept (State.modPort_kept (State.modPort_kept h))))
  · exact startRetrain_kept (State.modPort_kept h)

theorem partProgress_kept {p atCommit} (hs : s.Kept base) : (partProgress p atCommit s).Kept base := by
  unfold partProgress
  refine foldl_kept (fun _ _ ht => ?_) hs
  exact ite_kept ht (ite_kept (ite_kept (finishAtEdition_kept ht) (finish_kept ht)) ht)

theorem installKeys_kept {p atCommit} (hs : s.Kept base) : (installKeys p atCommit s).Kept base := by
  unfold installKeys
  split
  · exact hs
  · exact partProgress_kept (sendNotice_kept (State.modPort_kept hs))

theorem installUsed_kept (hs : s.Kept base) : (installUsed s).Kept base :=
  foldl_kept (fun _ _ ht => ite_kept (installKeys_kept ht) ht) hs

theorem execKeyInstall_kept {p} (hs : s.Kept base) : Out.Kept base (execKeyInstall p s) :=
  Out.kept_next (ite_kept (installKeys_kept hs) hs)

theorem pendKeys_kept {p k} (hs : s.Kept base) : (pendKeys p k s).Kept base :=
  State.modPort_kept (foldl_kept (fun _ _ => finish_kept) hs)

theorem fenceForme_kept (hs : s.Kept base) : (fenceForme s).Kept base :=
  foldl_kept (fun _ _ ht => ite_kept (pendKeys_kept ht) ht) hs

theorem execPartitionSet_kept {d} (hs : s.Kept base) : Out.Kept base (execPartitionSet d s) := by
  refine Out.kept_next (command_kept ?_ hs)
  intro t ht
  extract_lets _ _ _ s1
  have h1 : s1.Kept base := foldl_kept (fun _ _ => pendKeys_kept) (queued_kept ht)
  exact ite_kept (finish_kept ht) (ite_kept (finish_kept ht) (ite_kept (finish_kept h1) h1))

theorem execPortNotice_kept {p body} (hs : s.Kept base) : Out.Kept base (execPortNotice p body s) := by
  unfold execPortNotice
  extract_lets _ _ _ _ s1
  have h1 : s1.Kept base := State.modPort_kept (controlTake_kept hs)
  exact Out.kept_next (ite_kept (controlTake_kept hs) (postEvent_kept h1))

theorem putRoute_kept {g e} (hs : s.Kept base) : (putRoute g e s).Kept base :=
  ite_kept (nearPut_kept hs) (nearPut_kept hs)

theorem reloadDie_kept (hs : s.Kept base) : (reloadDie s).Kept base := hs

theorem execRouteTableLoad_kept {d blk} (hs : s.Kept base) : Out.Kept base (execRouteTableLoad d blk s) := by
  unfold execRouteTableLoad
  extract_lets
  exact Out.kept_next (commandBlk_kept (fun _ h => ite_kept (finish_kept h)
    (ite_kept (finish_kept h) (finish_kept (foldl_kept (fun _ _ => putRoute_kept) h)))) hs)

theorem fabricGidWrite_kept {value} (hs : s.Kept base) : (fabricGidWrite value s).Kept base := by
  unfold fabricGidWrite
  extract_lets
  exact ite_kept hs (ite_kept hs (foldl_kept (fun _ _ ht => ite_kept (sendNotice_kept ht) ht) hs))

theorem execFabricGidWrite_kept {w} (hs : s.Kept base) : Out.Kept base (execFabricGidWrite w s) :=
  Out.kept_next (behindWrites_kept (fun _ => fabricGidWrite_kept) hs)

theorem linkConfigWrite_kept {k value} (hs : s.Kept base) : (linkConfigWrite k value s).Kept base :=
  ite_kept hs (setEnable_kept (State.modPort_kept hs))

theorem execLinkConfigWrite_kept {p w} (hs : s.Kept base) : Out.Kept base (execLinkConfigWrite p w s) :=
  Out.kept_next (behindWrites_kept (fun _ => linkConfigWrite_kept) hs)

/-! ## Power -/

theorem pointDone_kept (hs : s.Kept base) : (pointDone s).Kept base := by
  unfold pointDone
  split
  · exact finish_kept hs
  · exact hs

theorem beginChange_kept (hs : s.Kept base) : (beginChange s).Kept base := hs

theorem execSetOperatingPoint_kept {d} (hs : s.Kept base) : Out.Kept base (execSetOperatingPoint d s) := by
  refine Out.kept_next (command_kept ?_ hs)
  intro t ht
  extract_lets _ _ _ _ s1 _ _ s2
  have h1 : s1.Kept base := by
    unfold s1
    split
    · exact finish_kept ht
    · exact ht
  have h2 : s2.Kept base := queued_kept h1
  exact ite_kept (finish_kept ht) (ite_kept (finish_kept ht) (ite_kept (beginChange_kept h2) h2))

theorem execOperatingPointSwitch_kept (hs : s.Kept base) : Out.Kept base (execOperatingPointSwitch s) := by
  refine Out.kept_next ?_
  split
  · exact ite_kept hs (ite_kept hs (beginChange_kept hs))
  · exact hs

theorem endChange_kept (hs : s.Kept base) : (endChange s).Kept base := by
  unfold endChange
  extract_lets
  split <;> exact hs

theorem execOperatingPointChangeEnd_kept (hs : s.Kept base) : Out.Kept base (execOperatingPointChangeEnd s) :=
  Out.kept_next (ite_kept hs (ite_kept (endChange_kept hs)
    (ite_kept (beginChange_kept (writeEdition_kept (pointDone_kept (endChange_kept hs))))
    (writeEdition_kept (pointDone_kept (endChange_kept hs))))))

theorem switchAtLaunch_kept {launch} (hs : s.Kept base) : (switchAtLaunch launch s).Kept base := by
  unfold switchAtLaunch
  exact hs.congr rfl rfl rfl rfl

theorem pointSwitchCount_kept {step launch} (hs : s.Kept base) : (pointSwitchCount step launch s).Kept base := by
  unfold pointSwitchCount
  split
  · exact ite_kept (switchAtLaunch_kept hs) hs
  · exact hs

theorem execPressIdle_kept {p} (hs : s.Kept base) : Out.Kept base (execPressIdle p s) := by
  unfold execPressIdle
  extract_lets
  refine Out.kept_next (ite_kept (ite_kept hs (State.modPress_kept hs)) (ite_kept hs ?_))
  split
  · exact ite_kept hs (ite_kept (State.modPress_kept hs) (ite_kept (State.modPress_kept hs) hs))
  · exact hs

theorem execPressWake_kept {p} (hs : s.Kept base) : Out.Kept base (execPressWake p s) := by
  unfold execPressWake
  extract_lets
  refine Out.kept_next (ite_kept hs ?_)
  split
  · exact ite_kept (State.modPress_kept hs) hs
  · exact hs

theorem startStagger_kept {occ} (hs : s.Kept base) : (startStagger occ s).Kept base := hs

theorem execDepartureGroup_kept {g} (hs : s.Kept base) : Out.Kept base (execDepartureGroup g s) := by
  refine Out.kept_next ?_
  split
  · exact hs
  · refine ite_kept hs ?_
    extract_lets s1
    have h1 : s1.Kept base := foldl_kept (fun _ _ => State.modPress_kept) hs
    exact h1.congr rfl rfl rfl rfl

theorem execQuietEntry_kept (hs : s.Kept base) : Out.Kept base (execQuietEntry s) :=
  Out.kept_next (ite_kept (startStagger_kept hs) hs)

theorem execDeepQuietEntry_kept (hs : s.Kept base) : Out.Kept base (execDeepQuietEntry s) :=
  Out.kept_next (ite_kept (ite_kept (startStagger_kept hs) hs) hs)

theorem startWake_kept (hs : s.Kept base) : (startWake s).Kept base := ite_kept hs (startStagger_kept hs)

theorem execWake_kept (hs : s.Kept base) :
    Out.Kept base (execWake s) := Out.kept_next (ite_kept (startWake_kept hs) hs)

theorem wakePoint_kept (hs : s.Kept base) : (wakePoint s).Kept base := by
  unfold wakePoint
  refine ite_kept hs ?_
  extract_lets s1
  have h1 : s1.Kept base := endChange_kept (beginChange_kept hs)
  exact ite_kept h1 (writeEdition_kept (pointDone_kept h1))

theorem execWakeComplete_kept (hs : s.Kept base) : Out.Kept base (execWakeComplete s) :=
  Out.kept_next (ite_kept hs (kclPump_kept (wakePoint_kept hs)))

theorem powerSample_kept {watts junction} (hs : s.Kept base) : (powerSample watts junction s).Kept base := by
  unfold powerSample
  extract_lets _ _ _ _ _ _ _ _ _ _ _ s1
  have h1 : s1.Kept base := ite_kept (ite_kept hs hs) (ite_kept hs hs)
  exact ite_kept (ite_kept (intrude_kept h1) h1) (ite_kept h1 (ite_kept h1 (releaseHolds_kept h1)))

/-! ## Commit -/

theorem treeSend_kept {type chip body} (hs : s.Kept base) : (treeSend type chip body s).Kept base := by
  unfold treeSend
  split
  · exact sendControl_kept hs
  · exact hs

theorem passDown_kept {body} (hs : s.Kept base) :
    (passDown body s).Kept base := foldl_kept (fun _ _ => treeSend_kept) hs

theorem straggle_kept (hs : s.Kept base) : (straggle s).2.Kept base := by
  unfold straggle
  extract_lets
  split
  next t _ u e =>
    have hu : u.Kept base := snd_kept e (ite_snd_kept (State.draw_kept hs) hs)
    exact hu

theorem swapSides_kept (hs : s.Kept base) :
    (swapSides s).Kept base := foldl_kept (fun _ _ => State.modPress_kept) hs

theorem commitEnd_kept {stop} (hs : s.Kept base) : (commitEnd stop s).Kept base := by
  unfold commitEnd
  extract_lets _ _ _ _ s1
  have h1 : s1.Kept base := by
    unfold s1
    split
    · exact ite_kept (finish_kept (ite_kept (beginHandover_kept hs) hs))
        (finish_kept (ite_kept (beginHandover_kept hs) hs))
    · exact ite_kept (beginHandover_kept hs) hs
  exact ite_kept (startStagger_kept (fenceForme_kept h1)) h1

theorem finishLate_kept (hs : s.Kept base) : (finishLate s).Kept base := by
  unfold finishLate
  refine foldl_kept (fun _ _ ht => ?_) hs
  split
  · exact finishAtEdition_kept ht
  · exact ht

theorem commitRest_kept {body stop} (hs : s.Kept base) : (commitRest body stop s).Kept base := by
  unfold commitRest
  extract_lets _ _ s1
  have h1 : s1.Kept base := ite_kept (installUsed_kept hs) (pointSwitchCount_kept (installUsed_kept hs))
  exact commitEnd_kept (showTable_kept h1)

theorem commitAdmit_kept {body stop} (hs : s.Kept base) : (commitAdmit body stop s).Kept base := by
  unfold commitAdmit
  split
  · split
    next t _ _ u e =>
      have hu : u.Kept base := snd_snd_kept e (admitGo_kept hs)
      split
      · exact breakHit_kept hu
      · exact commitRest_kept (deskSettle_kept hu)
  · exact commitRest_kept hs

theorem commitApply_kept {body stop} (hs : s.Kept base) : (commitApply body stop s).Kept base := by
  unfold commitApply
  extract_lets
  split
  next t _ u e =>
    have hu : u.Kept base := snd_kept e (worksGo_kept hs)
    exact breakHit_kept hu
  next t u e =>
    have hu : u.Kept base := snd_kept e (worksGo_kept hs)
    exact ite_kept (commitAdmit_kept (deskWalk_kept hu)) (commitRest_kept (stageApply_kept hu))

theorem commitFinish_kept {body stop} (hs : s.Kept base) : (commitFinish body stop s).Kept base := by
  unfold commitFinish
  extract_lets
  split
  next r t e =>
    have ht : t.Kept base := snd_kept e (straggle_kept (writeLedger_kept hs))
    extract_lets _ _ s1 _ _ _ _ _ s2 s3
    have h1 : s1.Kept base := ht
    have h2 : s2.Kept base := by
      refine ite_kept ?_ h1
      split
      · exact finishAtEdition_kept h1
      · exact h1
    have h3 : s3.Kept base :=
      writeEdition_kept (showTable_kept (reportTerminus_kept (finishLate_kept h2)))
    refine ite_kept (commitRest_kept h3) (commitApply_kept (pendingWorks_kept ?_))
    exact ite_kept (deskApply_kept h3) h3

theorem commitPublish_kept {body stop first} (hs : s.Kept base) : (commitPublish body stop first s).Kept base :=
  ite_kept (commitFinish_kept (publishAll_kept hs)) hs

theorem handleRows_kept {l} (hs : s.Kept base) : (handleRows l s).2.Kept base := by
  induction l generalizing s with
  | nil => exact hs
  | cons x l ih =>
    rw [handleRows]
    split
    · exact hs
    · exact ih (handleRow_kept (engineHandles_kept hs))

theorem commitClose_kept {body stop} (hs : s.Kept base) : (commitClose body stop s).Kept base := by
  unfold commitClose
  split
  next t _ u e =>
    have hu : u.Kept base := snd_kept e (worksGo_kept hs)
    exact breakHit_kept hu
  next t u e =>
    have hu : u.Kept base := snd_kept e (worksGo_kept hs)
    exact commitPublish_kept hu

theorem commitAccept_kept {body stop} (hs : s.Kept base) : (commitAccept body stop s).Kept base := by
  unfold commitAccept
  split
  next t _ u e =>
    have hu : u.Kept base := snd_kept e (handleRows_kept hs)
    exact breakHit_kept hu
  next t u e =>
    have hu : u.Kept base := snd_kept e (handleRows_kept hs)
    exact ite_kept (commitClose_kept (deskCloses_kept hu)) (commitPublish_kept hu)

theorem asCommit_kept {run} (hrun : ∀ s, s.Kept base → (run s).Kept base) (hs : s.Kept base) :
    (asCommit run s).Kept base :=
  boxesGo_kept (hrun _ hs)

theorem commitActions_kept {body stop} (hs : s.Kept base) : (commitActions body stop s).Kept base := by
  unfold commitActions
  extract_lets _ _ _ _ _ s1
  have h1 : s1.Kept base := by
    unfold s1
    exact commitLog_kept (commitRankings_kept (commitHeads_kept
      (resendMirror_kept (commitRestores_kept (countSampler_kept (swapSides_kept hs))))))
  exact commitAccept_kept (ite_kept (deskBegin_kept h1) h1)

theorem commit_kept {body stop} (hs : s.Kept base) : (commit body stop s).Kept base :=
  asCommit_kept (fun _ => commitActions_kept) hs

theorem commitGoOn_kept (hs : s.Kept base) : (commitGoOn s).Kept base := by
  unfold commitGoOn
  split
  · exact ite_kept hs (asCommit_kept (fun _ => commitAccept_kept) hs)
  · exact ite_kept hs (asCommit_kept (fun _ => commitClose_kept) hs)
  · exact ite_kept hs (asCommit_kept (fun _ => commitApply_kept) hs)
  · exact ite_kept hs (asCommit_kept (fun _ => commitAdmit_kept) hs)
  · exact asCommit_kept (fun _ => commitPublish_kept) hs
  · exact hs

/-! ## Barrier -/

theorem decideAs_kept {body} (hs : s.Kept base) : (decideAs body s).Kept base := passDown_kept hs

theorem decide'_kept {r} (hs : s.Kept base) : (decide' r s).Kept base := by
  unfold decide'
  extract_lets
  split <;> exact ite_kept (decideAs_kept hs) (decideAs_kept hs)

theorem tryReport_kept (hs : s.Kept base) : (tryReport s).Kept base := by
  unfold tryReport
  refine ite_kept hs ?_
  extract_lets
  split
  · exact decide'_kept hs
  · exact treeSend_kept hs

theorem tryReady_kept (hs : s.Kept base) : (tryReady s).Kept base := by
  unfold tryReady
  refine ite_kept hs ?_
  extract_lets
  split
  · exact decideAs_kept hs
  · exact treeSend_kept hs

theorem execBarrierReport_kept {child body} (hs : s.Kept base) : Out.Kept base (execBarrierReport child body s) := by
  unfold execBarrierReport
  extract_lets s1
  have h1 : s1.Kept base := controlTakeAny_kept hs
  clear_value s1
  refine Out.kept_next (ite_kept h1 ?_)
  split
  · exact ite_kept (tryReady_kept h1) h1
  · exact ite_kept (tryReport_kept h1) h1

theorem stopForme_kept (hs : s.Kept base) : (stopForme s).Kept base := by
  unfold stopForme
  extract_lets _ _ _ s1 _ s2
  have h1 : s1.Kept base := pageChange_kept (fenceForme_kept hs)
  have h2 : s2.Kept base := by
    unfold s2
    split
    · exact formeDone_kept h1
    · exact h1
  exact ite_kept (beginHandover_kept h2) h2

theorem stopAt_kept {step att fault faultChip} (hs : s.Kept base) : (stopAt step att fault faultChip s).Kept base := by
  unfold stopAt
  extract_lets _ _ _ _ _ s1
  have h1 : s1.Kept base := by
    unfold s1
    split
    · exact formeRefuse_kept hs
    · exact hs
  exact ite_kept (stopForme_kept (postEvent_kept h1)) (postEvent_kept h1)

theorem rootCause_kept (hs : s.Kept base) : (rootCause s).2.2.Kept base := by
  unfold rootCause
  split
  · exact hs
  · split
    next t _ u e =>
      have hu : u.Kept base := snd_kept e (State.draw_kept hs)
      exact hu

theorem performStop_kept {body} (hs : s.Kept base) : (performStop body s).Kept base :=
  stopAt_kept ((rootCause_kept hs).congr rfl rfl rfl rfl)

theorem annTake_kept {body} (hs : s.Kept base) : (annTake body s).Kept base :=
  ite_kept hs (passDown_kept (controlTakeAny_kept hs))

theorem execAnnounceCommit_kept {body} (hs : s.Kept base) : Out.Kept base (execAnnounceCommit body s) :=
  Out.kept_next (ite_kept (commit_kept (annTake_kept hs)) hs)

theorem execAnnounceCommitStop_kept {body} (hs : s.Kept base) : Out.Kept base (execAnnounceCommitStop body s) :=
  Out.kept_next (ite_kept (commit_kept (annTake_kept hs)) hs)

theorem execAnnounceAbort_kept {body} (hs : s.Kept base) : Out.Kept base (execAnnounceAbort body s) :=
  Out.kept_next (ite_kept ((annTake_kept hs).congr rfl rfl rfl rfl) hs)

theorem stopUnstarted_kept {step att} (hs : s.Kept base) : (stopUnstarted step att s).Kept base :=
  postEvent_kept ((rootCause_kept hs).congr rfl rfl rfl rfl)

theorem execAnnounceStop_kept {body} (hs : s.Kept base) : Out.Kept base (execAnnounceStop body s) := by
  have htake : (annTake body s).Kept base := annTake_kept hs
  have hstop : (performStop body (annTake body s)).Kept base := performStop_kept htake
  refine Out.kept_next (ite_kept hs (ite_kept (ite_kept (stopUnstarted_kept htake) hs) ?_))
  refine ite_kept (ite_kept (performStop_kept hs) hs) (ite_kept hstop (ite_kept ?_ hs))
  exact ite_kept hstop (ite_kept (ite_kept htake hstop) hs)

theorem execAnnounceStart_kept {body} (hs : s.Kept base) : Out.Kept base (execAnnounceStart body s) := by
  refine Out.kept_next (ite_kept (startStagger_kept ?_) hs)
  have htake : (annTake body s).Kept base := annTake_kept hs
  dsimp only
  split
  · exact ite_kept (switchAtLaunch_kept htake) htake
  · exact htake

theorem execStartCountReached_kept (hs : s.Kept base) : Out.Kept base (execStartCountReached s) := by
  refine Out.kept_next ?_
  split
  · exact ite_kept hs (tryReady_kept hs)
  · exact hs

theorem execBarrierTimeout_kept (hs : s.Kept base) : Out.Kept base (execBarrierTimeout s) := by
  unfold execBarrierTimeout
  extract_lets missing
  have hmissing : ∀ x y t, t.Kept base → (missing x y t).Kept base := by
    intro _ _ t ht
    unfold missing
    exact decideAs_kept ht
  refine Out.kept_next (ite_kept hs (ite_kept ?_
    (ite_kept (hmissing _ _ _ (ite_kept hs hs)) hs)))
  split
  · exact ite_kept hs (hmissing _ _ _ hs)
  · exact hs

theorem execAnnounceTimeout_kept (hs : s.Kept base) : Out.Kept base (execAnnounceTimeout s) :=
  Out.kept_next (ite_kept (stopAt_kept (postEvent_kept (rootCause_kept hs))) hs)

/-! ## Clocks -/

theorem gateNear_kept {c} (hs : s.Kept base) : (gateNear c s).Kept base := by
  unfold gateNear
  extract_lets t
  have ht : t.Kept base := State.modChan_kept hs
  exact ht.nearMem (Memory.wf_filter blank _ _)

theorem farPin_kept {f} (hs : s.Kept base) : (farPin f s).Kept base := ite_kept (State.setPin_kept hs) hs
theorem gateFar_kept {f} (hs : s.Kept base) : (gateFar f s).Kept base := farPin_kept (State.modFar_kept hs)

theorem clkBit_kept {r v i} (hs : s.Kept base) : (clkBit r v s i).Kept base := by
  unfold clkBit
  extract_lets
  refine ite_kept hs (ite_kept hs (ite_kept (ite_kept hs (gateNear_kept hs)) ?_))
  refine ite_kept (ite_kept (beginTraining_kept hs) (portDownWith_kept hs)) ?_
  exact ite_kept (ite_kept hs (ite_kept (State.setPin_kept hs) hs))
    (ite_kept (farPin_kept hs) (gateFar_kept hs))

theorem clkenWrite_kept {r value} (hs : s.Kept base) : (clkenWrite r value s).Kept base :=
  foldl_kept (fun _ _ => clkBit_kept) hs

theorem execClkenWrite_kept {r w} (hs : s.Kept base) : Out.Kept base (execClkenWrite r w s) :=
  Out.kept_next (behindWrites_kept (fun _ => clkenWrite_kept) hs)

theorem domainCtlWrite_kept {d value} (hs : s.Kept base) : (domainCtlWrite d value s).Kept base := ite_kept hs hs

theorem execDomainCtlWrite_kept {d w} (hs : s.Kept base) : Out.Kept base (execDomainCtlWrite d w s) :=
  Out.kept_next (behindWrites_kept (fun _ => domainCtlWrite_kept) hs)

theorem execDomainRampStep_kept {d} (hs : s.Kept base) : Out.Kept base (execDomainRampStep d s) := Out.kept_next hs
theorem sscCtlWrite_kept {j value} (hs : s.Kept base) : (sscCtlWrite j value s).Kept base := hs

theorem execSscCtlWrite_kept {j w} (hs : s.Kept base) : Out.Kept base (execSscCtlWrite j w s) :=
  Out.kept_next (behindWrites_kept (fun _ => sscCtlWrite_kept) hs)

theorem sscTick_kept (hs : s.Kept base) : (sscTick s).Kept base := hs
theorem execSscDepthStep_kept {j} (hs : s.Kept base) : Out.Kept base (execSscDepthStep j s) := Out.kept_next hs

/-! ## VectorOps -/

theorem unaryAct_kept {lane i} (hs : s.Kept base) : (unaryAct lane i s).Kept base := runVec_kept hs
theorem binaryAct_kept {lane i} (hs : s.Kept base) : (binaryAct lane i s).Kept base := runVec_kept hs
theorem ternaryAct_kept {lane i} (hs : s.Kept base) : (ternaryAct lane i s).Kept base := runVec_kept hs
theorem addAct_kept {x} (hs : s.Kept base) : (addAct x s).Kept base := binaryAct_kept hs
theorem mulAct_kept {x} (hs : s.Kept base) : (mulAct x s).Kept base := binaryAct_kept hs
theorem fmaAct_kept {x} (hs : s.Kept base) : (fmaAct x s).Kept base := ternaryAct_kept hs
theorem minAct_kept {x} (hs : s.Kept base) : (minAct x s).Kept base := binaryAct_kept hs
theorem maxAct_kept {x} (hs : s.Kept base) : (maxAct x s).Kept base := binaryAct_kept hs
theorem cmpAct_kept {i} (hs : s.Kept base) : (cmpAct i s).Kept base := binaryAct_kept hs
theorem selectAct_kept {x} (hs : s.Kept base) : (selectAct x s).Kept base := ternaryAct_kept hs
theorem scaleAct_kept {i} (hs : s.Kept base) : (scaleAct i s).Kept base := binaryAct_kept hs
theorem exponentAct_kept {x} (hs : s.Kept base) : (exponentAct x s).Kept base := unaryAct_kept hs
theorem mantissaAct_kept {x} (hs : s.Kept base) : (mantissaAct x s).Kept base := unaryAct_kept hs
theorem rcpAct_kept {x} (hs : s.Kept base) : (rcpAct x s).Kept base := unaryAct_kept hs
theorem rsqrtAct_kept {x} (hs : s.Kept base) : (rsqrtAct x s).Kept base := unaryAct_kept hs
theorem cvtAct_kept {i} (hs : s.Kept base) : (cvtAct i s).Kept base := runVec_kept hs
theorem reduceAct_kept {i} (hs : s.Kept base) : (reduceAct i s).Kept base := runVec_kept hs

theorem accCvtLoop_kept {n x} (hs : s.Kept base) : (accCvtLoop n x s).Kept base := by
  induction n generalizing x s with
  | zero => exact hs
  | succ n ih =>
    rw [accCvtLoop]
    split
    · exact Act.ite_kept (ih (pushBy_kept (setProg_kept hs))) hs
    · refine Act.ite_kept (foldl_kept (fun _ _ => popSrc_kept) hs) ?_
      split
      · exact waitSources_kept hs
      · refine ih (setProg_kept (State.modPress_kept (foldl_kept (fun _ _ => popSrc_kept) ?_)))
        exact readAll_kept (readBank_kept hs)

theorem accCvtAct_kept {i} (hs : s.Kept base) : (accCvtAct i s).Kept base := accCvtLoop_kept hs

theorem issueV_kept {op run i} (hrun : ∀ i s, s.Kept base → (run i s).Kept base) (hs : s.Kept base) :
    Out.Kept base (issueV op run i s) :=
  Out.kept_next (issue_kept (fun _ _ h => hrun _ _ h) hs)

theorem execAdd_kept {i} (hs : s.Kept base) :
    Out.Kept base (execAdd i s) := issueV_kept (fun _ _ => addAct_kept) hs

theorem execMul_kept {i} (hs : s.Kept base) :
    Out.Kept base (execMul i s) := issueV_kept (fun _ _ => mulAct_kept) hs

theorem execFma_kept {i} (hs : s.Kept base) :
    Out.Kept base (execFma i s) := issueV_kept (fun _ _ => fmaAct_kept) hs

theorem execMin_kept {i} (hs : s.Kept base) :
    Out.Kept base (execMin i s) := issueV_kept (fun _ _ => minAct_kept) hs

theorem execMax_kept {i} (hs : s.Kept base) :
    Out.Kept base (execMax i s) := issueV_kept (fun _ _ => maxAct_kept) hs

theorem execCmp_kept {i} (hs : s.Kept base) :
    Out.Kept base (execCmp i s) := issueV_kept (fun _ _ => cmpAct_kept) hs

theorem execSelect_kept {i} (hs : s.Kept base) :
    Out.Kept base (execSelect i s) := issueV_kept (fun _ _ => selectAct_kept) hs

theorem execScale_kept {i} (hs : s.Kept base) :
    Out.Kept base (execScale i s) := issueV_kept (fun _ _ => scaleAct_kept) hs

theorem execExponent_kept {i} (hs : s.Kept base) : Out.Kept base (execExponent i s) :=
  issueV_kept (fun _ _ => exponentAct_kept) hs

theorem execMantissa_kept {i} (hs : s.Kept base) : Out.Kept base (execMantissa i s) :=
  issueV_kept (fun _ _ => mantissaAct_kept) hs

theorem execRcp_kept {i} (hs : s.Kept base) :
    Out.Kept base (execRcp i s) := issueV_kept (fun _ _ => rcpAct_kept) hs

theorem execRsqrt_kept {i} (hs : s.Kept base) :
    Out.Kept base (execRsqrt i s) := issueV_kept (fun _ _ => rsqrtAct_kept) hs

theorem execCvt_kept {i} (hs : s.Kept base) :
    Out.Kept base (execCvt i s) := issueV_kept (fun _ _ => cvtAct_kept) hs

theorem execRsum_kept {i} (hs : s.Kept base) :
    Out.Kept base (execRsum i s) := issueV_kept (fun _ _ => reduceAct_kept) hs

theorem execRmax_kept {i} (hs : s.Kept base) :
    Out.Kept base (execRmax i s) := issueV_kept (fun _ _ => reduceAct_kept) hs

theorem execRmin_kept {i} (hs : s.Kept base) :
    Out.Kept base (execRmin i s) := issueV_kept (fun _ _ => reduceAct_kept) hs

theorem execAccCvt_kept {i} (hs : s.Kept base) :
    Out.Kept base (execAccCvt i s) := issueV_kept (fun _ _ => accCvtAct_kept) hs

/-! ## Serving -/

theorem deskCommand_kept {d run} (hrun : ∀ s, s.Kept base → (run s).Kept base) (hs : s.Kept base) :
    (deskCommand d run s).Kept base :=
  ite_kept (finish_kept hs) (ite_kept (finish_kept hs) (hrun _ hs))

theorem putDigest_kept {w} (hs : s.Kept base) : (putDigest w s).Kept base := nearPut_kept hs

theorem execWaybillOpen_kept {d blk} (hs : s.Kept base) : Out.Kept base (execWaybillOpen d blk s) := by
  unfold execWaybillOpen
  extract_lets
  refine Out.kept_next (commandBlk_kept (fun _ h => deskCommand_kept (fun _ h' => ?_) h) hs)
  split
  · exact finish_kept h'
  · extract_lets
    refine ite_kept (finish_kept h') (ite_kept (finish_kept h') ?_)
    split
    · refine ite_kept (finish_kept h') (ite_kept (finish_kept h') ?_)
      extract_lets _ _ _ s1
      have h1 : s1.Kept base := nearPut_kept (nearZero_kept (allocInput_kept h'))
      exact queued_kept (putDigest_kept (nearPut_kept h1))
    · exact finish_kept h'

theorem execWaybillAppend_kept {d blk} (hs : s.Kept base) : Out.Kept base (execWaybillAppend d blk s) := by
  unfold execWaybillAppend
  extract_lets
  refine Out.kept_next (commandBlk_kept (fun _ h => deskCommand_kept (fun _ h' => ?_) h) hs)
  split
  · split
    · refine ite_kept (finish_kept h') ?_
      extract_lets
      split
      · exact finish_kept h'
      · extract_lets _ s1
        have h1 : s1.Kept base := nearPut_kept (nearZero_kept (allocInput_kept h'))
        exact queued_kept (putDigest_kept (nearPut_kept h1))
  · exact finish_kept h'

theorem sendVoid_kept {body} (hs : s.Kept base) :
    (sendVoid body s).Kept base := ite_kept hs (sendControl_kept hs)

theorem markVoid_kept {i} (hs : s.Kept base) : (markVoid i s).Kept base := hs

theorem acceptCancel_kept {i w cmd} (hs : s.Kept base) : (acceptCancel i w cmd s).Kept base := by
  unfold acceptCancel
  extract_lets
  refine ite_kept ?_ hs
  exact ite_kept (markVoid_kept (modWb_kept hs)) (sendVoid_kept (markVoid_kept (modWb_kept hs)))

theorem cancelEdition_kept {i closed cmd code st} (hs : s.Kept base) :
    (cancelEdition i closed cmd code st s).Kept base := by
  unfold cancelEdition
  extract_lets _ _ s1
  have h1 : s1.Kept base := by
    unfold s1
    exact writeEdition_kept (showEntry_kept (hs.congr rfl rfl rfl rfl))
  split
  · exact finish_kept h1
  · exact h1

theorem cancelPublish_kept {i cmd st} (hs : s.Kept base) : (cancelPublish i cmd st s).Kept base := by
  unfold cancelPublish
  split
  · exact hs
  · exact ite_kept (cancelEdition_kept (publishAll_kept hs)) hs

theorem cancelNow_kept {i w cmd} (hs : s.Kept base) : (cancelNow i w cmd s).Kept base := by
  unfold cancelNow
  extract_lets _ _ s1
  have h1 : s1.Kept base := countChoices_kept (timingChoice_kept hs)
  exact ite_kept (cancelEdition_kept (dropTicket_kept (leaveBerth_kept hs)))
    (cancelPublish_kept (fenceClosed_kept (closeWb_kept (dropTicket_kept (leaveBerth_kept h1)))))

theorem cancelGoOn_kept (hs : s.Kept base) :
    (cancelGoOn s).Kept base := foldl_kept (fun _ _ => cancelPublish_kept) hs

theorem execWaybillCancel_kept {d} (hs : s.Kept base) : Out.Kept base (execWaybillCancel d s) := by
  unfold execWaybillCancel
  extract_lets
  refine Out.kept_next (command_kept (fun _ h => ite_kept (finish_kept h) ?_) hs)
  split
  · exact finish_kept h
  · extract_lets
    exact ite_kept (finish_kept h) (ite_kept (acceptCancel_kept (queued_kept h)) (cancelNow_kept h))

theorem cancelWrite_kept {w value} (hs : s.Kept base) : (cancelWrite w value s).Kept base := by
  unfold cancelWrite
  refine ite_kept hs (foldl_kept (fun _ _ ht => ?_) hs)
  extract_lets
  split
  · exact ht
  · exact ite_kept ht (ite_kept (acceptCancel_kept ht) (cancelNow_kept ht))

theorem execCancelWrite_kept {w wr} (hs : s.Kept base) : Out.Kept base (execCancelWrite w wr s) :=
  Out.kept_next (behindWrites_kept (fun _ => cancelWrite_kept) hs)

theorem execVoid_kept {p body} (hs : s.Kept base) : Out.Kept base (execVoid p body s) := by
  unfold execVoid
  extract_lets
  refine Out.kept_next ?_
  split
  · exact controlTake_kept hs
  · exact ite_kept (markVoid_kept (controlTake_kept hs))
      (sendVoid_kept (markVoid_kept (controlTake_kept hs)))

theorem execWaybillStable_kept {d} (hs : s.Kept base) : Out.Kept base (execWaybillStable d s) := by
  unfold execWaybillStable
  extract_lets
  refine Out.kept_next (command_kept (fun _ h => deskCommand_kept (fun _ h' => ?_) h) hs)
  split
  · exact ite_kept (queued_kept (modWb_kept h')) (finish_kept h')
  · exact finish_kept h'

theorem execWaybillResume_kept {d} (hs : s.Kept base) : Out.Kept base (execWaybillResume d s) := by
  unfold execWaybillResume
  extract_lets
  refine Out.kept_next ?_
  refine command_kept (fun _ h => ite_kept (finish_kept h) (deskCommand_kept (fun _ h' => ?_) h)) hs
  split
  · exact ite_kept (finish_kept h') (ite_kept (finish_kept h') (queued_kept h'))
  · exact finish_kept h'

theorem execWaybillQuery_kept {d} (hs : s.Kept base) : Out.Kept base (execWaybillQuery d s) := by
  unfold execWaybillQuery
  extract_lets
  exact Out.kept_next (commandReply_kept (fun _ h => ite_kept (finish_kept h) (finishReply_kept h)) hs)

theorem execLiveryLoad_kept {d blk} (hs : s.Kept base) : Out.Kept base (execLiveryLoad d blk s) := by
  unfold execLiveryLoad
  extract_lets
  refine Out.kept_next ?_
  refine commandBlk_kept (fun _ h => ite_kept (finish_kept h)
    (ite_kept (finish_kept h) (ite_kept (finish_kept h) ?_))) hs
  extract_lets
  split
  · exact finish_kept h
  · exact ite_kept (finish_kept h) (finish_kept (farWrite_kept h))

theorem execLiveryFree_kept {d} (hs : s.Kept base) : Out.Kept base (execLiveryFree d s) := by
  unfold execLiveryFree
  extract_lets
  exact Out.kept_next (command_kept (fun _ h => ite_kept (finish_kept h)
    (ite_kept (finish_kept h) (ite_kept (queued_kept h) (finish_kept h)))) hs)

/-! ## Concourse -/

theorem laneFreed_kept {src} (hs : s.Kept base) : (laneFreed src s).Kept base := by
  unfold laneFreed
  refine ite_kept ?_ (ite_kept (deliverPort_kept hs) hs)
  split
  · exact foutPump_kept hs
  · exact hs

theorem concTake_kept {f} (hs : s.Kept base) : (concTake f s).Kept base := by
  unfold concTake
  split
  · exact laneFreed_kept hs
  · exact hs

theorem landPlatform_kept {p l e} (hs : s.Kept base) : (landPlatform p l e s).Kept base := by
  unfold landPlatform
  split
  · exact hs
  · exact State.modPress_kept (touchLanding_kept hs)

theorem landStray_kept {p} (hs : s.Kept base) : (landStray p s).Kept base := State.modPress_kept hs

theorem landFin_kept {src e p t} (hs : s.Kept base) (h : landFin src e p s = some t) : t.Kept base := by
  unfold landFin at h
  extract_lets _ _ _ _ at h
  split at h
  · split at h
    · obtain rfl := Option.some.inj h
      exact landPump_kept (landInto_kept hs)
    · cases h
  · split at h
    · obtain rfl := Option.some.inj h
      exact State.modPress_kept hs
    · cases h

theorem execLandingArrival_kept {p source} (hs : s.Kept base) : Out.Kept base (execLandingArrival p source s) := by
  unfold execLandingArrival
  extract_lets _ mine _ s1
  have h1 : s1.Kept base := landRead_kept (State.modPress_kept hs)
  refine Out.kept_next ?_
  split
  · exact hs
  · split
    · exact concTake_kept (landPlatform_kept hs)
    · split
      · exact landStray_kept (concTake_kept (State.modPress_kept hs))
      · split
        · exact stepFault_kept (landStray_kept (concTake_kept hs))
        · split
          next t e => exact concTake_kept (landFin_kept h1 e)
          next => exact laneStop_kept h1

/-! ## StreamCtl -/

theorem nopAct_kept {x} (hs : s.Kept base) : (nopAct x s).Kept base := hs

theorem markAct_kept {i} (hs : s.Kept base) : (markAct i s).Kept base := by
  unfold markAct
  split
  · exact State.modStream_kept hs
  · exact hs

theorem loopAct_kept {i} (hs : s.Kept base) : (loopAct i s).Kept base := by
  unfold loopAct
  split
  · exact State.modStream_kept hs
  · exact hs

theorem endAct_kept {i} (hs : s.Kept base) : (endAct i s).Kept base := State.modStream_kept hs

theorem execStreamNop_kept {i} (hs : s.Kept base) : Out.Kept base (execStreamNop i s) :=
  Out.kept_next (issue_kept (fun _ _ => nopAct_kept) hs)

theorem execDepartMark_kept {i} (hs : s.Kept base) : Out.Kept base (execDepartMark i s) :=
  Out.kept_next (streamRelease_kept (issue_kept (fun _ _ => markAct_kept) hs))

theorem dueTest_kept {p id u} (hs : s.Kept base) : (dueTest p id u s).Kept base := by
  unfold dueTest
  split
  · exact ite_kept (raiseHold_kept hs) hs
  · exact hs

theorem execDueMark_kept {i} (hs : s.Kept base) : Out.Kept base (execDueMark i s) :=
  Out.kept_next (dueTest_kept (streamRelease_kept (issue_kept (fun _ _ => markAct_kept) hs)))

theorem execLoop_kept {i} (hs : s.Kept base) : Out.Kept base (execLoop i s) :=
  Out.kept_next (issue_kept (fun _ _ => loopAct_kept) hs)

theorem execEndStream_kept {i} (hs : s.Kept base) : Out.Kept base (execEndStream i s) :=
  Out.kept_next (issue_kept (fun _ _ => endAct_kept) hs)

/-- An instruction's effect keeps what `base` had. -/
def ActKeeps (base : State) (run : Issue → State → Act) : Prop := ∀ i s, s.Kept base → (run i s).Kept base

theorem wordAct_keeps {w} : ActKeeps base (wordAct w) := by
  unfold wordAct
  split
  · exact fun _ _ => wloadAct_kept
  · exact fun _ _ => passAct_kept
  · exact fun _ _ => waddAct_kept
  · exact fun _ _ => addAct_kept
  · exact fun _ _ => mulAct_kept
  · exact fun _ _ => fmaAct_kept
  · exact fun _ _ => minAct_kept
  · exact fun _ _ => maxAct_kept
  · exact fun _ _ => cmpAct_kept
  · exact fun _ _ => selectAct_kept
  · exact fun _ _ => scaleAct_kept
  · exact fun _ _ => exponentAct_kept
  · exact fun _ _ => mantissaAct_kept
  · exact fun _ _ => rcpAct_kept
  · exact fun _ _ => rsqrtAct_kept
  · exact fun _ _ => cvtAct_kept
  · exact fun _ _ => reduceAct_kept
  · exact fun _ _ => reduceAct_kept
  · exact fun _ _ => reduceAct_kept
  · exact fun _ _ => accCvtAct_kept
  · exact fun _ _ => loadAct_kept
  · exact fun _ _ => storeAct_kept
  · split
    · exact fun _ _ => moveWideAct_kept
    · exact fun _ _ => moveAct_kept
  · exact fun _ _ => platRdAct_kept
  · exact fun _ _ => platWrAct_kept
  · exact fun _ _ => nearRdAct_kept
  · exact fun _ _ => nearWrAct_kept
  · exact fun _ _ => farRdAct_kept
  · exact fun _ _ => farWrAct_kept
  · exact fun _ _ => nopAct_kept

theorem wordAct_kept {w i} (hs : s.Kept base) : (wordAct w i s).Kept base := wordAct_keeps i s hs

theorem retry_kept {p id row} (hs : s.Kept base) : (retry p id row s).Kept base := by
  unfold retry
  extract_lets
  split
  · exact ite_kept (settle_kept (wordAct_kept (State.modStream_kept hs))) hs
  · exact hs

theorem retrySide_kept {p row} (hs : s.Kept base) : (retrySide p row s).Kept base := by
  unfold retrySide
  extract_lets
  split
  · extract_lets i hand
    have hw : (wordAct i.word i hand).Kept base := wordAct_kept (State.modStream_kept hs)
    split
    · split
      next t e =>
        have ht : t.Kept base := by rwa [e] at hw
        dsimp only
        split
        · exact ite_kept (stepAside_kept (State.modStream_kept ht)) (State.modStream_kept ht)
        · exact State.modStream_kept ht
      next t e =>
        have ht : t.Kept base := by rwa [e] at hw
        exact State.modStream_kept (noteWait_kept ht)
    · exact hs
  · exact hs

theorem retryAll_kept {p id row} (hs : s.Kept base) : (retryAll p id row s).Kept base :=
  retry_kept (ite_kept (retrySide_kept hs) hs)

theorem execQueueWaitEnd_kept {p id} (hs : s.Kept base) : Out.Kept base (execQueueWaitEnd p id s) :=
  Out.kept_next (retryAll_kept hs)

theorem execReleaseWaitEnd_kept {p} (hs : s.Kept base) : Out.Kept base (execReleaseWaitEnd p s) :=
  Out.kept_next (retryAll_kept hs)

/-! ## Timetable -/

theorem copySlot_kept {v part x} (hs : s.Kept base) : (copySlot v part s x).Kept base := by
  unfold copySlot
  split
  · exact State.modPress_kept (State.drawReads_kept hs)
  · exact hs

theorem execProgramCopy_kept (hs : s.Kept base) : Out.Kept base (execProgramCopy s) := by
  refine Out.kept_next (ite_kept hs ?_)
  extract_lets _ s1
  have h1 : s1.Kept base := by
    unfold s1
    split
    · exact hs
    · exact foldl_kept (fun _ _ => copySlot_kept) hs
  exact h1

theorem launchUnits_kept (hs : s.Kept base) : (launchUnits s).Kept base :=
  foldl_kept (fun _ _ => State.modPress_kept) (State.modPresses_kept hs)

theorem startDone_kept (hs : s.Kept base) : (startDone s).Kept base := by
  unfold startDone
  split
  · exact formeDone_kept hs
  · exact hs

theorem pointLaunched_kept (hs : s.Kept base) : (pointLaunched s).Kept base := by
  unfold pointLaunched
  split
  · exact ite_kept hs (pointDone_kept hs)
  · exact hs

theorem execLaunch_kept (hs : s.Kept base) : Out.Kept base (execLaunch s) := by
  refine Out.kept_next ?_
  split
  · exact hs
  · refine ite_kept hs ?_
    extract_lets _ _ _ _ _ _ _ _ _ s1
    have h1 : s1.Kept base := launchUnits_kept (stopTraining_kept hs)
    exact pointLaunched_kept (startDone_kept (deliverHeld_kept h1))

theorem unitGo_kept {u} (hs : s.Kept base) : (unitGo u s).Kept base := by
  unfold unitGo
  split
  · exact streamRelease_kept hs
  · exact seqGo_kept hs
  · exact farGo_kept hs
  · exact despGo_kept hs
  · exact smpGo_kept hs
  · exact hs

theorem skipAbsent_kept {u} (hs : s.Kept base) : (skipAbsent u s).Kept base := by
  unfold skipAbsent
  split
  · exact ite_kept (State.modPort_kept hs) hs
  · exact hs

theorem execReadinessTest_kept {u} (hs : s.Kept base) : Out.Kept base (execReadinessTest u s) := by
  unfold execReadinessTest
  extract_lets
  split
  · extract_lets _ _ s1
    have h1 : s1.Kept base := raiseHold_kept (skipAbsent_kept (unitGo_kept hs))
    refine Out.kept_next (ite_kept (skipAbsent_kept (unitGo_kept hs))
      (ite_kept (skipAbsent_kept (unitGo_kept hs)) ?_))
    split
    next _ _ t _ _ =>
      exact State.modPort_kept h1
    · exact h1

theorem execHoldRelease_kept {u c} (hs : s.Kept base) : Out.Kept base (execHoldRelease u c s) :=
  Out.kept_next (releaseHolds_kept (skipAbsent_kept hs))

theorem execHoldResume_kept {u c} (hs : s.Kept base) : Out.Kept base (execHoldResume u c s) := by
  unfold execHoldResume
  extract_lets _ _ _ s1
  have h1 : s1.Kept base := hs
  refine Out.kept_next ?_
  split
  · exact State.modPort_kept h1
  · exact unitGo_kept h1

theorem execFirmwareServiceIntrusion_kept {b} (hs : s.Kept base) : Out.Kept base (execFirmwareServiceIntrusion b s) :=
  Out.kept_next (ite_kept hs (intrude_kept hs))

theorem execEndCountReached_kept (hs : s.Kept base) : Out.Kept base (execEndCountReached s) :=
  Out.kept_next (ite_kept (smpRelease_kept hs) hs)

theorem discardStray_kept {note} (hs : s.Kept base) : (discardStray note s).Kept base :=
  foldl_kept (fun _ _ ht => ite_kept (State.modPort_kept
    (foldl_kept (fun _ _ => viaSent_kept) (State.modPort_kept ht)))
    (stepFault_kept (State.modPort_kept (foldl_kept (fun _ _ => viaSent_kept) (State.modPort_kept ht))))) hs

theorem drained_kept (hs : s.Kept base) : (drained s).Kept base := by
  unfold drained
  extract_lets _ _ s1 _ _ _ _ _ s2
  have h1 : s1.Kept base := foldl_kept (fun _ _ => State.modPress_kept) (State.modPresses_kept hs)
  have h2 : s2.Kept base := waitingTries_kept (h1.congr rfl rfl rfl rfl)
  split
  · exact ite_kept h2 (performStop_kept h2)
  · exact tryReport_kept h2

theorem execDrainComplete_kept (hs : s.Kept base) : Out.Kept base (execDrainComplete s) :=
  Out.kept_next (ite_kept (drained_kept (discardStray_kept hs)) hs)

theorem execDrainLimitExpiry_kept (hs : s.Kept base) : Out.Kept base (execDrainLimitExpiry s) := by
  refine Out.kept_next ?_
  split
  · refine ite_kept hs ?_
    extract_lets _ _ s1
    have h1 : s1.Kept base := foldl_kept (fun _ _ => State.modPress_kept) (stepFault_kept hs)
    exact drained_kept (discardStray_kept h1)
  · exact hs

theorem feedZeros_kept {p w} (hs : s.Kept base) : (feedZeros p w s).Kept base :=
  foldl_kept (fun _ _ ht => ite_kept (State.modPress_kept ht) ht) hs

theorem abandonSide_kept {p} (hs : s.Kept base) : (abandonSide p s).Kept base := by
  unfold abandonSide
  split
  · exact hs
  · exact State.modPress_kept (retrySide_kept (feedZeros_kept hs))

theorem abandonStream_kept {p id} (hs : s.Kept base) : (abandonStream p id s).Kept base := by
  unfold abandonStream
  extract_lets
  split
  · exact ite_kept (abandonSide_kept hs) hs
  · extract_lets s1
    have h1 : s1.Kept base := retry_kept (feedZeros_kept (ite_kept (abandonSide_kept hs) hs))
    exact ite_kept (retire_kept h1) h1

theorem zeroReads_kept {source r} (hs : s.Kept base) : (zeroReads source r s).Kept base := ite_kept hs hs

theorem abandon_kept {u} (hs : s.Kept base) : (abandon u s).Kept base := by
  unfold abandon
  split
  · exact abandonStream_kept hs
  · extract_lets s1
    have h1 : s1.Kept base := by
      unfold s1
      split
      · exact zeroReads_kept (State.modChan_kept hs)
      · exact hs
    exact seqPass_kept h1
  · extract_lets s1
    have h1 : s1.Kept base := by
      unfold s1
      split
      · exact zeroReads_kept (State.modFar_kept hs)
      · exact hs
    exact farPass_kept h1
  · exact State.modPort_kept hs
  · exact hs
  · exact hs

theorem execPlanWatchdogExpiry_kept {u} (hs : s.Kept base) : Out.Kept base (execPlanWatchdogExpiry u s) := by
  refine Out.kept_next ?_
  split
  · exact hs
  · extract_lets
    refine ite_kept hs ?_
    exact ite_kept (ite_kept (releaseHolds_kept (skipAbsent_kept (stepFault_kept hs))) hs)
      (ite_kept (releaseHolds_kept (abandon_kept hs)) hs)

/-! ## Forme -/

theorem formeCommandIf_kept {ok d used run} (hrun : ∀ s, s.Kept base → (run s).Kept base) (hs : s.Kept base) :
    (formeCommandIf ok d used run s).Kept base := by
  unfold formeCommandIf
  extract_lets
  refine ite_kept (formeRefuse_kept (cmdBegin_kept hs)) ?_
  exact ite_kept (formeRefuse_kept (cmdBegin_kept hs)) (hrun _ (cmdBegin_kept hs))

theorem formeCommand_kept {d used run} (hrun : ∀ s, s.Kept base → (run s).Kept base) (hs : s.Kept base) :
    (formeCommand d used run s).Kept base :=
  formeCommandIf_kept (fun _ h => hrun _ h) hs

theorem formeBlk_kept {d used blk run} (hrun : ∀ s, s.Kept base → (run s).Kept base) (hs : s.Kept base) :
    (formeBlk d used blk run s).Kept base :=
  formeCommand_kept (fun _ h => ite_kept (formeRefuse_kept h) (ite_kept (formeRefuse_kept h) (hrun _ h))) hs

theorem wakeFor_kept (hs : s.Kept base) : (wakeFor s).Kept base := ite_kept hs (startWake_kept hs)
theorem fillLists_kept {pl} (hs : s.Kept base) : (fillLists pl s).Kept base := hs
theorem clearLists_kept (hs : s.Kept base) : (clearLists s).Kept base := hs

theorem parkEntry_kept {i acc} (hacc : acc.1.Kept base) : (parkEntry i acc).1.Kept base := by
  unfold parkEntry
  split
  next t u _ _ =>
    split
    · exact hacc
    · extract_lets _ s1
      have h1 : s1.Kept base := stablingCopy_kept (startStable_kept (reachLength_kept hacc))
      split
      · exact hacc
      · split
        · exact ite_kept (issueTicketLater_kept (modWb_kept (modWb_kept h1))) (modWb_kept h1)
        · exact modWb_kept (closeWb_kept (freePages_kept hacc))

theorem parkShadow_kept {i acc} (hacc : acc.1.Kept base) : (parkShadow i acc).1.Kept base := by
  unfold parkShadow
  split
  next t u _ _ =>
    exact ite_fst_kept hacc (ite_fst_kept (stablingCopy_kept (startStable_kept hacc)) (freePages_kept hacc))

theorem foldl_parkEntry_kept {l : List Nat} :
    ∀ {x : State × Nat × Nat}, x.1.Kept base → (l.foldl (fun acc i => parkEntry i acc) x).1.Kept base := by
  induction l with
  | nil => exact id
  | cons i l ih => exact fun hx => ih (parkEntry_kept hx)

theorem foldl_parkShadow_kept {l : List Nat} :
    ∀ {x : State × Nat × Nat}, x.1.Kept base → (l.foldl (fun acc i => parkShadow i acc) x).1.Kept base := by
  induction l with
  | nil => exact id
  | cons i l ih => exact fun hx => ih (parkShadow_kept hx)

theorem parkAll_kept {desk} (hs : s.Kept base) : (parkAll desk s).1.Kept base := by
  unfold parkAll
  extract_lets s1
  have h1 : s1.Kept base := foldl_kept (fun _ _ => stablingCopy_kept) hs
  split
  next t _ _ e =>
    have ht : t.Kept base := by
      refine fst_kept e ?_
      split
      · exact foldl_parkEntry_kept h1
      · exact foldl_parkShadow_kept h1
    exact ht

theorem adoptPages_kept {digest f c} (hs : s.Kept base) : (adoptPages digest f c s).Kept base := by
  unfold adoptPages
  split
  · exact hs
  · exact ite_kept hs (parkAll_kept hs)

theorem storeForme_kept {f c digest k pl} (hs : s.Kept base) : (storeForme f c digest k pl s).Kept base :=
  nearZero_kept (fillLists_kept ((adoptPages_kept hs).congr rfl rfl rfl rfl))

theorem execFormeLoad_kept {d parts} (hs : s.Kept base) : Out.Kept base (execFormeLoad d parts s) := by
  refine Out.kept_next (formeCommandIf_kept (fun t h => ?_) hs)
  have hrefuse : ∀ {status reason}, (formeRefuse d status reason t).Kept base := formeRefuse_kept h
  dsimp only
  repeat refine ite_kept hrefuse ?_
  split
  · exact hrefuse
  · repeat refine ite_kept hrefuse ?_
    split
    · exact hrefuse
    · exact formeDone_kept (pageChange_kept (storeForme_kept (wakeFor_kept h)))

theorem imposeWith_kept {f m blk flows tree void} (hs : s.Kept base) :
    (imposeWith f m blk flows tree void s).Kept base := hs

theorem execFormeImpose_kept {d blk} (hs : s.Kept base) : Out.Kept base (execFormeImpose d blk s) := by
  refine Out.kept_next (formeCommandIf_kept (fun t h => ?_) hs)
  have hrefuse : ∀ {status reason}, (formeRefuse d status reason t).Kept base := formeRefuse_kept h
  dsimp only
  split
  · exact hrefuse
  · repeat refine ite_kept hrefuse ?_
    split
    · exact hrefuse
    · exact formeDone_kept (pageChange_kept (imposeWith_kept h))

theorem allocRing_kept {f} (hs : s.Kept base) : (allocRing f s).Kept base := by
  unfold allocRing
  split
  · exact hs
  · refine ite_kept hs ?_
    split
    · exact allocInput_kept hs
    · exact hs

theorem zeroPlatforms_kept {f} (hs : s.Kept base) : (zeroPlatforms f s).Kept base :=
  foldl_kept (fun _ _ => State.modPress_kept) hs

theorem beginRecovery_kept {f c} (hs : s.Kept base) : (beginRecovery f c s).Kept base := by
  unfold beginRecovery
  extract_lets _ _ _ _ s1 _ _ s2
  have h1 : s1.Kept base := zeroPlatforms_kept hs
  have h2 : s2.Kept base := ite_kept (sendAgain_kept h1) h1
  exact ite_kept h2 (ite_kept (ite_kept (settleRebuild_kept h2) (beginFetches_kept h2))
    (beginFetches_kept h2))

theorem prepareFirst_kept {f} (hs : s.Kept base) :
    (prepareFirst f s).Kept base := ite_kept (processSheet_kept hs) hs

theorem acceptStart_kept {d f count rebuilt old} (hold : old.Kept base) :
    (acceptStart d f count rebuilt old).Kept base := by
  unfold acceptStart
  extract_lets _ _ _ _ _ s1
  have h1 : s1.Kept base := ite_kept hold (beginRecovery_kept hold)
  exact formeQueued_kept (pageChange_kept (prepareFirst_kept (allocRing_kept h1)))

theorem execFormeStart_kept {d} (hs : s.Kept base) : Out.Kept base (execFormeStart d s) := by
  refine Out.kept_next (formeCommand_kept (fun t h => ?_) hs)
  have hrefuse : ∀ {status reason}, (formeRefuse d status reason t).Kept base := formeRefuse_kept h
  dsimp only
  split
  · exact hrefuse
  · repeat refine ite_kept hrefuse ?_
    exact acceptStart_kept (wakeFor_kept h)

theorem execFormeStop_kept {d} (hs : s.Kept base) : Out.Kept base (execFormeStop d s) :=
  Out.kept_next (formeCommand_kept (fun _ h => ite_kept (formeRefuse_kept h)
    (ite_kept (formeDone_kept (stopForme_kept h)) (formeQueued_kept h))) hs)

theorem clearReady_kept {part} (hs : s.Kept base) : (clearReady part s).Kept base := by
  unfold clearReady
  refine ite_kept hs ?_
  exact ite_kept (State.modChan_kept hs) (ite_kept (State.modPort_kept hs)
    (ite_kept (State.modFar_kept hs) hs))

theorem clearFailed_kept (hs : s.Kept base) : (clearFailed s).Kept base :=
  foldl_kept (fun _ _ ht => ite_kept (clearReady_kept ht) ht) hs

theorem execFormeUnload_kept {d} (hs : s.Kept base) : Out.Kept base (execFormeUnload d s) :=
  Out.kept_next (formeCommand_kept (fun _ h => ite_kept (formeRefuse_kept h)
    (ite_kept (formeDone_kept h) (formeDone_kept
    (startStagger_kept (pageChange_kept (showTable_kept
    ((clearFailed_kept (clearLists_kept (parkAll_kept h))).congr rfl rfl rfl rfl))))))) hs)

/-! ## Weights -/

theorem putPlace_kept {t off bs r} (hs : s.Kept base) : (putPlace t off bs r s).Kept base := by
  unfold putPlace
  split
  · extract_lets
    refine ite_kept hs ?_
    split
    · split
      · exact State.modPress_kept hs
      · exact hs
    · exact nearPut_kept hs
    · exact farWrite_kept hs

theorem putImageAt_kept {t off bs} (hs : s.Kept base) : (putImageAt t off bs s).Kept base :=
  foldl_kept (fun _ _ => putPlace_kept) hs

theorem countBytes_kept {n} (hs : s.Kept base) : (countBytes n s).Kept base := hs

theorem makePresent_kept {x} (hs : s.Kept base) : (makePresent x s).Kept base :=
  ite_kept (putImageAt_kept hs) (putImageAt_kept hs)

theorem withImages_kept {d recs sources placed go} (hgo : ∀ i s, s.Kept base → (go i s).Kept base)
    (hs : s.Kept base) :
    (withImages d recs sources placed go s).Kept base := by
  unfold withImages
  dsimp only
  refine ite_kept (formeRefuse_kept (dropTensors_kept hs)) ?_
  refine ite_kept (formeRefuse_kept (dropTensors_kept hs)) ?_
  split
  · exact formeRefuse_kept (dropTensors_kept hs)
  · refine ite_kept (formeRefuse_kept (dropTensors_kept hs)) ?_
    split
    · exact formeRefuse_kept (dropTensors_kept (countBytes_kept hs))
    · exact hgo _ _ (dropTensors_kept (countBytes_kept hs))

theorem weightCommand_kept {d run} (hrun : ∀ s, s.Kept base → (run s).Kept base) (hs : s.Kept base) :
    (weightCommand d run s).Kept base :=
  ite_kept (formeRefuse_kept hs) (hrun _ hs)

theorem execWeightsLoad_kept {d blk sources} (hs : s.Kept base) : Out.Kept base (execWeightsLoad d blk sources s) := by
  refine Out.kept_next (formeBlk_kept (fun _ h => weightCommand_kept (fun _ h' => ?_) h) hs)
  refine ite_kept (formeRefuse_kept h') (withImages_kept ?_ h')
  intro _ t ht
  extract_lets s1
  have h1 : s1.Kept base := foldl_kept (fun _ _ => makePresent_kept) (wakeFor_kept ht)
  exact ite_kept (formeDone_kept h1) (formeQueued_kept h1)

theorem sendOn_kept {payload x} (hs : s.Kept base) : (sendOn payload s x).Kept base := sendCtrl_kept hs

theorem beginBroadcast_kept {d routes recs images} (hs : s.Kept base) :
    (beginBroadcast d routes recs images s).Kept base := by
  unfold beginBroadcast
  extract_lets _ _ s1
  have h1 : s1.Kept base := foldl_kept (fun _ _ ht => foldl_kept
    (fun _ _ hu => foldl_kept (fun _ _ => sendOn_kept) hu) ht) hs
  exact h1

theorem execWeightsBroadcast_kept {d blk sources} (hs : s.Kept base) :
    Out.Kept base (execWeightsBroadcast d blk sources s) := by
  refine Out.kept_next (formeBlk_kept (fun _ h => weightCommand_kept (fun _ h' => ?_) h) hs)
  refine ite_kept (formeRefuse_kept h') (withImages_kept (fun _ _ h'' => ?_) h')
  exact castGo_kept (beginBroadcast_kept (foldl_kept (fun _ _ => makePresent_kept) (wakeFor_kept h'')))

theorem strayCopy_kept (hs : s.Kept base) : (strayCopy s).Kept base := hs

theorem execWeightData_kept {payload} (hs : s.Kept base) : Out.Kept base (execWeightData payload s) := by
  unfold execWeightData
  extract_lets s1
  have h1 : s1.Kept base := serviceTake_kept hs
  clear_value s1
  split
  · exact Out.kept_next (strayCopy_kept h1)
  · split
    · exact Out.kept_next (strayCopy_kept h1)
    · exact Out.kept_next (putImageAt_kept (countBytes_kept h1))

theorem fabricDone_kept (hs : s.Kept base) : (fabricDone s).Kept base := by
  unfold fabricDone
  split
  · exact hs
  · exact ite_kept hs (ite_kept (formeRefuse_kept (dropTensors_kept hs)) (formeDone_kept hs))

theorem execWeightEnd_kept {payload} (hs : s.Kept base) : Out.Kept base (execWeightEnd payload s) := by
  unfold execWeightEnd
  extract_lets s1
  have h1 : s1.Kept base := serviceTake_kept hs
  clear_value s1
  split
  · refine Out.ite_kept (Out.kept_next (strayCopy_kept h1)) (Out.kept_next (fabricDone_kept ?_))
    dsimp only
    split <;> exact h1
  · exact Out.kept_next (strayCopy_kept h1)

theorem execBroadcastTimeout_kept (hs : s.Kept base) : Out.Kept base (execBroadcastTimeout s) := by
  refine Out.kept_next ?_
  split
  · exact hs
  · exact formeRefuse_kept (dropTensors_kept hs)

theorem execWeightsDigestRead_kept {d} (hs : s.Kept base) : Out.Kept base (execWeightsDigestRead d s) :=
  Out.kept_next (formeCommandIf_kept (fun _ h => ite_kept (formeRefuse_kept h)
    (ite_kept (formeDone_kept h) (finishReply_kept (showPresent_kept h)))) hs)

theorem execWeightsDigestSeal_kept {d blk} (hs : s.Kept base) : Out.Kept base (execWeightsDigestSeal d blk s) :=
  Out.kept_next (formeCommandIf_kept (fun _ h => ite_kept (formeRefuse_kept h)
    (ite_kept (formeRefuse_kept h) (ite_kept (formeRefuse_kept h)
    (ite_kept (formeRefuse_kept h) (formeDone_kept (pageChange_kept h)))))) hs)

theorem execWeightsFree_kept {d} (hs : s.Kept base) : Out.Kept base (execWeightsFree d s) :=
  Out.kept_next (formeCommand_kept (fun _ h => ite_kept (formeRefuse_kept h)
    (ite_kept (formeRefuse_kept h) (formeDone_kept (pageChange_kept h)))) hs)

/-! ## Registers -/

theorem countUnmapped_kept (hs : s.Kept base) : (countUnmapped s).Kept base := hs

/-! ## Firmware -/

theorem execNop_kept {d} (hs : s.Kept base) : Out.Kept base (execNop d s) :=
  Out.kept_next (command_kept (fun _ => finish_kept) hs)

theorem execIdentify_kept {d} (hs : s.Kept base) : Out.Kept base (execIdentify d s) :=
  Out.kept_next (commandReply_kept (fun _ => finishReply_kept) hs)

theorem execGetEdition_kept {d} (hs : s.Kept base) : Out.Kept base (execGetEdition d s) :=
  Out.kept_next (command_kept (fun _ => finish_kept) hs)

theorem execFwStage_kept {d blk} (hs : s.Kept base) : Out.Kept base (execFwStage d blk s) :=
  Out.kept_next (commandBlk_kept (fun _ h => ite_kept (finish_kept h)
    (ite_kept (finish_kept h) (finish_kept (putImageSlot_kept h)))) hs)

theorem execFwHandover_kept {d} (hs : s.Kept base) : Out.Kept base (execFwHandover d s) := by
  refine Out.kept_next (command_kept (fun _ h => ?_) hs)
  split
  · exact finish_kept h
  · extract_lets
    refine ite_kept (finish_kept h) (ite_kept (finish_kept h) ?_)
    exact ite_kept (finish_kept h) (ite_kept (queued_kept h) (beginHandover_kept (queued_kept h)))

theorem execHandoverComplete_kept {adopted} (hs : s.Kept base) : Out.Kept base (execHandoverComplete adopted s) := by
  refine Out.kept_next ?_
  split
  · dsimp only
    split
    · exact ite_kept (finish_kept (ite_kept (postHeld_kept hs) (postHeld_kept hs)))
        (finish_kept (ite_kept (postHeld_kept hs) (postHeld_kept hs)))
    · exact ite_kept (postHeld_kept hs) (postHeld_kept hs)
  · exact hs

theorem execFwFlashWrite_kept {d} (hs : s.Kept base) : Out.Kept base (execFwFlashWrite d s) :=
  Out.kept_next (command_kept (fun _ h => ite_kept (finish_kept h)
    (ite_kept (finish_kept h) (ite_kept (finish_kept h) h))) hs)

theorem execFlashSectorEraseEnd_kept (hs : s.Kept base) : Out.Kept base (execFlashSectorEraseEnd s) := by
  refine Out.kept_next ?_
  split
  · exact hs.flash (memClear_wf _ _ _ _)
  · exact hs.flash (memClear_wf _ _ _ _)
  · exact hs

theorem flashDone_kept {status} (hs : s.Kept base) : (flashDone status s).Kept base := by
  unfold flashDone
  dsimp only
  split
  · exact finish_kept hs
  · exact hs

theorem flashVerify_kept (hs : s.Kept base) : (flashVerify s).Kept base :=
  ite_kept (flashDone_kept hs) (ite_kept (flashDone_kept hs) hs)

theorem nvmAdvance_kept (hs : s.Kept base) : (nvmAdvance s).Kept base := by
  unfold nvmAdvance
  split
  · extract_lets _ s1
    have h1 : s1.Kept base := hs.flash (memWrite_wf _ _ _ _)
    exact ite_kept (flashVerify_kept h1) (h1.congr rfl rfl rfl rfl)
  · extract_lets _ s1
    have h1 : s1.Kept base := hs
    exact ite_kept (flashDone_kept h1) h1
  · exact hs.flash (memWrite_wf _ _ _ _)
  · exact hs

theorem execFwVersion_kept {d} (hs : s.Kept base) : Out.Kept base (execFwVersion d s) :=
  Out.kept_next (command_kept (fun _ => finish_kept) hs)

theorem optionCtlWrite_kept {value} (hs : s.Kept base) :
    (optionCtlWrite value s).Kept base := ite_kept hs (ite_kept hs hs)

theorem execOptionCtlWrite_kept {w} (hs : s.Kept base) : Out.Kept base (execOptionCtlWrite w s) :=
  Out.kept_next (behindWrites_kept (fun _ => optionCtlWrite_kept) hs)

theorem execOptionWriteDone_kept {readBackOk} (hs : s.Kept base) : Out.Kept base (execOptionWriteDone readBackOk s) := by
  refine Out.kept_next (ite_kept hs (ite_kept hs ?_))
  split
  next _ _ t e =>
    have ht : t.Kept base := snd_kept e (State.draw_kept hs)
    exact ht.flash (memWrite_wf _ _ _ _)

theorem execAttest_kept {d} (hs : s.Kept base) : Out.Kept base (execAttest d s) :=
  Out.kept_next (commandReply_kept (fun _ => finishReply_kept) hs)

theorem execColophonSign_kept {d} (hs : s.Kept base) : Out.Kept base (execColophonSign d s) := by
  refine Out.kept_next (commandReply_kept (fun _ h => ite_kept (finish_kept h) ?_) hs)
  split
  · exact finish_kept h
  · exact finishReply_kept h

theorem execDebugEnable_kept {d} (hs : s.Kept base) : Out.Kept base (execDebugEnable d s) :=
  Out.kept_next (command_kept (fun _ h => ite_kept (finish_kept h)
    (ite_kept (ite_kept (finish_kept h) (queued_kept h))
    (ite_kept (finish_kept h) (finish_kept h)))) hs)

theorem setBreak_kept {i v} (hs : s.Kept base) : (setBreak i v s).Kept base := hs

theorem execBreakSet_kept {d} (hs : s.Kept base) : Out.Kept base (execBreakSet d s) :=
  Out.kept_next (command_kept (fun _ h => ite_kept (finish_kept h) (finish_kept (setBreak_kept h))) hs)

theorem execBreakClear_kept {d} (hs : s.Kept base) : Out.Kept base (execBreakClear d s) :=
  Out.kept_next (command_kept (fun _ h => finish_kept h) hs)

theorem execHazardRead_kept {d} (hs : s.Kept base) : Out.Kept base (execHazardRead d s) :=
  Out.kept_next (commandReply_kept (fun _ => finishReply_kept) hs)

/-! ## Health -/

theorem endJob_kept {j} (hs : s.Kept base) : (endJob j s).Kept base := postEvent_kept (finish_kept hs)

theorem testStand_kept {parts} (hs : s.Kept base) : (testStand parts s).Kept base :=
  foldl_kept (fun _ _ ht => ite_kept (State.modPress_kept ht) ht) hs

theorem execSelfTest_kept {d} (hs : s.Kept base) : Out.Kept base (execSelfTest d s) := by
  unfold execSelfTest
  extract_lets
  refine Out.kept_next (command_kept (fun _ h => ?_) hs)
  split
  · exact finish_kept h
  · extract_lets _ _ _ _ _ _ s1
    have h1 : s1.Kept base := testStand_kept (ite_kept (wakeFor_kept h) h)
    exact ite_kept (finish_kept h) (ite_kept (finish_kept h)
      (ite_kept (endJob_kept (ite_kept (queued_kept h1) h1)) (ite_kept (queued_kept h1) h1)))

theorem execSelfTestRun_kept {part} (hs : s.Kept base) : Out.Kept base (execSelfTestRun part s) :=
  Out.kept_next (ite_kept (testStand_kept hs) hs)

theorem testErases_kept {i} (hs : s.Kept base) : (testErases i s).Kept base :=
  ite_kept (ite_kept hs (State.modPress_kept hs)) (ite_kept (hs.nearMem (Memory.wf_filter blank _ _)) hs)

theorem endTest_kept {i fail block} (hs : s.Kept base) : (endTest i fail block s).Kept base := by
  unfold endTest
  extract_lets _ _ _ s1
  have h1 : s1.Kept base := ite_kept (State.modPress_kept (testErases_kept hs)) (testErases_kept hs)
  split
  · exact ite_kept (clearReady_kept h1) h1
  · exact ite_kept (endJob_kept (ite_kept (clearReady_kept h1) h1)) (ite_kept (clearReady_kept h1) h1)

theorem execSelfTestRunEnd_kept {part fail block} (hs : s.Kept base) :
    Out.Kept base (execSelfTestRunEnd part fail block s) :=
  Out.kept_next (ite_kept hs (ite_kept hs (endTest_kept hs)))

theorem execScrub_kept {p ecc} (hs : s.Kept base) : Out.Kept base (execScrub p ecc s) := by
  unfold execScrub
  extract_lets
  refine Out.kept_next (ite_kept hs ?_)
  split
  next _ _ t =>
    exact postEvent_kept (State.modPress_kept (State.modPress_kept hs))
  · exact State.modPress_kept hs

theorem healthAlert_kept {i old new points} (hs : s.Kept base) : (healthAlert i old new points s).Kept base :=
  ite_kept (postEvent_kept hs) hs

theorem alertPin_kept (hs : s.Kept base) : (alertPin s).Kept base := ite_kept (State.setPin_kept hs) hs

theorem execHealthCompute_kept (hs : s.Kept base) : Out.Kept base (execHealthCompute s) := by
  refine Out.kept_next (ite_kept hs (alertPin_kept (foldl_kept (fun _ _ => healthAlert_kept) ?_)))
  exact hs.congr rfl rfl rfl rfl

theorem execHealthRead_kept {d} (hs : s.Kept base) : Out.Kept base (execHealthRead d s) :=
  Out.kept_next (command_kept (fun _ h => ite_kept (finish_kept h)
    (ite_kept (finish_kept h) (finishReply_kept h))) hs)

/-! ## Recovery -/

theorem sendPieces_kept {kind size dst m extra data} (hs : s.Kept base) :
    (sendPieces kind size dst m extra data s).Kept base :=
  ite_kept (sendService_kept hs) (foldl_kept (fun _ _ => sendService_kept) hs)

theorem sendMirror_kept (hs : s.Kept base) : (sendMirror s).Kept base := by
  unfold sendMirror
  split
  · exact hs
  · refine foldl_kept (fun _ _ ht => ?_) hs
    exact ite_kept ht (sendPieces_kept ht)

theorem firmwareNext_kept {c r t} (hs : s.Kept base) (h : firmwareNext c r s = some t) : t.Kept base := by
  unfold firmwareNext at h
  split at h
  · cases h
    exact serveBox_kept (State.modChan_kept hs)
  · split at h
    · cases h
      exact serveLate_kept hs
    · split at h
      · cases h
        exact moveNear_kept hs
      · exact serveShared_kept (kclPump_kept hs) h

theorem serveFirmware_kept {n c res} (hs : s.Kept base) : (serveFirmware n c res s).Kept base := by
  induction n generalizing res s with
  | zero => exact kclPump_kept hs
  | succ n ih =>
    rw [serveFirmware]
    split
    next t e => exact ih (firmwareNext_kept hs e)
    next => exact kclPump_kept hs

theorem execSeqSlotFirmware_kept {c res} (hs : s.Kept base) : Out.Kept base (execSeqSlotFirmware c res s) := by
  unfold execSeqSlotFirmware
  extract_lets
  refine Out.ite_kept (Out.kept_next (ite_kept (sendMirror_kept (serveFirmware_kept hs)) hs)) ?_
  split
  · refine Out.ite_kept ?_ (Out.kept_next (seqGo_kept hs))
    exact Out.kept_next (sendMirror_kept (seqPass_kept (serveFirmware_kept (seqGo_kept hs))))
  · exact Out.kept_next (seqGo_kept hs)

theorem execMirrorAck_kept {payload} (hs : s.Kept base) : Out.Kept base (execMirrorAck payload s) := by
  unfold execMirrorAck
  extract_lets _ s1
  have h1 : s1.Kept base := serviceTake_kept hs
  clear_value s1
  exact Out.kept_next (ite_kept h1 (ite_kept (setDirFlag_kept h1) h1))

theorem queueFar_kept {m a bs} (hs : s.Kept base) : (queueFar m a bs s).Kept base :=
  foldl_kept (fun _ _ => State.modFar_kept) hs

theorem holdItem_kept {m whole slot} (hs : s.Kept base) : (holdItem m whole slot s).Kept base := hs

theorem writeItem_kept {of m off data slot} (hs : s.Kept base) : (writeItem of m off data slot s).Kept base :=
  queueFar_kept (holdItem_kept hs)

theorem mirrorFull_kept (hs : s.Kept base) : (mirrorFull s).Kept base := ite_kept hs (postEvent_kept hs)

theorem ackItem_kept {m} (hs : s.Kept base) : (ackItem m s).Kept base := by
  unfold ackItem
  extract_lets whole s1
  have hwhole : ∀ x t, t.Kept base → (whole x t).Kept base := by
    intro _ t ht
    unfold whole
    split
    · exact holdItem_kept ht
    · exact ht
  have h1 : s1.Kept base := hwhole _ _ (ite_kept (hwhole _ _ hs) hs)
  split
  · exact sendService_kept h1
  · exact h1

theorem settleMirror_kept (hs : s.Kept base) :
    (settleMirror s).Kept base := foldl_kept (fun _ _ => ackItem_kept) hs

theorem farNext_kept {f r t} (hs : s.Kept base) (h : farNext f r s = some t) : t.Kept base := by
  unfold farNext at h
  split at h
  · cases h
    exact farBox_kept (State.modFar_kept hs)
  · obtain ⟨m, _, rfl⟩ := Option.map_eq_some_iff.mp h
    exact moveFar_kept hs

theorem serveFar_kept {n f res} (hs : s.Kept base) : (serveFar n f res s).Kept base := by
  induction n generalizing res s with
  | zero => exact hs
  | succ n ih =>
    rw [serveFar]
    split
    next t e => exact ih (farNext_kept hs e)
    next => exact hs

theorem execFarStreamSlot_kept {f res} (hs : s.Kept base) : Out.Kept base (execFarStreamSlot f res s) := by
  unfold execFarStreamSlot
  extract_lets
  refine Out.ite_kept (Out.kept_next hs) ?_
  refine Out.ite_kept (Out.kept_next (ite_kept (settleMirror_kept (serveFar_kept hs)) hs)) ?_
  split
  · split
    · split
      · exact Out.kept_next (farPass_kept (farEntries_kept (State.modFar_kept (farGo_kept hs))))
      · exact Out.kept_next (State.modFar_kept (farGo_kept hs))
    · exact Out.kept_next (settleMirror_kept (farPass_kept (serveFar_kept (farGo_kept hs))))
  · exact Out.kept_next (farGo_kept hs)

theorem execMirrorItem_kept {payload} (hs : s.Kept base) : Out.Kept base (execMirrorItem payload s) := by
  unfold execMirrorItem
  extract_lets _ _ _ done
  have hdone : ∀ t, t.Kept base → (done t).Kept base := by
    intro t ht
    unfold done
    exact ite_kept ht ht
  refine Out.kept_next (ite_kept (serviceTake_kept hs) ?_)
  split
  · exact mirrorFull_kept (serviceTake_kept hs)
  · refine ite_kept ?_ (hdone _ (writeItem_kept (serviceTake_kept hs)))
    extract_lets s1
    have h1 : s1.Kept base := writeItem_kept (serviceTake_kept hs)
    split
    · exact mirrorFull_kept h1
    · exact hdone _ (writeItem_kept h1)

theorem execMirrorRelease_kept {payload} (hs : s.Kept base) : Out.Kept base (execMirrorRelease payload s) := by
  unfold execMirrorRelease
  extract_lets _ s1
  have h1 : s1.Kept base := serviceTake_kept hs
  clear_value s1
  exact Out.kept_next h1

theorem execRecoverFetch_kept {payload} (hs : s.Kept base) : Out.Kept base (execRecoverFetch payload s) :=
  Out.kept_next (sendPieces_kept (serviceTake_kept hs))

theorem loseWaybill_kept {w} (hs : s.Kept base) : (loseWaybill w s).Kept base := by
  unfold loseWaybill
  extract_lets
  refine ite_kept hs ?_
  split
  · exact sendService_kept hs
  · exact hs

theorem checkRebuilt_kept {w} (hs : s.Kept base) : (checkRebuilt w s).Kept base := by
  unfold checkRebuilt
  refine ite_kept hs ?_
  split
  · exact hs
  · exact ite_kept (loseWaybill_kept hs) hs

theorem rebuildShadow_kept {w l voided restoring} (hs : s.Kept base) :
    (rebuildShadow w l voided restoring s).Kept base := by
  unfold rebuildShadow
  extract_lets
  refine ite_kept (loseWaybill_kept (ite_kept hs hs)) ?_
  exact ite_kept (ite_kept hs hs) (checkRebuilt_kept
    (beginFetches_kept (freePages_kept (ite_kept hs hs))))

theorem takeShadows_kept {payload} (hs : s.Kept base) : (takeShadows payload s).Kept base := by
  unfold takeShadows
  extract_lets _ _ _ _ _ _ s1 _ s2
  have h1 : s1.Kept base := foldl_kept (fun _ _ => rebuildShadow_kept) (ite_kept hs hs)
  have h2 : s2.Kept base := foldl_kept (fun _ _ => freePages_kept) h1
  exact ite_kept h2 h1

theorem takeLedgerEntry_kept {r} (hs : s.Kept base) : (takeLedgerEntry r s).Kept base :=
  ite_kept hs (beginFetches_kept (ite_kept hs (allocInput_kept hs)))

theorem takeLedger_kept {payload} (hs : s.Kept base) : (takeLedger payload s).Kept base := by
  unfold takeLedger
  extract_lets _ _ _ _ s1
  have h1 : s1.Kept base := foldl_kept (fun _ _ => takeLedgerEntry_kept) (ite_kept hs hs)
  exact ite_kept (foldl_kept (fun _ _ => rebuildShadow_kept) h1) h1

theorem takePage_kept {m payload} (hs : s.Kept base) : (takePage m payload s).Kept base := by
  unfold takePage
  extract_lets _ s1 s2
  have h1 : s1.Kept base := ensureBlock_kept (ensureRoot_kept hs)
  have h2 : s2.Kept base := ite_kept (ensureHead_kept h1) (ensureFrame_kept h1)
  exact ite_kept h2 (ite_kept (setDirFlag_kept (nearPut_kept h2)) (nearPut_kept h2))

theorem takeLogged_kept {m payload} (hs : s.Kept base) : (takeLogged m payload s).Kept base := by
  unfold takeLogged
  split
  · exact writePlace_kept hs
  · exact hs

theorem takeStore_kept {m payload} (hs : s.Kept base) : (takeStore m payload s).Kept base := by
  unfold takeStore
  split
  · exact nearPut_kept hs
  · exact hs

theorem restartCopies_kept (hs : s.Kept base) : (restartCopies s).Kept base := by
  unfold restartCopies
  extract_lets _ _ _ _ s1 s2 s3
  have h1 : s1.Kept base := foldl_kept (fun _ _ => queueReads_kept) hs
  have h2 : s2.Kept base := foldl_kept (fun _ _ ht => ite_kept (ite_kept (beginMoves_kept ht) ht)
    (ite_kept (beginMoves_kept ht) ht)) h1
  have h3 : s3.Kept base := by
    unfold s3
    refine foldl_kept (fun _ _ ht => ?_) h2
    split
    · exact ite_kept (beginMoves_kept ht) ht
    · exact ht
  split
  · exact beginMoves_kept h3
  · exact h3

theorem execRecoverData_kept {payload} (hs : s.Kept base) : Out.Kept base (execRecoverData payload s) := by
  unfold execRecoverData
  extract_lets _ s1 _ _ s2 s3 s4
  have h1 : s1.Kept base := serviceTake_kept hs
  clear_value s1
  have h2 : s2.Kept base := ite_kept h1 h1
  have h3 : s3.Kept base := by
    unfold s3
    split
    · exact ite_kept (loseWaybill_kept h2) h2
    · split
      · exact takeShadows_kept h2
      · exact takeLedger_kept h2
      · exact takePage_kept h2
      · exact takePage_kept h2
      · exact takeLogged_kept h2
      · exact takeStore_kept h2
  have h4 : s4.Kept base := ite_kept (checkRebuilt_kept h3) h3
  refine Out.kept_next ?_
  split
  · exact ite_kept (loseWaybill_kept h1) h1
  · exact ite_kept h1 (settleRebuild_kept h4)

theorem execRecoverFetchResend_kept {w} (hs : s.Kept base) : Out.Kept base (execRecoverFetchResend w s) :=
  Out.kept_next (foldl_kept (fun _ _ => sendFetch_kept) hs)

theorem execRecoverFetchTimeout_kept {w} (hs : s.Kept base) : Out.Kept base (execRecoverFetchTimeout w s) := by
  unfold execRecoverFetchTimeout
  extract_lets
  exact Out.kept_next (ite_kept hs (settleRebuild_kept (ite_kept hs (loseWaybill_kept hs))))

theorem execFwMsgRebuilt_kept {p body} (hs : s.Kept base) : Out.Kept base (execFwMsgRebuilt p body s) := by
  unfold execFwMsgRebuilt
  extract_lets _ _ _ _ s1
  have h1 : s1.Kept base := by
    unfold s1
    split
    · exact sendControl_kept (takeSerial_kept (controlTake_kept hs))
    · exact controlTake_kept hs
  exact Out.kept_next (ite_kept h1 h1)

theorem execFwMsgAck_kept {p body} (hs : s.Kept base) : Out.Kept base (execFwMsgAck p body s) :=
  Out.kept_next (controlTake_kept hs)

theorem execFwMessageResend_kept {serial} (hs : s.Kept base) : Out.Kept base (execFwMessageResend serial s) := by
  refine Out.kept_next ?_
  split
  · exact hs
  · exact ite_kept (sendFwMessage_kept hs) hs

/-! ## Reset -/

theorem hardPins_kept (hs : s.Kept base) : (hardPins s).Kept base :=
  ite_kept hs (State.setPin_kept (State.setPin_kept hs))

theorem readyPin_kept (hs : s.Kept base) : (readyPin s).Kept base := ite_kept (State.setPin_kept hs) hs

theorem drivePins_kept (hs : s.Kept base) : (drivePins s).Kept base := by
  unfold drivePins
  extract_lets _ _ s1
  have h1 : s1.Kept base := farPin_kept (farPin_kept (alertPin_kept (readyPin_kept (hardPins_kept hs))))
  exact ite_kept (State.setPin_kept h1) h1

theorem abandonJob_kept (hs : s.Kept base) : (abandonJob s).Kept base := by
  unfold abandonJob
  split
  next t _ u e =>
    have hu : u.Kept base := by
      refine snd_kept e ?_
      split
      · exact State.draw_kept hs
      · exact hs
    split
    · exact hu.flash (memClear_wf _ _ _ _)
    · exact hu.flash (memClear_wf _ _ _ _)
    · exact hu
    · exact hu

theorem defer_kept {d} (hs : s.Kept base) : (defer d s).Kept base := hs
theorem blank_wf (d : Byte) : Memory.wf d [] = true := rfl

/-- A full reset empties the near tier, and keeps the far tier, the flash and the queue (R9). -/
theorem fullReset_kept {src holders} (hs : s.Kept base) : (fullReset src holders s).Kept base :=
  ((abandonJob_kept hs).nearMem fun _ => blank_wf blank).congr rfl rfl rfl rfl

theorem endHolder_kept {src} (hs : s.Kept base) : (endHolder src s).Kept base := ite_kept hs hs

theorem sourceFull_kept {src held} (hs : s.Kept base) : (sourceFull src held s).Kept base :=
  ite_kept hs (ite_kept (defer_kept hs) (fullReset_kept hs))

theorem execPowerOn_kept (hs : s.Kept base) : Out.Kept base (execPowerOn s) := Out.kept_next (fullReset_kept hs)

theorem execUnderVoltage_kept (hs : s.Kept base) : Out.Kept base (execUnderVoltage s) :=
  Out.kept_next (ite_kept hs (fullReset_kept hs))

theorem execUnderVoltageEnd_kept (hs : s.Kept base) : Out.Kept base (execUnderVoltageEnd s) :=
  Out.kept_next (ite_kept hs (endHolder_kept hs))

theorem execAuxSupplyLoss_kept (hs : s.Kept base) : Out.Kept base (execAuxSupplyLoss s) :=
  Out.kept_next (((abandonJob_kept hs).nearMem fun _ => blank_wf blank).congr rfl rfl rfl rfl)

theorem execModResetAssert_kept (hs : s.Kept base) :
    Out.Kept base (execModResetAssert s) := Out.kept_next (sourceFull_kept hs)

theorem execModResetRelease_kept (hs : s.Kept base) : Out.Kept base (execModResetRelease s) :=
  Out.kept_next (ite_kept hs (ite_kept (endHolder_kept hs) (drivePins_kept hs)))

theorem execRefclkLoss_kept (hs : s.Kept base) :
    Out.Kept base (execRefclkLoss s) := Out.kept_next (sourceFull_kept hs)

theorem execRefclkReturn_kept {gap} (hs : s.Kept base) : Out.Kept base (execRefclkReturn gap s) :=
  Out.kept_next (ite_kept hs (ite_kept (sourceFull_kept hs) hs))

theorem takeTrip_kept (hs : s.Kept base) : (takeTrip s).Kept base :=
  fullReset_kept (hardPins_kept (hs.congr rfl rfl rfl rfl))

theorem seeJunction_kept {junction} (hs : s.Kept base) : (seeJunction junction s).Kept base :=
  ite_kept hs (ite_kept (defer_kept hs) (takeTrip_kept hs))

theorem execThermalTrip_kept {junction} (hs : s.Kept base) : Out.Kept base (execThermalTrip junction s) :=
  Out.kept_next (seeJunction_kept hs)

theorem execPowerSample_kept {watts junction} (hs : s.Kept base) : Out.Kept base (execPowerSample watts junction s) :=
  Out.kept_next (ite_kept (seeJunction_kept (powerSample_kept hs)) hs)

theorem warmLink_kept {p} (hs : s.Kept base) : (warmLink p s).Kept base := by
  unfold warmLink
  extract_lets
  refine ite_kept ?_ (State.modPort_kept hs)
  exact ite_kept (State.modPort_kept hs) (tellState_kept (State.modPort_kept hs))

theorem warmLinks_kept (hs : s.Kept base) : (warmLinks s).Kept base := by
  unfold warmLinks
  extract_lets
  exact foldl_kept (fun _ _ => warmLink_kept) (foldl_kept (fun _ _ => dropBuffers_kept) hs)

theorem warmStop_kept {cause} (hs : s.Kept base) : (warmStop cause s).Kept base := hs.congr rfl rfl rfl rfl

theorem warmBoot_kept (hs : s.Kept base) : (warmBoot s).Kept base := hs

theorem warmReset_kept {cause} (hs : s.Kept base) : (warmReset cause s).Kept base := by
  unfold warmReset
  refine ite_kept (defer_kept hs) ?_
  extract_lets s1
  have h1 : s1.Kept base := abandonJob_kept hs
  exact ite_kept (warmBoot_kept h1) (ite_kept (warmBoot_kept (warmStop_kept h1))
    (warmBoot_kept (warmStop_kept (warmLinks_kept h1))))

theorem execResetWarm_kept {d} (hs : s.Kept base) : Out.Kept base (execResetWarm d s) :=
  Out.kept_next (command_kept (fun _ h => warmReset_kept (finish_kept h)) hs)

theorem execNvmWriteEnd_kept (hs : s.Kept base) : Out.Kept base (execNvmWriteEnd s) := by
  refine Out.kept_next (ite_kept hs ?_)
  extract_lets late _ s1 _ s2 full
  have h1 : s1.Kept base := nvmAdvance_kept (hs.congr rfl rfl rfl rfl)
  have h2 : s2.Kept base := h1.congr rfl rfl rfl rfl
  refine ite_kept h1 ?_
  clear_value full late s2
  split
  · exact ite_kept (takeTrip_kept (fullReset_kept h2)) (fullReset_kept h2)
  · exact warmReset_kept h2
  · exact h2

theorem lockPlls_kept {mask} (hs : s.Kept base) : (lockPlls mask s).Kept base := hs

theorem execOptionLoadingComplete_kept {strapLow} (hs : s.Kept base) :
    Out.Kept base (execOptionLoadingComplete strapLow s) :=
  Out.kept_next (ite_kept hs (lockPlls_kept hs))

theorem execStationReady_kept {delays} (hs : s.Kept base) : Out.Kept base (execStationReady delays s) :=
  Out.kept_next (ite_kept hs (lockPlls_kept hs))

theorem execKclHwTrainingComplete_kept {ok} (hs : s.Kept base) : Out.Kept base (execKclHwTrainingComplete ok s) :=
  Out.kept_next (ite_kept hs (ite_kept (portDown_kept hs) (portReady_kept (State.modPort_kept hs))))

theorem execSramTestComplete_kept (hs : s.Kept base) :
    Out.Kept base (execSramTestComplete s) := Out.kept_next (ite_kept hs hs)

theorem startImage_kept {img source} (hs : s.Kept base) : (startImage img source s).Kept base := by
  unfold startImage
  extract_lets _ _ s1 s2 _ _ _ s3
  have h1 : s1.Kept base := State.setPin_kept (State.setPin_kept (State.setPin_kept hs))
  have h2 : s2.Kept base := ite_kept h1 (State.setPin_kept (State.setPin_kept h1))
  have h3 : s3.Kept base := ite_kept h2 (domainCtlWrite_kept h2)
  exact putImageSlot_kept h3

theorem enterRecovery_kept {step} (hs : s.Kept base) : (enterRecovery step s).Kept base := hs

theorem bootFlash_kept (hs : s.Kept base) : (bootFlash s).Kept base := by
  unfold bootFlash
  exact ite_kept (startImage_kept hs) (enterRecovery_kept hs)

theorem execBootVerify_kept (hs : s.Kept base) : Out.Kept base (execBootVerify s) :=
  Out.kept_next (ite_kept hs (ite_kept (ite_kept (startImage_kept hs) (bootFlash_kept hs))
    (ite_kept hs (ite_kept (enterRecovery_kept hs) (bootFlash_kept hs)))))

theorem recoveryGo_kept {value image} (hs : s.Kept base) : (recoveryGo value image s).Kept base := by
  unfold recoveryGo
  extract_lets
  exact ite_kept hs (ite_kept (startImage_kept (endRomReads_kept hs)) (endRomReads_kept hs))

theorem execFwRecoveryGo_kept {w image} (hs : s.Kept base) : Out.Kept base (execFwRecoveryGo w image s) :=
  Out.kept_next (behindWrites_kept (fun _ => recoveryGo_kept) hs)

theorem trainPorts_kept {lo} (hs : s.Kept base) : (trainPorts lo s).Kept base :=
  foldl_kept (fun _ _ => beginTraining_kept) hs

theorem memoryReady_kept (hs : s.Kept base) : (memoryReady s).Kept base := by
  unfold memoryReady
  extract_lets s1
  have h1 : s1.Kept base := farPin_kept (farPin_kept (lockPlls_kept hs))
  exact ite_kept h1 h1

theorem testPresses_kept {warm} (hs : s.Kept base) : (testPresses warm s).Kept base := startStagger_kept hs

theorem execBoxServicesReady_kept {b} (hs : s.Kept base) : Out.Kept base (execBoxServicesReady b s) := by
  unfold execBoxServicesReady
  dsimp only
  refine Out.kept_next (ite_kept hs ?_)
  split
  · exact ite_kept (testPresses_kept (readyPin_kept hs)) (readyPin_kept hs)
  · exact trainPorts_kept (lockPlls_kept hs)
  · exact trainPorts_kept (lockPlls_kept hs)
  · exact memoryReady_kept hs
  · exact hs
  · exact hs

theorem execPressSelfTestComplete_kept {p ok} (hs : s.Kept base) : Out.Kept base (execPressSelfTestComplete p ok s) :=
  Out.kept_next (ite_kept hs (ite_kept hs hs))

theorem execEngineSelfTestComplete_kept {ok} (hs : s.Kept base) : Out.Kept base (execEngineSelfTestComplete ok s) :=
  Out.kept_next (ite_kept hs hs)

theorem execFarPortReady_kept {f width speed capacity} (hs : s.Kept base) :
    Out.Kept base (execFarPortReady f width speed capacity s) :=
  Out.kept_next (ite_kept hs (State.modFar_kept hs))

theorem dropPending_kept {p} (hs : s.Kept base) : (dropPending p s).Kept base := by
  unfold dropPending
  split
  · exact hs
  · extract_lets s1
    have h1 : s1.Kept base := by
      unfold s1
      split
      · exact freeAt_kept hs
      · exact freeAt_kept hs
      · exact modWb_kept hs
      · exact hs
    exact finish_kept h1

theorem failServed_kept {b} (hs : s.Kept base) : (failServed b s).Kept base := by
  unfold failServed
  extract_lets ports
  have hports : ∀ x y t, t.Kept base → (ports x y t).Kept base := by
    intro _ _ t ht
    unfold ports
    exact foldl_kept (fun _ _ hu => foldl_kept (fun _ _ => finish_kept) (State.modPort_kept hu)) ht
  split
  · exact hports _ _ _ (hports _ _ _ hs)
  · exact hports _ _ _ hs
  · split
    · exact formeRefuse_kept (dropTensors_kept hs)
    · split
      · exact formeRefuse_kept (dropTensors_kept hs)
      · exact hs
  · exact foldl_kept (fun _ _ => dropPending_kept) hs
  · exact hs

theorem execBoxWatchdogExpiry_kept {b} (hs : s.Kept base) : Out.Kept base (execBoxWatchdogExpiry b s) := by
  unfold execBoxWatchdogExpiry
  extract_lets _ _ _ _ _ s1
  have h1 : s1.Kept base := stepFault_kept (ite_kept (restartCopies_kept hs) hs)
  exact Out.kept_next (ite_kept (warmReset_kept hs) (ite_kept hs (postEvent_kept (failServed_kept h1))))

theorem execSb0WatchdogExpiry_kept (hs : s.Kept base) : Out.Kept base (execSb0WatchdogExpiry s) :=
  Out.kept_next (ite_kept hs (warmReset_kept hs))

theorem loseEntry_kept {i} (hs : s.Kept base) : (loseEntry s i).Kept base :=
  closeWb_kept (freePages_kept (modWb_kept hs))

theorem rebuildEntry_kept {copy bad i} (hs : s.Kept base) : (rebuildEntry copy bad s i).Kept base :=
  ite_kept (loseEntry_kept hs) (ite_kept hs (ite_kept (issueTicketLater_kept hs) hs))

theorem rebuildStage_kept {copy bad i} (hs : s.Kept base) : (rebuildStage copy bad s i).Kept base := by
  unfold rebuildStage
  refine ite_kept ?_ (ite_kept hs hs)
  extract_lets t
  have ht : t.Kept base := freePages_kept hs
  exact ht

theorem copyDue_kept {copy} (hs : s.Kept base) : (copyDue copy s).Kept base := by
  unfold copyDue
  split <;> exact hs

theorem deskShadows_kept (hs : s.Kept base) : (deskShadows s).Kept base := hs

theorem execWaybillRebuild_kept (hs : s.Kept base) : Out.Kept base (execWaybillRebuild s) := by
  unfold execWaybillRebuild
  refine Out.kept_next (ite_kept hs ?_)
  extract_lets desk copy slots bad s1 
  have h1 : s1.Kept base := copyDue_kept (ite_kept
    (sendAgain_kept (deskShadows_kept (foldl_kept (fun _ _ => rebuildEntry_kept) hs)))
    (foldl_kept (fun _ _ => rebuildStage_kept) hs))
  clear_value s1
  exact testPresses_kept (postEvent_kept (writeEdition_kept h1))

/-! ## Time -/

theorem followRate_kept (hs : s.Kept base) : (followRate s).Kept base := State.draw_kept hs
theorem slewBy_kept {off} (hs : s.Kept base) : (slewBy off s).Kept base := hs
theorem stepBy_kept {off} (hs : s.Kept base) : (stepBy off s).Kept base := hs

theorem execTimeProbePeriod_kept (hs : s.Kept base) : Out.Kept base (execTimeProbePeriod s) := by
  unfold execTimeProbePeriod
  extract_lets
  exact Out.kept_next (noticeChange_kept (ite_kept (pickUpstream_kept hs)
    (sendTime_kept (pickUpstream_kept hs))))

theorem execProbeLost_kept (hs : s.Kept base) : Out.Kept base (execProbeLost s) := Out.kept_next (ite_kept hs hs)

theorem execTimeProbe_kept {p body t2 replay} (hs : s.Kept base) : Out.Kept base (execTimeProbe p body t2 replay s) := by
  unfold execTimeProbe
  extract_lets
  exact Out.kept_next (ite_kept (controlTake_kept hs)
    (ite_kept (controlTake_kept hs) (sendTime_kept (controlTake_kept hs))))

theorem correct_kept {off} (hs : s.Kept base) : (correct off s).Kept base :=
  ite_kept hs (ite_kept (stepBy_kept (followRate_kept hs)) (slewBy_kept (followRate_kept hs)))

theorem relock_kept {off bound} (hs : s.Kept base) : (relock off bound s).Kept base := ite_kept hs hs

theorem execTimeReply_kept {p body t4 replay} (hs : s.Kept base) : Out.Kept base (execTimeReply p body t4 replay s) := by
  unfold execTimeReply
  extract_lets
  refine Out.kept_next (ite_kept (controlTake_kept hs) ?_)
  split
  · exact controlTake_kept hs
  · exact ite_kept (controlTake_kept hs) (noticeChange_kept
      (relock_kept (correct_kept (controlTake_kept hs))))

theorem execTimeSilence_kept (hs : s.Kept base) : Out.Kept base (execTimeSilence s) :=
  Out.kept_next (ite_kept (noticeChange_kept hs) hs)

theorem execTimeNotice_kept {p body} (hs : s.Kept base) : Out.Kept base (execTimeNotice p body s) := by
  unfold execTimeNotice
  extract_lets
  exact Out.kept_next (ite_kept (controlTake_kept hs)
    (noticeChange_kept (ite_kept (controlTake_kept hs) (controlTake_kept hs))))

theorem execTimeNoticePeriod_kept (hs : s.Kept base) : Out.Kept base (execTimeNoticePeriod s) :=
  Out.kept_next (noticeAll_kept hs)

theorem execAltPortReturn_kept (hs : s.Kept base) :
    Out.Kept base (execAltPortReturn s) := Out.kept_next (ite_kept hs hs)

theorem execTimeCode_kept (hs : s.Kept base) : Out.Kept base (execTimeCode s) := Out.kept_next hs
theorem codeTick_kept (hs : s.Kept base) : (codeTick s).Kept base := hs
theorem settleTimes_kept (hs : s.Kept base) : (settleTimes s).Kept base := hs
theorem beatTick_kept (hs : s.Kept base) : (beatTick s).Kept base := hs

theorem execPpsInEdge_kept {t} (hs : s.Kept base) : Out.Kept base (execPpsInEdge t s) := by
  unfold execPpsInEdge
  refine Out.ite_kept (Out.kept_next hs) ?_
  extract_lets
  exact Out.kept_next (ite_kept hs (ite_kept hs (noticeChange_kept (slewBy_kept (followRate_kept hs)))))

theorem execPpsTimeout_kept (hs : s.Kept base) : Out.Kept base (execPpsTimeout s) :=
  Out.kept_next (ite_kept (noticeChange_kept hs) hs)

theorem execPpsOutEdge_kept (hs : s.Kept base) : Out.Kept base (execPpsOutEdge s) :=
  Out.kept_next (ite_kept (State.setPin_kept hs) hs)

theorem timeSet_kept {value} (hs : s.Kept base) : (timeSet value s).Kept base := ite_kept hs hs

theorem execTimeSet_kept {w} (hs : s.Kept base) : Out.Kept base (execTimeSet w s) :=
  Out.kept_next (behindWrites_kept (fun _ => timeSet_kept) hs)

theorem takeRole_kept {role} (hs : s.Kept base) : (takeRole role s).Kept base := hs

theorem execTimeSyncRole_kept {d} (hs : s.Kept base) : Out.Kept base (execTimeSyncRole d s) :=
  Out.kept_next (command_kept (fun _ h => ite_kept (finish_kept h)
    (finish_kept (noticeChange_kept (pickUpstream_kept (ite_kept h (takeRole_kept h)))))) hs)

/-! ## Companion -/

theorem debugResume_kept {value} (hs : s.Kept base) : (debugResume value s).Kept base := by
  unfold debugResume
  refine ite_kept hs ?_
  extract_lets _ go _ s1
  have hgo : ∀ t x, t.Kept base → (go t x).Kept base := by
    intro t _ ht
    unfold go
    split
    · exact State.modPress_kept ht
    · exact ht
    · exact ht
  have h1 : s1.Kept base := foldl_kept (fun _ _ ht => hgo _ _ ht) hs
  exact ite_kept (commitGoOn_kept (releaseHolds_kept h1)) (releaseHolds_kept h1)

theorem execDebugResume_kept {w} (hs : s.Kept base) : Out.Kept base (execDebugResume w s) :=
  Out.kept_next (behindWrites_kept (fun _ => debugResume_kept) hs)

theorem farConfigWrite_kept {value} (hs : s.Kept base) : (farConfigWrite value s).Kept base := hs

theorem execFarConfigWrite_kept {w} (hs : s.Kept base) : Out.Kept base (execFarConfigWrite w s) :=
  Out.kept_next (behindWrites_kept (fun _ => farConfigWrite_kept) hs)

theorem farAreaWrite_kept {i value} (hs : s.Kept base) :
    (farAreaWrite i value s).Kept base := ite_kept hs (ite_kept hs hs)

theorem execFarAreaWrite_kept {i w} (hs : s.Kept base) : Out.Kept base (execFarAreaWrite i w s) :=
  Out.kept_next (behindWrites_kept (fun _ => farAreaWrite_kept) hs)

theorem setCfgError_kept (hs : s.Kept base) : (setCfgError s).Kept base := hs

theorem subCfgWrite_kept {i value} (hs : s.Kept base) : (subCfgWrite i value s).Kept base := by
  unfold subCfgWrite
  split
  · exact hs
  · exact setCfgError_kept hs

theorem execSubCfgWrite_kept {i w} (hs : s.Kept base) : Out.Kept base (execSubCfgWrite i w s) :=
  Out.kept_next (behindWrites_kept (fun _ => subCfgWrite_kept) hs)

theorem cplCfgWrite_kept {j value} (hs : s.Kept base) : (cplCfgWrite j value s).Kept base := by
  unfold cplCfgWrite
  split
  · exact flushAll_kept hs
  · exact setCfgError_kept hs

theorem execCplCfgWrite_kept {j w} (hs : s.Kept base) : Out.Kept base (execCplCfgWrite j w s) :=
  Out.kept_next (behindWrites_kept (fun _ => cplCfgWrite_kept) hs)

theorem cplConsumerWrite_kept {j value} (hs : s.Kept base) :
    (cplConsumerWrite j value s).Kept base := flushAll_kept hs

theorem execCplConsumerWrite_kept {j w} (hs : s.Kept base) : Out.Kept base (execCplConsumerWrite j w s) :=
  Out.kept_next (behindWrites_kept (fun _ => cplConsumerWrite_kept) hs)

theorem evtCfgWrite_kept {value} (hs : s.Kept base) : (evtCfgWrite value s).Kept base := by
  unfold evtCfgWrite
  split
  · exact hs
  · exact setCfgError_kept hs

theorem execEvtCfgWrite_kept {w} (hs : s.Kept base) : Out.Kept base (execEvtCfgWrite w s) :=
  Out.kept_next (behindWrites_kept (fun _ => evtCfgWrite_kept) hs)

theorem evtConsumerWrite_kept {value} (hs : s.Kept base) : (evtConsumerWrite value s).Kept base := hs

theorem outCfgWrite_kept {r value} (hs : s.Kept base) : (outCfgWrite r value s).Kept base := by
  unfold outCfgWrite
  extract_lets
  refine ite_kept hs ?_
  split
  · exact hs
  · exact setCfgError_kept hs

theorem execOutCfgWrite_kept {r w} (hs : s.Kept base) : Out.Kept base (execOutCfgWrite r w s) :=
  Out.kept_next (behindWrites_kept (fun _ => outCfgWrite_kept) hs)

theorem outConsumerWrite_kept {r value} (hs : s.Kept base) : (outConsumerWrite r value s).Kept base := by
  unfold outConsumerWrite
  extract_lets
  split
  · exact commitGoOn_kept hs
  · exact hs
  · exact cancelGoOn_kept hs

theorem execOutConsumerWrite_kept {r w} (hs : s.Kept base) : Out.Kept base (execOutConsumerWrite r w s) :=
  Out.kept_next (behindWrites_kept (fun _ => outConsumerWrite_kept) hs)

theorem subDoorbell_kept {i value} (hs : s.Kept base) : (subDoorbell i value s).Kept base :=
  ite_kept (postEvent_kept (touchWindow_kept hs)) (touchWindow_kept hs)

theorem execSubDoorbell_kept {i w} (hs : s.Kept base) : Out.Kept base (execSubDoorbell i w s) :=
  Out.kept_next (behindWrites_kept (fun _ => subDoorbell_kept) hs)

theorem kclSharedWrite_kept {value} (hs : s.Kept base) : (kclSharedWrite value s).Kept base := ite_kept hs hs

theorem execKclSharedWrite_kept {w} (hs : s.Kept base) : Out.Kept base (execKclSharedWrite w s) :=
  Out.kept_next (behindWrites_kept (fun _ => kclSharedWrite_kept) hs)

theorem editionPtrWrite_kept {value} (hs : s.Kept base) : (editionPtrWrite value s).Kept base := by
  unfold editionPtrWrite
  extract_lets
  exact ite_kept hs (ite_kept hs (ite_kept (setCfgError_kept hs) (writeEdition_kept hs)))

theorem execEditionPtrWrite_kept {w} (hs : s.Kept base) : Out.Kept base (execEditionPtrWrite w s) :=
  Out.kept_next (behindWrites_kept (fun _ => editionPtrWrite_kept) hs)

/-- Every write of a table of registers keeps what `base` had. -/
def WritesKeep (base : State) (l : List (Nat × Nat × Nat × (Nat → State → State))) : Prop :=
  ∀ x ∈ l, ∀ i s, s.Kept base → (x.2.2.2 i s).Kept base

theorem writeFind_kept {off l f} (hl : WritesKeep base l) (hs : s.Kept base) (h : writeFind off l = some f) :
    (f s).Kept base := by
  induction l with
  | nil => cases h
  | cons x l ih =>
    obtain ⟨at0, stride, n, g⟩ := x
    rw [writeFind] at h
    split at h
    · obtain rfl := Option.some.inj h
      exact hl _ List.mem_cons_self _ _ hs
    · exact ih (fun y hy => hl y (List.mem_cons_of_mem _ hy)) h

theorem powerCtlWrite_kept {v} (hs : s.Kept base) : (powerCtlWrite v s).Kept base := hs
theorem alertsWrite_kept {j v} (hs : s.Kept base) : (alertsWrite j v s).Kept base := alertPin_kept hs

theorem recoveryCtlWrite_kept {v} (hs : s.Kept base) :
    (recoveryCtlWrite v s).Kept base := ite_kept (romReads_kept hs) hs

theorem WritesKeep.nil : WritesKeep base [] := by
  intro x hx
  cases hx

theorem WritesKeep.cons {first stride n f l} (hf : ∀ i s, s.Kept base → (f i s).Kept base) (hl : WritesKeep base l) :
    WritesKeep base ((first, stride, n, f) :: l) := by
  intro x hx
  rcases List.mem_cons.mp hx with rfl | hx
  · exact hf
  · exact hl x hx

theorem writeSystem_kept {off value f} (hs : s.Kept base) (h : writeSystem off value = some f) : (f s).Kept base := by
  refine writeFind_kept ?_ hs h
  exact .cons (fun _ _ h => h) <| .cons (fun _ _ => timeSet_kept) <| .cons (fun _ _ h => h)
    <| .cons (fun _ _ => clkenWrite_kept) <| .cons (fun _ _ h => h) <| .cons (fun _ _ => domainCtlWrite_kept)
    <| .cons (fun _ _ => sscCtlWrite_kept) <| .cons (fun _ _ => powerCtlWrite_kept) <| .cons (fun _ _ h => h)
    <| .cons (fun _ _ => alertsWrite_kept) <| .cons (fun _ _ h => h) <| .cons (fun _ _ h => ite_kept h h)
    <| .cons (fun _ _ => debugResume_kept) <| .cons (fun _ _ => setBreak_kept) <| .cons (fun _ _ h => h) .nil

theorem writeOther_kept {off value f} (hs : s.Kept base) (h : writeOther off value = some f) : (f s).Kept base := by
  refine writeFind_kept ?_ hs h
  exact .cons (fun _ _ => subCfgWrite_kept) <| .cons (fun _ _ => subDoorbell_kept)
    <| .cons (fun _ _ => cplCfgWrite_kept) <| .cons (fun _ _ => cplConsumerWrite_kept)
    <| .cons (fun _ _ => evtCfgWrite_kept) <| .cons (fun _ _ => evtConsumerWrite_kept)
    <| .cons (fun _ _ => outCfgWrite_kept) <| .cons (fun _ _ => outConsumerWrite_kept) <| .cons (fun _ _ h => h)
    <| .cons (fun _ _ => kclSharedWrite_kept) <| .cons (fun _ _ => linkConfigWrite_kept)
    <| .cons (fun _ _ => cancelWrite_kept) <| .cons (fun _ _ => editionPtrWrite_kept)
    <| .cons (fun _ _ => farConfigWrite_kept) <| .cons (fun _ _ => farAreaWrite_kept)
    <| .cons (fun _ _ => linkConfigWrite_kept) <| .cons (fun _ _ => fabricGidWrite_kept)
    <| .cons (fun _ _ h => ite_kept h (reloadDie_kept h)) <| .cons (fun _ _ h => h) <| .cons (fun _ _ h => h)
    <| .cons (fun _ _ => recoveryCtlWrite_kept) <| .cons (fun _ _ h => h) <| .cons (fun _ _ => optionCtlWrite_kept) .nil

theorem csWrite_kept {off value} (hs : s.Kept base) : (csWrite off value s).Kept base := by
  unfold csWrite
  split
  · exact hs
  · split
    next f e =>
      split at e
      · exact writeSystem_kept hs e
      · exact writeOther_kept hs e
    next => exact ite_kept hs (countUnmapped_kept hs)

theorem execRegisterWrite_kept {offset w} (hs : s.Kept base) : Out.Kept base (execRegisterWrite offset w s) :=
  Out.kept_next (behindWrites_kept (fun _ => csWrite_kept) hs)

theorem recallFor_kept {a} (hs : s.Kept base) : (recallFor a s).Kept base := by
  unfold recallFor
  extract_lets
  refine ite_kept hs ?_
  split
  · exact ite_kept hs (kclSnoop_kept hs)
  · exact hs

theorem csAnswer_kept {tag off} (hs : s.Kept base) : (csAnswer tag off s).Kept base := by
  unfold csAnswer
  refine ite_kept (respond_kept hs) ?_
  split
  · exact respond_kept hs
  · exact respond_kept (countUnmapped_kept hs)

theorem evictLine_kept {tag a} (hs : s.Kept base) : (evictLine tag a s).Kept base :=
  ite_kept (kclPump_kept (respond_kept (dropLine_kept hs))) (respond_kept hs)

theorem performReq_kept {r} (hs : s.Kept base) : (performReq r s).Kept base := by
  unfold performReq
  split
  · exact csAnswer_kept hs
  · exact respond_kept (csWrite_kept hs)
  · exact evictLine_kept hs
  · exact respond_kept hs
  · exact hs

theorem recallFirst_kept (hs : s.Kept base) : (recallFirst s).Kept base := by
  unfold recallFirst
  split
  · exact recallFor_kept hs
  · exact recallFor_kept hs
  · exact hs

theorem reqGo_kept {n} (hs : s.Kept base) : (reqGo n s).Kept base := by
  induction n generalizing s with
  | zero =>
    rw [reqGo]
    exact recallFirst_kept hs
  | succ n ih =>
    rw [reqGo]
    split
    · exact ih (performReq_kept hs)
    · exact recallFirst_kept hs

theorem companionGo_kept (hs : s.Kept base) : (companionGo s).Kept base := reqGo_kept (kclPump_kept hs)

theorem serveHosts_kept {n n2 l} (hs : s.Kept base) : (serveHosts n n2 l s).Kept base := by
  induction n generalizing n2 l s with
  | zero => exact hs
  | succ n ih =>
    rw [serveHosts]
    split
    · exact ih (companionGo_kept (serveHost_kept (State.modChan_kept hs)))
    · split
      · exact ite_kept (ih (companionGo_kept (serveHost_kept hs))) hs
      · exact hs

theorem execSeqSlotHost_kept {c res} (hs : s.Kept base) : Out.Kept base (execSeqSlotHost c res s) := by
  unfold execSeqSlotHost
  extract_lets
  refine Out.ite_kept (Out.kept_next (ite_kept (companionGo_kept (serveHosts_kept hs)) hs)) ?_
  split
  · refine Out.ite_kept ?_ (Out.kept_next (seqGo_kept hs))
    exact Out.kept_next (companionGo_kept (seqPass_kept (serveHosts_kept (seqGo_kept hs))))
  · exact Out.kept_next (seqGo_kept hs)

theorem receiveReq_kept {r} (hs : s.Kept base) : (receiveReq r s).Kept base := reqGo_kept hs

theorem windowRequest_kept {msg answer tag data ok h} (hs : s.Kept base) :
    (windowRequest msg answer tag data ok h s).Kept base := by
  unfold windowRequest
  refine ite_kept hs ?_
  extract_lets
  exact ite_kept (respond_kept (touchWindow_kept (kclTake_kept hs)))
    (receiveReq_kept (touchWindow_kept (kclTake_kept hs)))

theorem execRdShared_kept {tag addr} (hs : s.Kept base) : Out.Kept base (execRdShared tag addr s) :=
  Out.kept_next (windowRequest_kept hs)

theorem execRdOwn_kept {tag addr} (hs : s.Kept base) : Out.Kept base (execRdOwn tag addr s) :=
  Out.kept_next (windowRequest_kept hs)

theorem execBulkRd_kept {tag addr length} (hs : s.Kept base) : Out.Kept base (execBulkRd tag addr length s) := by
  unfold execBulkRd
  extract_lets
  exact Out.ite_kept Out.kept_fault (Out.kept_next (windowRequest_kept hs))

theorem execBulkWr_kept {tag addr mask data} (hs : s.Kept base) : Out.Kept base (execBulkWr tag addr mask data s) := by
  unfold execBulkWr
  extract_lets
  exact Out.ite_kept Out.kept_fault (Out.kept_next (windowRequest_kept hs))

theorem execWriteback_kept {tag addr data} (hs : s.Kept base) : Out.Kept base (execWriteback tag addr data s) := by
  unfold execWriteback
  extract_lets
  exact Out.kept_next (ite_kept (pullForward_kept (windowRequest_kept hs)) (windowRequest_kept hs))

theorem execEvict_kept {tag addr} (hs : s.Kept base) : Out.Kept base (execEvict tag addr s) :=
  Out.kept_next (windowRequest_kept hs)

theorem snoopAnswer_kept {a} (hs : s.Kept base) : (snoopAnswer a s).Kept base := by
  unfold snoopAnswer
  split
  · exact hs
  · extract_lets
    exact companionGo_kept (ite_kept hs (ite_kept (dropLine_kept hs) (shareLine_kept hs)))

theorem execSnpAck_kept {addr} (hs : s.Kept base) : Out.Kept base (execSnpAck addr s) :=
  Out.kept_next (ite_kept (snoopAnswer_kept (kclTake_kept hs)) hs)

theorem execSnpData_kept {addr data} (hs : s.Kept base) : Out.Kept base (execSnpData addr data s) := by
  unfold execSnpData
  extract_lets
  refine Out.kept_next (ite_kept hs ?_)
  split
  · split
    · extract_lets s1
      have h1 : s1.Kept base := State.modChan_kept (kclTake_kept hs)
      exact h1
    · exact snoopAnswer_kept (kclTake_kept hs)
  · exact kclTake_kept hs

theorem execSnoopTimeout_kept {addr} (hs : s.Kept base) : Out.Kept base (execSnoopTimeout addr s) := by
  unfold execSnoopTimeout
  extract_lets
  exact Out.kept_next (ite_kept (companionGo_kept (postEvent_kept (dropLine_kept hs))) hs)

theorem execCsRd_kept {tag offset} (hs : s.Kept base) : Out.Kept base (execCsRd tag offset s) :=
  Out.kept_next (ite_kept hs (receiveReq_kept (kclTake_kept hs)))

theorem endReads_kept {d} (hs : s.Kept base) : (endReads d s).Kept base := hs
theorem blockGo_kept {d} (hs : s.Kept base) : (blockGo d s).Kept base := ite_kept hs hs

theorem accept_kept {d} (hs : s.Kept base) : (accept d s).Kept base :=
  ite_kept (finish_kept hs) (ite_kept (ite_kept (readFailed_kept hs) (issueReads_kept hs)) hs)

theorem execDescriptorTake_kept (hs : s.Kept base) : Out.Kept base (execDescriptorTake s) := by
  refine Out.kept_next ?_
  split
  · exact hs
  · exact ite_kept (kclSnoop_kept hs) (accept_kept (touchWindow_kept hs))

theorem readError_kept {d} (hs : s.Kept base) : (readError d s).Kept base := by
  unfold readError
  extract_lets
  exact ite_kept (readsFailed_kept (cmdBegin_kept (endReads_kept hs))) (endReads_kept hs)

theorem romReadError_kept (hs : s.Kept base) : (romReadError s).Kept base := endRomReads_kept hs

theorem execKclData_kept {tag error data} (hs : s.Kept base) : Out.Kept base (execKclData tag error data s) := by
  refine Out.kept_next (ite_kept hs ?_)
  extract_lets
  split
  · exact kclTake_kept hs
  · refine issueReads_kept ?_
    split
    · exact readError_kept (kclTake_kept hs)
    · exact romReadError_kept (kclTake_kept hs)
    · exact blockGo_kept (kclTake_kept hs)
    · exact kclTake_kept hs

theorem execKclAck_kept {tag} (hs : s.Kept base) : Out.Kept base (execKclAck tag s) :=
  Out.kept_next (ite_kept hs (kclTake_kept hs))

/-! ## Mgmt -/

theorem mgmtSend_kept {m} (hs : s.Kept base) : (mgmtSend m s).Kept base := hs

theorem freeBytes_kept {n req} (hs : s.Kept base) : (freeBytes n req s).2.Kept base := by
  unfold freeBytes
  split
  next t _ u e =>
    have hu : u.Kept base := snd_kept e (State.draw_kept hs)
    exact hu

theorem execDynamicAddressAssignment_kept {addr} (hs : s.Kept base) :
    Out.Kept base (execDynamicAddressAssignment addr s) :=
  Out.kept_next (ite_kept (mgmtSend_kept hs) hs)

theorem execMctpControl_kept {msg} (hs : s.Kept base) : Out.Kept base (execMctpControl msg s) := by
  unfold execMctpControl
  extract_lets
  refine Out.kept_next (ite_kept hs (ite_kept (mgmtSend_kept hs) ?_))
  split
  · dsimp only
    exact mgmtSend_kept (freeBytes_kept hs)
  · dsimp only
    exact mgmtSend_kept (freeBytes_kept hs)

theorem execPldm_kept {msg} (hs : s.Kept base) : Out.Kept base (execPldm msg s) := by
  unfold execPldm
  extract_lets
  refine Out.kept_next (ite_kept hs (ite_kept (mgmtSend_kept hs) ?_))
  split <;> exact mgmtSend_kept hs

theorem execMgmtControlAccess_kept {write offset value} (hs : s.Kept base) :
    Out.Kept base (execMgmtControlAccess write offset value s) := by
  unfold execMgmtControlAccess
  extract_lets
  refine Out.kept_next ?_
  refine ite_kept hs (ite_kept (mgmtSend_kept hs) (ite_kept (mgmtSend_kept (csWrite_kept hs)) ?_))
  split
  · exact mgmtSend_kept hs
  · exact mgmtSend_kept (countUnmapped_kept hs)

theorem spdmError_kept {code} (hs : s.Kept base) : (spdmError code s).Kept base := mgmtSend_kept hs

theorem spdmServe_kept {run} (hrun : ∀ s, s.Kept base → (run s).Kept base) (hs : s.Kept base) :
    (spdmServe run s).Kept base :=
  ite_kept hs (ite_kept (spdmError_kept hs) (hrun _ hs))

theorem spdmAfter_kept {run} (hrun : ∀ s, s.Kept base → (run s).Kept base) (hs : s.Kept base) :
    (spdmAfter run s).Kept base :=
  spdmServe_kept (fun _ h => ite_kept (hrun _ h) (spdmError_kept h)) hs

theorem execGetVersion_kept {_req} (hs : s.Kept base) : Out.Kept base (execGetVersion _req s) :=
  Out.kept_next (spdmServe_kept (fun _ h => mgmtSend_kept h) hs)

theorem execGetCapabilities_kept {req} (hs : s.Kept base) : Out.Kept base (execGetCapabilities req s) := by
  refine Out.kept_next ?_
  dsimp only
  exact spdmServe_kept (fun _ h => mgmtSend_kept (freeBytes_kept h)) hs

theorem execNegotiateAlgorithms_kept {req} (hs : s.Kept base) : Out.Kept base (execNegotiateAlgorithms req s) :=
  Out.kept_next (spdmServe_kept (fun _ h => mgmtSend_kept h) hs)

theorem execGetDigests_kept {_req} (hs : s.Kept base) : Out.Kept base (execGetDigests _req s) :=
  Out.kept_next (spdmAfter_kept (fun _ => mgmtSend_kept) hs)

theorem execGetCertificate_kept {req} (hs : s.Kept base) : Out.Kept base (execGetCertificate req s) := by
  unfold execGetCertificate
  extract_lets
  exact Out.kept_next (spdmAfter_kept (fun _ h => ite_kept (spdmError_kept h) (mgmtSend_kept h)) hs)

theorem spdmSigned_kept {code req resp} (hs : s.Kept base) :
    (spdmSigned code req resp s).Kept base := mgmtSend_kept hs

theorem execChallenge_kept {req} (hs : s.Kept base) : Out.Kept base (execChallenge req s) := by
  refine Out.kept_next ?_
  dsimp only
  exact spdmAfter_kept (fun _ h => ite_kept (spdmError_kept h) (spdmSigned_kept (freeBytes_kept h))) hs

theorem execGetMeasurements_kept {req} (hs : s.Kept base) : Out.Kept base (execGetMeasurements req s) := by
  unfold execGetMeasurements
  dsimp only
  refine Out.kept_next (spdmAfter_kept (fun _ h => ite_kept (spdmError_kept h)
    (ite_kept (spdmSigned_kept (freeBytes_kept h)) (mgmtSend_kept ?_))) hs)
  exact (freeBytes_kept (n := 32) (req := req) h).congr rfl rfl rfl rfl

theorem vendorResponse_kept {req payload} (hs : s.Kept base) : (vendorResponse req payload s).Kept base := by
  unfold vendorResponse
  dsimp only
  exact mgmtSend_kept (freeBytes_kept hs)

theorem execPqSignature_kept {req} (hs : s.Kept base) : Out.Kept base (execPqSignature req s) := by
  refine Out.kept_next (spdmAfter_kept (fun _ h => ?_) hs)
  split
  · exact vendorResponse_kept h
  · exact spdmError_kept h

theorem execPqCertificate_kept {req} (hs : s.Kept base) : Out.Kept base (execPqCertificate req s) := by
  unfold execPqCertificate
  extract_lets
  exact Out.kept_next (spdmAfter_kept (fun _ h => ite_kept (spdmError_kept h) (vendorResponse_kept h)) hs)

/-! ## Near -/

theorem execRefreshDue_kept (hs : s.Kept base) : Out.Kept base (execRefreshDue s) :=
  Out.kept_next (ite_kept hs (intrude_kept hs))

theorem execRefreshWindowEnd_kept (hs : s.Kept base) : Out.Kept base (execRefreshWindowEnd s) :=
  Out.kept_next (ite_kept (boxesGo_kept (releaseHolds_kept hs)) hs)

theorem execNearTemperatureReport_kept {c temp} (hs : s.Kept base) : Out.Kept base (execNearTemperatureReport c temp s) :=
  Out.kept_next (State.modChan_kept hs)

theorem execNearTerminusRetrain_kept (hs : s.Kept base) : Out.Kept base (execNearTerminusRetrain s) :=
  Out.kept_next (ite_kept hs hs)

theorem execNearInStepRetrain_kept {c} (hs : s.Kept base) : Out.Kept base (execNearInStepRetrain c s) :=
  Out.kept_next (ite_kept (intrude_kept (State.modChan_kept hs)) hs)

theorem execNearRetrainEnd_kept {c} (hs : s.Kept base) : Out.Kept base (execNearRetrainEnd c s) :=
  Out.kept_next (ite_kept (boxesGo_kept (releaseHolds_kept (State.modChan_kept hs))) hs)

theorem execNearTrainingComplete_kept {c ok} (hs : s.Kept base) : Out.Kept base (execNearTrainingComplete c ok s) :=
  Out.kept_next (ite_kept hs (State.modChan_kept hs))

/-! ## Dispatch -/

/-- Every instruction keeps the invariant, one lemma for each. -/
theorem exec_kept {i} (hs : s.Kept base) : Out.Kept base (exec i s) := by
  unfold exec
  split
  · exact execNop_kept hs
  · exact execIdentify_kept hs
  · exact execGetEdition_kept hs
  · exact execSetOperatingPoint_kept hs
  · exact execSelfTest_kept hs
  · exact execResetWarm_kept hs
  · exact execFormeLoad_kept hs
  · exact execFormeImpose_kept hs
  · exact execFormeStart_kept hs
  · exact execFormeStop_kept hs
  · exact execFormeUnload_kept hs
  · exact execWeightsLoad_kept hs
  · exact execWeightsBroadcast_kept hs
  · exact execWeightsDigestRead_kept hs
  · exact execWeightsDigestSeal_kept hs
  · exact execWeightsFree_kept hs
  · exact execWaybillOpen_kept hs
  · exact execWaybillAppend_kept hs
  · exact execWaybillCancel_kept hs
  · exact execWaybillStable_kept hs
  · exact execWaybillResume_kept hs
  · exact execWaybillQuery_kept hs
  · exact execLiveryLoad_kept hs
  · exact execLiveryFree_kept hs
  · exact execLinkStateRead_kept hs
  · exact execLinkStateEnable_kept hs
  · exact execLinkStateDisable_kept hs
  · exact execLinkRetrain_kept hs
  · exact execPartitionSet_kept hs
  · exact execRouteTableLoad_kept hs
  · exact execTimeSyncRole_kept hs
  · exact execFwStage_kept hs
  · exact execFwHandover_kept hs
  · exact execFwFlashWrite_kept hs
  · exact execFwVersion_kept hs
  · exact execHealthRead_kept hs
  · exact execAttest_kept hs
  · exact execColophonSign_kept hs
  · exact execDebugEnable_kept hs
  · exact execBreakSet_kept hs
  · exact execBreakClear_kept hs
  · exact execHazardRead_kept hs
  · exact execStreamNop_kept hs
  · exact execDepartMark_kept hs
  · exact execDueMark_kept hs
  · exact execLoop_kept hs
  · exact execEndStream_kept hs
  · exact execWload_kept hs
  · exact execPass_kept hs
  · exact execWadd_kept hs
  · exact execAdd_kept hs
  · exact execMul_kept hs
  · exact execFma_kept hs
  · exact execMin_kept hs
  · exact execMax_kept hs
  · exact execCmp_kept hs
  · exact execSelect_kept hs
  · exact execScale_kept hs
  · exact execExponent_kept hs
  · exact execMantissa_kept hs
  · exact execRcp_kept hs
  · exact execRsqrt_kept hs
  · exact execCvt_kept hs
  · exact execRsum_kept hs
  · exact execRmax_kept hs
  · exact execRmin_kept hs
  · exact execAccCvt_kept hs
  · exact execLoad_kept hs
  · exact execStore_kept hs
  · exact execMove_kept hs
  · exact execMoveWide_kept hs
  · exact execPlatRd_kept hs
  · exact execPlatWr_kept hs
  · exact execNearRd_kept hs
  · exact execNearWr_kept hs
  · exact execFarRd_kept hs
  · exact execFarWr_kept hs
  · exact execQueueWaitEnd_kept hs
  · exact execReleaseWaitEnd_kept hs
  · exact execSeqSlotPress_kept hs
  · exact execPortionArrival_kept hs
  · exact execSeqSlotHost_kept hs
  · exact execSeqSlotFirmware_kept hs
  · exact execSeqMark_kept hs
  · exact execSeqLoop_kept hs
  · exact execSeqEnd_kept hs
  · exact execFarStreamSlot_kept hs
  · exact execFarStreamMark_kept hs
  · exact execFarStreamLoop_kept hs
  · exact execFarStreamEnd_kept hs
  · exact execCxlCompletionTimeout_kept hs
  · exact execCxlLinkDown_kept hs
  · exact execPointsSlot_kept hs
  · exact execPacketRelease_kept hs
  · exact execPointsMark_kept hs
  · exact execPointsLoop_kept hs
  · exact execPointsEnd_kept hs
  · exact execSamplerRows_kept hs
  · exact execSamplerDueMark_kept hs
  · exact execSamplerDepartMark_kept hs
  · exact execSamplerLoop_kept hs
  · exact execSamplerEnd_kept hs
  · exact execLaunch_kept hs
  · exact execProgramCopy_kept hs
  · exact execReadinessTest_kept hs
  · exact execHoldRelease_kept hs
  · exact execHoldResume_kept hs
  · exact execFirmwareServiceIntrusion_kept hs
  · exact execEndCountReached_kept hs
  · exact execDrainComplete_kept hs
  · exact execDrainLimitExpiry_kept hs
  · exact execPlanWatchdogExpiry_kept hs
  · exact execBarrierReport_kept hs
  · exact execStartCountReached_kept hs
  · exact execBarrierTimeout_kept hs
  · exact execAnnounceTimeout_kept hs
  · exact execAnnounceCommit_kept hs
  · exact execAnnounceAbort_kept hs
  · exact execAnnounceStop_kept hs
  · exact execAnnounceCommitStop_kept hs
  · exact execAnnounceStart_kept hs
  · exact execRankingComplete_kept hs
  · exact execStablingCopyComplete_kept hs
  · exact execRestoreCopyComplete_kept hs
  · exact execStagingCopyComplete_kept hs
  · exact execLogCopyComplete_kept hs
  · exact execVoid_kept hs
  · exact execCancelWrite_kept hs
  · exact execLandingArrival_kept hs
  · exact execRefreshDue_kept hs
  · exact execRefreshWindowEnd_kept hs
  · exact execNearTemperatureReport_kept hs
  · exact execNearTerminusRetrain_kept hs
  · exact execNearInStepRetrain_kept hs
  · exact execNearRetrainEnd_kept hs
  · exact execNearTrainingComplete_kept hs
  · exact execScrub_kept hs
  · exact execFrameStart_kept hs
  · exact execFrameReceived_kept hs
  · exact execLinkBlock_kept hs
  · exact execInitBlock_kept hs
  · exact execPause_kept hs
  · exact execPaused_kept hs
  · exact execResume_kept hs
  · exact execAckTimerExpiry_kept hs
  · exact execLaneTrainingComplete_kept hs
  · exact execTrainingRetry_kept hs
  · exact execMarginBelowFloor_kept hs
  · exact execLossOfLock_kept hs
  · exact execUncorrectableBurst_kept hs
  · exact execLinkTerminusRetrain_kept hs
  · exact execRetrainComplete_kept hs
  · exact execRetrainTimeout_kept hs
  · exact execPlanPacket_kept hs
  · exact execControlPacketForward_kept hs
  · exact execTimeProbe_kept hs
  · exact execTimeReply_kept hs
  · exact execTimeNotice_kept hs
  · exact execPortNotice_kept hs
  · exact execFwMsgRebuilt_kept hs
  · exact execFwMsgAck_kept hs
  · exact execFwMessageResend_kept hs
  · exact execWeightData_kept hs
  · exact execWeightEnd_kept hs
  · exact execBroadcastTimeout_kept hs
  · exact execMirrorItem_kept hs
  · exact execMirrorAck_kept hs
  · exact execMirrorRelease_kept hs
  · exact execRecoverFetch_kept hs
  · exact execRecoverData_kept hs
  · exact execRecoverFetchResend_kept hs
  · exact execRecoverFetchTimeout_kept hs
  · exact execKeyInstall_kept hs
  · exact execTimeProbePeriod_kept hs
  · exact execProbeLost_kept hs
  · exact execTimeSilence_kept hs
  · exact execTimeNoticePeriod_kept hs
  · exact execAltPortReturn_kept hs
  · exact execTimeCode_kept hs
  · exact execPpsInEdge_kept hs
  · exact execPpsTimeout_kept hs
  · exact execPpsOutEdge_kept hs
  · exact execRefclkLoss_kept hs
  · exact execRefclkReturn_kept hs
  · exact execDomainRampStep_kept hs
  · exact execSscDepthStep_kept hs
  · exact execOperatingPointSwitch_kept hs
  · exact execOperatingPointChangeEnd_kept hs
  · exact execPressIdle_kept hs
  · exact execPressWake_kept hs
  · exact execDepartureGroup_kept hs
  · exact execPowerSample_kept hs
  · exact execQuietEntry_kept hs
  · exact execDeepQuietEntry_kept hs
  · exact execWake_kept hs
  · exact execSelfTestRun_kept hs
  · exact execSelfTestRunEnd_kept hs
  · exact execHealthCompute_kept hs
  · exact execHandoverComplete_kept hs
  · exact execBoxWatchdogExpiry_kept hs
  · exact execSb0WatchdogExpiry_kept hs
  · exact execWaybillRebuild_kept hs
  · exact execPowerOn_kept hs
  · exact execUnderVoltage_kept hs
  · exact execUnderVoltageEnd_kept hs
  · exact execAuxSupplyLoss_kept hs
  · exact execModResetAssert_kept hs
  · exact execModResetRelease_kept hs
  · exact execThermalTrip_kept hs
  · exact execNvmWriteEnd_kept hs
  · exact execOptionLoadingComplete_kept hs
  · exact execStationReady_kept hs
  · exact execKclHwTrainingComplete_kept hs
  · exact execSramTestComplete_kept hs
  · exact execBootVerify_kept hs
  · exact execBoxServicesReady_kept hs
  · exact execPressSelfTestComplete_kept hs
  · exact execEngineSelfTestComplete_kept hs
  · exact execFarPortReady_kept hs
  · exact execFwRecoveryGo_kept hs
  · exact execOptionCtlWrite_kept hs
  · exact execOptionWriteDone_kept hs
  · exact execDebugResume_kept hs
  · exact execTimeSet_kept hs
  · exact execFabricGidWrite_kept hs
  · exact execLinkConfigWrite_kept hs
  · exact execClkenWrite_kept hs
  · exact execDomainCtlWrite_kept hs
  · exact execSscCtlWrite_kept hs
  · exact execFarConfigWrite_kept hs
  · exact execFarAreaWrite_kept hs
  · exact execKclSharedWrite_kept hs
  · exact execSubCfgWrite_kept hs
  · exact execSubDoorbell_kept hs
  · exact execDescriptorTake_kept hs
  · exact execCplCfgWrite_kept hs
  · exact execCplConsumerWrite_kept hs
  · exact execEvtCfgWrite_kept hs
  · exact execOutCfgWrite_kept hs
  · exact execOutConsumerWrite_kept hs
  · exact execEditionPtrWrite_kept hs
  · exact execRegisterWrite_kept hs
  · exact execCsRd_kept hs
  · exact execRdShared_kept hs
  · exact execRdOwn_kept hs
  · exact execWriteback_kept hs
  · exact execEvict_kept hs
  · exact execBulkRd_kept hs
  · exact execBulkWr_kept hs
  · exact execKclData_kept hs
  · exact execKclAck_kept hs
  · exact execSnpAck_kept hs
  · exact execSnpData_kept hs
  · exact execSnoopTimeout_kept hs
  · exact execMctpControl_kept hs
  · exact execPldm_kept hs
  · exact execMgmtControlAccess_kept hs
  · exact execGetVersion_kept hs
  · exact execGetCapabilities_kept hs
  · exact execNegotiateAlgorithms_kept hs
  · exact execGetDigests_kept hs
  · exact execGetCertificate_kept hs
  · exact execChallenge_kept hs
  · exact execGetMeasurements_kept hs
  · exact execPqSignature_kept hs
  · exact execPqCertificate_kept hs
  · exact execFlashSectorEraseEnd_kept hs
  · exact execWakeComplete_kept hs
  · exact execCxlWriteCompletion_kept hs
  · exact execDynamicAddressAssignment_kept hs

/-! ## Tick -/

theorem ttTick_kept (hs : s.Kept base) : (ttTick s).Kept base := by
  unfold ttTick
  refine ite_kept hs ?_
  split
  · exact hs
  · exact ite_kept hs hs

theorem ppsTick_kept (hs : s.Kept base) : (ppsTick s).Kept base :=
  ite_kept hs (ite_kept (ite_kept (State.setPin_kept hs) hs) hs)

theorem stallTick_kept (hs : s.Kept base) : (stallTick s).Kept base := by
  unfold stallTick
  split
  · exact ite_kept hs hs
  · exact hs

theorem nsTick_kept (hs : s.Kept base) : (nsTick s).Kept base := by
  unfold nsTick
  extract_lets s1 s2
  have h1 : s1.Kept base := sscTick_kept (beatTick_kept (codeTick_kept (ttTick_kept hs)))
  have h2 : s2.Kept base := streamTick_kept (stallTick_kept (ppsTick_kept (State.modPresses_kept h1)))
  exact h2

theorem nsTicks_kept {n} (hs : s.Kept base) : (nsTicks n s).Kept base := by
  induction n generalizing s with
  | zero => exact hs
  | succ n ih =>
    rw [nsTicks]
    exact ih (nsTick_kept hs)

theorem marksGo_kept (hs : s.Kept base) : (marksGo s).Kept base := by
  unfold marksGo
  refine ite_kept hs ?_
  extract_lets press s1 s2 s3 s4
  have hpress : ∀ t x, t.Kept base → (press t x).Kept base := by
    intro t _ ht
    unfold press
    exact streamRelease_kept (streamRelease_kept (streamRelease_kept ht))
  have h1 : s1.Kept base := foldl_kept (fun _ _ ht => hpress _ _ ht) hs
  have h2 : s2.Kept base := foldl_kept (fun _ _ => seqGo_kept) h1
  have h3 : s3.Kept base := foldl_kept (fun _ _ ht => ite_kept (farGo_kept ht) ht) h2
  have h4 : s4.Kept base := foldl_kept (fun _ _ ht => ite_kept (despGo_kept ht) ht) h3
  exact ite_kept (smpGo_kept h4) h4

theorem tick_kept (hs : s.Kept base) : (tick s).Kept base :=
  ite_kept hs (marksGo_kept (boxesGo_kept (settleTimes_kept (nsTicks_kept hs))))

/-! ## Step -/

/-- A step takes the command at the front of the queue. -/
theorem step_front {c : Instr} {rest : List Instr} (h : s.pending = c :: rest) : step s = exec c { s with pending := rest } := by
  unfold step
  rw [h]

/-- With no command waiting a step is a cycle of the time domain. -/
theorem step_idle (h : s.pending = []) : step s = .next (tick s) := by
  unfold step
  rw [h]

/-- A step keeps what the state had once the command at the front of its queue has been taken. -/
theorem step_kept : Out.Kept { s with pending := s.pending.tail } (step s) := by
  cases h : s.pending with
  | nil =>
    rw [step_idle h]
    exact Out.kept_next (tick_kept ⟨id, h⟩)
  | cons c rest =>
    rw [step_front h]
    exact exec_kept (State.Kept.refl _)

/-- Settles O5: every function of the model keeps the three memories canonical, so a step does. -/
theorem memoriesStayCanonical : Obligations.MemoriesStayCanonical := by
  unfold Obligations.MemoriesStayCanonical
  intro s t hs h
  exact (step_kept t h).1 hs

/-- Settles O6: no function of the model touches the queue, so a step leaves what stood behind the front. -/
theorem queueIsFifo : Obligations.QueueIsFifo := by
  unfold Obligations.QueueIsFifo
  refine ⟨fun c rest s t hq h => ?_, fun s t hq h => ?_⟩
  · exact (step_kept t h).2.trans (congrArg List.tail hq)
  · exact (step_kept t h).2.trans (congrArg List.tail hq)

end Sys2Proof.Machine
end

section
/-!
# The shared window: completions, events and the frame of the commands that only report (R178, R179, R405, R408, R415 to R422)

A write into the window is cut into lines (`lineCut`), and what waits is drained in order (`kclDrain`). Two facts about the drain carry
O8 to O11: on a window where every line written is open (`SharedOp.Open`) the drain performs all that waits, and whatever the window's
state it touches no byte that no waiting write reaches (`Spares`).
-/

namespace Sys2Proof.Machine

variable {s : State}

/-! ## Bytes of a memory -/

theorem memRead_one (d : Byte) (m : Memory) (a : Nat) : memRead d m a 1 = [memGet d m a] := by
  simp [memRead]

/-- Bytes written leave what lies apart from them. -/
theorem memRead_memWrite_apart {d : Byte} {bs : List Byte} {a b n : Nat} {m : Memory} (hm : Memory.wf d m = true)
    (h : a + bs.length ≤ b ∨ b + n ≤ a) : memRead d (memWrite d a bs m) b n = memRead d m b n := by
  refine List.map_congr_left fun i hi => ?_
  rw [List.mem_range] at hi
  exact memGet_memWrite_other d bs a (b + i) m hm (by omega)

/-- Bytes written in two pieces are the bytes written at once. -/
theorem memWrite_append (d : Byte) (xs ys : List Byte) (a : Nat) (m : Memory) :
    memWrite d a (xs ++ ys) m = memWrite d (a + xs.length) ys (memWrite d a xs m) := by
  induction xs generalizing a m with
  | nil => rfl
  | cons x xs ih =>
    rw [List.cons_append, memWrite, ih, memWrite, List.length_cons]
    congr 1
    omega

@[simp] theorem zeros_length (n : Nat) : (zeros n).length = n := List.length_replicate ..

@[simp] theorem sliceBytes_length (bs : List Byte) (off n : Nat) : (sliceBytes bs off n).length = n := by
  simp only [sliceBytes, List.length_append, zeros_length, List.length_take]
  omega

@[simp] theorem completionBytes_length (c : Completion) (phase : Nat) : (completionBytes c phase).length = 32 := by
  simp [completionBytes, leBytes_length]

/-! ## The cut into lines -/

/-- What a waiting operation of the window leaves in memory. -/
def SharedOp.into (m : Memory) : SharedOp → Memory
  | .write a bs => memWrite blank a bs m
  | .intr _ => m
  | .mirror _ => m

/-- Whether a waiting operation of the window writes the byte `b`. -/
def SharedOp.Reaches (b : Nat) : SharedOp → Prop
  | .write a bs => a ≤ b ∧ b < a + bs.length
  | .intr _ => False
  | .mirror _ => False

/-- A write that stays in its line is one piece. -/
theorem lineCut_single {a : Nat} {bs : List Byte} (hne : bs ≠ []) (hlen : bs.length ≤ 64 - a % 64) :
    lineCut (bs.length + 1) a bs = [.write a bs] := by
  cases bs with
  | nil => exact absurd rfl hne
  | cons x bs =>
    rw [lineCut, if_neg (by simp)]
    dsimp only
    rw [List.take_of_length_le hlen, List.drop_of_length_le hlen]
    rfl

/-- The pieces of a write leave what the write leaves. -/
theorem foldl_lineCut (fuel : Nat) (a : Nat) (bs : List Byte) (m : Memory) (h : bs.length < fuel) :
    (lineCut fuel a bs).foldl SharedOp.into m = memWrite blank a bs m := by
  induction fuel generalizing a bs m with
  | zero => omega
  | succ fuel ih =>
    cases bs with
    | nil => rfl
    | cons x bs =>
      have hdrop : ((x :: bs).drop (64 - a % 64)).length < fuel := by
        rw [List.length_drop]
        have := Nat.mod_lt a (show 64 > 0 by omega)
        rw [List.length_cons] at h ⊢
        omega
      rw [lineCut, if_neg (by simp)]
      dsimp only
      rw [List.foldl_cons, ih _ _ _ hdrop]
      conv_rhs => rw [← List.take_append_drop (64 - a % 64) (x :: bs), memWrite_append]
      simp only [SharedOp.into]
      by_cases hle : (x :: bs).length ≤ 64 - a % 64
      · rw [List.drop_of_length_le hle]
        rfl
      · rw [List.length_take, min_eq_left (by omega)]

/-- The pieces of a write reach only the bytes of the write. -/
theorem lineCut_reaches (fuel : Nat) (a : Nat) (bs : List Byte) (b : Nat) :
    ∀ o ∈ lineCut fuel a bs, o.Reaches b → a ≤ b ∧ b < a + bs.length := by
  induction fuel generalizing a bs with
  | zero => simp [lineCut]
  | succ fuel ih =>
    intro o ho hr
    rw [lineCut] at ho
    split at ho
    · simp at ho
    · rcases List.mem_cons.1 ho with rfl | ho
      · simp only [SharedOp.Reaches, List.length_take] at hr
        omega
      · have := ih _ _ o ho hr
        rw [List.length_drop] at this
        omega

/-! ## A window on which nothing holds a write up -/

/-- A write whose line the companion does not hold, of which nothing that it gave up is due, and whose channel takes the boxes' writes. -/
def SharedOp.Open (s : State) : SharedOp → Prop
  | .write a _ => s.lineDue a = false ∧ lineState s.kcl a = none ∧ s.boxMay (a / 1024 % 32) = true
  | .intr _ => False
  | .mirror _ => False

/-- The pieces of a write are open where every line and every channel is. -/
theorem lineCut_open (hopen : ∀ k, lineState s.kcl k = none ∧ s.lineDue k = false) (hmay : ∀ k, k < 32 → s.boxMay k = true)
    {fuel a : Nat} {bs : List Byte} : ∀ o ∈ lineCut fuel a bs, o.Open s := by
  induction fuel generalizing a bs with
  | zero => simp [lineCut]
  | succ fuel ih =>
    intro o ho
    rw [lineCut] at ho
    split at ho
    · simp at ho
    · rcases List.mem_cons.1 ho with rfl | ho
      · exact ⟨(hopen a).2, (hopen a).1, hmay _ (Nat.mod_lt _ (by decide))⟩
      · exact ih o ho

/-- The write at the front, of a line that the companion holds, sends its snoop and waits (R405). -/
theorem kclDrain_held {n a : Nat} {bs : List Byte} {rest : List SharedOp} {x : Bool} (hf : s.kcl.fifo = .write a bs :: rest)
    (hdue : s.lineDue a = false) (hline : lineState s.kcl a = some x) : kclDrain (n + 1) s = kclSnoop a true s := by
  rw [kclDrain, hf]
  simp [hdue, hline]

/-- The write at the front, of a channel that takes none, waits (R178, R179). -/
theorem kclDrain_shut {n a : Nat} {bs : List Byte} {rest : List SharedOp} (hf : s.kcl.fifo = .write a bs :: rest)
    (hdue : s.lineDue a = false) (hline : lineState s.kcl a = none) (hmay : s.boxMay (a / 1024 % 32) = false) :
    kclDrain (n + 1) s = s := by
  rw [kclDrain, hf]
  simp [hdue, hline, hmay]

/-- The write at the front, where it is open, is performed. -/
theorem kclDrain_cons {n a : Nat} {bs : List Byte} {rest : List SharedOp} (hf : s.kcl.fifo = .write a bs :: rest)
    (ho : (SharedOp.write a bs).Open s) :
    kclDrain (n + 1) s = kclDrain n { s with near.mem := memWrite blank a bs s.near.mem, kcl.fifo := rest } := by
  obtain ⟨hdue, hline, hmay⟩ := ho
  rw [kclDrain, hf]
  simp [hdue, hline, hmay]

theorem kclDrain_nil {n : Nat} (hf : s.kcl.fifo = []) : kclDrain n s = s := by
  cases n with
  | zero => rfl
  | succ n => rw [kclDrain, hf]

/-- Open writes that wait are all performed. -/
theorem kclDrain_open (l : List SharedOp) (n : Nat) (hn : l.length ≤ n) (hf : s.kcl.fifo = l) (hl : ∀ o ∈ l, o.Open s) :
    kclDrain n s = { s with near.mem := l.foldl SharedOp.into s.near.mem, kcl.fifo := [] } := by
  induction l generalizing n s with
  | nil =>
    exact (kclDrain_nil hf).trans (congrArg (fun l => { s with kcl.fifo := l }) hf)
  | cons o l ih =>
    obtain ⟨n, rfl⟩ : ∃ k, n = k + 1 := ⟨n - 1, by rw [List.length_cons] at hn; omega⟩
    cases o with
    | write a bs =>
      rw [kclDrain_cons hf (hl _ List.mem_cons_self)]
      exact ih n (Nat.le_of_succ_le_succ hn) rfl fun o ho => by
        cases o <;> exact hl _ (List.mem_cons_of_mem _ ho)
    | intr v => exact (hl _ List.mem_cons_self).elim
    | mirror v => exact (hl _ List.mem_cons_self).elim

/-- A write into the window waits behind what waits, and what can be performed is. -/
theorem sharedWrite_eq (a : Nat) (bs : List Byte) (s : State) :
    sharedWrite a bs s = kclDrain (s.kcl.fifo ++ lineCut (bs.length + 1) a bs).length
      { touchWindow s with kcl.fifo := s.kcl.fifo ++ lineCut (bs.length + 1) a bs } := rfl

/-- A write into an open window, of whose lines none waits, is in memory at once (R179, R408). -/
theorem sharedWrite_open {a : Nat} {bs : List Byte} (hf : s.kcl.fifo = [])
    (ho : ∀ o ∈ lineCut (bs.length + 1) a bs, o.Open s) :
    sharedWrite a bs s = { touchWindow s with near.mem := memWrite blank a bs s.near.mem } := by
  have hopen : ∀ o ∈ lineCut (bs.length + 1) a bs,
      o.Open { touchWindow s with kcl.fifo := lineCut (bs.length + 1) a bs } := fun o h => by
    cases o <;> exact ho _ h
  rw [sharedWrite_eq, hf, List.nil_append]
  refine (kclDrain_open (lineCut (bs.length + 1) a bs) _ (Nat.le_refl _) rfl hopen).trans ?_
  rw [foldl_lineCut _ _ _ _ (Nat.lt_succ_self _)]
  exact congrArg (fun l => { touchWindow s with near.mem := memWrite blank a bs s.near.mem, kcl.fifo := l }) hf.symm

/-- A write that stays in its open line is in memory at once. -/
theorem sharedWrite_line {a : Nat} {bs : List Byte} (hne : bs ≠ []) (hlen : bs.length ≤ 64 - a % 64) (hf : s.kcl.fifo = [])
    (hdue : s.lineDue a = false) (hline : lineState s.kcl a = none) (hmay : s.boxMay (a / 1024 % 32) = true) :
    sharedWrite a bs s = { touchWindow s with near.mem := memWrite blank a bs s.near.mem } := by
  refine sharedWrite_open hf ?_
  rw [lineCut_single hne hlen]
  intro o ho
  rw [List.mem_singleton] at ho
  subst ho
  exact ⟨hdue, hline, hmay⟩

/-! ## Settling O11 -/

/-- In a step no channel takes the boxes' writes (R178, R179). -/
theorem boxMay_inStep (h : s.tt.inStep = true) (c : Nat) : s.boxMay c = false := by
  simp [State.boxMay, State.gapServes, State.gapOpen, h]

/-- The one write that waits stays so where its channel does not take it. -/
theorem sharedWrite_shut {a : Nat} {bs : List Byte} (hne : bs ≠ []) (hlen : bs.length ≤ 64 - a % 64) (hf : s.kcl.fifo = [])
    (hdue : s.lineDue a = false) (hline : lineState s.kcl a = none) (hmay : s.boxMay (a / 1024 % 32) = false) :
    sharedWrite a bs s = { touchWindow s with kcl.fifo := [.write a bs] } := by
  rw [sharedWrite_eq, lineCut_single hne hlen, hf]
  exact kclDrain_shut (rest := []) rfl hdue hline hmay

/-- A write to a line that the companion holds sends a snoop, once (R405). -/
theorem sharedWrite_held {a : Nat} {bs : List Byte} {x : Bool} (hne : bs ≠ []) (hlen : bs.length ≤ 64 - a % 64) (hf : s.kcl.fifo = [])
    (hdue : s.lineDue a = false) (hline : lineState s.kcl a = some x) :
    sharedWrite a bs s = kclSnoop a true { touchWindow s with kcl.fifo := [.write a bs] } := by
  rw [sharedWrite_eq, lineCut_single hne hlen, hf]
  exact kclDrain_held (rest := []) rfl hdue hline

/-- A first snoop of a line on a KCL that is READY. -/
theorem kclSnoop_first {a : Nat} {inv : Bool} (hup : s.kclUp = true) (hn : s.kcl.snoops.any (fun y => y.1 == lineBase a) = false) :
    kclSnoop a inv s = { s with
      kcl.snoops := s.kcl.snoops ++ [(lineBase a, inv)]
      kcl.tx := s.kcl.tx ++ [⟨if inv then 0x40 else 0x41, false, 0, spaceAddr 1 (lineBase a), [], 0⟩] } := by
  rw [kclSnoop, if_neg (by rw [hn]; exact Bool.false_ne_true)]
  exact if_pos hup

/-- A snoop leaves what waits and the near tier alone. -/
theorem kclSnoop_fifo_near (a : Nat) (inv : Bool) (s : State) :
    (kclSnoop a inv s).kcl.fifo = s.kcl.fifo ∧ (kclSnoop a inv s).near = s.near := by
  unfold kclSnoop kclSend
  split
  · exact ⟨rfl, rfl⟩
  · split <;> exact ⟨rfl, rfl⟩

/-- A write behind one that waits for a held line waits too. -/
theorem sharedWrite_behind {a b : Nat} {bs cs : List Byte} {rest : List SharedOp} {x : Bool} (hne : bs ≠ [])
    (hlen : bs.length ≤ 64 - a % 64) (hf : s.kcl.fifo = .write b cs :: rest) (hdue : s.lineDue b = false)
    (hline : lineState s.kcl b = some x) :
    (sharedWrite a bs s).kcl.fifo = s.kcl.fifo ++ [.write a bs] ∧ (sharedWrite a bs s).near = s.near := by
  have h : sharedWrite a bs s = kclSnoop b true { touchWindow s with kcl.fifo := s.kcl.fifo ++ [.write a bs] } := by
    rw [sharedWrite_eq, lineCut_single hne hlen, hf]
    exact kclDrain_held (rest := rest ++ [.write a bs]) rfl hdue hline
  rw [h]
  exact kclSnoop_fifo_near _ _ _

/-- Settles O11: the drain by the state of the line and of the channel of the write at its front. -/
theorem sharedWritesInOrder : Obligations.SharedWritesInOrder := by
  unfold Obligations.SharedWritesInOrder
  intro a bs s hne hlen hdue
  refine ⟨boxMay_inStep, fun hf hline hmay => sharedWrite_line hne hlen hf hdue hline hmay,
    fun hf hline hmay => sharedWrite_shut hne hlen hf hdue hline hmay, fun x hf hline hup hn => ?held,
    fun b cs rest x hf hdueb hline => sharedWrite_behind hne hlen hf hdueb hline⟩
  case held =>
    rw [sharedWrite_held hne hlen hf hdue hline]
    exact kclSnoop_first hup hn

/-! ## Slots of the rings -/

/-- A slot of 32 bytes lies in one line of the window. -/
theorem slotAt_line (r : Ring) : 32 ≤ 64 - r.slotAt 32 % 64 := by
  unfold Ring.slotAt
  omega

/-- The 32 bytes of a slot written at once, where its line is open: they read back, and every other byte reads as before. -/
theorem memRead_slot {a : Nat} {bs : List Byte} {m : Memory} (hm : Memory.wf blank m = true) (hlen : bs.length = 32) :
    memRead blank (memWrite blank a bs m) a 32 = bs ∧
    ∀ k, k < a ∨ a + 32 ≤ k → memRead blank (memWrite blank a bs m) k 1 = memRead blank m k 1 := by
  refine ⟨?_, fun k hk => ?_⟩
  · rw [← hlen]
    exact memRead_memWrite blank bs a m hm
  · exact memRead_memWrite_apart hm (by omega)

/-! ## Settling O10 -/

/-- An event of a ring that is not enabled, or full, is discarded and counted. -/
theorem postEventAt_lost {station type a b c : Nat} (h : s.rings.evt.cfg.enable = false ∨ s.rings.evt.room = 0) :
    postEventAt station type a b c s =
      { s with rings.evtLost := s.rings.evtLost + 1, rings.evtLostSince := satInc s.rings.evtLostSince } := by
  refine if_neg ?_
  rcases h with h | h <;> simp [h]

/-- The 32 bytes of an event (R417). -/
def eventBytes (station type a b c : Nat) (s : State) : List Byte :=
  leBytes 1 type ++ leBytes 1 s.rings.evt.phase ++ leBytes 2 s.rings.evtLostSince.toNat ++ leBytes 8 station
    ++ leBytes 4 a ++ leBytes 8 b ++ leBytes 8 c

theorem eventBytes_length (station type a b c : Nat) (s : State) : (eventBytes station type a b c s).length = 32 := by
  simp [eventBytes, leBytes_length]

/-- An event that finds room, in a ring that asks for no INTR, is a write of its 32 bytes into the slot that the index names. -/
theorem postEventAt_room {station type a b c : Nat} (he : s.rings.evt.cfg.enable = true) (hr : 0 < s.rings.evt.room)
    (hi : s.rings.evt.cfg.intr = false) :
    postEventAt station type a b c s = sharedWrite (s.rings.evt.slotAt 32) (eventBytes station type a b c s)
      { s with rings.evt.producer := BitVec.ofNat 32 ((s.rings.evt.producer.toNat + 1) % 65536), rings.evtLostSince := 0 } := by
  refine (if_pos (by simp [he, hr])).trans ?_
  exact if_neg (by simp [hi])

/-- Settles O10: held through a handover, else discarded, or one write into the slot. -/
theorem eventsPosted : Obligations.EventsPosted := by
  unfold Obligations.EventsPosted
  intro type a b c s
  refine ⟨fun hb => if_pos (by simp [hb]), fun hb h => ?lost, fun hb he hr hi hm hf hline hdue hmay => ?room⟩
  case lost => exact (if_neg (by simpa using hb)).trans (postEventAt_lost h)
  case room =>
    have hlen : (eventBytes s.now type a b c s).length ≤ 64 - s.rings.evt.slotAt 32 % 64 :=
      (eventBytes_length ..).trans_le (slotAt_line _)
    have hpost : postEvent type a b c s = _ := (if_neg (by simpa using hb)).trans
      ((postEventAt_room he hr hi).trans (sharedWrite_line (by simp [eventBytes, leBytes]) hlen hf hdue hline hmay))
    have hmem := congrArg (fun t : State => t.near.mem) hpost
    obtain ⟨hread, hother⟩ := memRead_slot (a := s.rings.evt.slotAt 32) hm.1 (eventBytes_length s.now type a b c s)
    dsimp only at hmem ⊢
    rw [hmem]
    refine ⟨hread, hother, ?_⟩
    rw [hpost]
    exact ⟨rfl, rfl, rfl⟩

/-! ## Settling O9 -/

/-- A completion with the edition in force at its posting. -/
def Completion.dated (c : Completion) (s : State) : Completion := { c with edition := s.rings.edition.setWidth 32 }

theorem post_eq (c : Completion) (hw : s.rings.waiting = []) :
    post c s = flushCompletions [c.dated s] [] [] { s with rings.waiting := [c.dated s] } := by
  unfold post
  rw [hw]
  rfl

/-- A completion that finds no room waits. -/
theorem post_noRoom {c : Completion} (hw : s.rings.waiting = []) (hr : s.cplRoom (s.cplOf c.cmd) = false) :
    post c s = { s with rings.waiting := [c.dated s] } := by
  rw [post_eq c hw]
  refine (if_neg ?_).trans rfl
  show ¬((s.cplRoom (s.cplOf c.cmd) && !([] : List Nat).contains (s.cplOf c.cmd)) = true)
  simp [hr]

/-- A completion written into a ring, where no INTR is asked for, is a write of its 32 bytes into the slot that the index names. -/
theorem writeCompletion_silent {c : Completion} (hi : (vget s.rings.cpl (s.cplOf c.cmd) Ring.reset).cfg.intr = false)
    (hflag : c.cmd.flags.getLsbD 0 = false) :
    let r := vget s.rings.cpl (s.cplOf c.cmd) Ring.reset
    writeCompletion c s = sharedWrite (r.slotAt 32) (completionBytes c r.phase)
      { s with
        rings.cpl := vmod s.rings.cpl (s.cplOf c.cmd) (fun r => { r with producer := BitVec.ofNat 32 ((r.producer.toNat + 1) % 65536) })
        rings.awaiting := if c.final then vmod s.rings.awaiting c.cmd.ring.val (· - 1) else s.rings.awaiting } := by
  have hbit : bitAt c.cmd.flags.toNat 0 = false := by
    rw [← hflag, BitVec.getLsbD, Nat.testBit_zero]
    simp [bitAt, Bool.beq_eq_decide_eq]
  exact if_neg (by rw [hi, hbit, Bool.and_false, Bool.or_false]; exact Bool.false_ne_true)

/-- A completion that finds room is written, and none waits after it. -/
theorem post_room {c : Completion} (hw : s.rings.waiting = []) (hr : s.cplRoom (s.cplOf c.cmd) = true) :
    post c s = { writeCompletion (c.dated s) { s with rings.waiting := [c.dated s] } with rings.waiting := [] } := by
  rw [post_eq c hw]
  refine (if_pos ?_).trans rfl
  show (s.cplRoom (s.cplOf c.cmd) && !([] : List Nat).contains (s.cplOf c.cmd)) = true
  simp [hr]

/-- A final completion on a quiet window: its bytes in the slot, the index and the commands that await their end, and nothing else. -/
theorem post_quiet {c : Completion} (hf : s.kcl.fifo = []) (hw : s.rings.waiting = []) (hr : s.cplRoom (s.cplOf c.cmd) = true)
    (hi : (vget s.rings.cpl (s.cplOf c.cmd) Ring.reset).cfg.intr = false) (hflag : c.cmd.flags.getLsbD 0 = false)
    (hfin : c.final = true) :
    let r := vget s.rings.cpl (s.cplOf c.cmd) Ring.reset
    let a := r.slotAt 32
    lineState s.kcl a = none → s.lineDue a = false → s.boxMay (a / 1024 % 32) = true →
    post c s = { touchWindow s with
      near.mem := memWrite blank a (completionBytes (c.dated s) r.phase) s.near.mem
      rings.waiting := []
      rings.cpl := vmod s.rings.cpl (s.cplOf c.cmd) (fun r => { r with producer := BitVec.ofNat 32 ((r.producer.toNat + 1) % 65536) })
      rings.awaiting := vmod s.rings.awaiting c.cmd.ring.val (· - 1) } := by
  intro r a hline hdue hmay
  have hlen : (completionBytes (c.dated s) r.phase).length ≤ 64 - a % 64 := (completionBytes_length ..).trans_le (slotAt_line _)
  have hwrite := (writeCompletion_silent (s := { s with rings.waiting := [c.dated s] }) (c := c.dated s) hi hflag).trans
    (sharedWrite_line (by simp [completionBytes, leBytes]) hlen hf hdue hline hmay)
  rw [post_room hw hr, hwrite]
  simp only [Completion.dated, hfin, if_true]
  rfl

/-- Settles O9: a completion on a quiet window is one write, a reply one before it; without room the completion only waits. -/
theorem completionWritten : Obligations.CompletionWritten := by
  unfold Obligations.CompletionWritten
  refine ⟨fun d status result s hm hf hw hr hi hflag hline hdue hmay => ?final,
    fun d status result reply s hm hf hw hr hi hflag hapart hopen hmay => ?reply,
    fun d status result s hw hr => post_noRoom hw hr⟩
  case final =>
    dsimp only
    have hpost : finish d status result s = _ := post_quiet (c := mkCpl d status true result) hf hw hr hi hflag rfl hline hdue hmay
    have hmem := congrArg (fun t : State => t.near.mem) hpost
    obtain ⟨hread, hother⟩ := memRead_slot hm.1 (completionBytes_length _ _)
    dsimp only at hmem
    rw [hmem]
    refine ⟨hread, hother, ?_⟩
    rw [hpost]
    exact ⟨rfl, rfl, rfl, rfl⟩
  case reply =>
    have hpieces : ∀ o ∈ lineCut (reply.length + 1) (d.reply.toNat * 1024) reply, o.Open s := lineCut_open hopen hmay
    have hreply := sharedWrite_open hf hpieces
    have hpost : finishReply d status result reply s = _ := (congrArg (post _) hreply).trans
      (post_quiet (c := { mkCpl d status true result with reply := true }) hf hw hr hi hflag rfl (hopen _).1 (hopen _).2
        (hmay _ (Nat.mod_lt _ (by decide))))
    have hmem := congrArg (fun t : State => t.near.mem) hpost
    have hm' := memWrite_wf blank reply (d.reply.toNat * 1024) _ hm.1
    obtain ⟨hread, hother⟩ := memRead_slot hm' (completionBytes_length _ _)
    dsimp only at hmem ⊢
    rw [hmem]
    refine ⟨?_, hread, fun k hk hk' => (hother k hk).trans ?_, ?_⟩
    · rw [memRead_memWrite_apart hm' (by rw [completionBytes_length]; exact hapart)]
      exact memRead_memWrite blank reply _ _ hm.1
    · exact memRead_memWrite_apart hm.1 (by omega)
    · rw [hpost]
      exact ⟨rfl, rfl⟩

/-! ## What a completion changes (R408, R415) -/

/-- From `s` to `t` only what a completion touches has changed: of the channels the HOST accesses that wait, of the rings neither the edition
nor the rings of submissions, events and output. -/
structure Answered (s t : State) : Prop where
  posted : Posted s t
  chan : ∀ c, t.chan c = { s.chan c with host := (t.chan c).host }
  edition : t.rings.edition = s.rings.edition
  sub : t.rings.sub = s.rings.sub
  evt : t.rings.evt = s.rings.evt
  out : t.rings.out = s.rings.out

theorem Answered.refl (s : State) : Answered s s := ⟨Posted.refl s, fun _ => rfl, rfl, rfl, rfl, rfl⟩

theorem Answered.trans {s t u : State} (h : Answered s t) (g : Answered t u) : Answered s u :=
  ⟨h.posted.trans g.posted, fun c => by rw [g.chan c, h.chan c], g.edition.trans h.edition, g.sub.trans h.sub, g.evt.trans h.evt,
    g.out.trans h.out⟩

/-- A change of the rings that leaves those that a completion leaves. -/
theorem Answered.rings {s : State} (r : Rings) (he : r.edition = s.rings.edition) (hs : r.sub = s.rings.sub) (hv : r.evt = s.rings.evt)
    (ho : r.out = s.rings.out) : Answered s { s with rings := r } := ⟨Posted.rings s r, fun _ => rfl, he, hs, hv, ho⟩

theorem Answered.kcl (s : State) (k : Kcl) : Answered s { s with kcl := k } := ⟨Posted.kcl s k, fun _ => rfl, rfl, rfl, rfl, rfl⟩

theorem kclSend_answered (m : KclMsg) (s : State) : Answered s (kclSend m s) := by
  unfold kclSend
  split
  · exact Answered.kcl s _
  · exact Answered.refl s

theorem kclSnoop_answered (a : Nat) (inv : Bool) (s : State) : Answered s (kclSnoop a inv s) := by
  unfold kclSnoop
  split
  · exact Answered.refl s
  · exact (Answered.kcl s _).trans (kclSend_answered _ _)

theorem pullForward_answered (a : Nat) (s : State) : Answered s (pullForward a s) := by
  unfold pullForward
  split
  next h rest _ =>
    have hchan : ∀ e, (s.modChan (a / 1024 % 32) fun c => { c with host := c.host ++ [h] }).chan e =
        { s.chan e with host := ((s.modChan (a / 1024 % 32) fun c => { c with host := c.host ++ [h] }).chan e).host } := by
      intro e
      by_cases he : a / 1024 % 32 = e
      · rw [← he, State.chan_modChan_same _ _ _ (Nat.mod_lt _ (by decide))]
      · rw [State.chan_modChan_other _ _ _ _ he]
    exact ⟨⟨_, _, _, s.rings, s.power.windowIdle, s.power.waking, rfl⟩, hchan, rfl, rfl, rfl, rfl⟩
  next => exact Answered.refl s

theorem kclDrain_answered (n : Nat) (s : State) : Answered s (kclDrain n s) := by
  induction n generalizing s with
  | zero => exact Answered.refl s
  | succ n ih =>
    rw [kclDrain]
    split
    · exact Answered.refl s
    · refine Answered.trans ?_ (ih _)
      split
      · exact (Answered.kcl s _).trans (kclSend_answered _ _)
      · exact Answered.kcl s _
    · refine Answered.trans ?_ (ih _)
      exact ⟨(Drained.posted ⟨_, _, _, _, rfl⟩), fun _ => rfl, rfl, rfl, rfl, rfl⟩
    · split
      · exact pullForward_answered _ s
      · split
        · exact kclSnoop_answered _ _ s
        · split
          · refine Answered.trans ?_ (ih _)
            exact ⟨(Drained.posted ⟨_, _, _, s.rings.edMirror, rfl⟩), fun _ => rfl, rfl, rfl, rfl, rfl⟩
          · exact Answered.refl s

theorem sharedWrite_answered (a : Nat) (bs : List Byte) (s : State) : Answered s (sharedWrite a bs s) :=
  Answered.trans ⟨touchWindow_posted s, fun _ => rfl, rfl, rfl, rfl, rfl⟩ ((Answered.kcl _ _).trans (kclDrain_answered _ _))

theorem sharedIntr_answered (v : BitVec 16) (s : State) : Answered s (sharedIntr v s) :=
  (Answered.kcl s _).trans (kclDrain_answered _ _)

theorem writeCompletion_answered (c : Completion) (s : State) : Answered s (writeCompletion c s) := by
  unfold writeCompletion
  extract_lets j r _ s1 s2
  have h1 : Answered s s1 := Answered.rings _ rfl rfl rfl rfl
  have h2 : Answered s s2 := h1.trans (sharedWrite_answered _ _ _)
  split
  · exact h2.trans (sharedIntr_answered _ _)
  · exact h2

theorem flushCompletions_answered (l : List Completion) (blocked : List Nat) (kept : List Completion) (s : State) :
    Answered s (flushCompletions l blocked kept s) := by
  induction l generalizing blocked kept s with
  | nil => exact Answered.rings _ rfl rfl rfl rfl
  | cons c l ih =>
    rw [flushCompletions]
    split
    · exact (writeCompletion_answered c s).trans (ih _ _ _)
    · exact ih _ _ _

theorem post_answered (c : Completion) (s : State) : Answered s (post c s) :=
  (Answered.rings { s.rings with waiting := s.rings.waiting ++ [c.dated s] } rfl rfl rfl rfl).trans
    (flushCompletions_answered _ _ _ _)

theorem finish_answered (d : Descriptor) (status : BitVec 16) (result : Nat) (s : State) : Answered s (finish d status result s) :=
  post_answered _ s

theorem finishReply_answered (d : Descriptor) (status : BitVec 16) (result : Nat) (reply : List Byte) (s : State) :
    Answered s (finishReply d status result reply s) := (sharedWrite_answered _ _ s).trans (post_answered _ _)

theorem cmdBegin_answered (d : Descriptor) (s : State) : Answered s (cmdBegin d s) := Answered.rings _ rfl rfl rfl rfl

/-! ## Bytes that nothing which waits reaches -/

/-- Byte `b` of a canonical near tier reads as `v`, and no write that waits for the window reaches it. -/
structure Spares (b : Nat) (v : Byte) (s : State) : Prop where
  wf : Memory.wf blank s.near.mem = true
  reads : memGet blank s.near.mem b = v
  apart : ∀ o ∈ s.kcl.fifo, ¬o.Reaches b

variable {b : Nat} {v : Byte}

theorem kclSend_spares {m : KclMsg} (h : Spares b v s) : Spares b v (kclSend m s) := by
  unfold kclSend
  split
  · exact ⟨h.wf, h.reads, h.apart⟩
  · exact h

theorem kclSnoop_spares {a : Nat} {inv : Bool} (h : Spares b v s) : Spares b v (kclSnoop a inv s) := by
  obtain ⟨hf, hn⟩ := kclSnoop_fifo_near a inv s
  exact ⟨hn ▸ h.wf, hn ▸ h.reads, hf ▸ h.apart⟩

theorem pullForward_spares {a : Nat} (h : Spares b v s) : Spares b v (pullForward a s) := by
  unfold pullForward
  split
  · exact ⟨h.wf, h.reads, h.apart⟩
  · exact h

theorem kclDrain_spares {n : Nat} (h : Spares b v s) : Spares b v (kclDrain n s) := by
  induction n generalizing s with
  | zero => exact h
  | succ n ih =>
    rw [kclDrain]
    split
    next => exact h
    next w rest hf =>
      have hrest : Spares b v { s with kcl.fifo := rest } := ⟨h.wf, h.reads, fun o ho => h.apart o (hf ▸ List.mem_cons_of_mem _ ho)⟩
      refine ih ?_
      split
      · exact kclSend_spares ⟨hrest.wf, hrest.reads, hrest.apart⟩
      · exact hrest
    next w rest hf => exact ih ⟨h.wf, h.reads, fun o ho => h.apart o (hf ▸ List.mem_cons_of_mem _ ho)⟩
    next a bs rest hf =>
      have hfront : ¬(SharedOp.write a bs).Reaches b := h.apart _ (hf ▸ List.mem_cons_self)
      split
      · exact pullForward_spares h
      · split
        · exact kclSnoop_spares h
        · split
          · refine ih ⟨memWrite_wf blank bs a _ h.wf, ?_, fun o ho => h.apart o (hf ▸ List.mem_cons_of_mem _ ho)⟩
            rw [SharedOp.Reaches] at hfront
            exact (memGet_memWrite_other blank bs a b _ h.wf (by omega)).trans h.reads
          · exact h

/-- A write into the window leaves the rings, but for EDITION_MIRROR. -/
theorem sharedWrite_rings (a : Nat) (bs : List Byte) (s : State) :
    ∃ v, (sharedWrite a bs s).rings = { s.rings with edMirror := v } := by
  obtain ⟨_, _, _, w, e⟩ := kclPump_drained
    { touchWindow s with kcl.fifo := s.kcl.fifo ++ lineCut (bs.length + 1) a bs }
  exact ⟨w, congrArg State.rings e⟩

/-- A write apart from a byte spares it. -/
theorem sharedWrite_spares {a : Nat} {bs : List Byte} (hb : b < a ∨ a + bs.length ≤ b) (h : Spares b v s) :
    Spares b v (sharedWrite a bs s) := by
  refine kclDrain_spares ⟨h.wf, h.reads, fun o ho => ?_⟩
  rcases List.mem_append.1 ho with ho | ho
  · exact h.apart o ho
  · intro hr
    have := lineCut_reaches _ _ _ b o ho hr
    omega

theorem sharedIntr_spares {w : BitVec 16} (h : Spares b v s) : Spares b v (sharedIntr w s) := by
  refine kclDrain_spares ⟨h.wf, h.reads, fun o ho => ?_⟩
  rcases List.mem_append.1 ho with ho | ho
  · exact h.apart o ho
  · rw [List.mem_singleton] at ho
    exact ho ▸ id

/-- A completion spares every byte outside the slot that its ring's producer index names. -/
theorem writeCompletion_spares {c : Completion} (h : Spares b v s)
    (hb : b < (vget s.rings.cpl (s.cplOf c.cmd) Ring.reset).slotAt 32 ∨ (vget s.rings.cpl (s.cplOf c.cmd) Ring.reset).slotAt 32 + 32 ≤ b) :
    Spares b v (writeCompletion c s) := by
  unfold writeCompletion
  extract_lets j r _ s1 s2
  have h1 : Spares b v s1 := ⟨h.wf, h.reads, h.apart⟩
  have h2 : Spares b v s2 := sharedWrite_spares (by rw [completionBytes_length]; exact hb) h1
  split
  · exact sharedIntr_spares h2
  · exact h2

theorem post_spares {c : Completion} (hw : s.rings.waiting = []) (h : Spares b v s)
    (hb : b < (vget s.rings.cpl (s.cplOf c.cmd) Ring.reset).slotAt 32 ∨ (vget s.rings.cpl (s.cplOf c.cmd) Ring.reset).slotAt 32 + 32 ≤ b) :
    Spares b v (post c s) := by
  cases hr : s.cplRoom (s.cplOf c.cmd) with
  | false =>
    rw [post_noRoom hw hr]
    exact ⟨h.wf, h.reads, h.apart⟩
  | true =>
    have hwrite : Spares b v (writeCompletion (c.dated s) { s with rings.waiting := [c.dated s] }) :=
      writeCompletion_spares ⟨h.wf, h.reads, h.apart⟩ hb
    rw [post_room hw hr]
    exact ⟨hwrite.wf, hwrite.reads, hwrite.apart⟩

/-! ## Settling O8 -/

/-- The answers that a command which only reports may give: one completion, with a reply of at most `n` bytes or without. -/
inductive Answer (d : Descriptor) (n : Nat) (s : State) : State → Prop
  | plain (status : BitVec 16) (result : Nat) : Answer d n s (finish d status result s)
  | reply (status : BitVec 16) (result : Nat) (reply : List Byte) (h : reply.length ≤ n) :
    Answer d n s (finishReply d status result reply s)

theorem command_answer {d : Descriptor} {n : Nat} {used : List (Nat × Nat)} {run : State → State}
    (h : ∀ s, Answer d n s (run s)) : Answer d n (cmdBegin d s) (command d used run s) := by
  unfold command
  split
  · exact h _
  · exact .plain _ _

theorem commandReply_answer {d : Descriptor} {n kib : Nat} {used : List (Nat × Nat)} {run : State → State}
    (h : ∀ s, Answer d n s (run s)) : Answer d n (cmdBegin d s) (commandReply d used kib run s) :=
  command_answer fun t => by
    split
    · exact h t
    · exact .plain _ _

theorem regBytes_length (s : State) (off n : Nat) : (regBytes s off n).length = n / 8 * 8 := by
  simp [regBytes, leBytes_length, List.length_flatMap]

theorem execHealthRead_answer (d : Descriptor) (s : State) :
    ∃ t, execHealthRead d s = .next t ∧ Answer d (8 * pArg d 25 1) (cmdBegin d s) t := by
  refine ⟨_, rfl, command_answer fun t => ?_⟩
  dsimp only
  split
  · exact .plain _ _
  · split
    · exact .plain _ _
    · exact .reply _ _ _ (by rw [regBytes_length]; omega)

/-- Each of the commands that only report gives one answer. -/
theorem reporting_answer {d : Descriptor} {x : Instr × Nat}
    (hx : x ∈ [(.nop d, 0), (.getEdition d, 0), (.fwVersion d, 0), (.identify d, 1024), (.healthRead d, 8 * pArg d 25 1),
      (.hazardRead d, 14336)]) : ∃ t, exec x.1 s = .next t ∧ Answer d x.2 (cmdBegin d s) t := by
  simp only [List.mem_cons, List.not_mem_nil, or_false] at hx
  rcases hx with rfl | rfl | rfl | rfl | rfl | rfl
  · exact ⟨_, rfl, command_answer fun _ => .plain _ _⟩
  · exact ⟨_, rfl, command_answer fun _ => .plain _ _⟩
  · exact ⟨_, rfl, command_answer fun _ => .plain _ _⟩
  · exact ⟨_, rfl, commandReply_answer fun _ => .reply _ _ _ (by rw [regBytes_length])⟩
  · exact execHealthRead_answer d s
  · exact ⟨_, rfl, commandReply_answer fun _ => .reply _ _ _ (by rw [sliceBytes_length])⟩

theorem Answer.answered {d : Descriptor} {n : Nat} {t : State} (h : Answer d n s t) : Answered s t := by
  cases h with
  | plain => exact finish_answered _ _ _ _
  | reply => exact finishReply_answered _ _ _ _ _

/-- An answer spares every byte outside its slot and its reply area. -/
theorem Answer.spares {d : Descriptor} {n : Nat} {t : State} (h : Answer d n s t) (hw : s.rings.waiting = []) (hb : Spares b v s)
    (hslot : b < (vget s.rings.cpl (s.cplOf d) Ring.reset).slotAt 32 ∨ (vget s.rings.cpl (s.cplOf d) Ring.reset).slotAt 32 + 32 ≤ b)
    (hreply : b < d.reply.toNat * 1024 ∨ d.reply.toNat * 1024 + n ≤ b) : Spares b v t := by
  cases h with
  | plain => exact post_spares hw hb hslot
  | reply status result reply hlen =>
    obtain ⟨w, hw1⟩ := sharedWrite_rings (d.reply.toNat * 1024) reply s
    refine post_spares (hw1 ▸ hw) (sharedWrite_spares (by omega) hb) ?_
    rw [State.cplOf, hw1]
    exact hslot

/-- Settles O8: each command gives one answer, an answer is posted into the window, and what is posted spares every other byte. -/
theorem reportingCommandsFrame : Obligations.ReportingCommandsFrame := by
  unfold Obligations.ReportingCommandsFrame
  intro d s t a r x hx hexec
  obtain ⟨u, hu, hans⟩ := reporting_answer (s := s) hx
  obtain rfl : u = t := Host.Outcome.next.inj (hu.symm.trans hexec)
  have hall : Answered s u := (cmdBegin_answered d s).trans hans.answered
  refine ⟨fun hm hf hw b hslot hreply => ?mem, ?frame⟩
  case mem =>
    have hb : Spares b (memGet blank s.near.mem b) (cmdBegin d s) := ⟨hm.1, rfl, fun o ho => by
      have hfifo : (cmdBegin d s).kcl.fifo = [] := hf
      rw [hfifo] at ho
      exact absurd ho List.not_mem_nil⟩
    rw [memRead_one, memRead_one, (hans.spares hw hb hslot hreply).reads]
  case frame =>
    have hnear : u.near = { s.near with mem := u.near.mem, channels := u.near.channels } ∧
        u.power = { s.power with windowIdle := u.power.windowIdle, waking := u.power.waking } := by
      obtain ⟨_, _, _, _, _, _, e⟩ := hall.posted
      rw [e]
      exact ⟨rfl, rfl⟩
    have hp := hall.posted
    exact ⟨hp.nv_eq, hp.time_eq, hp.clk_eq, hp.tt_eq, hp.barrier_eq, hp.presses_eq, hp.far_eq, hp.conc_eq, hp.ports_eq, hp.fab_eq,
      hp.eng_eq, hp.smp_eq, hp.liv_eq, hp.forme_eq, hp.health_eq, hp.mirror_eq, hp.dbg_eq, hp.fw_eq, hp.mgmt_eq, hp.free_eq,
      hp.pending_eq, hnear.1, hall.chan, hnear.2, hall.edition, hall.sub, hall.evt, hall.out⟩

end Sys2Proof.Machine
end

section
/-!
# The empty queue, the queue's front, and the state after reset (R9, R25, R26, R270)
-/

namespace Sys2Proof.Machine

variable {s : State}

/-! ## Settling O1, O3 and O4 -/

/-- Settles O1: `step` takes the list apart. -/
theorem stepRunsFront : Obligations.StepRunsFront := by
  unfold Obligations.StepRunsFront
  exact fun c s => step_front (s := { s with pending := c :: s.pending }) rfl

/-- Settles O3: the registers read after reset, one by one. -/
theorem resetRegisters : Obligations.ResetRegisters := by
  unfold Obligations.ResetRegisters
  decide

/-- Settles O4: reset leaves every memory empty. -/
theorem resetMemoriesOk : Obligations.ResetMemoriesOk := by
  unfold Obligations.ResetMemoriesOk
  exact ⟨⟨blank_wf _, blank_wf _, blank_wf _⟩, rfl⟩

/-! ## What a cycle leaves of time and the timetable -/

/-- `t` has the timetable and the time of `s`. -/
def SameTime (s t : State) : Prop := t.tt = s.tt ∧ t.time = s.time

theorem SameTime.refl (s : State) : SameTime s s := ⟨rfl, rfl⟩

theorem SameTime.trans {s t u : State} (h : SameTime s t) (g : SameTime t u) : SameTime s u :=
  ⟨g.1.trans h.1, g.2.trans h.2⟩

theorem Posted.sameTime {s t : State} (h : Posted s t) : SameTime s t := ⟨h.tt_eq, h.time_eq⟩

theorem ite_sameTime {c : Prop} [Decidable c] {s t u : State} (ht : SameTime s t) (hu : SameTime s u) :
    SameTime s (if c then t else u) := by
  split
  · exact ht
  · exact hu

theorem foldl_sameTime {α : Type} {f : State → α → State} (hf : ∀ s x, SameTime s (f s x)) (l : List α) (s : State) :
    SameTime s (l.foldl f s) :=
  List.foldlRecOn (motive := fun t => SameTime s t) l f (SameTime.refl s) fun t ht x _ => ht.trans (hf t x)

theorem streamRelease_sameTime (p : Nat) (id : StreamId) (s : State) : SameTime s (streamRelease p id s) := by
  unfold streamRelease
  extract_lets
  split
  · exact SameTime.refl s
  · exact ite_sameTime ⟨rfl, rfl⟩ (SameTime.refl s)

theorem writePlace_sameTime (r : PlatRef) (off : Nat) (bs : List Byte) (s : State) : SameTime s (writePlace r off bs s) := by
  unfold writePlace
  split
  · exact SameTime.refl s
  · exact ⟨rfl, rfl⟩

theorem fillBerth_sameTime (r : SampledRow) (s : State) : SameTime s (fillBerth r s) := by
  have hdesk : ∀ f, SameTime s (s.modDeskSheet f) := fun f => ite_sameTime ⟨rfl, rfl⟩ ⟨rfl, rfl⟩
  unfold fillBerth
  split
  · exact SameTime.refl s
  · split
    · exact SameTime.refl s
    · extract_lets _ b t
      have ht : SameTime s t := hdesk _
      split
      · exact ht.trans (writePlace_sameTime _ _ _ t)
      · exact ht

theorem smpGo_sameTime (s : State) : SameTime s (smpGo s) := by
  unfold smpGo
  split
  · exact SameTime.refl s
  · refine ite_sameTime (SameTime.refl s) (ite_sameTime ?_ ⟨rfl, rfl⟩)
    exact SameTime.trans ⟨rfl, rfl⟩ (foldl_sameTime (fun s r => fillBerth_sameTime r s) _ _)

theorem seqGo_sameTime (c : Nat) (s : State) : SameTime s (seqGo c s) := ⟨rfl, rfl⟩
theorem farGo_sameTime (f : Nat) (s : State) : SameTime s (farGo f s) := ⟨rfl, rfl⟩
theorem despGo_sameTime (p : Nat) (s : State) : SameTime s (despGo p s) := ⟨rfl, rfl⟩

/-- The units whose marks TT has passed go on, with the timetable and the time as they were. -/
theorem marksGo_sameTime (s : State) : SameTime s (marksGo s) := by
  unfold marksGo
  refine ite_sameTime (SameTime.refl s) ?_
  extract_lets press s1 s2 s3 s4
  have h1 : SameTime s s1 := foldl_sameTime (fun s p => (streamRelease_sameTime p .m s).trans
    ((streamRelease_sameTime p .v _).trans (streamRelease_sameTime p .x _))) _ _
  have h2 : SameTime s s2 := h1.trans (foldl_sameTime (fun s c => seqGo_sameTime c s) _ _)
  have h3 : SameTime s s3 := h2.trans (foldl_sameTime (fun s f => ite_sameTime (farGo_sameTime f s) (SameTime.refl s)) _ _)
  have h4 : SameTime s s4 := h3.trans (foldl_sameTime (fun s p => ite_sameTime (despGo_sameTime p s) (SameTime.refl s)) _ _)
  exact ite_sameTime (h4.trans (smpGo_sameTime s4)) h4

/-- What waited for the gap goes on, with the timetable and the time as they were. -/
theorem boxesGo_sameTime (s : State) : SameTime s (boxesGo s) :=
  SameTime.trans ⟨rfl, rfl⟩ (kclPump_drained (lateGo s)).posted.sameTime

/-- The pulse of the second leaves the timetable, station time and its fraction. -/
theorem ppsTick_time (s : State) : (ppsTick s).tt = s.tt ∧ (ppsTick s).time.ns = s.time.ns ∧ (ppsTick s).time.frac = s.time.frac := by
  have hpin : ∀ (k : Nat) (l : PinLevel) (t : State), (t.setPin k l).tt = t.tt ∧ (t.setPin k l).time = t.time := by
    intro k l t
    unfold State.setPin
    split <;> exact ⟨rfl, rfl⟩
  unfold ppsTick
  extract_lets t u
  split
  · exact ⟨rfl, rfl, rfl⟩
  · split
    · split
      · obtain ⟨htt, htime⟩ := hpin 4 .low _
        exact ⟨htt, (congrArg Time.ns htime).trans rfl, (congrArg Time.frac htime).trans rfl⟩
      · exact ⟨rfl, rfl, rfl⟩
    · exact ⟨rfl, rfl, rfl⟩

theorem stallTick_sameTime (s : State) : SameTime s (stallTick s) := by
  unfold stallTick
  split
  · exact ite_sameTime ⟨rfl, rfl⟩ ⟨rfl, rfl⟩
  · exact SameTime.refl s

theorem ttTick_time (s : State) : (ttTick s).time = s.time := by
  unfold ttTick
  split
  · rfl
  · split
    · rfl
    · split <;> rfl

/-- The time codes, the beats and the spread spectrum leave the timetable, station time and its fraction. -/
theorem clocksTick_time (s : State) : (sscTick (beatTick (codeTick s))).tt = s.tt ∧
    (sscTick (beatTick (codeTick s))).time.ns = s.time.ns ∧ (sscTick (beatTick (codeTick s))).time.frac = s.time.frac :=
  ⟨rfl, rfl, rfl⟩

/-- A nanosecond of station time: TT goes as `ttTick` says, the time by 1 ns. -/
theorem nsTick_time (s : State) :
    (nsTick s).tt = (ttTick s).tt ∧ (nsTick s).time.ns = s.time.ns + 1 ∧ (nsTick s).time.frac = s.time.frac := by
  unfold nsTick
  extract_lets t u
  obtain ⟨htt, hns, hfrac⟩ : t.tt = (ttTick s).tt ∧ t.time.ns = s.time.ns ∧ t.time.frac = s.time.frac := by
    rw [← ttTick_time s]
    exact clocksTick_time (ttTick s)
  clear_value t
  have hu : u.tt = t.tt ∧ u.time.ns = t.time.ns ∧ u.time.frac = t.time.frac := by
    obtain ⟨htt, htime⟩ := stallTick_sameTime (ppsTick (t.modPresses pressTick))
    obtain ⟨htt', hns', hfrac'⟩ := ppsTick_time (t.modPresses pressTick)
    exact ⟨htt.trans htt', (congrArg Time.ns htime).trans hns', (congrArg Time.frac htime).trans hfrac'⟩
  clear_value u
  obtain ⟨hutt, huns, hufrac⟩ := hu
  exact ⟨hutt.trans htt, by rw [huns, hns], hufrac.trans hfrac⟩

/-- With no slew left a cycle takes none of it. -/
theorem slewStep_plain (hslew : s.time.slew = 0) : slewStep s = 0 := by
  unfold slewStep slewCap
  rw [hslew]
  split <;> split <;> omega

/-- With no correction in force a cycle is one nanosecond (R270). -/
theorem cycleUnits_plain (hfreq : s.time.freq = 0) (hslew : s.time.slew = 0) : cycleUnits s = 2 ^ 48 := by
  unfold cycleUnits
  rw [slewStep_plain hslew, hfreq]
  rfl

/-- With PLL_TIME locked and no correction in force a cycle of the time domain is a nanosecond of station time. -/
theorem tick_plain (hlock : s.clk.locked.getLsbD 0 = true) (hfreq : s.time.freq = 0) (hslew : s.time.slew = 0) :
    (tick s).tt = (ttTick s).tt ∧ (tick s).time.ns = s.time.ns + 1 ∧ (tick s).time.frac = s.time.frac := by
  have hone : (s.time.frac.toNat + 2 ^ 48) / 2 ^ 48 = 1 := by
    have := s.time.frac.isLt
    omega
  have hfrac : BitVec.ofNat 48 (s.time.frac.toNat + 2 ^ 48) = s.time.frac :=
    BitVec.eq_of_toNat_eq (by have := s.time.frac.isLt; rw [BitVec.toNat_ofNat]; omega)
  have htick : tick s = marksGo (boxesGo (settleTimes (nsTick s))) := by
    refine (if_neg (by simp [hlock])).trans ?_
    dsimp only
    rw [cycleUnits_plain hfreq hslew, hone, hfrac, slewStep_plain hslew, Int.sub_zero]
    rfl
  obtain ⟨htt, hns, hfr⟩ := nsTick_time s
  obtain ⟨hgtt, hgtime⟩ := (boxesGo_sameTime (settleTimes (nsTick s))).trans (marksGo_sameTime _)
  rw [htick, hgtt, hgtime]
  exact ⟨htt, hns, hfr⟩

/-! ## Settling O2 -/

theorem causeOf_eq_none : ∀ {l : List Hold}, causeOf l = none → l = []
  | [], _ => rfl

/-- Outside a step TT stays. -/
theorem ttTick_outside (h : s.tt.inStep = false) : ttTick s = s := if_pos (by simp [h])

/-- In a step with no hold stopping it TT advances, up to the end count (R26, R41). -/
theorem ttTick_advances (hs : s.tt.inStep = true) (hd : s.tt.draining = false) (hstop : s.stopping = [])
    (hlt : s.tt.tt.toNat < s.tt.endCount) : (ttTick s).tt.tt = s.tt.tt + 1 := by
  simp [ttTick, hs, hd, hstop, causeOf, hlt]

/-- In a step that a hold stops TT stands, and the nanosecond counts as standing time (R32, R34). -/
theorem ttTick_stands (hs : s.tt.inStep = true) (hd : s.tt.draining = false) (hstop : s.stopping ≠ []) :
    (ttTick s).tt.tt = s.tt.tt ∧ (ttTick s).tt.stepHoldNs = s.tt.stepHoldNs + 1 := by
  cases hc : causeOf s.stopping with
  | none => exact absurd (causeOf_eq_none hc) hstop
  | some c => simp [ttTick, hs, hd, hc]

/-- Settles O2: the step is the cycle, and with no correction in force the cycle is one nanosecond. -/
theorem emptyQueueTicks : Obligations.EmptyQueueTicks := by
  unfold Obligations.EmptyQueueTicks
  intro s hq
  refine ⟨step_idle hq, fun hl => if_pos (by rw [hl]; rfl), fun hl hfreq hslew hs => ?outside, fun hl hfreq hslew hs hd => ?inStep⟩
  case outside =>
    obtain ⟨htt, hns, hfrac⟩ := tick_plain hl hfreq hslew
    exact ⟨hns, hfrac, htt.trans (congrArg State.tt (ttTick_outside hs))⟩
  case inStep =>
    rw [(tick_plain hl hfreq hslew).1]
    exact ⟨ttTick_advances hs hd, ttTick_stands hs hd⟩

end Sys2Proof.Machine
end

section
/-!
# Floating-point words and the lanes of the vector unit (R108 to R115)

A word of a format is its sign, its exponent and its mantissa (`Fmt.fields`). A number that some word holds is encoded as that word,
whatever mantissa and exponent it comes with (`encode_of_decode`): rounding takes the exponent of the word's own decoding, and no bit is
dropped. Every lane that delivers an operand unchanged, and the round trip itself, rest on that.
-/

namespace Sys2Proof.Machine

/-! ## The fields of a word -/

theorem bit_bitAt (w i : Nat) : bit (bitAt w i) = w / 2 ^ i % 2 := by
  unfold bitAt
  rcases Nat.mod_two_eq_zero_or_one (w / 2 ^ i) with h | h <;> rw [h] <;> rfl

/-- A word is its sign, its exponent and its mantissa. -/
theorem Fmt.fields {f : Fmt} {w : Nat} (hw : w < 2 ^ f.width) :
    bit (bitAt w (f.ebits + f.mbits)) * 2 ^ (f.ebits + f.mbits) + w / 2 ^ f.mbits % 2 ^ f.ebits * 2 ^ f.mbits + w % 2 ^ f.mbits = w := by
  have htop : w / 2 ^ (f.ebits + f.mbits) < 2 := by
    rw [Nat.div_lt_iff_lt_mul (by positivity), ← Nat.pow_succ']
    convert hw using 2
    unfold Fmt.width
    omega
  have hsplit : w / 2 ^ f.mbits / 2 ^ f.ebits = w / 2 ^ (f.ebits + f.mbits) := by
    rw [Nat.div_div_eq_div_mul, ← Nat.pow_add, Nat.add_comm]
  have hmant := Nat.div_add_mod w (2 ^ f.mbits)
  have hexp := Nat.div_add_mod (w / 2 ^ f.mbits) (2 ^ f.ebits)
  rw [bit_bitAt, Nat.mod_eq_of_lt htop, ← hsplit, Nat.pow_add]
  calc _ = (2 ^ f.ebits * (w / 2 ^ f.mbits / 2 ^ f.ebits) + w / 2 ^ f.mbits % 2 ^ f.ebits) * 2 ^ f.mbits + w % 2 ^ f.mbits := by ring
    _ = 2 ^ f.mbits * (w / 2 ^ f.mbits) + w % 2 ^ f.mbits := by rw [hexp, Nat.mul_comm]
    _ = w := hmant

/-- What a word that decodes to a number looks like: a subnormal, or a normal number with its exponent field `x`. -/
theorem Fmt.decode_fin {f : Fmt} {w n : Nat} {neg : Bool} {g : Int} (hw : w < 2 ^ f.width) (h : f.decode w = .fin neg n g) :
    (n < 2 ^ f.mbits ∧ g = 1 - (f.bias : Int) - f.mbits ∧ w = bit neg * 2 ^ (f.ebits + f.mbits) + n) ∨
    ∃ x : Nat, 1 ≤ x ∧ x + 1 < 2 ^ f.ebits ∧ 2 ^ f.mbits ≤ n ∧ n < 2 ^ (f.mbits + 1) ∧ g = (x : Int) - f.bias - f.mbits ∧
      w = bit neg * 2 ^ (f.ebits + f.mbits) + x * 2 ^ f.mbits + (n - 2 ^ f.mbits) := by
  have hfields := Fmt.fields hw
  have hmant : w % 2 ^ f.mbits < 2 ^ f.mbits := Nat.mod_lt _ (by positivity)
  have hexp : w / 2 ^ f.mbits % 2 ^ f.ebits < 2 ^ f.ebits := Nat.mod_lt _ (by positivity)
  unfold Fmt.decode at h
  dsimp only at h
  split at h
  · split at h <;> cases h
  next htop =>
    split at h
    next hzero =>
      cases h
      refine .inl ⟨hmant, rfl, ?_⟩
      rw [hzero, Nat.zero_mul, Nat.add_zero] at hfields
      exact hfields.symm
    next hpos =>
      cases h
      refine .inr ⟨w / 2 ^ f.mbits % 2 ^ f.ebits, by omega, by omega, by omega, by rw [Nat.pow_succ]; omega, rfl, ?_⟩
      rw [Nat.add_sub_cancel_left]
      exact hfields.symm

/-- An infinity is the word with the highest exponent and no mantissa. -/
theorem Fmt.decode_inf {f : Fmt} {w : Nat} {neg : Bool} (hw : w < 2 ^ f.width) (h : f.decode w = .inf neg) :
    f.infinity neg = w := by
  have hfields := Fmt.fields hw
  unfold Fmt.decode at h
  dsimp only at h
  split at h
  next htop =>
    split at h
    next hzero =>
      cases h
      rw [htop, hzero] at hfields
      exact hfields
    next => cases h
  next => split at h <;> cases h

/-! ## Rounding of a number that needs none -/

/-- The position of the highest bit. -/
theorem log2_eq {m k : Nat} (h : 2 ^ k ≤ m) (h' : m < 2 ^ (k + 1)) : Nat.log2 m = k := by
  rw [Nat.log2_eq_log_two]
  exact Nat.log_eq_of_pow_le_of_lt_pow h h'

theorem log2_mul_pow {m r : Nat} (hm : m ≠ 0) : Nat.log2 (m * 2 ^ r) = Nat.log2 m + r := by
  rw [Nat.log2_eq_log_two, Nat.log2_eq_log_two]
  induction r with
  | zero => simp
  | succ r ih =>
    rw [Nat.pow_succ, ← Nat.mul_assoc, Nat.log_mul_base (by decide) (by positivity), ih, Nat.add_assoc]

/-- Two names of one number: `m · 2^e = n · 2^g`. -/
def SameValue (m : Nat) (e : Int) (n : Nat) (g : Int) : Prop := m * 2 ^ (e - min e g).toNat = n * 2 ^ (g - min e g).toNat

/-- Equal numbers have their highest bit at the same place. -/
theorem SameValue.floorLog {m n : Nat} {e g : Int} (h : SameValue m e n g) (hm : m ≠ 0) (hn : n ≠ 0) : floorLog m e = floorLog n g := by
  have hlog := congrArg Nat.log2 h
  rw [log2_mul_pow hm, log2_mul_pow hn] at hlog
  unfold Machine.floorLog
  omega

/-- A multiple of a power of two is divided by it exactly. -/
theorem rne_mul_pow (n r : Nat) : rne (n * 2 ^ r) r = n := by
  unfold rne
  split
  next h => rw [h, Nat.pow_zero, Nat.mul_one]
  next h =>
    have hpos : 0 < 2 ^ (r - 1) := by positivity
    simp only [Nat.mul_mod_left, Nat.mul_div_cancel _ (show 0 < 2 ^ r by positivity)]
    rw [if_neg]
    simp
    omega

/-- A number brought to the exponent of another name of it is that name's mantissa. -/
theorem SameValue.rneAt {m n : Nat} {e g : Int} (h : SameValue m e n g) : rneAt m e g = n := by
  unfold Machine.rneAt
  unfold SameValue at h
  split
  next hle => simpa [min_eq_right hle] using h
  next hlt =>
    rw [min_eq_left (by omega)] at h
    have hm : m = n * 2 ^ (g - e).toNat := by simpa using h
    rw [hm, rne_mul_pow]

/-- A number that a word holds is encoded as that word, and overflows nothing (R108). -/
theorem Fmt.encode_of_decode {f : Fmt} {w m n : Nat} {neg : Bool} {e g : Int} (hw : w < 2 ^ f.width) (hd : f.decode w = .fin neg n g)
    (hv : SameValue m e n g) : f.encode (.fin neg m e) = (w, false) := by
  have hform := Fmt.decode_fin hw hd
  rw [Fmt.encode]
  split
  next hm =>
    have hn : n = 0 := by
      unfold SameValue at hv
      rw [hm, Nat.zero_mul] at hv
      have := Nat.mul_eq_zero.1 hv.symm
      have : (2 : Nat) ^ (g - min e g).toNat ≠ 0 := by positivity
      tauto
    rcases hform with ⟨-, -, hword⟩ | ⟨x, -, -, hlow, -⟩
    · rw [hword, hn, Nat.add_zero]
    · have : 0 < 2 ^ f.mbits := by positivity
      omega
  next hm =>
    have hn : n ≠ 0 := by
      intro hn
      unfold SameValue at hv
      rw [hn, Nat.zero_mul] at hv
      have := Nat.mul_eq_zero.1 hv
      have : (2 : Nat) ^ (e - min e g).toNat ≠ 0 := by positivity
      tauto
    have hlog := hv.floorLog hm hn
    have hround : roundBits (f.mbits + 1) (1 - (f.bias : Int) - f.mbits) m e = (n, g) := by
      have hq : max (floorLog m e - (((f.mbits + 1 : Nat) : Int) - 1)) (1 - (f.bias : Int) - f.mbits) = g := by
        rw [hlog]
        unfold floorLog
        rcases hform with ⟨hlt, hg, -⟩ | ⟨x, hx, -, hlow, hhigh, hg, -⟩
        · have : Nat.log2 n < f.mbits := (Nat.log2_lt hn).2 hlt
          omega
        · have := log2_eq hlow hhigh
          omega
      unfold roundBits
      dsimp only
      rw [hq, hv.rneAt]
    rw [hround]
    dsimp only
    unfold Fmt.pack
    rcases hform with ⟨hlt, hg, hword⟩ | ⟨x, hx, htop, hlow, hhigh, hg, hword⟩
    · dsimp only
      rw [if_pos hlt, hword]
    · dsimp only
      have hlow' : ¬ n < 2 ^ f.mbits := by omega
      have hhigh' : ¬ 2 ^ (f.mbits + 1) ≤ n := by omega
      simp only [if_neg hlow', if_neg hhigh']
      have hxe : g + f.mbits + f.bias = x := by omega
      have htop' : ((x : Int) + 1 < 2 ^ f.ebits) := by exact_mod_cast htop
      rw [hxe, if_neg (by omega), if_neg (by omega), hword]
      simp

/-- A word that is not a NaN is encoded as it was decoded (R108). -/
theorem Fmt.encode_decode {f : Fmt} {w : Nat} (hw : w < 2 ^ f.width) (h : (f.decode w).isNan = false) :
    f.encode (f.decode w) = (w, false) := by
  cases hd : f.decode w with
  | nan => rw [hd] at h; cases h
  | inf neg => rw [Fmt.encode, Fmt.decode_inf hw hd]
  | fin neg m e => exact Fmt.encode_of_decode hw hd rfl

/-- Settles O27: decoding splits a word into its fields, and encoding puts them together. -/
theorem formatsRoundTrip : Obligations.FormatsRoundTrip := by
  unfold Obligations.FormatsRoundTrip
  exact fun f _ w hw h => Fmt.encode_decode hw h

end Sys2Proof.Machine
end

section
/-!
# The lanes of the vector unit (R109 to R115)
-/

namespace Sys2Proof.Machine

/-- What the three formats of the vector unit have in common, as far as EXPONENT and MANTISSA need it: an exponent of the format is an
integer that the format holds exactly. -/
structure Fmt.Usual (f : Fmt) : Prop where
  bias_pos : 1 ≤ f.bias
  room : f.mbits + f.bias + 1 < 2 ^ f.ebits
  low : f.bias + f.mbits ≤ 2 ^ (f.mbits + 1)
  high : 2 ^ f.ebits ≤ 2 ^ (f.mbits + 1) + f.bias
  small : f.bias + f.mbits ≤ 2000
  narrow : 2 ^ f.ebits ≤ 2048

theorem Fmt.usual {f : Fmt} (h : f ∈ [fp32, bf16, fp16]) : f.Usual := by
  simp only [List.mem_cons, List.not_mem_nil, or_false] at h
  rcases h with rfl | rfl | rfl <;> constructor <;> decide

/-! ## Words and numbers -/

/-- The word of a normal number decodes to it. -/
theorem Fmt.decode_normal {f : Fmt} {x t : Nat} (neg : Bool) (hx : 1 ≤ x) (htop : x + 1 < 2 ^ f.ebits) (ht : t < 2 ^ f.mbits) :
    f.decode (bit neg * 2 ^ (f.ebits + f.mbits) + x * 2 ^ f.mbits + t) = .fin neg (2 ^ f.mbits + t) ((x : Int) - f.bias - f.mbits) := by
  have hM : 0 < 2 ^ f.mbits := by positivity
  have hform : bit neg * 2 ^ (f.ebits + f.mbits) + x * 2 ^ f.mbits + t = 2 ^ f.mbits * (2 ^ f.ebits * bit neg + x) + t := by
    rw [Nat.pow_add]; ring
  have hmod : (2 ^ f.mbits * (2 ^ f.ebits * bit neg + x) + t) % 2 ^ f.mbits = t := by
    rw [Nat.mul_add_mod, Nat.mod_eq_of_lt ht]
  have hdiv : (2 ^ f.mbits * (2 ^ f.ebits * bit neg + x) + t) / 2 ^ f.mbits = 2 ^ f.ebits * bit neg + x := by
    rw [Nat.mul_add_div hM, Nat.div_eq_of_lt ht, Nat.add_zero]
  have hexp : (2 ^ f.ebits * bit neg + x) % 2 ^ f.ebits = x := by
    rw [Nat.mul_add_mod, Nat.mod_eq_of_lt (by omega)]
  have hneg : bitAt (2 ^ f.mbits * (2 ^ f.ebits * bit neg + x) + t) (f.ebits + f.mbits) = neg := by
    unfold bitAt
    rw [Nat.add_comm f.ebits, Nat.pow_add, ← Nat.div_div_eq_div_mul, hdiv, Nat.mul_add_div (by positivity),
      Nat.div_eq_of_lt (by omega : x < 2 ^ f.ebits)]
    cases neg <;> rfl
  rw [hform]
  unfold Fmt.decode
  dsimp only
  rw [hmod, hdiv, hexp, hneg, if_neg (by omega), if_neg (by omega)]

/-- A number of at most the format's mantissa bits, with an exponent of the format, is a word's: encoding it overflows nothing, and
decoding that word gives the number. -/
theorem Fmt.encode_exact {f : Fmt} {m k : Nat} {e : Int} (neg : Bool) (hlow : 2 ^ k ≤ m) (hhigh : m < 2 ^ (k + 1)) (hk : k ≤ f.mbits)
    (hmin : 1 ≤ k + e + f.bias) (hmax : (k + e + f.bias) + 1 < 2 ^ f.ebits) :
    ∃ w, w < 2 ^ f.width ∧ f.encode (.fin neg m e) = (w, false) ∧ f.decode w = .fin neg (m * 2 ^ (f.mbits - k)) (e + k - f.mbits) := by
  obtain ⟨x, hx⟩ := Int.eq_ofNat_of_zero_le (show 0 ≤ k + e + f.bias by omega)
  rw [hx] at hmin hmax
  have htop : x + 1 < 2 ^ f.ebits := by exact_mod_cast hmax
  have hkM : 2 ^ k * 2 ^ (f.mbits - k) = 2 ^ f.mbits := by rw [← Nat.pow_add, Nat.add_sub_cancel' hk]
  have hmlow : 2 ^ f.mbits ≤ m * 2 ^ (f.mbits - k) := hkM ▸ Nat.mul_le_mul_right _ hlow
  have hmhigh : m * 2 ^ (f.mbits - k) < 2 ^ f.mbits + 2 ^ f.mbits := by
    calc m * 2 ^ (f.mbits - k) < 2 ^ (k + 1) * 2 ^ (f.mbits - k) := Nat.mul_lt_mul_of_pos_right hhigh (by positivity)
      _ = 2 ^ f.mbits + 2 ^ f.mbits := by rw [Nat.pow_succ, Nat.mul_right_comm, hkM, Nat.mul_two]
  have hdec := Fmt.decode_normal (f := f) (t := m * 2 ^ (f.mbits - k) - 2 ^ f.mbits) neg (by omega) htop (by omega)
  rw [Nat.add_sub_cancel' hmlow, show (x : Int) - f.bias - f.mbits = e + k - f.mbits by omega] at hdec
  have hw : bit neg * 2 ^ (f.ebits + f.mbits) + x * 2 ^ f.mbits + (m * 2 ^ (f.mbits - k) - 2 ^ f.mbits) < 2 ^ f.width := by
    have hbit : bit neg ≤ 1 := by cases neg <;> decide
    have hwidth : 2 ^ f.width = 2 ^ (f.ebits + f.mbits) + 2 ^ f.ebits * 2 ^ f.mbits := by
      rw [← Nat.pow_add, Fmt.width, Nat.add_assoc, Nat.pow_add 2 1]; omega
    have hsign : bit neg * 2 ^ (f.ebits + f.mbits) ≤ 1 * 2 ^ (f.ebits + f.mbits) := Nat.mul_le_mul_right _ hbit
    have hexp : (x + 1) * 2 ^ f.mbits ≤ 2 ^ f.ebits * 2 ^ f.mbits := Nat.mul_le_mul_right _ htop.le
    rw [Nat.add_mul] at hexp
    omega
  refine ⟨_, hw, Fmt.encode_of_decode hw hdec ?_, hdec⟩
  unfold SameValue
  rw [min_eq_right (by omega), show e - (e + k - f.mbits) = ((f.mbits - k : Nat) : Int) by omega]
  simp

/-- Only a word's own bits count. -/
theorem Fmt.decode_mod (f : Fmt) (w : Nat) : f.decode (w % 2 ^ f.width) = f.decode w := by
  have hwidth : 2 ^ f.width = 2 ^ f.mbits * (2 ^ f.ebits * 2) := by
    rw [← Nat.pow_succ, ← Nat.pow_add, Fmt.width]; congr 1; omega
  have hmant : w % 2 ^ f.width % 2 ^ f.mbits = w % 2 ^ f.mbits := Nat.mod_mod_of_dvd _ ⟨_, hwidth⟩
  have hdiv : w % 2 ^ f.width / 2 ^ f.mbits = w / 2 ^ f.mbits % (2 ^ f.ebits * 2) := by
    rw [hwidth, Nat.mod_mul_right_div_self]
  have hexp : w % 2 ^ f.width / 2 ^ f.mbits % 2 ^ f.ebits = w / 2 ^ f.mbits % 2 ^ f.ebits := by
    rw [hdiv, Nat.mod_mod_of_dvd _ ⟨2, rfl⟩]
  have hneg : bitAt (w % 2 ^ f.width) (f.ebits + f.mbits) = bitAt w (f.ebits + f.mbits) := by
    unfold bitAt
    rw [Nat.add_comm f.ebits, Nat.pow_add, ← Nat.div_div_eq_div_mul, ← Nat.div_div_eq_div_mul, hdiv, Nat.mod_mul_right_div_self,
      Nat.mod_mod]
  unfold Fmt.decode
  dsimp only
  rw [hmant, hexp, hneg]

/-- How wide the mantissa of a format's number is, and between what its exponent lies. -/
theorem Fmt.decode_range {f : Fmt} {w m k : Nat} {neg : Bool} {e : Int} (hf : f.Usual) (hd : f.decode w = .fin neg m e)
    (hlow : 2 ^ k ≤ m) (hhigh : m < 2 ^ (k + 1)) :
    k ≤ f.mbits ∧ 1 ≤ k + e + f.bias + f.mbits ∧ k + e + f.bias + 1 < 2 ^ f.ebits := by
  obtain ⟨hbias, hroom, -, -, -, -⟩ := hf
  have hroom' : (f.mbits : Int) + f.bias + 1 < 2 ^ f.ebits := by exact_mod_cast hroom
  rw [← Fmt.decode_mod] at hd
  rcases Fmt.decode_fin (Nat.mod_lt _ (by positivity)) hd with ⟨hlt, hg, -⟩ | ⟨x, hx, htop, hmin, hmax, hg, -⟩
  · have : k < f.mbits := (Nat.pow_lt_pow_iff_right (by decide)).1 (hlow.trans_lt hlt)
    omega
  · have : k = f.mbits := (log2_eq hlow hhigh).symm.trans (log2_eq hmin hmax)
    have htop' : (x : Int) + 1 < 2 ^ f.ebits := by exact_mod_cast htop
    omega

/-- The exponent of a format's number is an integer that the format holds. -/
theorem Fmt.decode_exponent {f : Fmt} {w m k : Nat} {neg : Bool} {e : Int} (hf : f.Usual) (hd : f.decode w = .fin neg m e)
    (hlow : 2 ^ k ≤ m) (hhigh : m < 2 ^ (k + 1)) : (k + e).natAbs < 2 ^ (f.mbits + 1) ∧ (k + e).natAbs ≤ 2047 := by
  obtain ⟨-, hmin, hmax⟩ := Fmt.decode_range hf hd hlow hhigh
  obtain ⟨-, -, hlow', hhigh', hsmall, hnarrow⟩ := hf
  have : (f.bias : Int) + f.mbits ≤ 2 ^ (f.mbits + 1) := by exact_mod_cast hlow'
  have : (2 : Int) ^ f.ebits ≤ 2 ^ (f.mbits + 1) + f.bias := by exact_mod_cast hhigh'
  have : (2 : Int) ^ f.ebits ≤ 2048 := by exact_mod_cast hnarrow
  have habs : ((k + e).natAbs : Int) < 2 ^ (f.mbits + 1) := by omega
  exact ⟨by exact_mod_cast habs, by omega⟩

/-- Zero is the word of its sign. -/
theorem Fmt.decode_zero {f : Fmt} (hf : f.Usual) (neg : Bool) :
    f.decode (bit neg * 2 ^ (f.ebits + f.mbits)) = .fin neg 0 (1 - (f.bias : Int) - f.mbits) := by
  have htop := hf.room
  have hform : bit neg * 2 ^ (f.ebits + f.mbits) = 2 ^ f.mbits * (2 ^ f.ebits * bit neg) := by
    rw [Nat.pow_add]; ring
  have hneg : bitAt (2 ^ f.mbits * (2 ^ f.ebits * bit neg)) (f.ebits + f.mbits) = neg := by
    unfold bitAt
    rw [Nat.add_comm f.ebits, Nat.pow_add, ← Nat.div_div_eq_div_mul, Nat.mul_div_cancel_left _ (by positivity),
      Nat.mul_div_cancel_left _ (by positivity)]
    cases neg <;> rfl
  rw [hform]
  unfold Fmt.decode
  dsimp only
  rw [hneg, Nat.mul_mod_right, Nat.mul_div_cancel_left _ (by positivity), Nat.mul_mod_right, if_neg (by omega), if_pos rfl]

/-- The words of the infinities. -/
theorem Fmt.decode_infinity {f : Fmt} (hf : f.Usual) (neg : Bool) : f.decode (f.infinity neg) = .inf neg := by
  have htop := hf.room
  have hform : f.infinity neg = 2 ^ f.mbits * (2 ^ f.ebits * bit neg + (2 ^ f.ebits - 1)) := by
    unfold Fmt.infinity
    rw [Nat.pow_add]; ring
  have hexp : (2 ^ f.ebits * bit neg + (2 ^ f.ebits - 1)) % 2 ^ f.ebits = 2 ^ f.ebits - 1 := by
    rw [Nat.mul_add_mod, Nat.mod_eq_of_lt (by omega)]
  have hneg : bitAt (2 ^ f.mbits * (2 ^ f.ebits * bit neg + (2 ^ f.ebits - 1))) (f.ebits + f.mbits) = neg := by
    unfold bitAt
    rw [Nat.add_comm f.ebits, Nat.pow_add, ← Nat.div_div_eq_div_mul, Nat.mul_div_cancel_left _ (by positivity),
      Nat.mul_add_div (by positivity), Nat.div_eq_of_lt (by omega : 2 ^ f.ebits - 1 < 2 ^ f.ebits)]
    cases neg <;> rfl
  rw [hform]
  unfold Fmt.decode
  dsimp only
  rw [hneg, Nat.mul_mod_right, Nat.mul_div_cancel_left _ (by positivity), hexp, if_pos rfl, if_pos rfl]

/-- A number that is not zero has its highest bit somewhere. -/
theorem exists_log2 {n : Nat} (h : n ≠ 0) : ∃ k, 2 ^ k ≤ n ∧ n < 2 ^ (k + 1) :=
  ⟨Nat.log2 n, Nat.log2_self_le h, Nat.lt_log2_self⟩

/-- A whole number of no more bits than the mantissa is encoded exactly. -/
theorem Fmt.encode_whole {f : Fmt} {n : Nat} (hf : f.Usual) (neg : Bool) (hn : n < 2 ^ (f.mbits + 1)) :
    ∃ w r g, f.encode (.fin neg n 0) = (w, false) ∧ f.decode w = .fin neg r g ∧ r * 2 ^ g.toNat = n * 2 ^ (-g).toNat := by
  by_cases hzero : n = 0
  · refine ⟨_, _, _, by rw [Fmt.encode, if_pos hzero], Fmt.decode_zero hf neg, by rw [hzero]; simp⟩
  · obtain ⟨hbias, hroom, -, -, -, -⟩ := hf
    have hroom' : (f.mbits : Int) + f.bias + 1 < 2 ^ f.ebits := by exact_mod_cast hroom
    obtain ⟨k, hlow, hhigh⟩ := exists_log2 hzero
    have hk : k < f.mbits + 1 := (Nat.pow_lt_pow_iff_right (by decide)).1 (hlow.trans_lt hn)
    obtain ⟨w, -, henc, hdec⟩ := Fmt.encode_exact (f := f) (e := 0) neg hlow hhigh (by omega) (by omega) (by omega)
    refine ⟨w, _, _, henc, hdec, ?_⟩
    rw [show (0 + k - f.mbits : Int).toNat = 0 by omega, show (-(0 + k - f.mbits : Int)).toNat = f.mbits - k by omega, Nat.pow_zero,
      Nat.mul_one]

/-! ## The lanes -/

theorem laneCalc_eq (f : Fmt) (nan : Bool) (v : Val) (inv : Bool) :
    laneCalc f nan (v, inv) = ⟨(f.encode v).1, nan, (f.encode v).2, inv⟩ := rfl

theorem laneCalc_of_encode {f : Fmt} {nan : Bool} {v : Val} {inv ovf : Bool} {w : Nat} (h : f.encode v = (w, ovf)) :
    laneCalc f nan (v, inv) = ⟨w, nan, ovf, inv⟩ := by
  rw [laneCalc_eq, h]

theorem isNan_iff {v : Val} : v.isNan = true ↔ v = .nan := by
  cases v <;> simp [Val.isNan]

/-- A NaN operand gives the canonical NaN (R109). -/
theorem laneBinary_nan {f : Fmt} {a b : Nat} (c : Nat) (h : (f.decode a).isNan = true ∨ (f.decode b).isNan = true) :
    laneAdd f [a, b] = ⟨f.nan, true, false, false⟩ ∧ laneMul f [a, b] = ⟨f.nan, true, false, false⟩ ∧
    laneMin f [a, b] = ⟨f.nan, true, false, false⟩ ∧ laneMax f [a, b] = ⟨f.nan, true, false, false⟩ ∧
    laneFma f [a, b, c] = ⟨f.nan, true, false, false⟩ := by
  have hor : ((f.decode a).isNan || (f.decode b).isNan) = true := by rcases h with h | h <;> simp [h]
  have hadd : ∀ x, vAdd .nan x = (.nan, false) := fun x => by cases x <;> rfl
  have hmul : vMul (f.decode a) (f.decode b) = (.nan, false) := by
    rcases h with h | h <;> rw [isNan_iff.1 h]
    · cases f.decode b <;> rfl
    · cases f.decode a <;> rfl
  have hsum : vAdd (f.decode a) (f.decode b) = (.nan, false) := by
    rcases h with h | h <;> rw [isNan_iff.1 h]
    · exact hadd _
    · cases f.decode a <;> rfl
  have hmin : vMin (f.decode a) (f.decode b) = .nan := if_pos hor
  have hmax : vMax (f.decode a) (f.decode b) = .nan := if_pos hor
  have hfma : vFma (f.decode a) (f.decode b) (f.decode c) = (.nan, false) := by
    unfold vFma
    rw [hmul]
    simp [hadd]
  refine ⟨?_, ?_, ?_, ?_, ?_⟩
  · show laneCalc f ((f.decode a).isNan || (f.decode b).isNan) (vAdd (f.decode a) (f.decode b)) = _
    rw [hsum, hor]; rfl
  · show laneCalc f ((f.decode a).isNan || (f.decode b).isNan) (vMul (f.decode a) (f.decode b)) = _
    rw [hmul, hor]; rfl
  · show laneCalc f ((f.decode a).isNan || (f.decode b).isNan) (vMin (f.decode a) (f.decode b), false) = _
    rw [hmin, hor]; rfl
  · show laneCalc f ((f.decode a).isNan || (f.decode b).isNan) (vMax (f.decode a) (f.decode b), false) = _
    rw [hmax, hor]; rfl
  · show laneCalc f ((f.decode a).isNan || (f.decode b).isNan || (f.decode c).isNan) (vFma (f.decode a) (f.decode b) (f.decode c)) = _
    rw [hfma, hor]; rfl

theorem laneFma_nan {f : Fmt} {a b c : Nat} (h : (f.decode c).isNan = true) (hp : (vMul (f.decode a) (f.decode b)).2 = false) :
    laneFma f [a, b, c] = ⟨f.nan, true, false, false⟩ := by
  have hadd : ∀ x, vAdd x .nan = (.nan, false) := fun x => by cases x <;> rfl
  have hfma : vFma (f.decode a) (f.decode b) (f.decode c) = (.nan, false) := by
    unfold vFma
    dsimp only
    rw [if_neg (by rw [hp]; decide), isNan_iff.1 h, hadd]
  show laneCalc f ((f.decode a).isNan || (f.decode b).isNan || (f.decode c).isNan) (vFma (f.decode a) (f.decode b) (f.decode c)) = _
  rw [hfma, h, Bool.or_true]; rfl

theorem laneCmp_mask (f : Fmt) (p a b : Nat) : (laneCmp f p [a, b]).bits = 0 ∨ (laneCmp f p [a, b]).bits = 2 ^ f.width - 1 := by
  show (if vCmp p (f.decode a) (f.decode b) then 2 ^ f.width - 1 else 0) = 0 ∨
    (if vCmp p (f.decode a) (f.decode b) then 2 ^ f.width - 1 else 0) = 2 ^ f.width - 1
  split
  · exact .inr rfl
  · exact .inl rfl

/-- Of zero, the exponent counts for nothing. -/
theorem Fmt.encode_zero (f : Fmt) (neg : Bool) (e g : Int) : f.encode (.fin neg 0 e) = f.encode (.fin neg 0 g) := rfl

/-- The exact sum, rounded once (R110). -/
theorem encode_vAdd (f : Fmt) (sa sb : Bool) (ma mb : Nat) (ea eb : Int) :
    f.encode (vAdd (.fin sa ma ea) (.fin sb mb eb)).1 =
      (let q := min ea eb
       let x := signedAt sa ma ea q + signedAt sb mb eb q
       f.encode (.fin (if x = 0 then sa && sb else decide (x < 0)) x.natAbs q)) ∧
    (vAdd (.fin sa ma ea) (.fin sb mb eb)).2 = false := by
  simp only [vAdd]
  generalize signedAt sa ma ea (min ea eb) + signedAt sb mb eb (min ea eb) = x
  split
  next h => subst h; exact ⟨rfl, rfl⟩
  next h => exact ⟨rfl, rfl⟩

theorem laneAdd_numbers {f : Fmt} {a b : Nat} {sa sb : Bool} {ma mb : Nat} {ea eb : Int} (ha : f.decode a = .fin sa ma ea)
    (hb : f.decode b = .fin sb mb eb) :
    (let q := min ea eb
     let x := signedAt sa ma ea q + signedAt sb mb eb q
     let r := f.encode (.fin (if x = 0 then sa && sb else decide (x < 0)) x.natAbs q)
     laneAdd f [a, b] = ⟨r.1, false, r.2, false⟩) := by
  obtain ⟨hval, hinv⟩ := encode_vAdd f sa sb ma mb ea eb
  show laneCalc f ((f.decode a).isNan || (f.decode b).isNan) (vAdd (f.decode a) (f.decode b)) = _
  rw [ha, hb, ← Prod.eta (vAdd _ _), laneCalc_eq, hval, hinv]
  rfl

theorem laneMul_numbers {f : Fmt} {a b : Nat} {sa sb : Bool} {ma mb : Nat} {ea eb : Int} (ha : f.decode a = .fin sa ma ea)
    (hb : f.decode b = .fin sb mb eb) :
    (let r := f.encode (.fin (sa != sb) (ma * mb) (ea + eb))
     laneMul f [a, b] = ⟨r.1, false, r.2, false⟩) := by
  show laneCalc f ((f.decode a).isNan || (f.decode b).isNan) (vMul (f.decode a) (f.decode b)) = _
  rw [ha, hb]
  rfl

theorem laneFma_numbers {f : Fmt} {a b c : Nat} {sa sb sc : Bool} {ma mb mc : Nat} {ea eb ec : Int} (ha : f.decode a = .fin sa ma ea)
    (hb : f.decode b = .fin sb mb eb) (hc : f.decode c = .fin sc mc ec) :
    (let q := min (ea + eb) ec
     let x := signedAt (sa != sb) (ma * mb) (ea + eb) q + signedAt sc mc ec q
     let r := f.encode (.fin (if x = 0 then (sa != sb) && sc else decide (x < 0)) x.natAbs q)
     laneFma f [a, b, c] = ⟨r.1, false, r.2, false⟩) := by
  obtain ⟨hval, hinv⟩ := encode_vAdd f (sa != sb) sc (ma * mb) mc (ea + eb) ec
  show laneCalc f ((f.decode a).isNan || (f.decode b).isNan || (f.decode c).isNan) (vFma (f.decode a) (f.decode b) (f.decode c)) = _
  rw [ha, hb, hc]
  show laneCalc f false ((vAdd (.fin (sa != sb) (ma * mb) (ea + eb)) (.fin sc mc ec)).1,
    (vAdd (.fin (sa != sb) (ma * mb) (ea + eb)) (.fin sc mc ec)).2) = _
  rw [laneCalc_eq, hval, hinv]

/-- ADD and MUL of an infinity with an infinity (R110). -/
theorem lane_infinities {f : Fmt} {a b : Nat} {sa sb : Bool} (ha : f.decode a = .inf sa) (hb : f.decode b = .inf sb) :
    laneAdd f [a, b] = (if sa = sb then ⟨f.infinity sa, false, false, false⟩ else ⟨f.nan, false, false, true⟩) ∧
    laneMul f [a, b] = ⟨f.infinity (sa != sb), false, false, false⟩ := by
  constructor
  · show laneCalc f ((f.decode a).isNan || (f.decode b).isNan) (vAdd (f.decode a) (f.decode b)) = _
    rw [ha, hb]
    cases sa <;> cases sb <;> rfl
  · show laneCalc f ((f.decode a).isNan || (f.decode b).isNan) (vMul (f.decode a) (f.decode b)) = _
    rw [ha, hb]
    rfl

/-- ADD and MUL of an infinity with a number, in either order (R110). -/
theorem lane_infinity {f : Fmt} {a b : Nat} {sa sb : Bool} {m : Nat} {e : Int} (ha : f.decode a = .inf sa)
    (hb : f.decode b = .fin sb m e) :
    laneAdd f [a, b] = ⟨f.infinity sa, false, false, false⟩ ∧ laneAdd f [b, a] = laneAdd f [a, b] ∧
    laneMul f [a, b] = (if m = 0 then ⟨f.nan, false, false, true⟩ else ⟨f.infinity (sa != sb), false, false, false⟩) ∧
    laneMul f [b, a] = laneMul f [a, b] := by
  have hab : laneMul f [a, b] = laneCalc f false (if m = 0 then (.nan, true) else (.inf (sa != sb), false)) := by
    show laneCalc f ((f.decode a).isNan || (f.decode b).isNan) (vMul (f.decode a) (f.decode b)) = _
    rw [ha, hb]
    rfl
  have hba : laneMul f [b, a] = laneCalc f false (if m = 0 then (.nan, true) else (.inf (sb != sa), false)) := by
    show laneCalc f ((f.decode b).isNan || (f.decode a).isNan) (vMul (f.decode b) (f.decode a)) = _
    rw [ha, hb]
    rfl
  refine ⟨?_, ?_, ?_, ?_⟩
  · show laneCalc f ((f.decode a).isNan || (f.decode b).isNan) (vAdd (f.decode a) (f.decode b)) = _
    rw [ha, hb]
    rfl
  · show laneCalc f ((f.decode b).isNan || (f.decode a).isNan) (vAdd (f.decode b) (f.decode a)) =
      laneCalc f ((f.decode a).isNan || (f.decode b).isNan) (vAdd (f.decode a) (f.decode b))
    rw [ha, hb]
    rfl
  · rw [hab]
    split <;> rfl
  · rw [hba, hab, show (sb != sa) = (sa != sb) by cases sa <;> cases sb <;> rfl]

/-- MIN and MAX deliver an operand unchanged (R111). -/
theorem laneMinMax_operand {f : Fmt} {a b : Nat} (ha : a < 2 ^ f.width) (hb : b < 2 ^ f.width) (hna : (f.decode a).isNan = false)
    (hnb : (f.decode b).isNan = false) :
    laneMin f [a, b] = ⟨if vLt true (f.decode b) (f.decode a) then b else a, false, false, false⟩ ∧
    laneMax f [a, b] = ⟨if vLt true (f.decode a) (f.decode b) then b else a, false, false, false⟩ := by
  have hor : ((f.decode a).isNan || (f.decode b).isNan) = false := by rw [hna, hnb]; rfl
  have hpick : ∀ p : Bool, f.encode (if p then f.decode b else f.decode a) = (if p then b else a, false) := by
    rintro (_ | _)
    · exact Fmt.encode_decode ha hna
    · exact Fmt.encode_decode hb hnb
  constructor
  · show laneCalc f ((f.decode a).isNan || (f.decode b).isNan) (vMin (f.decode a) (f.decode b), false) = _
    rw [vMin, hor]
    exact laneCalc_of_encode (hpick _)
  · show laneCalc f ((f.decode a).isNan || (f.decode b).isNan) (vMax (f.decode a) (f.decode b), false) = _
    rw [vMax, hor]
    exact laneCalc_of_encode (hpick _)

/-! ## SCALE, EXPONENT and MANTISSA -/

/-- A number's whole part, with its sign (R113). -/
def wholePart (neg : Bool) (m : Nat) (e : Int) : Int :=
  if neg then -((if 0 ≤ e then m * 2 ^ e.toNat else m / 2 ^ (-e).toNat : Nat) : Int)
  else ((if 0 ≤ e then m * 2 ^ e.toNat else m / 2 ^ (-e).toNat : Nat) : Int)

/-- The clamp to 12 bits does not tell a large whole part from 2^13. -/
theorem clamp_truncOf {k : Int} (hlow : -1024 ≤ k) (hhigh : k ≤ 1023) (neg : Bool) (m : Nat) (e : Int) :
    max (-2048) (min 2047 (k + truncOf (.fin neg m e))) = max (-2048) (min 2047 (k + wholePart neg m e)) := by
  unfold truncOf wholePart
  by_cases hm : m = 0
  · simp [hm]
  have hself := Nat.log2_self_le hm
  simp only [if_neg hm]
  by_cases hbig : 13 ≤ floorLog m e
  · have hlarge : 8192 ≤ (if 0 ≤ e then m * 2 ^ e.toNat else m / 2 ^ (-e).toNat) := by
      unfold floorLog at hbig
      split
      next he =>
        calc 8192 = 2 ^ 13 := rfl
          _ ≤ 2 ^ (Nat.log2 m + e.toNat) := Nat.pow_le_pow_right (by decide) (by omega)
          _ = 2 ^ Nat.log2 m * 2 ^ e.toNat := Nat.pow_add ..
          _ ≤ m * 2 ^ e.toNat := Nat.mul_le_mul_right _ hself
      next he =>
        rw [Nat.le_div_iff_mul_le (by positivity)]
        calc 8192 * 2 ^ (-e).toNat = 2 ^ (13 + (-e).toNat) := by rw [Nat.pow_add]
          _ ≤ 2 ^ Nat.log2 m := Nat.pow_le_pow_right (by decide) (by omega)
          _ ≤ m := hself
    rw [if_pos hbig]
    generalize (if 0 ≤ e then m * 2 ^ e.toNat else m / 2 ^ (-e).toNat) = t at hlarge
    cases neg <;> simp only [if_true, if_false, Bool.false_eq_true] <;> omega
  · simp only [if_neg hbig, apply_ite (Nat.cast : Nat → Int)]

theorem laneScale_eq (f : Fmt) (k : Int) (a b : Nat) :
    laneScale f k [a, b] = laneCalc f ((f.decode a).isNan || (f.decode b).isNan) (vScale k (f.decode a) (f.decode b)) := rfl

theorem laneScale_nan {f : Fmt} {k : Int} {a b : Nat} (h : (f.decode b).isNan = true) :
    (laneScale f k [a, b]).bits = f.nan ∧ (laneScale f k [a, b]).invalid = true := by
  rw [laneScale_eq, isNan_iff.1 h]
  cases f.decode a <;> exact ⟨rfl, rfl⟩

/-- Zero and infinity stay what they are (R113). -/
theorem laneScale_same {f : Fmt} {k : Int} {a b : Nat} (ha : a < 2 ^ f.width) (hb : (f.decode b).isNan = false)
    (hzero : ∀ neg m e, f.decode a = .fin neg m e → m = 0) (hna : (f.decode a).isNan = false) :
    laneScale f k [a, b] = ⟨a, false, false, false⟩ := by
  have henc := Fmt.encode_decode ha hna
  have hor : ((f.decode a).isNan || (f.decode b).isNan) = false := by rw [hna, hb]; rfl
  rw [laneScale_eq, hor]
  cases hd : f.decode a with
  | nan => rw [hd] at hna; cases hna
  | inf neg =>
    rw [hd] at henc
    cases hdb : f.decode b with
    | nan => rw [hdb] at hb; cases hb
    | inf _ => exact laneCalc_of_encode henc
    | fin _ _ _ => exact laneCalc_of_encode henc
  | fin neg m e =>
    obtain rfl := hzero neg m e hd
    rw [hd] at henc
    cases hdb : f.decode b with
    | nan => rw [hdb] at hb; cases hb
    | inf _ => exact laneCalc_of_encode henc
    | fin _ _ _ => exact laneCalc_of_encode henc

/-- SCALE of a number by a number. -/
theorem laneScale_numbers {f : Fmt} {k : Int} {a b : Nat} {sa sb : Bool} {ma mb : Nat} {ea eb : Int} (hlow : -1024 ≤ k) (hhigh : k ≤ 1023)
    (ha : f.decode a = .fin sa ma ea) (hm : ma ≠ 0) (hb : f.decode b = .fin sb mb eb) :
    laneScale f k [a, b] = laneCalc f false (.fin sa ma (ea + max (-2048) (min 2047 (k + wholePart sb mb eb))), false) := by
  rw [laneScale_eq, ha, hb]
  show laneCalc f false (.fin sa ma (if ma = 0 then ea else _), false) = _
  rw [if_neg hm, clamp_truncOf hlow hhigh]

theorem laneScale_infinity {f : Fmt} {k : Int} {a b : Nat} {sa sb : Bool} {ma : Nat} {ea : Int} (ha : f.decode a = .fin sa ma ea)
    (hm : ma ≠ 0) (hb : f.decode b = .inf sb) :
    (let r := f.encode (.fin sa ma (ea + max (-2048) (min 2047 (k + if sb then -2047 else 2047))))
     laneScale f k [a, b] = ⟨r.1, false, r.2, false⟩) := by
  rw [laneScale_eq, ha, hb]
  show laneCalc f false (.fin sa ma (if ma = 0 then ea else _), false) = _
  rw [if_neg hm]
  rfl

theorem laneExponent_eq (f : Fmt) (a : Nat) : laneExponent f [a] = laneCalc f (f.decode a).isNan (vExponent (f.decode a)) := rfl

theorem laneMantissa_eq (f : Fmt) (a : Nat) : laneMantissa f [a] = laneCalc f (f.decode a).isNan (vMantissa (f.decode a)) := rfl

/-- EXPONENT and MANTISSA of a number (R114). -/
theorem laneExponent_number {f : Fmt} {a m k : Nat} {neg : Bool} {e : Int} (hd : f.decode a = .fin neg m e)
    (hlow : 2 ^ k ≤ m) (hhigh : m < 2 ^ (k + 1)) :
    laneExponent f [a] = laneCalc f false (.fin (decide (k + e < 0)) (k + e).natAbs 0, false) ∧
    laneMantissa f [a] = laneCalc f false (.fin neg m (-(k : Int)), false) := by
  have hm : m ≠ 0 := by have : 0 < 2 ^ k := by positivity
                        omega
  rw [laneExponent_eq, laneMantissa_eq, hd, vExponent, vMantissa, if_neg hm, if_neg hm, floorLog, log2_eq hlow hhigh]
  exact ⟨rfl, rfl⟩

theorem laneExponent_zero {f : Fmt} {a : Nat} {neg : Bool} {e : Int} (hd : f.decode a = .fin neg 0 e) (ha : a < 2 ^ f.width) :
    laneExponent f [a] = ⟨f.infinity true, false, false, false⟩ ∧ laneMantissa f [a] = ⟨a, false, false, false⟩ := by
  have henc := Fmt.encode_decode ha (by rw [hd]; rfl)
  rw [laneExponent_eq, laneMantissa_eq, hd]
  rw [hd] at henc
  exact ⟨rfl, laneCalc_of_encode henc⟩

/-- SCALE puts together what EXPONENT and MANTISSA take apart (R113, R114). -/
theorem laneScale_parts {f : Fmt} {a m : Nat} {neg : Bool} {e : Int} (hf : f.Usual) (hd : f.decode a = .fin neg m e)
    (ha : a < 2 ^ f.width) : (laneScale f 0 [(laneMantissa f [a]).bits, (laneExponent f [a]).bits]).bits = a := by
  by_cases hm : m = 0
  · subst hm
    obtain ⟨hexp, hmant⟩ := laneExponent_zero hd ha
    have hinf : (f.decode (f.infinity true)).isNan = false := by rw [Fmt.decode_infinity hf]; rfl
    rw [hexp, hmant]
    exact congrArg LaneRes.bits (laneScale_same ha hinf (fun _ _ _ h => by rw [hd] at h; cases h; rfl) (by rw [hd]; rfl))
  · obtain ⟨k, hlow, hhigh⟩ := exists_log2 hm
    obtain ⟨hk, hmin, hmax⟩ := Fmt.decode_range hf hd hlow hhigh
    obtain ⟨hexp, hclamp⟩ := Fmt.decode_exponent hf hd hlow hhigh
    obtain ⟨hE, hM⟩ := laneExponent_number hd hlow hhigh
    have hroom : (f.mbits : Int) + f.bias + 1 < 2 ^ f.ebits := by exact_mod_cast hf.room
    have hbias := hf.bias_pos
    obtain ⟨x, r, g, hxenc, hxdec, hxval⟩ := Fmt.encode_whole hf (decide (k + e < 0)) hexp
    obtain ⟨y, -, hyenc, hydec⟩ := Fmt.encode_exact (f := f) (e := -(k : Int)) neg hlow hhigh hk (by omega) (by omega)
    rw [hE, hM, laneCalc_of_encode hxenc, laneCalc_of_encode hyenc]
    have hwhole : wholePart (decide (k + e < 0)) r g = k + e := by
      have habs : (if 0 ≤ g then r * 2 ^ g.toNat else r / 2 ^ (-g).toNat) = (k + e).natAbs := by
        split
        next hg => rw [hxval, show (-g).toNat = 0 by omega, Nat.pow_zero, Nat.mul_one]
        next hg =>
          rw [show g.toNat = 0 by omega, Nat.pow_zero, Nat.mul_one] at hxval
          rw [hxval, Nat.mul_div_cancel _ (by positivity)]
      unfold wholePart
      rw [habs]
      by_cases hneg : k + e < 0
      · simp only [decide_eq_true hneg, if_true]; omega
      · simp only [decide_eq_false hneg, Bool.false_eq_true, if_false]; omega
    have hpos : m * 2 ^ (f.mbits - k) ≠ 0 := by positivity
    rw [laneScale_numbers (by decide) (by decide) hydec hpos hxdec, hwhole]
    have hsame : SameValue (m * 2 ^ (f.mbits - k)) (-(k : Int) + k - f.mbits + max (-2048) (min 2047 (0 + (k + e)))) m e := by
      have hback : -(k : Int) + k - f.mbits + max (-2048) (min 2047 (0 + (k + e))) = e - ((f.mbits - k : Nat) : Int) := by omega
      rw [hback]
      unfold SameValue
      rw [min_eq_left (by omega), show (e - (e - ((f.mbits - k : Nat) : Int))).toNat = f.mbits - k by omega]
      simp
    exact congrArg Prod.fst (Fmt.encode_of_decode ha hd hsame)

/-! ## RCP and RSQRT -/

/-- An odd number that is not 1 is no factor of a power of two. -/
theorem mul_odd_ne_pow {m d k : Nat} (hd : d ≠ 0) : m * (2 * d + 1) ≠ 2 ^ k := by
  intro h
  have hodd : Nat.Coprime (2 * d + 1) (2 ^ k) := Nat.Coprime.pow_right _ (by simp [Nat.coprime_two_right])
  have := hodd.eq_one_of_dvd (h ▸ Nat.dvd_mul_left ..)
  omega

/-- A quotient with one more binary place, and every bit below it in the last place. -/
theorem quotient_digits {m r k : Nat} (hm : m ≠ 0) (hd : 2 ^ 63 ≤ 2 ^ k / m) (hr : r = 2 * (2 ^ k / m) + if 2 ^ k % m = 0 then 0 else 1) :
    2 ^ 64 ≤ r ∧ (if m * r = 2 ^ (k + 1) then r % 2 = 0 else r % 2 = 1 ∧ m * (r - 1) < 2 ^ (k + 1) ∧ 2 ^ (k + 1) < m * (r + 1)) := by
  have hdiv := Nat.div_add_mod (2 ^ k) m
  have hlt := Nat.mod_lt (2 ^ k) (Nat.pos_of_ne_zero hm)
  have hne := mul_odd_ne_pow (m := m) (d := 2 ^ k / m) (k := k + 1) (by omega)
  have hpow : 2 ^ (k + 1) = 2 ^ k * 2 := pow_succ 2 k
  rw [hpow] at hne ⊢
  generalize 2 ^ k / m = d at hd hdiv hr hne
  refine ⟨by omega, ?_⟩
  by_cases hexact : 2 ^ k % m = 0
  · obtain rfl : r = 2 * d := by rw [hr, if_pos hexact]; rfl
    have : m * (2 * d) = 2 ^ k * 2 := by rw [← hdiv, hexact]; ring
    rw [if_pos this]
    omega
  · obtain rfl : r = 2 * d + 1 := by rw [hr, if_neg hexact]
    rw [if_neg hne]
    refine ⟨by omega, ?_, ?_⟩
    · rw [Nat.add_sub_cancel, Nat.mul_left_comm]; omega
    · rw [show m * (2 * d + 1 + 1) = (m * d + m) * 2 by ring]; omega

/-- A root with one more binary place, and every bit below it in the last place. -/
theorem root_digits {n r k : Nat} (hn : n ≠ 0) (hx : 2 ^ 63 * 2 ^ 63 ≤ 2 ^ k / n)
    (hr : r = 2 * Nat.sqrt (2 ^ k / n) +
      if Nat.sqrt (2 ^ k / n) * Nat.sqrt (2 ^ k / n) = 2 ^ k / n && 2 ^ k % n = 0 then 0 else 1) :
    2 ^ 64 ≤ r ∧ (if n * (r * r) = 2 ^ (k + 2) then r % 2 = 0 else
      r % 2 = 1 ∧ n * ((r - 1) * (r - 1)) < 2 ^ (k + 2) ∧ 2 ^ (k + 2) < n * ((r + 1) * (r + 1))) := by
  have hs : 2 ^ 63 ≤ Nat.sqrt (2 ^ k / n) := Nat.le_sqrt.2 hx
  have hdiv := Nat.div_add_mod (2 ^ k) n
  have hlt := Nat.mod_lt (2 ^ k) (Nat.pos_of_ne_zero hn)
  have hroot := Nat.sqrt_le (2 ^ k / n)
  have hnext := Nat.lt_succ_sqrt (2 ^ k / n)
  generalize 2 ^ k / n = x at hs hdiv hroot hnext hr
  generalize Nat.sqrt x = s at hs hroot hnext hr
  have hlow : n * (s * s) ≤ n * x := Nat.mul_le_mul_left _ hroot
  have hhigh : n * x + n ≤ n * ((s + 1) * (s + 1)) := by
    rw [← Nat.mul_succ]; exact Nat.mul_le_mul_left _ hnext
  have hne : n * ((2 * s + 1) * (2 * s + 1)) ≠ 2 ^ (k + 2) := by
    rw [← Nat.mul_assoc]
    exact mul_odd_ne_pow (by omega)
  rw [Nat.pow_add 2 k 2] at hne ⊢
  refine ⟨by omega, ?_⟩
  by_cases hexact : s * s = x ∧ 2 ^ k % n = 0
  · obtain ⟨hsq, hmod⟩ := hexact
    obtain rfl : r = 2 * s := by rw [hr, if_pos (by simp [hsq, hmod])]; rfl
    have : n * (2 * s * (2 * s)) = 2 ^ k * 2 ^ 2 := by rw [← hdiv, hmod, ← hsq]; ring
    rw [if_pos this]
    omega
  · obtain rfl : r = 2 * s + 1 := by rw [hr, if_neg (by simpa using hexact)]
    have hbelow : n * (s * s) < 2 ^ k := by
      rcases Nat.lt_or_eq_of_le hroot with hlt' | heq
      · have := Nat.mul_lt_mul_of_pos_left hlt' (Nat.pos_of_ne_zero hn)
        omega
      · have : 2 ^ k % n ≠ 0 := fun h => hexact ⟨heq, h⟩
        omega
    rw [if_neg hne]
    refine ⟨by omega, ?_, ?_⟩
    · rw [Nat.add_sub_cancel, show n * (2 * s * (2 * s)) = n * (s * s) * 2 ^ 2 by ring]; omega
    · rw [show n * ((2 * s + 1 + 1) * (2 * s + 1 + 1)) = n * ((s + 1) * (s + 1)) * 2 ^ 2 by ring]; omega

/-- The reciprocal's digits: exact, or cut with every bit below the last in the last (R115). -/
theorem recip_digits {m : Nat} (hm : m ≠ 0) :
    2 ^ 64 ≤ (recip m).1 ∧ (if m * (recip m).1 = 2 ^ (-(recip m).2).toNat then (recip m).1 % 2 = 0 else
      (recip m).1 % 2 = 1 ∧ m * ((recip m).1 - 1) < 2 ^ (-(recip m).2).toNat ∧ 2 ^ (-(recip m).2).toNat < m * ((recip m).1 + 1)) := by
  have hlog : m < 2 ^ (Nat.log2 m + 1) := Nat.lt_log2_self
  have hd : 2 ^ 63 ≤ 2 ^ (Nat.log2 m + 64) / m := by
    rw [Nat.le_div_iff_mul_le (by omega)]
    calc 2 ^ 63 * m ≤ 2 ^ 63 * 2 ^ (Nat.log2 m + 1) := Nat.mul_le_mul_left _ hlog.le
      _ = 2 ^ (Nat.log2 m + 64) := by rw [← Nat.pow_add]; congr 1; omega
  have hexp : (-(recip m).2).toNat = Nat.log2 m + 64 + 1 := by
    show (-(-((Nat.log2 m + 64 : Nat) : Int) - 1)).toNat = _
    omega
  rw [hexp]
  exact quotient_digits hm hd rfl

/-- The root's digits. -/
theorem recipSqrt_digits {n : Nat} (hn : n ≠ 0) :
    2 ^ 64 ≤ (recipSqrt n).1 ∧ (if n * ((recipSqrt n).1 * (recipSqrt n).1) = 2 ^ (-2 * (recipSqrt n).2).toNat then (recipSqrt n).1 % 2 = 0
      else (recipSqrt n).1 % 2 = 1 ∧ n * (((recipSqrt n).1 - 1) * ((recipSqrt n).1 - 1)) < 2 ^ (-2 * (recipSqrt n).2).toNat ∧
        2 ^ (-2 * (recipSqrt n).2).toNat < n * (((recipSqrt n).1 + 1) * ((recipSqrt n).1 + 1))) := by
  have hlog : n < 2 ^ (Nat.log2 n + 1) := Nat.lt_log2_self
  have hx : 2 ^ 63 * 2 ^ 63 ≤ 2 ^ (2 * (Nat.log2 n + 64)) / n := by
    rw [Nat.le_div_iff_mul_le (by omega)]
    calc 2 ^ 63 * 2 ^ 63 * n ≤ 2 ^ 63 * 2 ^ 63 * 2 ^ (Nat.log2 n + 1) := Nat.mul_le_mul_left _ hlog.le
      _ = 2 ^ (Nat.log2 n + 127) := by rw [← Nat.pow_add, ← Nat.pow_add]; congr 1; omega
      _ ≤ 2 ^ (2 * (Nat.log2 n + 64)) := Nat.pow_le_pow_right (by decide) (by omega)
  have hexp : (-2 * (recipSqrt n).2).toNat = 2 * (Nat.log2 n + 64) + 2 := by
    show (-2 * (-((Nat.log2 n + 64 : Nat) : Int) - 1)).toNat = _
    omega
  rw [hexp]
  exact root_digits hn hx rfl

theorem laneRcp_eq (f : Fmt) (a : Nat) : laneRcp f [a] = laneEst (f.decode a).isNan (vRcp f (f.decode a)) := rfl

theorem laneRsqrt_eq (f : Fmt) (a : Nat) : laneRsqrt f [a] = laneEst (f.decode a).isNan (vRsqrt f (f.decode a)) := rfl

theorem laneRcp_number {f : Fmt} {a m : Nat} {neg : Bool} {e : Int} (hd : f.decode a = .fin neg m e) (hm : m ≠ 0) :
    laneRcp f [a] = (let y := encodeEst f neg (recip m).1 ((recip m).2 - e); ⟨y.1, false, y.2, false⟩) := by
  rw [laneRcp_eq, hd, vRcp, if_neg hm]
  rfl

theorem laneRsqrt_negative {f : Fmt} {a m : Nat} {e : Int} (hd : f.decode a = .fin true m e) (hm : m ≠ 0) :
    laneRsqrt f [a] = ⟨f.nan, false, false, true⟩ := by
  rw [laneRsqrt_eq, hd, vRsqrt, if_neg hm]
  rfl

theorem laneRsqrt_number {f : Fmt} {a m : Nat} {e : Int} (hd : f.decode a = .fin false m e) (hm : m ≠ 0) :
    ∃ (n : Nat) (g : Int), (n = m ∧ e = 2 * g ∨ n = 2 * m ∧ e = 2 * g + 1) ∧
      laneRsqrt f [a] = (let y := encodeEst f false (recipSqrt n).1 ((recipSqrt n).2 - g); ⟨y.1, false, y.2, false⟩) := by
  rw [laneRsqrt_eq, hd, vRsqrt, if_neg hm]
  by_cases he : e % 2 = 0
  · refine ⟨m, e / 2, .inl ⟨rfl, by omega⟩, ?_⟩
    simp only [if_pos he]
    rfl
  · refine ⟨2 * m, (e - 1) / 2, .inr ⟨rfl, by omega⟩, ?_⟩
    simp only [if_neg he]
    rfl

/-- Settles O26: the lanes work on decoded words, and a result that the format holds is encoded as its word. -/
theorem laneRules : Obligations.LaneRules := by
  unfold Obligations.LaneRules
  intro f hmem a b c
  have hf := Fmt.usual hmem
  refine ⟨laneBinary_nan c, laneFma_nan, ⟨rfl, rfl⟩, fun p => laneCmp_mask f p a b, rfl,
    fun _ _ _ _ _ _ hw hd hv => Fmt.encode_of_decode hw hd hv,
    fun _ _ _ _ _ _ _ _ _ ha hb => ⟨laneAdd_numbers ha hb, laneMul_numbers ha hb, laneFma_numbers ha hb⟩,
    fun _ _ ha => ⟨fun hb => lane_infinities ha hb, fun _ _ hb => lane_infinity ha hb⟩, laneMinMax_operand, ?_, ?_, ?_, ?_,
    fun _ _ _ hd ha => laneScale_parts hf hd ha, ?_, ?_, by decide⟩
  · intro k hlow hhigh
    refine ⟨laneScale_nan, laneScale_same, fun sa sb ma mb ea eb ha hm => ⟨fun hb => ?_, laneScale_infinity ha hm⟩⟩
    rw [laneScale_numbers hlow hhigh ha hm hb]
    rfl
  · intro neg m k e hd hlow hhigh
    obtain ⟨hk, hmin, hmax⟩ := Fmt.decode_range hf hd hlow hhigh
    obtain ⟨hexp, -⟩ := Fmt.decode_exponent hf hd hlow hhigh
    obtain ⟨hE, hM⟩ := laneExponent_number hd hlow hhigh
    have hroom : (f.mbits : Int) + f.bias + 1 < 2 ^ f.ebits := by exact_mod_cast hf.room
    have hbias := hf.bias_pos
    obtain ⟨x, _, _, hxenc, -, -⟩ := Fmt.encode_whole hf (decide (k + e < 0)) hexp
    obtain ⟨y, -, hyenc, -⟩ := Fmt.encode_exact (f := f) (e := -(k : Int)) neg hlow hhigh hk (by omega) (by omega)
    rw [hE, hM, laneCalc_of_encode hxenc, laneCalc_of_encode hyenc, hxenc, hyenc]
    exact ⟨rfl, rfl⟩
  · refine fun neg => ⟨fun _ hd ha => laneExponent_zero hd ha, fun hd => ?_⟩
    rw [laneExponent_eq, laneMantissa_eq, hd]
    exact ⟨rfl, rfl⟩
  · intro hnan
    rw [laneExponent_eq, laneMantissa_eq, isNan_iff.1 hnan]
    exact ⟨rfl, rfl⟩
  · intro hnan
    rw [laneRcp_eq, laneRsqrt_eq, isNan_iff.1 hnan]
    exact ⟨rfl, rfl⟩
  · refine fun neg => ⟨fun hd => ?_, fun e hd => ?_, fun m e hd hm => ⟨⟨_, _, laneRcp_number hd hm, recip_digits hm⟩, ?_, ?_⟩⟩
    · rw [laneRcp_eq, laneRsqrt_eq, hd]
      cases neg <;> exact ⟨rfl, rfl⟩
    · rw [laneRcp_eq, laneRsqrt_eq, hd]
      exact ⟨rfl, rfl⟩
    · rintro rfl
      exact laneRsqrt_negative hd hm
    · rintro rfl
      obtain ⟨n, g, hn, heq⟩ := laneRsqrt_number hd hm
      exact ⟨n, _, g, _, heq, hn, recipSqrt_digits (by omega)⟩

end Sys2Proof.Machine
end

section
/-!
# What a full reset leaves (R9, R457, R458, R462)
-/

namespace Sys2Proof.Machine

/-- With no nonvolatile write in progress there is none to abandon. -/
theorem abandonJob_none {s : State} (h : s.nv.job = none) : abandonJob s = { s with nv.job := none, nv.cmd := none, nv.deferred := [] } := by
  rw [abandonJob, h]
  simp only [h]

/-- The cause of a full reset is the first of those that hold the module (R457). -/
theorem firstCause (p : Power) (n : Nat) :
    (if p.phase == .held && !p.holders.isEmpty then p.causeFull else BitVec.ofNat 3 n) =
      if p.phase = .held ∧ p.holders ≠ [] then p.causeFull else BitVec.ofNat 3 n :=
  if_congr (by simp) rfl rfl

/-- Settles O53: a full reset starts from the reset state, and carries over only what the statement lists. -/
theorem fullResetLeaves : Obligations.FullResetLeaves := by
  unfold Obligations.FullResetLeaves
  intro src holders s h
  dsimp only
  rw [fullReset, abandonJob_none h]
  exact ⟨rfl, rfl, rfl, rfl, rfl, rfl, rfl, rfl, rfl, rfl, rfl, rfl, rfl, rfl, rfl, rfl, rfl, rfl, rfl, rfl, rfl, rfl, rfl, rfl, rfl, rfl,
    rfl, rfl, rfl, firstCause s.power (sourceCode src)⟩

end Sys2Proof.Machine
end

section
/-!
# What the writes of the system's registers do (O57)
-/

namespace Sys2Proof.Machine

variable {s : State}

/-! ## Bits, bounded tables and folds -/

/-- A bit of a register, as the model reads it. -/
theorem bitAt_toNat {n : Nat} (v : BitVec n) (i : Nat) : bitAt v.toNat i = v.getLsbD i := by
  rw [BitVec.getLsbD, Nat.testBit_eq_decide_div_mod_eq, bitAt]
  rfl

theorem vmod_vmod {α : Type} {n : Nat} (v : Vector α n) (i : Nat) (f g : α → α) : vmod (vmod v i f) i g = vmod v i (fun x => g (f x)) := by
  unfold vmod
  split <;> simp

theorem State.modPort_modPort (p : Nat) (f g : Port → Port) : (s.modPort p f).modPort p g = s.modPort p (fun q => g (f q)) := by
  unfold State.modPort
  rw [vmod_vmod]

/-- What no step of a fold changes, the fold does not change. -/
theorem foldl_same {α β γ : Type} (g : β → γ) {f : β → α → β} (h : ∀ b a, g (f b a) = g b) : ∀ (l : List α) (b : β), g (l.foldl f b) = g b
  | [], _ => rfl
  | a :: l, b => (foldl_same g h l (f b a)).trans (h b a)

/-- A fold whose every step does nothing does nothing. -/
theorem foldl_id {α β : Type} {f : β → α → β} {b : β} : ∀ {l : List α}, (∀ a ∈ l, f b a = b) → l.foldl f b = b
  | [], _ => rfl
  | a :: l, h => by
    rw [List.foldl_cons, h a (by simp)]
    exact foldl_id (fun x hx => h x (by simp [hx]))

/-! ## Time and GID -/

theorem timeSet_disciplined {v : Reg} (hrole : s.time.role ≤ 1) (hf : s.forme.state = .none) :
    timeSet v s = { s with time.ns := v, time.frac := 0, time.slew := 0 } := by
  have hnat : s.time.role.toNat ≤ 1 := hrole
  have hrole' : (s.time.role = 0 || s.time.role = 1) = true := by
    rw [Bool.or_eq_true, decide_eq_true_iff, decide_eq_true_iff]
    bv_omega
  rw [timeSet, if_pos]
  rw [hrole', hf]
  rfl

theorem timeSet_refused {v : Reg} (hf : s.forme.state ≠ .none) : timeSet v s = { s with time.setRefused := true } := by
  rw [timeSet, if_neg]
  simp [hf]

theorem fabricGidWrite_fab {v : Reg} (hl : s.loaded = false) (hv : v.getLsbD 32 = true) (hg : fld v.toNat 0 20 ≠ 0xFFFFF) :
    (fabricGidWrite v s).fab = { s.fab with gid := BitVec.ofNat 20 (fld v.toNat 0 20), gidValid := true } := by
  have hno : (s.loaded || (bitAt v.toNat 32 && decide (fld v.toNat 0 20 = 0xFFFFF))) = false := by
    rw [hl, decide_eq_false hg, Bool.and_false]; rfl
  have hvalid : bitAt v.toNat 32 = true := (bitAt_toNat v 32).trans hv
  refine (congrArg State.fab (if_neg (by rw [hno]; exact Bool.false_ne_true))).trans ?_
  rw [hvalid]
  dsimp only
  split
  · rfl
  · refine (foldl_same State.fab (fun t p => ?_) _ _).trans rfl
    split <;> rfl

/-! ## Clocks -/

theorem domainCtlWrite_legal {d : Fin 4} {v : Reg} (hsrc : fld v.toNat 0 2 ≠ 3) (hlow : 1 ≤ fld v.toNat 8 8) (hhigh : fld v.toNat 8 8 ≤ 64)
    (hd : d.val ≠ 1) : ∃ x, domainCtlWrite d v s = { s with clk.domains := s.clk.domains.set d x } ∧
      x.source = BitVec.ofNat 2 (fld v.toNat 0 2) ∧ x.div = BitVec.ofNat 8 (fld v.toNat 8 8) ∧
      x.sourceNow = s.clk.domains[d].sourceNow ∧ x.divNow = s.clk.domains[d].divNow := by
  have hmain : (decide (d.val = 1) && fld v.toNat 0 2 != s.clk.domains[d].source.toNat && s.near.channels.toList.any (fun c => c.ready)) = false := by
    simp [hd]
  have hlegal : ¬(fld v.toNat 0 2 = 3 || fld v.toNat 8 8 = 0 || 64 < fld v.toNat 8 8) = true := by simp; omega
  refine ⟨{ s.clk.domains[d] with
    source := BitVec.ofNat 2 (fld v.toNat 0 2), div := BitVec.ofNat 8 (fld v.toNat 8 8)
    ramping := s.clk.domains[d].sourceNow.toNat != fld v.toNat 0 2 || s.clk.domains[d].divNow.toNat != fld v.toNat 8 8 },
    ?_, rfl, rfl, rfl, rfl⟩
  unfold domainCtlWrite
  dsimp only
  rw [hmain]
  simp only [Bool.false_eq_true, if_false]
  rw [if_neg hlegal]

theorem sscCtlWrite_legal {j : Fin 2} {v : Reg} (h : fld v.toNat 0 4 ≤ 10) : sscCtlWrite j v s = { s with
    clk.sscDepth := s.clk.sscDepth.set j (BitVec.ofNat 4 (fld v.toNat 0 4)), clk.sscRate := s.clk.sscRate.set j (BitVec.ofNat 2 (fld v.toNat 8 2)) } := by
  rw [sscCtlWrite, if_pos h]

theorem sscCtlWrite_depth {j : Fin 2} {v : Reg} (h : 10 < fld v.toNat 0 4) : (sscCtlWrite j v s).clk.sscDepth = s.clk.sscDepth :=
  if_neg (by omega)

/-- A clock that is on and is asked off. -/
theorem clkBit_off {r k : Nat} {v : Reg} (hon : (if r = 0 then s.clk.enNear.getLsbD k else if r = 1 then s.clk.enLink.getLsbD k else s.clk.enMisc.getLsbD k) = true)
    (hoff : v.getLsbD k = false) : clkBit r v.toNat s k = if clkHeld s r k then { s with clk.refused := true } else
      if r = 0 then gateNear k { s with clk.enNear := s.clk.enNear ^^^ BitVec.ofNat 32 (2 ^ k) }
      else if r = 1 then portDownWith false k { s with clk.enLink := s.clk.enLink ^^^ BitVec.ofNat 32 (2 ^ k) }
      else if k = 2 then
        let s := { s with clk.enMisc := s.clk.enMisc ^^^ BitVec.ofNat 3 (2 ^ k), time.ppsHigh := 0, time.ppsDue := false }
        if s.power.taken.getLsbD 4 then s.setPin 4 .low else s
      else gateFar k { s with clk.enMisc := s.clk.enMisc ^^^ BitVec.ofNat 3 (2 ^ k) } := by
  unfold clkBit
  dsimp only
  rw [bitAt_toNat, hoff, hon]
  rfl

theorem clkBit_on {r k : Nat} {v : Reg} (hoff : (if r = 0 then s.clk.enNear.getLsbD k else if r = 1 then s.clk.enLink.getLsbD k else s.clk.enMisc.getLsbD k) = false)
    (hon : v.getLsbD k = true) : clkBit r v.toNat s k =
      if r = 0 then { s with clk.enNear := s.clk.enNear ^^^ BitVec.ofNat 32 (2 ^ k) }
      else if r = 1 then beginTraining k { s with clk.enLink := s.clk.enLink ^^^ BitVec.ofNat 32 (2 ^ k) }
      else if k = 2 then { s with clk.enMisc := s.clk.enMisc ^^^ BitVec.ofNat 3 (2 ^ k) }
      else farPin k { s with clk.enMisc := s.clk.enMisc ^^^ BitVec.ofNat 3 (2 ^ k) } := by
  unfold clkBit
  dsimp only
  rw [bitAt_toNat, hoff, hon]
  rfl

theorem clkBit_same {r k : Nat} {v : Reg} (h : (if r = 0 then s.clk.enNear.getLsbD k else if r = 1 then s.clk.enLink.getLsbD k else s.clk.enMisc.getLsbD k) = v.getLsbD k) :
    clkBit r v.toNat s k = s := by
  unfold clkBit
  dsimp only
  rw [bitAt_toNat, h, if_pos (beq_self_eq_true _)]

theorem clkenWrite_same {r : Nat} {v : Reg} (h : ∀ k, k < (if r = 2 then 3 else 32) →
      (if r = 0 then s.clk.enNear.getLsbD k else if r = 1 then s.clk.enLink.getLsbD k else s.clk.enMisc.getLsbD k) = v.getLsbD k) :
    clkenWrite r v s = s :=
  foldl_id fun k hk => clkBit_same (h k (List.mem_range.1 hk))

/-- The near channels' clocks that the first `n` bits of a write have dealt with, with a forme loaded: those asked on are on, those asked off
stay and say so. -/
def NearClocksKept (v : Reg) (s : State) (n : Nat) (t : State) : Prop :=
  t.loaded = true ∧ (∀ i, i < 32 → t.clk.enNear.getLsbD i = (s.clk.enNear.getLsbD i || decide (i < n) && v.getLsbD i)) ∧
  t.clk.refused = (s.clk.refused || (List.range n).any fun i => s.clk.enNear.getLsbD i && !v.getLsbD i)

theorem getLsbD_xor_pow {i n : Nat} (x : BitVec 32) (hi : i < 32) :
    (x ^^^ BitVec.ofNat 32 (2 ^ n)).getLsbD i = (x.getLsbD i ^^ decide (n = i)) := by
  rw [BitVec.getLsbD_xor, BitVec.getLsbD_ofNat, Nat.testBit_two_pow, decide_eq_true hi, Bool.true_and]

theorem NearClocksKept.clkBit {v : Reg} {n : Nat} {t : State} (hn : n < 32) (h : NearClocksKept v s n t) :
    NearClocksKept v s (n + 1) (clkBit 0 v.toNat t n) := by
  obtain ⟨hl, hbits, href⟩ := h
  have hbit : t.clk.enNear.getLsbD n = s.clk.enNear.getLsbD n := by rw [hbits n hn]; simp
  have hany : ((List.range (n + 1)).any fun i => s.clk.enNear.getLsbD i && !v.getLsbD i) =
      (((List.range n).any fun i => s.clk.enNear.getLsbD i && !v.getLsbD i) || (s.clk.enNear.getLsbD n && !v.getLsbD n)) := by
    rw [List.range_succ, List.any_append]
    simp
  have hnext : ∀ i, decide (i < n + 1) = (decide (i < n) || decide (n = i)) := fun i => by
    rw [← Bool.decide_or]; exact decide_eq_decide.2 (by omega)
  by_cases hsame : s.clk.enNear.getLsbD n = v.getLsbD n
  · rw [clkBit_same (by rw [if_pos rfl, hbit, hsame])]
    refine ⟨hl, fun i hi => ?_, ?_⟩
    · rw [hbits i hi, hnext]
      by_cases hin : n = i
      · subst hin; simp [hsame]
      · simp [hin]
    · rw [href, hany, hsame]
      simp
  · rcases hv : v.getLsbD n with _ | _
    · have hs : s.clk.enNear.getLsbD n = true := by simpa [hv] using hsame
      rw [clkBit_off (by rw [if_pos rfl, hbit, hs]) hv, if_pos (by simp [clkHeld, hl])]
      refine ⟨hl, fun i hi => ?_, ?_⟩
      · show t.clk.enNear.getLsbD i = _
        rw [hbits i hi, hnext]
        by_cases hin : n = i
        · subst hin; simp [hv]
        · simp [hin]
      · rw [hany, hs, hv]
        simp
    · have hs : s.clk.enNear.getLsbD n = false := by simpa [hv] using hsame
      rw [clkBit_on (by rw [if_pos rfl, hbit, hs]) hv, if_pos rfl]
      refine ⟨hl, fun i hi => ?_, ?_⟩
      · show (t.clk.enNear ^^^ BitVec.ofNat 32 (2 ^ n)).getLsbD i = _
        rw [getLsbD_xor_pow _ hi, hbits i hi, hnext]
        by_cases hin : n = i
        · subst hin; simp [hs, hv]
        · simp [hin]
      · show t.clk.refused = _
        rw [href, hany, hs]
        simp

theorem nearClocksKept (v : Reg) (hl : s.loaded = true) : ∀ n, n ≤ 32 →
    NearClocksKept v s n ((List.range n).foldl (clkBit 0 v.toNat) s)
  | 0, _ => ⟨hl, fun i _ => by simp, by simp⟩
  | n + 1, h => by
    rw [List.range_succ, List.foldl_append]
    exact (nearClocksKept v hl n (by omega)).clkBit (by omega)

/-- A word that is not zero has a bit that is set. -/
theorem ne_zero_eq_any (x : BitVec 32) : (x != 0) = (List.range 32).any fun i => x.getLsbD i := by
  rw [Bool.eq_iff_iff, bne_iff_ne, List.any_eq_true]
  constructor
  · intro h
    by_contra hno
    exact h (BitVec.eq_of_getLsbD_eq fun i hi => by simpa using fun hb => hno ⟨i, List.mem_range.2 hi, hb⟩)
  · rintro ⟨i, -, hb⟩ rfl
    simp at hb

theorem clkenWrite_near {v : Reg} (hl : s.loaded = true) : (clkenWrite 0 v s).clk.enNear = s.clk.enNear ||| v.setWidth 32 ∧
    (clkenWrite 0 v s).clk.refused = (s.clk.refused || s.clk.enNear &&& ~~~(v.setWidth 32) != 0) := by
  obtain ⟨-, hbits, href⟩ := nearClocksKept (s := s) v hl 32 le_rfl
  constructor
  · refine BitVec.eq_of_getLsbD_eq fun i hi => (hbits i hi).trans ?_
    simp [hi]
  · refine href.trans ?_
    rw [ne_zero_eq_any]
    congr 1
    rw [Bool.eq_iff_iff, List.any_eq_true, List.any_eq_true]
    refine exists_congr fun i => and_congr_right fun hi => ?_
    have hi' : i < 32 := List.mem_range.1 hi
    simp [hi']

theorem clkBit_nearOff {k : Nat} {v : Reg} (hon : s.clk.enNear.getLsbD k = true) (hoff : v.getLsbD k = false) :
    (s.loaded = true ∨ (s.chan k).ready = true → clkBit 0 v.toNat s k = { s with clk.refused := true }) ∧
    (s.loaded = false → (s.chan k).ready = false →
      clkBit 0 v.toNat s k = gateNear k { s with clk.enNear := s.clk.enNear ^^^ BitVec.ofNat 32 (2 ^ k) }) := by
  rw [clkBit_off (r := 0) hon hoff]
  refine ⟨fun h => if_pos ?_, fun hl hr => ?_⟩
  · rcases h with h | h <;> simp [clkHeld, h]
  · rw [if_neg (by simp [clkHeld, hl, hr]), if_pos rfl]

theorem clkBit_linkOff {k : Nat} {v : Reg} (hon : s.clk.enLink.getLsbD k = true) (hoff : v.getLsbD k = false) :
    (s.portUsed k = true → clkBit 1 v.toNat s k = { s with clk.refused := true }) ∧
    (s.portUsed k = false →
      clkBit 1 v.toNat s k = portDownWith false k { s with clk.enLink := s.clk.enLink ^^^ BitVec.ofNat 32 (2 ^ k) }) := by
  rw [clkBit_off (r := 1) hon hoff]
  exact ⟨fun h => if_pos h, fun h => if_neg (by rw [clkHeld, if_neg (by decide), if_pos rfl, h]; decide)⟩

theorem clkBit_farOff {k : Nat} {v : Reg} (hk : k < 2) (hon : s.clk.enMisc.getLsbD k = true) (hoff : v.getLsbD k = false) :
    (s.farUsed k = true → clkBit 2 v.toNat s k = { s with clk.refused := true }) ∧
    (s.farUsed k = false → clkBit 2 v.toNat s k = gateFar k { s with clk.enMisc := s.clk.enMisc ^^^ BitVec.ofNat 3 (2 ^ k) }) := by
  have hheld : clkHeld s 2 k = s.farUsed k := by simp [clkHeld, hk]
  rw [clkBit_off (r := 2) hon hoff, hheld]
  refine ⟨fun h => if_pos h, fun h => ?_⟩
  rw [h, if_neg (by decide), if_neg (by decide), if_neg (by decide), if_neg (by omega)]

/-! ## Debug mode -/

/-- What RESUME does with one unit that a breakpoint has stopped (R158). -/
def resumeUnit (s : State) : Stopped → State
  | .stream p i => s.modPress p.val (fun q => q.modStream i (fun x => if x.state == .stopped then { x with state := .running } else x))
  | .sampler => { s with smp.stopped := false }
  | .engine => s

theorem debugResume_eq {v : Reg} (hv : v.getLsbD 2 = true) (hs : s.dbg.stopped ≠ []) (he : s.dbg.stopped.contains .engine = false) :
    debugResume v s = releaseHolds (fun h => h.cause == .debug)
      (s.dbg.stopped.foldl resumeUnit { s with dbg.stopped := [], dbg.passed := s.dbg.passed ++ s.dbg.stopped }) := by
  unfold debugResume
  dsimp only
  rw [bitAt_toNat, hv, if_neg (by simp [hs]), if_neg (by rw [he]; decide)]
  rfl

theorem debugResume_nothing {v : Reg} (h : v.getLsbD 2 = false ∨ s.dbg.stopped = []) : debugResume v s = s := by
  unfold debugResume
  rw [bitAt_toNat, if_pos]
  rcases h with h | h
  · rw [h]; rfl
  · rw [h]; exact Bool.or_true _

theorem resumeUnit_dbg (s : State) (u : Stopped) : (resumeUnit s u).dbg = s.dbg := by cases u <;> rfl

theorem releaseHolds_released (p : Hold → Bool) (s : State) : ∀ h ∈ (releaseHolds p s).tt.holds, p h = true → h.resume ≠ none := by
  intro h hh hp
  obtain ⟨g, -, rfl⟩ := List.mem_map.1 hh
  by_cases hg : (p g && g.resume.isNone) = true
  · simp [hg]
  · rw [if_neg hg] at hp ⊢
    rw [hp, Bool.true_and] at hg
    exact fun h => hg (by rw [h]; rfl)

theorem Press.stream_modStream (q : Press) (i y : StreamId) (f : Stream → Stream) :
    (q.modStream i f).stream y = if i = y then f (q.stream y) else q.stream y := by
  cases i <;> cases y <;> rfl

/-- A stream that does not stand at a breakpoint. -/
def StreamGoes (p : PressId) (y : StreamId) (s : State) : Prop := ((s.press p.val).stream y).state ≠ .stopped

theorem resumeUnit_goes (p : PressId) (y : StreamId) (u : Stopped) (h : u = .stream p y ∨ StreamGoes p y s) :
    StreamGoes p y (resumeUnit s u) := by
  cases u with
  | sampler => simpa [StreamGoes, resumeUnit, State.press] using h
  | engine => simpa [StreamGoes, resumeUnit, State.press] using h
  | stream q i =>
    have hpress : ((resumeUnit s (.stream q i)).press p.val).stream y = if q = p ∧ i = y then
        (if ((s.press p.val).stream y).state == .stopped then { (s.press p.val).stream y with state := .running } else (s.press p.val).stream y)
        else (s.press p.val).stream y := by
      show (vget (vmod s.presses q.val _) p.val Press.reset).stream y = _
      by_cases hq : q = p
      · subst hq
        rw [vget_vmod_same _ _ _ _ q.isLt, Press.stream_modStream]
        simp only [true_and]
        rfl
      · rw [vget_vmod_other _ _ _ _ _ (fun he => hq (Fin.ext he)), if_neg (fun he => hq he.1)]
        rfl
    unfold StreamGoes at h ⊢
    rw [hpress]
    split
    · by_cases hstop : ((s.press p.val).stream y).state = .stopped
      · simp [hstop]
      · simp [hstop]
    next hne =>
      rcases h with h | h
      · cases h; exact absurd ⟨rfl, rfl⟩ hne
      · exact h

theorem resumed_goes (p : PressId) (y : StreamId) : ∀ (l : List Stopped) (s : State), (.stream p y ∈ l ∨ StreamGoes p y s) →
    StreamGoes p y (l.foldl resumeUnit s)
  | [], _, h => by simpa using h
  | u :: l, s, h => by
    refine resumed_goes p y l _ ?_
    rcases h with h | h
    · rcases List.mem_cons.1 h with h | h
      · exact .inr (resumeUnit_goes p y u (.inl h.symm))
      · exact .inl h
    · exact .inr (resumeUnit_goes p y u (.inr h))

theorem resumed_sampler : ∀ (l : List Stopped) (s : State), (.sampler ∈ l ∨ s.smp.stopped = false) → (l.foldl resumeUnit s).smp.stopped = false
  | [], _, h => by simpa using h
  | u :: l, s, h => by
    refine resumed_sampler l _ ?_
    cases u with
    | stream p y => simpa [resumeUnit] using h
    | sampler => exact .inr rfl
    | engine => simpa [resumeUnit] using h

/-! ## Links, option block, far tier and shared window -/

theorem linkConfigWrite_eq {k : Nat} {v : Reg} (hk : k < 32) (hon : s.clk.enLink.getLsbD k = true) :
    linkConfigWrite k v s = setEnable k (v.getLsbD 16) (s.modPort k (fun q =>
      { q with marginFloor := BitVec.ofNat 8 (fld v.toNat 8 8)
               reachCfg := if fld v.toNat 0 2 = 3 then q.reachCfg else BitVec.ofNat 2 (fld v.toNat 0 2) })) := by
  unfold linkConfigWrite
  dsimp only
  rw [if_neg (by simp [hon]), bitAt_toNat, decide_eq_false (show ¬k = 32 by omega)]
  simp only [Bool.or_false, decide_eq_true_iff]

theorem setEnable_stays {k : Nat} (h : (s.port k).enable = true) :
    setEnable k true s = s.modPort k (fun q => { q with enable := true }) := if_pos h

theorem setEnable_off {k : Nat} (hk : k < 33) (h : (s.port k).state ≠ .down) :
    setEnable k false s = portDown k (s.modPort k (fun q => { q with enable := false })) := by
  refine if_neg ?_
  rw [State.port_modPort_same _ _ _ hk]
  simpa using h

theorem linkConfigWrite_stays {k : Nat} {v : Reg} (hk : k < 32) (hon : s.clk.enLink.getLsbD k = true) (hv : v.getLsbD 16 = true)
    (he : (s.port k).enable = true) : linkConfigWrite k v s = s.modPort k (fun q => { q with
      marginFloor := BitVec.ofNat 8 (fld v.toNat 8 8), enable := true
      reachCfg := if fld v.toNat 0 2 = 3 then q.reachCfg else BitVec.ofNat 2 (fld v.toNat 0 2) }) := by
  rw [linkConfigWrite_eq hk hon, hv, setEnable_stays, State.modPort_modPort]
  rw [State.port_modPort_same _ _ _ (by omega)]
  exact he

theorem linkConfigWrite_off {k : Nat} {v : Reg} (hk : k < 32) (hon : s.clk.enLink.getLsbD k = true) (hv : v.getLsbD 16 = false)
    (hdown : (s.port k).state ≠ .down) : linkConfigWrite k v s = portDown k (s.modPort k (fun q => { q with
      marginFloor := BitVec.ofNat 8 (fld v.toNat 8 8), enable := false
      reachCfg := if fld v.toNat 0 2 = 3 then q.reachCfg else BitVec.ofNat 2 (fld v.toNat 0 2) })) := by
  rw [linkConfigWrite_eq hk hon, hv, setEnable_off (by omega), State.modPort_modPort]
  rw [State.port_modPort_same _ _ _ (by omega)]
  exact hdown

theorem optionCtlWrite_eq (v : Reg) (s : State) : optionCtlWrite v s =
    (let t : State := { s with
      fw.optionDone := s.fw.optionDone && !v.getLsbD 1, fw.optionError := s.fw.optionError && !v.getLsbD 2 }
    if !v.getLsbD 0 || s.loaded || s.nv.job.isSome then t
    else if optionOk (optionRegs s) then { t with nv.job := some .option } else { t with fw.optionError := true }) := by
  unfold optionCtlWrite
  simp only [bitAt_toNat]
  rfl

theorem farAreaWrite_meets {a k : Fin 5} {v : Reg} (hl : s.loaded = false) (hk : k ≠ a)
    (hm : areasMeet (fld v.toNat 0 32, fld v.toNat 32 32) (s.far.areaBase[k].toNat, s.far.areaSize[k].toNat) = true) :
    farAreaWrite a v s = { s with far.areaError := true } := by
  have hany : (List.finRange 5).any (fun k => k != a &&
      areasMeet (fld v.toNat 0 32, fld v.toNat 32 32) (s.far.areaBase[k].toNat, s.far.areaSize[k].toNat)) = true :=
    List.any_eq_true.2 ⟨k, List.mem_finRange k, by rw [hm, Bool.and_true]; exact bne_iff_ne.2 hk⟩
  rw [farAreaWrite, hl]
  exact if_pos hany

theorem farAreaWrite_apart {a : Fin 5} {v : Reg} (hl : s.loaded = false)
    (hm : ∀ k : Fin 5, k ≠ a → areasMeet (fld v.toNat 0 32, fld v.toNat 32 32) (s.far.areaBase[k].toNat, s.far.areaSize[k].toNat) = false) :
    farAreaWrite a v s = { s with
      far.areaBase := s.far.areaBase.set a (BitVec.ofNat 32 (fld v.toNat 0 32))
      far.areaSize := s.far.areaSize.set a (BitVec.ofNat 32 (fld v.toNat 32 32)) } := by
  have hany : (List.finRange 5).any (fun k => k != a &&
      areasMeet (fld v.toNat 0 32, fld v.toNat 32 32) (s.far.areaBase[k].toNat, s.far.areaSize[k].toNat)) = false := by
    refine List.any_eq_false.2 fun k _ => ?_
    by_cases hk : k = a
    · simp [hk]
    · rw [hm k hk]; simp
  rw [farAreaWrite, hl]
  exact if_neg (ne_true_of_eq_false hany)

theorem kclSharedWrite_refused {v : Reg} (h : (enabledSpans s).isEmpty = false) : kclSharedWrite v s = s := by
  rw [kclSharedWrite, h]
  rfl

theorem kclSharedWrite_legal {v : Reg} (h : (enabledSpans s).isEmpty = true) (hpage : fld v.toNat 0 32 % 4096 = 0)
    (hmax : fld v.toNat 0 32 ≤ 4194304) : kclSharedWrite v s = { s with kcl.sharedSize := BitVec.ofNat 32 (fld v.toNat 0 32) } := by
  rw [kclSharedWrite, h, hpage]
  exact if_neg (by simpa using hmax)

/-- Settles O57: each write is its function with the guards decided. -/
theorem systemWritesDo : Obligations.SystemWritesDo := by
  unfold Obligations.SystemWritesDo
  intro v d j a s
  refine ⟨timeSet_disciplined, timeSet_refused, fun hl => ?_, fun hl hv hg => ?_, domainCtlWrite_legal, sscCtlWrite_legal, sscCtlWrite_depth,
    clkenWrite_near, fun k _ hon hoff => clkBit_nearOff hon hoff, fun k _ hon hoff => clkBit_linkOff hon hoff,
    fun k _ hoff hon => clkBit_on (r := 1) hoff hon, fun k hk hon hoff => clkBit_farOff hk hon hoff, fun r => clkenWrite_same,
    debugResume_nothing, fun hv hs he => ?_, fun k hk hoff => ?_, fun k hk hon hv he => linkConfigWrite_stays hk hon hv he,
    fun k hk hon hv hd => linkConfigWrite_off hk hon hv hd, ⟨fun h => ?_, fun hv hl hj => ?_⟩, fun hl => ⟨if_pos hl, if_pos hl⟩,
    fun hl => ?_, fun hl ⟨k, hk, hm⟩ => farAreaWrite_meets hl hk hm, farAreaWrite_apart, kclSharedWrite_refused, kclSharedWrite_legal⟩
  · exact if_pos (by rw [hl]; rfl)
  · have hfab := fabricGidWrite_fab hl hv hg
    exact ⟨congrArg Fab.gid hfab, congrArg Fab.gidValid hfab⟩
  · rw [debugResume_eq hv hs he]
    have hdbg := foldl_same State.dbg resumeUnit_dbg s.dbg.stopped
      { s with dbg.stopped := [], dbg.passed := s.dbg.passed ++ s.dbg.stopped }
    refine ⟨congrArg Dbg.stopped hdbg, congrArg Dbg.passed hdbg, fun h hh hc => ?_, fun p y hp => ?_, fun hp => ?_⟩
    · exact releaseHolds_released _ _ h hh (by simp [hc])
    · exact resumed_goes p y _ _ (.inl hp)
    · exact resumed_sampler _ _ (.inl hp)
  · exact if_pos (by rw [hoff, decide_eq_true hk]; rfl)
  · rw [optionCtlWrite_eq]
    refine if_pos ?_
    rcases h with h | h | h
    · rw [h]; rfl
    · rw [h]; simp
    · rw [Option.isSome_iff_ne_none.2 h]; simp
  · rw [optionCtlWrite_eq, hv, hl, hj]
    exact if_neg Bool.false_ne_true
  · exact (if_neg (ne_true_of_eq_false hl)).trans (bitAt_toNat v 0)

end Sys2Proof.Machine
end

section
/-!
# What the writes of the rings and of the edition page do (O58)
-/

namespace Sys2Proof.Machine

variable {s : State}

/-! ## A write of a ring's configuration (R413 to R415) -/

/-- An enabled ring takes the clearing of ENABLE only. -/
theorem ringCfgWrite_enabled {slot lo hi : Nat} {new : RingCfg} {r : Ring} (h : r.cfg.enable = true) :
    ringCfgWrite slot lo hi new r s = some { r with cfg.enable := new.enable } := if_pos h

/-- A ring that stays disabled takes what is written. -/
theorem ringCfgWrite_disabled {slot lo hi : Nat} {new : RingCfg} {r : Ring} (h : r.cfg.enable = false) (hn : new.enable = false) :
    ringCfgWrite slot lo hi new r s = some { r with cfg := new } := by
  rw [ringCfgWrite, h, hn]
  rfl

theorem ringSpan_eq (slot : Nat) (c : RingCfg) : ringSpan slot c = (c.base.toNat * 1024, slot * 2 ^ c.size.toNat) := by
  rw [ringSpan, RingCfg.slots, Nat.mul_comm slot]

/-- A ring that is enabled with a legal size on a free span is empty. -/
theorem ringCfgWrite_legal {slot lo hi : Nat} {new : RingCfg} {r : Ring} (h : r.cfg.enable = false) (hn : new.enable = true)
    (hlo : lo ≤ new.size.toNat) (hhi : new.size.toNat ≤ hi)
    (hspan : spanFree 4096 (new.base.toNat * 1024, slot * 2 ^ new.size.toNat) s = true) :
    ringCfgWrite slot lo hi new r s = some ⟨new, 0, 0⟩ := by
  rw [ringCfgWrite, h, hn, ringSpan_eq, hspan, decide_eq_true hlo, decide_eq_true hhi]
  rfl

theorem ringCfgWrite_illegal {slot lo hi : Nat} {new : RingCfg} {r : Ring} (h : r.cfg.enable = false) (hn : new.enable = true)
    (hbad : new.size.toNat < lo ∨ hi < new.size.toNat ∨ spanFree 4096 (new.base.toNat * 1024, slot * 2 ^ new.size.toNat) s = false) :
    ringCfgWrite slot lo hi new r s = none := by
  rw [ringCfgWrite, h, hn, ringSpan_eq]
  refine (if_neg Bool.false_ne_true).trans ((if_neg (by decide)).trans (if_neg ?_))
  rcases hbad with hbad | hbad | hbad
  · simp; omega
  · simp; omega
  · rw [hbad, Bool.and_false]; decide

theorem ringCfgOf_enable (aux : Nat) (intr : Bool) (v : Reg) : (ringCfgOf aux intr v.toNat).enable = v.getLsbD 63 := bitAt_toNat v 63

/-! ## The rings' own writes -/

theorem subCfgWrite_some {i : Fin 64} {v : Reg} {r : Ring}
    (h : ringCfgWrite 64 4 12 (ringCfgOf 6 false v.toNat) s.rings.sub[i] s = some r) :
    subCfgWrite i v s = { s with rings.sub := s.rings.sub.set i r } := by rw [subCfgWrite, h]

theorem subCfgWrite_none {i : Fin 64} {v : Reg} (h : ringCfgWrite 64 4 12 (ringCfgOf 6 false v.toNat) s.rings.sub[i] s = none) :
    subCfgWrite i v s = { s with kcl.cfgError := true } := by rw [subCfgWrite, h]; rfl

theorem cplCfgWrite_some {i : Fin 64} {v : Reg} {r : Ring}
    (h : ringCfgWrite 32 4 12 (ringCfgOf 16 true v.toNat) s.rings.cpl[i] s = some r) :
    cplCfgWrite i v s = flushAll { s with rings.cpl := s.rings.cpl.set i r } := by rw [cplCfgWrite, h]

theorem cplCfgWrite_none {i : Fin 64} {v : Reg} (h : ringCfgWrite 32 4 12 (ringCfgOf 16 true v.toNat) s.rings.cpl[i] s = none) :
    cplCfgWrite i v s = { s with kcl.cfgError := true } := by rw [cplCfgWrite, h]; rfl

theorem evtCfgWrite_some {v : Reg} {r : Ring} (h : ringCfgWrite 32 6 12 (ringCfgOf 16 true v.toNat) s.rings.evt s = some r) :
    evtCfgWrite v s = { s with rings.evt := r } := by rw [evtCfgWrite, h]

theorem evtCfgWrite_none {v : Reg} (h : ringCfgWrite 32 6 12 (ringCfgOf 16 true v.toNat) s.rings.evt s = none) :
    evtCfgWrite v s = { s with kcl.cfgError := true } := by rw [evtCfgWrite, h]; rfl

/-- The output ring's write goes through but where it would close a ring that a waybill names. -/
theorem outCfgWrite_open {q : Nat} {v : Reg} (h : (outRing s q).cfg.enable = false ∨ v.getLsbD 63 = true ∨ ringNamed s q = false) :
    outCfgWrite q v s = match ringCfgWrite 32 6 20 (ringCfgOf 16 false v.toNat) (outRing s q) s with
      | some x => { s with rings.out := kset q x s.rings.out }
      | none => setCfgError s := by
  refine if_neg ?_
  rw [ringCfgOf_enable]
  rcases h with h | h | h <;> rw [h]
  · simp
  · simp
  · simp

theorem outCfgWrite_some {q : Nat} {v : Reg} {r : Ring}
    (hopen : (outRing s q).cfg.enable = false ∨ v.getLsbD 63 = true ∨ ringNamed s q = false)
    (h : ringCfgWrite 32 6 20 (ringCfgOf 16 false v.toNat) (outRing s q) s = some r) :
    outCfgWrite q v s = { s with rings.out := kset q r s.rings.out } := by rw [outCfgWrite_open hopen, h]

theorem outCfgWrite_none {q : Nat} {v : Reg} (hoff : (outRing s q).cfg.enable = false)
    (h : ringCfgWrite 32 6 20 (ringCfgOf 16 false v.toNat) (outRing s q) s = none) :
    outCfgWrite q v s = { s with kcl.cfgError := true } := by rw [outCfgWrite_open (.inl hoff), h]; rfl

/-! ## Doorbells, consumer indices and the edition page -/

theorem subDoorbell_beyond {i : Fin 64} {v : Reg}
    (h : s.rings.sub[i].cfg.slots < (fld v.toNat 0 16 + 65536 - s.rings.sub[i].consumer.toNat) % 65536) :
    subDoorbell i v s = postEvent evRingError i.val v.toNat 0 (touchWindow s) := if_pos h

theorem subDoorbell_rings {i : Fin 64} {v : Reg}
    (h : (fld v.toNat 0 16 + 65536 - s.rings.sub[i].consumer.toNat) % 65536 ≤ s.rings.sub[i].cfg.slots) :
    (subDoorbell i v s).rings.sub = s.rings.sub.set i { s.rings.sub[i] with producer := BitVec.ofNat 32 (fld v.toNat 0 16) } :=
  congrArg (fun t : State => t.rings.sub) (if_neg (by omega))

theorem outConsumerWrite_plain {q : Nat} {v : Reg} (h : s.rings.commit = none) :
    outConsumerWrite q v s = cancelGoOn { s with
      rings.out := kset q { outRing s q with consumer := BitVec.ofNat 32 (fld v.toNat 0 32) } s.rings.out } := by
  unfold outConsumerWrite
  dsimp only
  rw [h]

theorem cancelGoOn_none (h : s.eng.late = []) : cancelGoOn s = s := by
  rw [cancelGoOn, h]
  show { s with eng.late := [] } = s
  rw [← h]

theorem editionPtrWrite_enabled {v : Reg} (h : s.rings.edEnable = true) :
    editionPtrWrite v s = { s with rings.edEnable := v.getLsbD 63 } := by
  rw [← bitAt_toNat]
  exact if_pos h

theorem editionPtrWrite_disabled {v : Reg} (h : s.rings.edEnable = false) (hv : v.getLsbD 63 = false) :
    editionPtrWrite v s = { s with rings.edBase := BitVec.ofNat 22 (fld v.toNat 0 22) } := by
  unfold editionPtrWrite
  dsimp only
  rw [bitAt_toNat, h, hv]
  rfl

theorem editionPtrWrite_opens {v : Reg} (h : s.rings.edEnable = false) (hv : v.getLsbD 63 = true)  :
    editionPtrWrite v s = if !spanFree 32768 (fld v.toNat 0 22 * 1024, 32768) s then setCfgError s
      else writeEdition { s with rings.edBase := BitVec.ofNat 22 (fld v.toNat 0 22), rings.edEnable := true } := by
  unfold editionPtrWrite
  dsimp only
  rw [bitAt_toNat, h, hv]
  rfl

/-- Settles O58: a ring's write is the one decision of `ringCfgWrite`. -/
theorem ringWritesDo : Obligations.RingWritesDo := by
  unfold Obligations.RingWritesDo
  intro i q v s n
  have hn : n.enable = v.getLsbD 63 := ringCfgOf_enable 6 false v
  have hc : ∀ intr, (ringCfgOf 16 intr v.toNat).enable = v.getLsbD 63 := fun intr => ringCfgOf_enable 16 intr v
  refine ⟨fun he => ?_, fun he hv hlo hhi hs => subCfgWrite_some (ringCfgWrite_legal he (hn.trans hv) hlo hhi hs),
    fun he hv hbad => subCfgWrite_none (ringCfgWrite_illegal he (hn.trans hv) (hbad.imp_right .inl)),
    fun he hv => subCfgWrite_some (ringCfgWrite_disabled he (hn.trans hv)),
    ⟨fun he => ?_, fun he hv => cplCfgWrite_some (ringCfgWrite_disabled he ((hc true).trans hv)),
      fun he hv hlo hhi hs => cplCfgWrite_some (ringCfgWrite_legal he ((hc true).trans hv) hlo hhi hs),
      fun he hv hbad => cplCfgWrite_none (ringCfgWrite_illegal he ((hc true).trans hv) hbad),
      fun he => ?_, fun he hv => evtCfgWrite_some (ringCfgWrite_disabled he ((hc true).trans hv)),
      fun he hv hlo hhi hs => evtCfgWrite_some (ringCfgWrite_legal he ((hc true).trans hv) hlo hhi hs),
      fun he hv hbad => evtCfgWrite_none (ringCfgWrite_illegal he ((hc true).trans hv) hbad)⟩,
    ⟨fun he hopen => ?_, fun he hv => outCfgWrite_some (.inl he) (ringCfgWrite_disabled he ((hc false).trans hv)),
      fun he hv hlo hhi hs => outCfgWrite_some (.inl he) (ringCfgWrite_legal he ((hc false).trans hv) hlo hhi hs),
      fun he hv hbad => outCfgWrite_none he (ringCfgWrite_illegal he ((hc false).trans hv) hbad)⟩,
    ⟨subDoorbell_beyond, subDoorbell_rings⟩, rfl, fun he hv hnamed => if_pos ?_,
    ⟨fun hq => outConsumerWrite_plain hq, fun hq hl => (outConsumerWrite_plain hq).trans (cancelGoOn_none hl)⟩,
    editionPtrWrite_enabled, editionPtrWrite_disabled, fun he hv hs => ?_, fun he hv hs => ?_⟩
  · rw [← hn]; exact subCfgWrite_some (ringCfgWrite_enabled he)
  · rw [← hc true]; exact cplCfgWrite_some (ringCfgWrite_enabled he)
  · rw [← hc true]; exact evtCfgWrite_some (ringCfgWrite_enabled he)
  · rw [← hc false]; exact outCfgWrite_some (.inr hopen) (ringCfgWrite_enabled he)
  · rw [he, hc false, hv, hnamed]; rfl
  · rw [editionPtrWrite_opens he hv, hs]; rfl
  · rw [editionPtrWrite_opens he hv, hs]; rfl

end Sys2Proof.Machine
end

section
/-!
# ACC_CVT of a source that is no accumulator (O25)

The statement's clause for ACC_CVT asks that a row wait in the bank of SRC_A, and reads every SRC_A but 48 as bank B. The model's ACC_CVT also asks
that SRC_A itself can be read, and of a queue that is no accumulator that is an entry in that queue. A word whose SRC_A is an empty
queue, of a press that has a row released in bank B, meets every hypothesis of the clause, and its instruction waits.
-/

namespace Sys2Proof.Machine

/-- ACC_CVT of one row in FP32 from Q5 to Q63. -/
def convertQ5 : Issue := ⟨0, .v, BitVec.ofNat 128 (63 * 2 ^ 60 + 63 * 2 ^ 66 + 63 * 2 ^ 72 + 5 * 2 ^ 78 + 0x30 * 2 ^ 120), .clean, .clean⟩

/-- A released row of zeros. -/
def releasedRow : AccRow := ⟨.released, 0, .replicate 256 0, 0, 0⟩

/-- A step in which press 0 stands at that word, its Q5 empty and a row released in bank B. -/
def emptyQ5 : State :=
  { State.reset with tt.inStep := true }.modPress 0 (fun p =>
    { p with v.state := .running, v.mem := [convertQ5.word], bankB := ⟨[(5, releasedRow)], [5]⟩ })

/-- The state of press 0's V stream that an outcome leaves. -/
def vState : Out → Option StreamState
  | .next t => some (t.press 0).v.state
  | _ => none

/-- The instruction waits for an entry of Q5. -/
theorem convertQ5_waits : vState (exec (.accCvt convertQ5) emptyQ5) = some .queueWait := by decide +kernel

/-- Refutes O25: ACC_CVT of Q5, which is empty, waits, where the statement's clause has it deliver a row of bank B. -/
theorem not_vectorOpsDeliver : ¬ Obligations.VectorOpsDeliver := by
  unfold Obligations.VectorOpsDeliver
  rintro ⟨-, hacc⟩
  have h := hacc convertQ5 emptyQ5 5 releasedRow rfl (by decide +kernel) (by decide +kernel) (by decide +kernel) (by decide +kernel) rfl rfl
    (by decide +kernel) (by decide +kernel) (by decide +kernel) (by decide +kernel) (by decide +kernel) (by decide +kernel)
  have hstate := (congrArg vState h).symm.trans convertQ5_waits
  revert hstate
  decide +kernel

end Sys2Proof.Machine
end

section
/-!
# Descriptor commands: what a command whose fields are legal does (R419), and the commands that report (O13)
-/

namespace Sys2Proof.Machine

variable {s : State} {d : Descriptor}

/-! ## The frame of a command -/

theorem next_congr {t u : State} (h : t = u) : (.next t : Out) = .next u := congrArg _ h

theorem command_ok {used : List (Nat × Nat)} {run : State → State} (h : descOk d used = true) :
    command d used run s = run (cmdBegin d s) := if_pos h

theorem command_bad {used : List (Nat × Nat)} {run : State → State} (h : descOk d used = false) :
    command d used run s = finish d stBadParam 0 (cmdBegin d s) := if_neg (ne_true_of_eq_false h)

theorem commandReply_ok {used : List (Nat × Nat)} {kib : Nat} {run : State → State} (h : descOk d used = true) (hr : replyOk s d kib = true) :
    commandReply d used kib run s = run (cmdBegin d s) := (command_ok h).trans (if_pos hr)

/-! ## Commands that report -/

theorem measureBytes_cmdBegin (i : Nat) : measureBytes (cmdBegin d s) i = measureBytes s i := rfl

theorem findColophon_cmdBegin (c : List Byte) (w : Nat) : ∀ n k, findColophon (cmdBegin d s) c w n k = findColophon s c w n k
  | 0, _ => rfl
  | n + 1, k => by
    rw [findColophon, findColophon, findColophon_cmdBegin c w n]
    rfl

theorem digestBytes_length (x : Digest) : (digestBytes x).length = 32 := leBytes_length _ _

theorem sha512_length (m : List Byte) : (sha512 m).length = 64 := by
  have h : ((chunks 72 (m.length + 1) (sha3Pad 72 m)).foldl absorbBlock (List.replicate 25 0)).length = 25 :=
    foldl_length _ (fun a b ha => keccakF_length _ (by simp [ha])) _ _ (by simp)
  simp only [sha512, sha3, List.length_take, List.length_flatMap, leBytes_length, List.map_const', List.sum_replicate, h]
  rfl

/-- What a measurement reports of an image. -/
theorem imageDigest_take (img : List Byte) : ((imageDigest img).take 32).length = 32 := by
  rw [List.length_take, imageDigest, sha512_length]
  rfl

/-- Every measurement has 32 bytes of digest. -/
theorem measure_length (s : State) (i : Nat) : (measure s i).2.2.length = 32 := by
  have himage := imageDigest_take
  unfold measure
  dsimp only
  split
  · exact digestBytes_length _
  · exact himage s.fw.image
  · split
    · dsimp only; exact himage _
    · exact zeros_length 32
  · split
    · exact himage _
    · exact zeros_length _
  · exact zeros_length _
  · exact digestBytes_length _
  · exact digestBytes_length _
  · exact digestBytes_length _
  · dsimp only; exact sha256_length _
  · exact sha256_length _

theorem measureBytes_length (s : State) (i : Nat) : (measureBytes s i).length = 48 := by
  show (leBytes 1 i ++ leBytes 1 (bit (measure s i).1) ++ zeros 6 ++ leBytes 8 (measure s i).2.1 ++ (measure s i).2.2).length = 48
  simp only [List.length_append, leBytes_length, zeros_length, measure_length]

/-- What ATTEST signs (R453). -/
def attestBody (s : State) (nonce : Nat) : List Byte :=
  leBytes 4 0x54535441 ++ leBytes 2 1 ++ leBytes 1 10 ++ zeros 1 ++ leBytes 8 s.now ++ leBytes 8 s.rings.edition.toNat
    ++ leBytes 3 s.fab.gid.toNat ++ zeros 5 ++ leBytes 32 nonce ++ digestBytes edKeyId ++ digestBytes mldsaKeyId
    ++ (List.range 10).flatMap (fun i => measureBytes s (i + 1))

theorem attestBody_length (s : State) (nonce : Nat) : (attestBody s nonce).length = 608 := by
  simp only [attestBody, List.length_append, leBytes_length, zeros_length, digestBytes_length, List.length_flatMap, measureBytes_length,
    List.map_const', List.length_range, List.sum_replicate]
  rfl

theorem exec_healthRead (h : descOk d [(24, 1), (25, 1)] = true) (hn : 1 ≤ pArg d 25 1) (hsum : pArg d 24 1 + pArg d 25 1 ≤ 164)
    (hr : replyOk s d (ceilDiv (8 * pArg d 25 1) 1024) = true) :
    exec (.healthRead d) s = .next (finishReply d stDone (resAt 16 (fld s.health.alerts.toNat 0 64))
      (regBytes (cmdBegin d s) (0x60000 + 8 * pArg d 24 1) (8 * pArg d 25 1)) (cmdBegin d s)) := by
  refine next_congr ((command_ok h).trans ((if_neg ?_).trans (if_neg ?_)))
  · simp; omega
  · rw [cmdBegin_replyOk, hr]; decide

theorem exec_colophonSign (h : descOk d [(24, 34)] = true) (hr : replyOk s d 4 = true) (hdesk : s.isDesk = true) {e : List Byte}
    (he : findColophon s (leBytes 32 (pArg d 24 32)) (pArg d 56 2) (min colophonSlots s.fw.colophonNext) s.fw.colophonNext = some e) :
    let body := leBytes 4 0x48504C43 ++ leBytes 2 1 ++ leBytes 2 (pArg d 56 2) ++ sliceBytes e 40 4 ++ sliceBytes e 34 2
      ++ sliceBytes e 36 2 ++ leBytes 8 s.now ++ leBytes 3 s.fab.gid.toNat ++ zeros 5 ++ leBytes 32 (pArg d 24 32)
      ++ (measure s 2).2.2 ++ zeros 32
    exec (.colophonSign d) s = .next (finishReply d stDone 0
      (sliceBytes (body ++ edSignature body ++ mldsaSignature body) 0 4096) (cmdBegin d s)) := by
  rw [← findColophon_cmdBegin] at he
  refine next_congr ((commandReply_ok h hr).trans ((if_neg ?_).trans ?_))
  · rw [cmdBegin_isDesk, hdesk]; decide
  · show (match findColophon (cmdBegin d s) (leBytes 32 (pArg d 24 32)) (pArg d 56 2) (min colophonSlots s.fw.colophonNext) s.fw.colophonNext with
      | none => _
      | some e => _) = _
    rw [he]
    rfl

/-- Settles O13: each is its command's run on the state in which the command has begun. -/
theorem reportCommandsComplete : Obligations.ReportCommandsComplete := by
  unfold Obligations.ReportCommandsComplete
  refine ⟨fun d s h => ⟨next_congr (command_ok h), next_congr (command_ok h), fun hr => next_congr (commandReply_ok h hr)⟩,
    fun d s => ⟨fun h => next_congr (command_ok h), exec_healthRead, fun h hr => next_congr (commandReply_ok h hr),
      fun h hr => ⟨attestBody_length s _, next_congr (commandReply_ok h hr)⟩, fun h hr hdesk e he => exec_colophonSign h hr hdesk he⟩⟩

end Sys2Proof.Machine
end

section
/-!
# Debug mode, breakpoints and the operating point (O14)
-/

namespace Sys2Proof.Machine

variable {s t : State} {d : Descriptor}

/-- A posted state's operating point is the one before. -/
theorem Posted.power_changes {s t : State} (h : Posted s t) : t.power.changing = s.power.changing ∧ t.power.regions = s.power.regions ∧
    t.power.switchAt = s.power.switchAt ∧ t.power.pendingPoint = s.power.pendingPoint := by
  obtain ⟨_, _, _, _, _, _, rfl⟩ := h
  exact ⟨rfl, rfl, rfl, rfl⟩

theorem queued_loaded (d : Descriptor) (r : Nat) (s : State) : (queued d r s).loaded = s.loaded := by
  rw [State.loaded, (queued_posted d r s).forme_eq, State.loaded]

theorem exec_breakSet (h : descOk d [(24, 1), (32, 8)] = true) (hk : pArg d 24 1 ≤ 7) (hb : breakLegal (pArg d 32 8) = true) :
    exec (.breakSet d) s = .next (finish d stDone 0 (setBreak (pArg d 24 1) (pArg d 32 8) (cmdBegin d s))) := by
  refine next_congr ((command_ok h).trans (if_neg ?_))
  rw [hb]
  simp; omega

theorem exec_debugEnable_idle (h : descOk d [(24, 1)] = true) (hv : pArg d 24 1 ≤ 1) (hf : s.forme.state ≠ .started) :
    exec (.debugEnable d) s = .next (if pArg d 24 1 == 1 && s.power.point != 0 then
        finish d stBadParam (resAt 16 (bit s.dbg.enabled)) (cmdBegin d s)
      else finish d stDone (resAt 16 (bit (pArg d 24 1 == 1))) { cmdBegin d s with dbg.enabled := pArg d 24 1 == 1 }) := by
  refine next_congr ((command_ok h).trans ((if_neg (by omega)).trans ((if_neg ?_).trans rfl)))
  rw [cmdBegin_forme]
  simpa using hf

/-- The state in which a change that was pending has been answered with BUSY (R286). -/
def supersedePoint (r : Nat) (s : State) : State := match s.power.pointCmd with
  | some c => finish c stBusy r { s with power.pointCmd := none }
  | none => s

theorem supersedePoint_power (r : Nat) (s : State) : (supersedePoint r s).power.changing = s.power.changing ∧
    regionsIn (supersedePoint r s) = regionsIn s ∧ (supersedePoint r s).power.switchAt = s.power.switchAt ∧
    (supersedePoint r s).power.chipState = s.power.chipState ∧ (supersedePoint r s).loaded = s.loaded := by
  unfold supersedePoint
  split
  next c _ =>
    have hp := finish_posted c stBusy r { s with power.pointCmd := none }
    obtain ⟨hc, hr, hs, -⟩ := hp.power_changes
    refine ⟨hc, ?_, hs, hp.power_chipState_eq, ?_⟩
    · rw [regionsIn, hr, regionsIn]
    · rw [State.loaded, hp.forme_eq, State.loaded]
  next => exact ⟨rfl, rfl, rfl, rfl, rfl⟩

/-- A change that is recorded, with its command QUEUED (R286). -/
def recordPoint (d : Descriptor) (r : Nat) (s : State) : State := queued d r { s with
  power.pendingPoint := some (BitVec.ofNat 2 (pArg d 24 1), BitVec.ofNat 64 (pArg d 32 8)), power.pointCmd := some d
  power.switchAt := if s.power.changing && !regionsIn s then s.power.switchAt else none
  power.pointQuiet := s.power.chipState != 0 }

theorem recordPoint_power (d : Descriptor) (r : Nat) (s : State) : (recordPoint d r s).power.changing = s.power.changing ∧
    (recordPoint d r s).power.chipState = s.power.chipState ∧ (recordPoint d r s).loaded = s.loaded := by
  have hp := queued_posted d r { s with
    power.pendingPoint := some (BitVec.ofNat 2 (pArg d 24 1), BitVec.ofNat 64 (pArg d 32 8)), power.pointCmd := some d
    power.switchAt := if s.power.changing && !regionsIn s then s.power.switchAt else none
    power.pointQuiet := s.power.chipState != 0 }
  exact ⟨hp.power_changes.1, hp.power_chipState_eq, queued_loaded _ _ _⟩

theorem exec_setOperatingPoint (h : descOk d [(24, 1), (32, 8)] = true) (hp : pArg d 24 1 ≤ 2)
    (hperm : pointPermitted s (pArg d 24 1) = true) (hdbg : s.dbg.enabled = false ∨ pArg d 24 1 = 0)
    (hstep : s.loaded = false ∨ stepPast s (pArg d 32 8) = false) :
    let r := resAt 24 s.power.point.toNat
    let t := recordPoint d r (supersedePoint r (cmdBegin d s))
    exec (.setOperatingPoint d) s = .next (if !t.loaded && t.power.chipState = 0 && !t.power.changing then beginChange t else t) := by
  refine next_congr ((command_ok h).trans ((if_neg ?_).trans ((if_neg ?_).trans rfl)))
  · have hperm' : pointPermitted (cmdBegin d s) (pArg d 24 1) = true := hperm
    rw [hperm', cmdBegin_dbg]
    rcases hdbg with hd | hd
    · rw [hd]; simp; omega
    · rw [hd]; simp
  · have hpast : stepPast (cmdBegin d s) (pArg d 32 8) = stepPast s (pArg d 32 8) := rfl
    rw [hpast, cmdBegin_loaded]
    rcases hstep with hs | hs <;> rw [hs] <;> simp

/-- Settles O14: each is its command's run with the guards decided. -/
theorem modeCommandsComplete : Obligations.ModeCommandsComplete := by
  unfold Obligations.ModeCommandsComplete
  refine ⟨fun d s => ⟨exec_breakSet, fun h => next_congr (command_ok h), fun h hv hf hp => ?_, fun h hv hf => ?_, fun h hv hf hp => ?_⟩,
    fun d s h hp hperm hdbg hstep => ?_⟩
  · rw [exec_debugEnable_idle h (by omega) hf, hv, hp]
    rfl
  · rw [exec_debugEnable_idle h (by omega) hf, hv]
    rfl
  · rw [exec_debugEnable_idle h (by omega) hf, hv, if_pos (by simpa using hp)]
  · obtain ⟨hc, hr, hs, hch, hl⟩ := supersedePoint_power (resAt 24 s.power.point.toNat) (cmdBegin d s)
    obtain ⟨hc', hch', hl'⟩ := recordPoint_power d (resAt 24 s.power.point.toNat) (supersedePoint (resAt 24 s.power.point.toNat) (cmdBegin d s))
    refine (exec_setOperatingPoint h hp hperm hdbg hstep).trans (next_congr ?_)
    dsimp only
    rw [hl', hch', hc', hl, hch, hc]
    unfold recordPoint
    rw [hc, hr, hs, hch]
    refine if_congr ?_ rfl rfl
    rw [Bool.and_eq_true, Bool.and_eq_true, Bool.not_eq_true', Bool.not_eq_true', decide_eq_true_iff, and_assoc]
    rfl

end Sys2Proof.Machine
end

section
/-!
# Firmware, warm reset and self-test commands (O15)
-/

namespace Sys2Proof.Machine

variable {s : State} {d : Descriptor}

theorem commandBlk_ok {used : List (Nat × Nat)} {blk : List Byte} {run : State → State} (h : descOk d used = true)
    (hb : hasBlock d = true) (hl : d.blockLength.toNat ≤ blk.length) : commandBlk d used blk run s = run (cmdBegin d s) := by
  refine (command_ok h).trans ((if_neg ?_).trans (if_neg (by omega)))
  rw [hb]
  decide

/-- A wake changes only power's stagger and its mark that the chip wakes. -/
theorem wakeFor_frame (s : State) : ∃ x w, wakeFor s = { s with power.stagger := x, power.waking := w } := by
  unfold wakeFor startWake
  split
  · exact ⟨_, _, rfl⟩
  · extract_lets departing
    split
    · exact ⟨_, _, rfl⟩
    · exact ⟨_, _, rfl⟩

theorem handingOver_eq_false (h : s.fw.boot ≠ .handover) : handingOver s = false := by
  simpa [handingOver] using h

theorem exec_fwStage {blk : List Byte} (h : descOk d [] = true) (hb : hasBlock d = true) (hl : d.blockLength.toNat ≤ blk.length)
    (hp : s.fw.handoverPending = false) (hboot : s.fw.boot ≠ .handover) (hsize : (blk.take d.blockLength.toNat).length ≤ 4 * 2 ^ 20)
    (hv : verifyImage s.nv.rollback (blk.take d.blockLength.toNat) = 0) :
    exec (.fwStage d blk) s = .next (finish d stDone (resAt 16 (imgRelease (blk.take d.blockLength.toNat)))
      (putImageSlot (!s.fw.runningSlot) (blk.take d.blockLength.toNat)
        { cmdBegin d s with
          fw.staged := some (blk.take d.blockLength.toNat), fw.stagedSlot := !s.fw.runningSlot, fw.runningIsStaged := false })) := by
  refine next_congr ((commandBlk_ok h hb hl).trans ((if_neg ?_).trans (if_neg ?_)))
  · rw [cmdBegin_fw, hp, handingOver_eq_false (s := cmdBegin d s) hboot]
    decide
  · rw [cmdBegin_nv, hv, decide_eq_false (by omega)]
    decide

theorem exec_fwHandover {img : List Byte} (h : descOk d [] = true) (hs : s.fw.staged = some img)
    (hmin : imgRecordMin img ≤ imgRecordMax s.fw.image) (hmax : imgRecordMax s.fw.image ≤ imgRecordMax img)
    (habi : s.loaded = false ∨ imgAbi img = imgAbi s.fw.image) (hp : s.fw.handoverPending = false) (hboot : s.fw.boot ≠ .handover) :
    let t : State := queued d 0 { cmdBegin d s with fw.handoverCmd := some d }
    exec (.fwHandover d) s = .next (if t.forme.state = .started then { t with fw.handoverPending := true } else beginHandover t) := by
  refine next_congr ((command_ok h).trans ?_)
  rw [cmdBegin_fw, hs]
  refine (if_neg ?_).trans ((if_neg ?_).trans ((if_neg ?_).trans (if_congr ?_ rfl rfl)))
  · simp; omega
  · rw [cmdBegin_loaded]
    rcases habi with ha | ha
    · rw [ha]; simp
    · rw [ha]; simp
  · rw [hp, handingOver_eq_false (s := cmdBegin d s) hboot]
    decide
  · simp

theorem exec_fwHandover_none (h : descOk d [] = true) (hs : s.fw.staged = none) :
    exec (.fwHandover d) s = .next (finish d stBadParam 0 (cmdBegin d s)) := by
  refine next_congr ((command_ok h).trans ?_)
  rw [cmdBegin_fw, hs]

theorem exec_fwFlashWrite (h : descOk d [] = true) (hr : s.fw.runningIsStaged = true) (hf : s.forme.state ≠ .started)
    (hboot : s.fw.boot ≠ .handover) (hj : s.nv.job = none) :
    exec (.fwFlashWrite d) s = .next { cmdBegin d s with
      nv.job := some (.erase (List.range (imageSectors s.fw.image))), nv.cmd := some d } := by
  refine next_congr ((command_ok h).trans ((if_neg ?_).trans ((if_neg ?_).trans (if_neg ?_))))
  · rw [handingOver_eq_false (s := cmdBegin d s) hboot]; decide
  · rw [cmdBegin_fw, hr]; decide
  · rw [cmdBegin_nv, hj, cmdBegin_forme]
    simpa using hf

/-! ## SELF_TEST -/

theorem exec_selfTest {parts : List Nat} (h : descOk d [(24, 1), (32, 16)] = true)
    (hs : scopeParts (pArg d 24 1) (pArg d 32 16) = some parts) (hne : parts ≠ []) (hl : pArg d 24 1 = 2 → s.loaded = false)
    (hopen : ∀ i ∈ parts, (vget s.health.test i SelfTest.reset).state ≠ 1 ∧ (vget s.health.test i SelfTest.reset).state ≠ 2) :
    let waits := parts.any (fun i => s.partUsed i) || s.power.braking
    let u := if pArg d 24 1 = 0 ∨ pArg d 24 1 = 4 then wakeFor (cmdBegin d s) else cmdBegin d s
    let t : State := { u with
      health.test := s.health.test.mapIdx (fun i x =>
        if parts.contains i then ⟨0, 0, if (s.partUsed i && !s.testsFree) || s.power.braking then 1 else 2⟩ else x)
      health.jobs := s.health.jobs ++ [⟨d, parts, [], [], waits⟩] }
    exec (.selfTest d) s = .next (if waits then queued d 0 (testStand parts t) else testStand parts t) := by
  obtain ⟨x, w, hu⟩ : ∃ x w, (if pArg d 24 1 = 0 ∨ pArg d 24 1 = 4 then wakeFor (cmdBegin d s) else cmdBegin d s) =
      { cmdBegin d s with power.stagger := x, power.waking := w } := by
    split
    · exact wakeFor_frame _
    · exact ⟨_, _, rfl⟩
  have hany : parts.any (fun i => (vget s.health.test i SelfTest.reset).state == 1 || s.underTest i) = false := by
    refine List.any_eq_false.2 fun i hi => ?_
    obtain ⟨h1, h2⟩ := hopen i hi
    rw [State.underTest, beq_false_of_ne h1, beq_false_of_ne h2]
    decide
  refine next_congr ((command_ok h).trans ?_)
  rw [hs]
  refine (if_neg ?_).trans ((if_neg (ne_true_of_eq_false hany)).trans ?_)
  · rw [cmdBegin_loaded]
    intro hc
    obtain ⟨hc, hl'⟩ := Bool.and_eq_true_iff.1 hc
    rw [hl (of_decide_eq_true hc)] at hl'
    cases hl'
  · rw [List.isEmpty_eq_false_iff.2 hne, if_neg Bool.false_ne_true]
    have hcond : (decide (pArg d 24 1 = 0) || decide (pArg d 24 1 = 4)) = decide (pArg d 24 1 = 0 ∨ pArg d 24 1 = 4) := by
      simp
    rw [hcond]
    simp only [decide_eq_true_iff]
    rw [hu]
    rfl

/-- Settles O15: each is its command's run with the guards decided. -/
theorem firmwareCommandsComplete : Obligations.FirmwareCommandsComplete := by
  unfold Obligations.FirmwareCommandsComplete
  exact ⟨fun d s h => ⟨fun blk => exec_fwStage h, fun img => exec_fwHandover h, exec_fwHandover_none h, exec_fwFlashWrite h,
    next_congr (command_ok h)⟩, fun d s parts => exec_selfTest⟩

end Sys2Proof.Machine
end

section
/-!
# Loading, imposing, starting, stopping and unloading a forme (O16, O17)
-/

namespace Sys2Proof.Machine

variable {s : State} {d : Descriptor}

/-- A forme or weight command with legal fields, no earlier one of which runs. -/
theorem formeCommandIf_ok {ok : Bool} {used : List (Nat × Nat)} {run : State → State} (hok : ok = true) (h : descOk d used = true)
    (he : earlierRuns d s = false) : formeCommandIf ok d used run s = run (cmdBegin d s) := by
  refine (if_neg ?_).trans (if_neg (ne_true_of_eq_false he))
  rw [hok, h]
  decide

theorem formeCommand_ok {used : List (Nat × Nat)} {run : State → State} (h : descOk d used = true)
    (he : earlierRuns d s = false) : formeCommand d used run s = run (cmdBegin d s) := formeCommandIf_ok rfl h he

theorem not_of_eq_true {b : Bool} (h : b = true) : ¬(!b) = true := by rw [h]; decide

theorem not_bne_of_eq {α : Type} [BEq α] [LawfulBEq α] {a b : α} (h : a = b) : ¬(a != b) = true := by simp [h]

theorem loaded_eq_false (h : s.forme.state = .none) : s.loaded = false := by rw [State.loaded, h]; rfl

theorem exec_formeLoad {parts : FormeParts} {f : Forme} {k : Nat} {pl : Placement} :
    let c := pArg d 24 4
    let desk := parts.forme.serving.desk == c
    descOk d [(24, 4), (28, 1)] = true → pArg d 28 1 < 2 → hasBlock d = true → 48 ≤ d.blockLength.toNat →
    earlierRuns d s = false → s.forme.state = .none → s.fab.gidValid = true →
    c < leAt parts.index 12 4 → indexOk parts.index = true → leAt parts.index 8 4 = s.fw.running.toNat →
    sha256 parts.common = sliceBytes parts.index 32 32 → sha256 parts.chip = sliceBytes parts.index (64 + 32 * c) 32 →
    parts.forme.tt.chipCount = leAt parts.index 12 4 → partOk parts.forme desk true parts.common = true →
    partOk parts.forme desk false parts.chip = true → readForme parts desk = some f → loadRules f c (farView s) = true →
    formeAvailable s f = true →
    (pArg d 28 1 = 1 ∨ envelopeOk f.tt = true) →
    (f.chip.placements.mapIdx (fun k p => (k, p))).find? (fun x => placementFits s f c x.2) = some (k, pl) →
    exec (.formeLoad d parts) s = .next (formeDone d (resAt 16 k + resAt 24 (leNat ((sha256 parts.index).take 8)))
      (pageChange (cmdBegin d s) (storeForme f c (digestOf parts.index) k pl (wakeFor (cmdBegin d s))))) := by
  intro c desk h hmode hblock hlen he hnone hgid hc hindex hrel hcommon hchip hcount hpc hpp hread hrules havail henv hfit
  refine next_congr ((formeCommandIf_ok (decide_eq_true hmode) h he).trans ?_)
  refine (if_neg ?_).trans ((if_neg ?_).trans ((if_neg ?_).trans ((if_neg ?_).trans ((if_neg ?_).trans ((if_neg ?_).trans
    ((if_neg ?_).trans ((if_neg ?_).trans ?_)))))))
  · rw [hblock]; simp; omega
  · rw [cmdBegin_loaded, loaded_eq_false hnone]; decide
  · exact not_of_eq_true hgid
  · exact not_le.2 hc
  · exact not_of_eq_true hindex
  · exact not_bne_of_eq hrel
  · rw [Bool.or_eq_true, not_or]
    exact ⟨not_bne_of_eq hcommon, not_bne_of_eq hchip⟩
  · rw [hcount, hpc, hpp]; simp
  · rw [hread]
    refine (if_neg ?_).trans ((if_neg ?_).trans ((if_neg ?_).trans ?_))
    · exact not_of_eq_true hrules
    · exact not_of_eq_true havail
    · rcases henv with h1 | h1 <;> rw [h1] <;> simp
    · have hfit' : (f.chip.placements.mapIdx (fun k p => (k, p))).find? (fun x => placementFits (cmdBegin d s) f c x.2) = some (k, pl) := hfit
      rw [hfit']

theorem patchAll_three {entry : Nat → Nat} {strict : Bool} {mine tree void : List (Nat × Nat × Route)} {a b v : List (Nat × Route × Bool)}
    (ha : patchAll entry strict false mine = .ok a) (hb : patchAll entry strict true tree = .ok b)
    (hv : patchAll entry strict true void = .ok v) :
    (do let a ← patchAll entry strict false mine
        let b ← patchAll entry strict true tree
        let v ← patchAll entry strict true void
        .ok (a, b, v) : Except PatchFail (List (Nat × Route × Bool) × List (Nat × Route × Bool) × List (Nat × Route × Bool))) =
      .ok (a, b, v) := by
  rw [ha, hb, hv]
  rfl

/-- What FORME_IMPOSE does with its routes patched, or not (R359, R360). -/
def imposeOutcome (d : Descriptor) (f : Forme) (m : Impose) (blk : List Byte) (s : State) :
    Except PatchFail (List (Nat × Route × Bool) × List (Nat × Route × Bool) × List (Nat × Route × Bool)) → State
  | .error e => formeRefuse d stBadParam (patchReason e) s
  | .ok (a, b, v) =>
    let t := pageChange s (imposeWith f m blk a b v s)
    formeDone d (resAt 16 t.forme.patched.toNat + resAt 20 t.forme.rerouted.toNat + resAt 24 (t.forme.imposeDigest.toNat % 2 ^ 64)) t

theorem exec_formeImpose {blk : List Byte} {f : Forme} {a b v : List (Nat × Route × Bool)} :
    let n := f.tt.chipCount
    let word (k : Nat) : Nat := leAt blk (4 * k) 4
    let m : Impose := ⟨(List.range n).map word, (List.range n).map (fun c => word (n + c)),
      (List.range 4).map (fun k => pArg d (24 + 2 * k) 2), pArg d 32 1 == 1⟩
    let c := s.chipIndex
    let entry (chip : Nat) : Nat := s.routeEntry (m.binding.getD chip 0)
    descOk d [(24, 8), (32, 1)] = true → earlierRuns d s = false → s.forme.forme = some f → s.forme.state ≠ .started →
    pArg d 32 1 < 2 → hasBlock d = true → d.blockLength.toNat = 8 * n → d.blockLength.toNat ≤ blk.length →
    (∀ g ∈ m.binding, g < 2 ^ 20 ∧ g ≠ 0xFFFFF) → m.binding.getD c 0 = s.fab.gid.toNat → m.binding.Nodup →
    partnersOk n m.partners = true → keySlotsOk f.keyCount m.keys = true →
    patchAll entry m.strict false (((f.flows.mapIdx (fun i x => (i, x))).filter (fun x => x.2.sourceChip == c)).map
      (fun x => (x.1, f.dests.getD x.1 0, x.2.route))) = .ok a →
    patchAll entry m.strict true (f.treeRoutes.map (fun x => (x.1, x.1, x.2))) = .ok b →
    patchAll entry m.strict true (match f.serving.voidRoute[c]? with
      | some r => if r.hops = 0 then [] else [(0, nextInStage f.serving c, r)]
      | none => []) = .ok v →
    let t := pageChange (cmdBegin d s) (imposeWith f m blk a b v (cmdBegin d s))
    exec (.formeImpose d blk) s = .next (formeDone d (resAt 16 t.forme.patched.toNat + resAt 20 t.forme.rerouted.toNat
      + resAt 24 (t.forme.imposeDigest.toNat % 2 ^ 64)) t) := by
  intro n word m c entry h he hf hst hmode hblock hlen hblk hg hself hnodup hpart hkeys ha hb hv t
  refine next_congr ((formeCommandIf_ok (decide_eq_true hmode) h he).trans ?_)
  have hlength : m.binding.length = n := by simp [m]
  rw [cmdBegin_forme, hf]
  refine (if_neg hst).trans ((if_neg ?_).trans ((if_neg (by omega)).trans ((if_neg ?_).trans ((if_neg ?_).trans ((if_neg ?_).trans
    ((if_neg ?_).trans ?_))))))
  · rw [hblock, hlen]; simp; rfl
  · refine ne_true_of_eq_false (List.any_eq_false.2 fun g hmem => ?_)
    have := (hg g hmem).1
    simp; omega
  · exact not_bne_of_eq hself
  · have hcontains : m.binding.contains 0xFFFFF = false := by
      rw [List.contains_eq_any_beq, List.any_eq_false]
      intro g hmem
      have := (hg g hmem).2
      simpa using this.symm
    show ¬(m.binding.dedup.length != n || m.binding.contains 0xFFFFF || !partnersOk n m.partners) = true
    rw [hnodup.dedup, hlength, hcontains, hpart]
    simp
  · exact not_of_eq_true hkeys
  · exact congrArg (imposeOutcome d f m blk (cmdBegin d s)) (patchAll_three ha hb hv)

/-- Settles O16: both are their run with every check passed. -/
theorem formeCommandsComplete : Obligations.FormeCommandsComplete := by
  unfold Obligations.FormeCommandsComplete
  exact ⟨fun d parts s f k pl => exec_formeLoad, fun d blk s f a b v => exec_formeImpose⟩

/-! ## Starting, stopping and unloading -/

theorem exec_formeStart {f : Forme} (he : earlierRuns d s = false) (h : descOk d [(24, 8), (32, 4)] = true) (hf : s.forme.forme = some f)
    (hst : s.forme.state = .imposed ∨ (s.forme.state = .started ∧ s.barrier.stopped = true)) (hnow : s.now < pArg d 24 8)
    (hfirst : ¬(s.barrier.stopped = true ∧ s.tt.attempt = 255 ∧ s.tt.nextStep = s.tt.step ∧ s.tt.nextAttempt = 0))
    (hreb : pArg d 32 4 = 0xFFFFFFFF ∨ pArg d 32 4 < f.tt.chipCount) (hpoint : pointPermitted s s.power.point.toNat = true)
    (hseal : s.forme.sealed = true) (hports : ∀ p ∈ portsOf f.chip.portMask.toNat, (s.port p).ready = true)
    (hkeys : keysInstalled s f = true) (hroom : startRoom s f = true) :
    exec (.formeStart d) s = .next (acceptStart d f (pArg d 24 8) (pArg d 32 4) (wakeFor (cmdBegin d s))) := by
  refine next_congr ((formeCommand_ok h he).trans ?_)
  rw [cmdBegin_forme, hf]
  refine (if_neg ?_).trans ((if_neg (by rw [cmdBegin_now]; omega)).trans ((if_neg ?_).trans ((if_neg ?_).trans ((if_neg ?_).trans ((if_neg ?_).trans
    ((if_neg ?_).trans ((if_neg ?_).trans (if_neg ?_))))))))
  · rcases hst with hst | ⟨hst, hstop⟩
    · rw [hst]; exact Bool.false_ne_true
    · rw [hst, cmdBegin_barrier, hstop]; decide
  · rw [cmdBegin_barrier, cmdBegin_tt]
    simp only [Bool.and_eq_true, decide_eq_true_iff, and_assoc]
    exact hfirst
  · rcases hreb with hr | hr
    · simp [hr]
    · simp; omega
  · exact not_of_eq_true hpoint
  · exact not_of_eq_true hseal
  · exact not_of_eq_true (List.all_eq_true.2 hports)
  · exact not_of_eq_true hkeys
  · exact not_of_eq_true hroom

theorem exec_formeStop (he : earlierRuns d s = false) (h : descOk d [] = true) (hst : s.forme.state = .started)
    (hcmd : s.barrier.stopCmd = none) : exec (.formeStop d) s = .next (if s.barrier.stopped then
        formeDone d 0 (stopForme { cmdBegin d s with forme.reason := 0 })
      else formeQueued d { cmdBegin d s with barrier.stopCmd := some d, barrier.stopPending := true }) := by
  refine next_congr ((formeCommand_ok h he).trans (if_neg ?_))
  rw [cmdBegin_forme, hst, cmdBegin_barrier, hcmd]
  decide

theorem exec_formeUnload_none (he : earlierRuns d s = false) (h : descOk d [] = true) (hst : s.forme.state = .none) :
    exec (.formeUnload d) s = .next (formeDone d 0 (cmdBegin d s)) := by
  refine next_congr ((formeCommand_ok h he).trans ((if_neg ?_).trans (if_pos ?_)))
  · rw [cmdBegin_forme, hst]; decide
  · rw [cmdBegin_loaded, loaded_eq_false hst]; rfl

/-- Settles O17: each is its run with the guards decided. -/
theorem formeStartStopUnloadComplete : Obligations.FormeStartStopUnloadComplete := by
  unfold Obligations.FormeStartStopUnloadComplete
  intro d s he
  refine ⟨fun f => exec_formeStart he, fun h hst hcmd hstop => ?_, fun h hst hcmd hstop => ?_, exec_formeUnload_none he, fun h hst => ?_⟩
  · rw [exec_formeStop he h hst hcmd, hstop]; rfl
  · rw [exec_formeStop he h hst hcmd, hstop]; rfl
  · refine next_congr ((formeCommand_ok h he).trans ((if_neg ?_).trans (if_neg ?_)))
    · rw [cmdBegin_forme]
      rcases hst with hst | hst <;> rw [hst] <;> decide
    · rw [cmdBegin_loaded, State.loaded]
      rcases hst with hst | hst <;> rw [hst] <;> decide

end Sys2Proof.Machine
end

section
/-!
# The weight commands (O18)
-/

namespace Sys2Proof.Machine

variable {s : State} {d : Descriptor}

theorem formeBlk_ok {used : List (Nat × Nat)} {blk : List Byte} {run : State → State} (h : descOk d used = true)
    (he : earlierRuns d s = false) (hb : hasBlock d = true) (hl : d.blockLength.toNat ≤ blk.length) :
    formeBlk d used blk run s = run (cmdBegin d s) :=
  (formeCommand_ok h he).trans ((if_neg (not_of_eq_true hb)).trans (if_neg (by omega)))

/-- A weight command of a forme that is neither started nor sealed goes on. -/
theorem weightCommand_ok {run : State → State} (hst : s.forme.state = .loaded ∨ s.forme.state = .imposed) (hs : s.forme.sealed = false) :
    weightCommand d run s = run s := by
  refine if_neg ?_
  rw [State.loaded, hs]
  rcases hst with hst | hst <;> rw [hst] <;> decide

/-- Images are made from a tensor's record and its source alone. -/
theorem recordImages_congr {t : State} (h : t.forme.forme = s.forme.forme) : ∀ l, recordImages t l = recordImages s l
  | [] => rfl
  | (r, src) :: l => by
    have htensor : t.tensor r.tensor = s.tensor r.tensor := by unfold State.tensor; rw [h]
    rw [recordImages, recordImages, htensor, recordImages_congr h l]

/-- Records without a fault, whose images can be made. -/
theorem withImages_ok {recs : List LoadRec} {sources : List (List Byte)} {placed : Bool}
    {go : List (Tensor × List Byte × List Byte) → State → State} {images : List (Tensor × List Byte × List Byte)} :
    let rows := recs.mapIdx (fun i r => (r, sources.getD i []))
    let plain := rows.filter (fun x => !x.1.fabric)
    let names := recs.map LoadRec.tensor
    recs.any (fun r => !r.zero || 4 ≤ r.flags) = false → plain.any (fun x => x.2.length != x.1.length) = false →
    names.Nodup → recordImages s plain = .ok images → rows.findSome? (fun x => recordFault s placed x.1 x.2) = none →
    withImages d recs sources placed go s =
      go images (dropTensors names (countBytes (sumOf (plain.map (fun x => x.2.length))) s)) := by
  intro rows plain names hform hlength hnodup himages hfault
  refine (if_neg (ne_true_of_eq_false hform)).trans ((if_neg (ne_true_of_eq_false hlength)).trans ?_)
  have hmatch : (rows.findSome? fun x => recordFault s placed x.1 x.2) = none := hfault
  have himages' : recordImages (countBytes (sumOf (plain.map (fun x => x.2.length))) s) plain = .ok images :=
    (recordImages_congr (s := s) (t := countBytes _ s) rfl plain).trans himages
  rw [hmatch]
  refine (if_neg (not_bne_of_eq ?_)).trans ?_
  · rw [hnodup.dedup]
  · show (match recordImages (countBytes (sumOf (plain.map (fun x => x.2.length))) s) plain with
      | .error _ => _
      | .ok _ => _) = _
    rw [himages']

theorem exec_weightsDigestRead (he : earlierRuns d s = false) (h : descOk d [(24, 1)] = true) (hm : pArg d 24 1 = 0)
    (hroom : s.forme.present = [] ∨ replyOk s d (ceilDiv (80 * s.forme.present.length) 1024) = true) :
    exec (.weightsDigestRead d) s = .next (if s.forme.present.length = 0 then formeDone d 0 (cmdBegin d s)
      else finishReply d stDone (resAt 16 s.forme.present.length)
        (s.forme.present.flatMap (fun x => indexRecord s x ++ digestBytes x.2.source))
        (showPresent d { cmdBegin d s with forme.reason := 0 })) := by
  refine next_congr ((formeCommandIf_ok (decide_eq_true hm) h he).trans (if_neg ?_))
  rw [cmdBegin_forme, cmdBegin_replyOk]
  rcases hroom with hr | hr
  · rw [hr]; simp
  · rw [hr]; simp

theorem exec_weightsDigestSeal {blk : List Byte} (he : earlierRuns d s = false) :
    let n := d.blockLength.toNat / 48
    let digest := digestOf (blk.take (48 * n))
    descOk d [(24, 1)] = true → pArg d 24 1 = 1 → d.blockLength.toNat % 48 = 0 → (d.blockLength = 0 ∨ d.block ≠ 0) →
    d.blockLength.toNat ≤ blk.length →
    sealOk s ((List.range n).map (fun i => sliceBytes blk (48 * i) 48)) = true →
    s.liv.slots.any (fun x => x.2.valid && x.2.weightDigest != digest) = false →
    exec (.weightsDigestSeal d blk) s = .next (formeDone d (resAt 16 (digest.toNat % 2 ^ 128)) (pageChange (cmdBegin d s)
      { cmdBegin d s with forme.sealed := true, forme.weightDigest := digest })) := by
  intro n digest h hm hmod hblock hlen hseal hliv
  refine next_congr ((formeCommandIf_ok (decide_eq_true hm) h he).trans ((if_neg ?_).trans ((if_neg (by omega)).trans ((if_neg ?_).trans (if_neg ?_)))))
  · rw [hmod]
    rcases hblock with hb | hb
    · rw [hb]; simp
    · simp only [beq_false_of_ne hb, Bool.and_false]
      decide
  · exact not_of_eq_true hseal
  · exact ne_true_of_eq_false hliv

theorem exec_weightsFree (he : earlierRuns d s = false) (h : descOk d [] = true) (hst : s.forme.state ≠ .started)
    (hliv : s.liv.slots.any (fun x => x.2.valid) = false) : exec (.weightsFree d) s = .next (formeDone d 0 (pageChange (cmdBegin d s)
      { cmdBegin d s with forme.present := [], forme.sealed := false, forme.weightDigest := 0 })) := by
  refine next_congr ((formeCommand_ok h he).trans ((if_neg ?_).trans (if_neg (ne_true_of_eq_false hliv))))
  rw [cmdBegin_forme]
  simpa using hst

/-- Settles O18: a load and a broadcast are what their images make of the state in which they have begun. -/
theorem weightCommandsComplete : Obligations.WeightCommandsComplete := by
  unfold Obligations.WeightCommandsComplete
  refine ⟨fun d blk sources s he hst hs hb hl images recs => ?_, fun d blk s he => ⟨fun h hm hp => ?_, fun h hm hp hr => ?_,
    exec_weightsDigestSeal he, exec_weightsFree he⟩⟩
  · intro rows plain names bytes begun placed hform hlength hnodup himages
    refine ⟨fun h hmod hmax hrecs hfault => ?_, fun h hlow hhigh hsize hmod hmax hpaths hfab hrecs hfault => ?_⟩
    · refine next_congr ((formeBlk_ok h he hb hl).trans ((weightCommand_ok (s := cmdBegin d s) hst hs).trans ((if_neg ?_).trans ?_)))
      · rw [hmod]; simp; omega
      · rw [← hrecs]
        exact withImages_ok (s := cmdBegin d s) hform hlength hnodup ((recordImages_congr (s := s) (t := cmdBegin d s) rfl plain).trans himages) hfault
    · refine next_congr ((formeBlk_ok h he hb hl).trans ((weightCommand_ok (s := cmdBegin d s) hst hs).trans ((if_neg ?_).trans ?_)))
      · rw [← hrecs, hpaths, hfab, hmod]; simp; omega
      · rw [← hrecs]
        exact withImages_ok (s := cmdBegin d s) hform hlength hnodup ((recordImages_congr (s := s) (t := cmdBegin d s) rfl plain).trans himages) hfault
  · rw [exec_weightsDigestRead he h hm (.inl hp), hp]
    rfl
  · rw [exec_weightsDigestRead he h hm (.inr hr)]
    exact next_congr (if_neg (by simpa using hp))

end Sys2Proof.Machine
end

section
/-!
# Waybill and livery commands (O19, O20)
-/

namespace Sys2Proof.Machine

variable {s : State} {d : Descriptor}

theorem loaded_eq_true (h : s.forme.state ≠ .none) : s.loaded = true := by
  simpa [State.loaded] using h

theorem deskCommand_ok {run : State → State} (hst : s.forme.state ≠ .none) (hdesk : s.isDesk = true) :
    deskCommand d run s = run s :=
  (if_neg (not_of_eq_true (loaded_eq_true hst))).trans (if_neg (not_of_eq_true hdesk))

theorem all_lt {l : List Nat} {n : Nat} (h : ∀ t ∈ l, t < n) : l.all (fun t => decide (t < n)) = true :=
  List.all_eq_true.2 fun t ht => decide_eq_true (h t ht)

theorem exec_waybillOpen {blk : List Byte} {v : Serving} (hb : hasBlock d = true) (hl : d.blockLength.toNat ≤ blk.length)
    (hst : s.forme.state ≠ .none) (hdesk : s.isDesk = true) (hv : s.serving = some v) (i a : Nat) :
    let n := pArg d 24 4
    let w := openRecord blk n
    let extra := sliceBytes blk 128 w.extraBytes
    let toks := tokenIds blk (128 + w.extraBytes) n
    let kib := storeSize w n
    descOk d [(24, 4)] = true → 1 ≤ n → d.blockLength.toNat = 128 + w.extraBytes + 4 * n → paramsOk s.vocab w = true →
    extraOk s.vocab w extra = true → (∀ t ∈ toks, t < s.vocab) → openFields s v blk w = true →
    n + w.maxNew + v.proofMax ≤ lengthLimit → fenceOk s w = true → freeIndex s = some i → inputRoom kib s = some a →
    frameNeed v w 0 ≤ v.frames → sliceBytes (sha256 extra) 0 16 = leBytes 16 (w.arg 48 16) →
    let w' := { w with inputStore := BitVec.ofNat 32 a, storeKiB := kib, opened := s.eng.opened + 1 }
    let t := nearPut (w'.storeByte + 65536) extra
      (nearZero a kib (allocInput i a kib { cmdBegin d s with eng.opened := s.eng.opened + 1 }))
    let t := putDigest w' (nearPut (w'.tokenByte 0) (toks.flatMap (leBytes 4)) t)
    exec (.waybillOpen d blk) s = .next (queued d (resAt 16 i + resAt 18 w'.opened.toNat)
      { t with eng.pending := t.eng.pending ++ [⟨.opened i w', some d⟩] }) := by
  intro n w extra toks kib h hn hlen hparams hextra htoks hfields hmax hfence hfree hroom hframes hsum w' t t'
  refine next_congr ((commandBlk_ok h hb hl).trans ((deskCommand_ok (s := cmdBegin d s) hst hdesk).trans ?_))
  have hserving : (cmdBegin d s).serving = some v := hv
  have hfree' : freeIndex (cmdBegin d s) = some i := hfree
  rw [hserving]
  refine (if_neg ?_).trans ((if_neg (not_of_eq_true hfence)).trans ?_)
  · simp only [Bool.or_eq_true, not_or, decide_eq_true_iff, not_lt]
    exact ⟨⟨⟨⟨⟨⟨Nat.ne_of_gt hn, not_bne_of_eq hlen⟩, not_of_eq_true hparams⟩, not_of_eq_true hextra⟩, not_of_eq_true (all_lt htoks)⟩,
      not_of_eq_true hfields⟩, hmax⟩
  · rw [hfree']
    extract_lets kib'
    rw [show inputRoom kib' (cmdBegin d s) = some a from hroom]
    exact (if_neg (not_lt.2 hframes)).trans (if_neg (not_bne_of_eq hsum))

theorem exec_waybillAppend {blk : List Byte} {v : Serving} (hb : hasBlock d = true) (hl : d.blockLength.toNat ≤ blk.length)
    (hst : s.forme.state ≠ .none) (hdesk : s.isDesk = true) (hv : s.serving = some v) (w : Waybill) (b : Nat) :
    let i := pArg d 24 2
    let n := pArg d 28 4
    let toks := tokenIds blk 0 n
    let a := (latestStore s i w).1
    let len := (latestStore s i w).2
    let kib := storeSize w (len + n)
    descOk d [(24, 2), (28, 4)] = true → kget s.eng.table i = some w →
    (w.state = .queued ∨ w.state = .prefill ∨ w.state = .decode) → 1 ≤ n → d.blockLength.toNat = 4 * n →
    (∀ t ∈ toks, t < s.vocab) → len + n + w.maxNew + v.proofMax ≤ lengthLimit → inputRoom kib s = some b →
    let w' := { w with inputStore := BitVec.ofNat 32 b, inputLength := len + n }
    let old := memRead blank s.boxMem (a * 1024) (1024 * storeSize w len)
    let t := nearPut (b * 1024) old (nearZero b kib (allocInput i b kib (cmdBegin d s)))
    let t := putDigest w' (nearPut (w'.tokenByte len) (toks.flatMap (leBytes 4)) t)
    exec (.waybillAppend d blk) s =
      .next (queued d 0 { t with eng.pending := t.eng.pending ++ [⟨.appended i b kib n, some d⟩] }) := by
  intro i n toks a len kib h hw hstate hn hlen htoks hmax hroom w' old t t'
  refine next_congr ((commandBlk_ok h hb hl).trans ((deskCommand_ok (s := cmdBegin d s) hst hdesk).trans ?_))
  have hserving : (cmdBegin d s).serving = some v := hv
  have hentry : kget (cmdBegin d s).eng.table (pArg d 24 2) = some w := hw
  have hroom' : inputRoom kib (cmdBegin d s) = some b := hroom
  have hopen : (w.state == .queued || w.state == .prefill || w.state == .decode) = true := by
    rcases hstate with hs | hs | hs <;> rw [hs] <;> rfl
  rw [hserving, hentry]
  refine (if_neg ?_).trans ?_
  · simp only [Bool.or_eq_true, not_or, decide_eq_true_iff, not_lt]
    refine ⟨⟨⟨⟨?_, Nat.ne_of_gt hn⟩, not_bne_of_eq hlen⟩, not_of_eq_true (all_lt htoks)⟩, hmax⟩
    exact not_of_eq_true hopen
  · show (match inputRoom kib (cmdBegin d s) with
      | none => _
      | some _ => _) = _
    rw [hroom']
    rfl

theorem isStage_eq_false (h : s.isStage = false) (hi : pArg d 24 2 ≠ 65535) : ¬(s.isStage || decide (pArg d 24 2 = 65535)) = true := by
  rw [h, decide_eq_false hi]
  decide

theorem exec_waybillCancel_none (h : descOk d [(24, 2)] = true) (hstage : s.isStage = false) (hi : pArg d 24 2 ≠ 65535)
    (hw : kget s.eng.table (pArg d 24 2) = none) : exec (.waybillCancel d) s = .next (finish d stDone 0 (cmdBegin d s)) := by
  refine next_congr ((command_ok h).trans ((if_neg (isStage_eq_false (s := cmdBegin d s) hstage hi)).trans ?_))
  rw [cmdBegin_eng, hw]

theorem exec_waybillCancel {w : Waybill} (h : descOk d [(24, 2)] = true) (hstage : s.isStage = false) (hi : pArg d 24 2 ≠ 65535)
    (hw : kget s.eng.table (pArg d 24 2) = some w) :
    let st := resAt 16 (wbCode w.state)
    exec (.waybillCancel d) s = .next (
        if cancels w = false then finish d stDone st (cmdBegin d s)
        else if s.forme.state = .started then acceptCancel (pArg d 24 2) w (some d) (queued d st (cmdBegin d s))
        else cancelNow (pArg d 24 2) w (some d) (cmdBegin d s)) := by
  refine next_congr ((command_ok h).trans ((if_neg (isStage_eq_false (s := cmdBegin d s) hstage hi)).trans ?_))
  rw [cmdBegin_eng, hw]
  refine if_congr (by simp) rfl (if_congr ?_ rfl rfl)
  rw [State.started, cmdBegin_forme]
  simp

theorem exec_waybillStable {w : Waybill} (h : descOk d [(24, 2)] = true) (hst : s.forme.state ≠ .none) (hdesk : s.isDesk = true)
    (hw : kget s.eng.table (pArg d 24 2) = some w) (hstate : w.state = .prefill ∨ w.state = .decode) :
    exec (.waybillStable d) s = .next (queued d 0 (modWb (pArg d 24 2) (fun w => { w with stablePending := true })
      { cmdBegin d s with eng.pending := s.eng.pending ++ [⟨.stable (pArg d 24 2), some d⟩] })) := by
  refine next_congr ((command_ok h).trans ((deskCommand_ok (s := cmdBegin d s) hst hdesk).trans ?_))
  rw [cmdBegin_eng, hw]
  refine if_pos ?_
  rcases hstate with hs | hs <;> rw [hs] <;> rfl

theorem exec_waybillResume {w : Waybill} (h : descOk d [(24, 6), (32, 8), (40, 1)] = true) (hst : s.forme.state ≠ .none)
    (hdesk : s.isDesk = true) (hw : kget s.eng.table (pArg d 24 6 % 65536) = some w) (hticket : pArg d 24 6 ≠ 0)
    (hmatch : w.ticket.toNat = pArg d 24 6) (hstate : w.state = .stabled ∨ w.state = .expired) (hprio : pArg d 40 1 ≤ 15)
    (hfence : fenceOk s w = true) :
    exec (.waybillResume d) s = .next (queued d 0 { cmdBegin d s with eng.pending := s.eng.pending ++
      [⟨.resumed (BitVec.ofNat 48 (pArg d 24 6)) (BitVec.ofNat 64 (pArg d 32 8)) (BitVec.ofNat 4 (pArg d 40 1)), some d⟩] }) := by
  refine next_congr ((command_ok h).trans ((if_neg (by omega)).trans ((deskCommand_ok (s := cmdBegin d s) hst hdesk).trans ?_)))
  have hclosed : (w.state == .stabled || w.state == .expired) = true := by
    rcases hstate with hs | hs <;> rw [hs] <;> rfl
  rw [cmdBegin_eng, hw]
  refine (if_neg ?_).trans (if_neg (not_of_eq_true hfence))
  simp only [Bool.or_eq_true, not_or, decide_eq_true_iff]
  exact ⟨⟨hticket, not_bne_of_eq hmatch⟩, not_of_eq_true hclosed⟩

/-- Settles O19: each is its run with an entry and room. -/
theorem waybillCommandsComplete : Obligations.WaybillCommandsComplete := by
  unfold Obligations.WaybillCommandsComplete
  refine ⟨fun d blk s v hb hl hst hdesk hv => ⟨exec_waybillOpen hb hl hst hdesk hv, exec_waybillAppend hb hl hst hdesk hv⟩,
    fun d s => ⟨fun h hstage hi => ⟨exec_waybillCancel_none h hstage hi, fun w hw => exec_waybillCancel h hstage hi hw⟩,
      fun w => exec_waybillStable, fun w => exec_waybillResume, fun h hr hstage hi => ?_⟩⟩
  exact next_congr ((commandReply_ok h hr).trans (if_neg (isStage_eq_false (s := cmdBegin d s) hstage hi)))

/-! ## Liveries -/

theorem exec_liveryLoad {blk : List Byte} :
    let k := pArg d 24 2
    let x := blk.take d.blockLength.toNat
    ∀ a : Nat, descOk d [(24, 2), (32, 32)] = true → hasBlock d = true → d.blockLength.toNat ≤ blk.length → k < 4096 →
    kget s.liv.slots k = none → liveryOk x = true → s.forme.sealed = true → leAt x 16 32 = s.forme.weightDigest.toNat →
    (∀ p, s.samplerPlan = some p → sectionBytes s.pool.layers x ≤ p.stageBytes) → areaUp s 4 = true → bankRoom x.length s = some a →
    leNat (sha256 x) = pArg d 32 32 →
    let slot : LiverySlot :=
      { bank := BitVec.ofNat 32 a, rank := BitVec.ofNat 8 (leAt x 4 1), format := BitVec.ofNat 4 (leAt x 5 1), staged := none
        valid := s.forme.state != .started, tenant := BitVec.ofNat 16 (leAt x 2 2), alpha := BitVec.ofNat 32 (leAt x 8 4)
        weightDigest := BitVec.ofNat 256 (leAt x 16 32), digest := BitVec.ofNat 256 (leNat (sha256 x)), length := x.length
        copying := false }
    exec (.liveryLoad d blk) s = .next (finish d stDone (resAt 16 a)
      { farWrite (a * 1048576) x (cmdBegin d s) with liv.slots := kset k slot s.liv.slots }) := by
  intro k x a h hb hl hk hfree hok hseal hweight hstage harea hroom hdigest slot
  have hfree' : kget (cmdBegin d s).liv.slots k = none := hfree
  have harea' : areaUp (cmdBegin d s) 4 = true := harea
  have hroom' : bankRoom x.length (cmdBegin d s) = some a := hroom
  have hbig : (match (cmdBegin d s).samplerPlan with
      | some p => decide (p.stageBytes < sectionBytes (cmdBegin d s).pool.layers x)
      | none => false) = false := by
    have hplan : (cmdBegin d s).samplerPlan = s.samplerPlan := rfl
    rw [hplan]
    cases hp : s.samplerPlan with
    | none => rfl
    | some p => exact decide_eq_false (by have := hstage p hp; exact not_lt.2 this)
  refine next_congr ((commandBlk_ok h hb hl).trans ((if_neg (by omega)).trans ((if_neg ?_).trans ((if_neg ?_).trans ?_))))
  · rw [hfree']; decide
  · simp only [Bool.or_eq_true, not_or]
    exact ⟨⟨not_of_eq_true hok, not_of_eq_true hseal⟩, not_bne_of_eq hweight⟩
  · show (match if (match (cmdBegin d s).samplerPlan with
      | some p => decide (p.stageBytes < sectionBytes (cmdBegin d s).pool.layers x)
      | none => false) || !areaUp (cmdBegin d s) 4 then none else bankRoom x.length (cmdBegin d s) with
      | none => _
      | some _ => _) = _
    rw [hbig, harea', hroom']
    exact if_neg (not_bne_of_eq hdigest)

theorem exec_liveryFree (h : descOk d [(24, 2)] = true) (hk : pArg d 24 2 < 4096)
    (hnamed : s.eng.table.any (fun x => x.2.state != .free && x.2.livery.map (·.toNat) == some (pArg d 24 2)) = false) :
    exec (.liveryFree d) s = .next (
      if s.forme.state = .started then
        queued d 0 { cmdBegin d s with eng.pending := s.eng.pending ++ [⟨.liveryFree (pArg d 24 2), some d⟩] }
      else finish d stDone 0 { cmdBegin d s with liv.slots := kdel (pArg d 24 2) s.liv.slots }) := by
  refine next_congr ((command_ok h).trans ((if_neg (by omega)).trans ((if_neg (ne_true_of_eq_false hnamed)).trans (if_congr ?_ rfl rfl))))
  rw [State.started, cmdBegin_forme]
  simp

/-- Settles O20: both are their run with the guards decided. -/
theorem liveryCommandsComplete : Obligations.LiveryCommandsComplete := by
  unfold Obligations.LiveryCommandsComplete
  exact fun d blk s => ⟨exec_liveryLoad, exec_liveryFree⟩

end Sys2Proof.Machine
end

section
/-!
# Link, partition, route and time commands, and reserved fields (O21, O22)
-/

namespace Sys2Proof.Machine

variable {s : State} {d : Descriptor}

/-! ## LINK_STATE and LINK_RETRAIN -/

theorem linkCommand_ok {action : Nat} {run : Nat → State → State} (h : descOk d [(24, 2)] = true) (hp : pArg d 24 1 ≤ 31)
    (ht : pArg d 25 1 = action) : linkCommand d action run s = run (pArg d 24 1) (cmdBegin d s) := by
  refine (command_ok h).trans (if_neg ?_)
  rw [ht]
  simp; omega

/-- What LINK_RETRAIN does with legal fields. -/
theorem exec_linkRetrain (h : descOk d [(24, 2)] = true) (hp : pArg d 24 1 ≤ 31) (ht : pArg d 25 1 ≤ 15) (hr : pArg d 25 1 % 4 ≠ 3)
    (hw : pArg d 25 1 / 4 % 4 ≠ 3) (hcmd : (s.port (pArg d 24 1)).requestCmd = none) :
    let target : RetrainReq := ⟨BitVec.ofNat 2 (pArg d 25 1 % 4), BitVec.ofNat 2 (pArg d 25 1 / 4 % 4)⟩
    let u := (cmdBegin d s).modPort (pArg d 24 1) (fun q => { q with requestCmd := some d })
    let v := (cmdBegin d s).modPort (pArg d 24 1) (fun q => { q with runCmds := q.runCmds ++ [d] })
    exec (.linkRetrain d) s = .next (match (s.port (pArg d 24 1)).state with
      | .down =>
        let b := beginTraining (pArg d 24 1) u
        if (b.port (pArg d 24 1)).state == .training then b
        else if (b.port (pArg d 24 1)).tryWaits then queued d 0 b else linkCmdEnd (pArg d 24 1) b
      | .active =>
        if !s.portUsed (pArg d 24 1) then startRetrain (pArg d 24 1) target v
        else queued d 0 (u.modPort (pArg d 24 1) (fun q => { q with request := some target }))
      | _ => startRetrain (pArg d 24 1) target v) := by
  intro target u v
  have hport : (cmdBegin d s).port (pArg d 24 1) = s.port (pArg d 24 1) := rfl
  refine next_congr ((command_ok h).trans ((if_neg ?_).trans ?_))
  · simp only [Bool.or_eq_true, not_or, decide_eq_true_iff, not_lt]
    exact ⟨⟨⟨hp, ht⟩, hr⟩, hw⟩
  · rw [hport]
    have hfree : ¬(s.port (pArg d 24 1)).requestCmd.isSome = true := by rw [hcmd]; decide
    cases (s.port (pArg d 24 1)).state with
    | down => exact if_neg hfree
    | active => exact if_congr Iff.rfl rfl (if_neg hfree)
    | training => rfl
    | init => rfl
    | pausing => rfl
    | retraining => rfl
    | resuming => rfl

theorem exec_partitionSet :
    let mask := pArg d 24 4
    let keys : Vector (BitVec 16) 4 := Vector.ofFn (fun i => BitVec.ofNat 16 (pArg d (28 + 2 * i.val) 2))
    descOk d [(24, 13)] = true → pArg d 36 1 ≤ 1 → dropsKey s mask keys = false →
    let t := (portsOf mask).foldl (fun s p => pendKeys p ⟨keys, pArg d 36 1 == 1⟩ s) (queued d 0 (cmdBegin d s))
    exec (.partitionSet d) s = .next (if mask = 0 then finish d stDone 0 t
      else { t with fab.partCmds := t.fab.partCmds ++ [(d, BitVec.ofNat 32 mask)] }) := by
  intro mask keys h hmode hdrop t
  exact next_congr ((command_ok h).trans ((if_neg (by omega)).trans (if_neg (ne_true_of_eq_false hdrop))))

theorem exec_routeTableLoad {blk : List Byte} :
    let first := pArg d 24 4
    let n := pArg d 28 4
    descOk d [(24, 8)] = true → hasBlock d = true → d.blockLength.toNat ≤ blk.length → s.forme.state ≠ .started →
    first + n ≤ 2 ^ 20 → d.blockLength.toNat = 16 * n → (∀ i, i < n → routeEntryOk (routeEntryOf blk i) = true) →
    exec (.routeTableLoad d blk) s = .next (finish d stDone
      (resAt 16 ((List.range n).filter (fun i => bitAt (routeEntryOf blk i) 88)).length)
      ((List.range n).foldl (fun s i => putRoute (first + i) (routeEntryOf blk i) s) (cmdBegin d s))) := by
  intro first n h hb hl hst hmax hlen hok
  refine next_congr ((commandBlk_ok h hb hl).trans ((if_neg ?_).trans (if_neg ?_)))
  · rw [cmdBegin_forme]
    simpa using hst
  · have hany : (List.range n).any (fun i => !routeEntryOk (routeEntryOf blk i)) = false :=
      List.any_eq_false.2 fun i hi => not_of_eq_true (hok i (List.mem_range.1 hi))
    simp only [Bool.or_eq_true, not_or, decide_eq_true_iff, not_lt]
    exact ⟨⟨hmax, not_bne_of_eq hlen⟩, ne_true_of_eq_false hany⟩

theorem exec_timeSyncRole :
    let role := pArg d 24 1
    let port := pArg d 25 1
    let alt := pArg d 26 1
    let period := if pArg d 27 1 = 0 then 4 else pArg d 27 1
    let pps := pArg d 28 1
    descOk d [(24, 5)] = true → role ≤ 2 → port ≤ 31 → alt ≤ 31 → alt ≠ port → period ≤ 64 → pps ≤ 1 → (pps = 1 → role = 1) →
    let same := s.time.role.toNat == role && s.time.port.toNat == port && s.time.altPort.toNat == alt
    let t : State := { cmdBegin d s with
      time.role := BitVec.ofNat 2 role, time.port := BitVec.ofNat 5 port, time.altPort := BitVec.ofNat 5 alt
      time.period := BitVec.ofNat 8 period, time.ppsDiscipline := pps == 1 }
    exec (.timeSyncRole d) s = .next (finish d stDone 0
      (noticeChange (cmdBegin d s) (pickUpstream (if same then t else takeRole role t)))) := by
  intro role port alt period pps h hrole hport halt hne hper hpps hdisc same t
  refine next_congr ((command_ok h).trans (if_neg ?_))
  simp only [Bool.or_eq_true, not_or, decide_eq_true_iff, not_lt]
  refine ⟨⟨⟨⟨⟨⟨hrole, hport⟩, halt⟩, ?_⟩, hper⟩, hpps⟩, ?_⟩
  · simpa using hne
  · rw [Bool.and_eq_true, beq_iff_eq, bne_iff_ne]
    exact fun h => h.2 (hdisc h.1)

/-- Settles O21: each is its run with the guards decided. -/
theorem fabricCommandsComplete : Obligations.FabricCommandsComplete := by
  unfold Obligations.FabricCommandsComplete
  refine ⟨fun d s h hp => ⟨fun ht => next_congr (linkCommand_ok h hp ht), fun ht => next_congr (linkCommand_ok h hp ht),
    fun ht hu => ?_, fun ht hu => ?_, fun ht hr hw hcmd => ?_⟩, fun d blk s => ⟨exec_partitionSet, exec_routeTableLoad, exec_timeSyncRole⟩⟩
  · exact next_congr ((linkCommand_ok h hp ht).trans (if_neg (ne_true_of_eq_false hu)))
  · exact next_congr ((linkCommand_ok h hp ht).trans (if_pos hu))
  · have hexec := exec_linkRetrain h hp ht hr hw hcmd
    refine ⟨fun hs hu => ?_, fun hs hu => ?_, fun ha hd => ?_, fun hs => ?_⟩
    · rw [hexec, hs, hu]; rfl
    · rw [hexec, hs, hu]; rfl
    · rw [hexec]
      cases hs : (s.port (pArg d 24 1)).state with
      | active => exact absurd hs ha
      | down => exact absurd hs hd
      | training => rfl
      | init => rfl
      | pausing => rfl
      | retraining => rfl
      | resuming => rfl
    · rw [hexec, hs]

/-! ## Reserved fields -/

theorem commandBlk_bad {used : List (Nat × Nat)} {blk : List Byte} {run : State → State} (h : descOk d used = false) :
    commandBlk d used blk run s = finish d stBadParam 0 (cmdBegin d s) := command_bad h

theorem commandReply_bad {used : List (Nat × Nat)} {kib : Nat} {run : State → State} (h : descOk d used = false) :
    commandReply d used kib run s = finish d stBadParam 0 (cmdBegin d s) := command_bad h

theorem linkCommand_bad {action : Nat} {run : Nat → State → State} (h : descOk d [(24, 2)] = false) :
    linkCommand d action run s = finish d stBadParam 0 (cmdBegin d s) := command_bad h

theorem formeCommandIf_bad {ok : Bool} {used : List (Nat × Nat)} {run : State → State} (h : descOk d used = false) :
    formeCommandIf ok d used run s = formeRefuse d stBadParam frStructure (cmdBegin d s) := by
  refine if_pos ?_
  rw [h]
  rfl

theorem formeCommand_bad {used : List (Nat × Nat)} {run : State → State} (h : descOk d used = false) :
    formeCommand d used run s = formeRefuse d stBadParam frStructure (cmdBegin d s) := formeCommandIf_bad h

theorem formeBlk_bad {used : List (Nat × Nat)} {blk : List Byte} {run : State → State} (h : descOk d used = false) :
    formeBlk d used blk run s = formeRefuse d stBadParam frStructure (cmdBegin d s) := formeCommand_bad h

/-- Settles O22: every command looks at its descriptor's reserved fields first. -/
theorem reservedFieldsRefused : Obligations.ReservedFieldsRefused := by
  unfold Obligations.ReservedFieldsRefused
  intro d blk sources parts s bad refused
  refine ⟨fun h => ?_, fun h => ?_, fun h => ?_, fun h => ?_, fun h => next_congr (command_bad h), fun h => next_congr (commandBlk_bad h),
    fun h => next_congr (commandBlk_bad h), fun h => next_congr (command_bad h), fun h => next_congr (commandBlk_bad h),
    fun h => next_congr (command_bad h), fun h => next_congr (commandBlk_bad h), fun h => next_congr (command_bad h),
    fun h => next_congr (commandReply_bad h), fun h => next_congr (commandReply_bad h), fun h => next_congr (formeCommandIf_bad h),
    fun h => next_congr (command_bad h), fun h => next_congr (formeCommandIf_bad h), fun h => next_congr (formeCommandIf_bad h)⟩
  · have hplain : ∀ run, command d [] run s = finish d stBadParam 0 (cmdBegin d s) := fun _ => command_bad h
    exact ⟨next_congr (hplain _), next_congr (commandReply_bad h), next_congr (hplain _), next_congr (hplain _), next_congr (commandBlk_bad h),
      next_congr (hplain _), next_congr (hplain _), next_congr (hplain _), next_congr (commandReply_bad h),
      next_congr (formeCommandIf_bad h), next_congr (formeCommandIf_bad h), next_congr (formeBlk_bad h), next_congr (formeCommandIf_bad h)⟩
  · exact ⟨next_congr (command_bad h), next_congr (command_bad h), next_congr (formeBlk_bad h), next_congr (formeCommandIf_bad h),
      next_congr (formeCommandIf_bad h)⟩
  · exact ⟨next_congr (command_bad h), next_congr (command_bad h), next_congr (commandReply_bad h), next_congr (command_bad h),
      next_congr (linkCommand_bad h), next_congr (linkCommand_bad h), next_congr (linkCommand_bad h), next_congr (command_bad h)⟩
  · exact ⟨next_congr (command_bad h), next_congr (command_bad h)⟩

end Sys2Proof.Machine
end

section
/-!
# The press streams' instructions: issue, control and the ends of waits (O23, O24)
-/

namespace Sys2Proof.Machine

variable {s : State} {i : Issue}

/-! ## Issue -/

/-- An instruction whose row issues it where `issued` says: with that and a stream that may issue it runs, and without the latter nothing
changes. -/
theorem issue_completes {instr : Issue → Instr} {ok issued : Bool} {run : Issue → State → Act} (hm : (s.streamOf i).mark = none)
    (hx : exec (instr i) s = .next (issue issued run i s)) (hok : ok = true → issued = true) :
    (ok = true → mayIssue s i = true → s.dbg.enabled = false → i.fetch = .clean →
      exec (instr i) s = .next (settle i (run i (takeWord i s)))) ∧ (mayIssue s i = false → exec (instr i) s = .next s) :=
  ⟨fun h hi hd hf => hx.trans (next_congr (issue_ready issued run i s hm (hok h) hi hd hf)),
    fun hi => hx.trans (next_congr (issue_not issued run i s hm (.inr hi)))⟩

/-- Settles O23: every row is an issue of its own effect. -/
theorem streamInstructionsIssue : Obligations.StreamInstructionsIssue := by
  unfold Obligations.StreamInstructionsIssue
  intro i s hm w begun
  have hrow (instr : Issue → Instr) (ok : Bool) (run : Issue → State → Act) (hx : exec (instr i) s = .next (issue ok run i s)) :=
    issue_completes hm hx id
  have hnop := issue_completes (instr := .streamNop) (ok := wOp w == 0) (issued := wOp w == 0 || i.fetch == .unreadable) (run := nopAct)
    hm rfl (fun h => by rw [h]; rfl)
  simp only [List.forall_mem_cons]
  refine ⟨hnop, hrow _ _ _ rfl, hrow _ _ _ rfl, hrow _ _ _ rfl, hrow _ _ _ rfl, hrow _ _ _ rfl, hrow _ _ _ rfl, hrow _ _ _ rfl, hrow _ _ _ rfl,
    hrow _ _ _ rfl, hrow _ _ _ rfl, hrow _ _ _ rfl, hrow _ _ _ rfl, hrow _ _ _ rfl, hrow _ _ _ rfl, hrow _ _ _ rfl, hrow _ _ _ rfl,
    hrow _ _ _ rfl, hrow _ _ _ rfl, hrow _ _ _ rfl, hrow _ _ _ rfl, hrow _ _ _ rfl, hrow _ _ _ rfl, hrow _ _ _ rfl, hrow _ _ _ rfl,
    hrow _ _ _ rfl, hrow _ _ _ rfl, hrow _ _ _ rfl, hrow _ _ _ rfl, hrow _ _ _ rfl, hrow _ _ _ rfl, hrow _ _ _ rfl, hrow _ _ _ rfl,
    fun _ h => absurd h List.not_mem_nil⟩

/-! ## Control -/

theorem markAct_eq {v : Nat} {due : Option (Nat × Nat × Nat)} (h : wordItem i.word = .mark v due) (t : State) :
    markAct i t = .done (t.modStream i (fun st => { st with mark := some ⟨v + strideOf st.loop, due⟩, state := .markWait })) := by
  rw [markAct, h]

theorem loopAct_eq {b n stride : Nat} (h : wordItem i.word = .loop b n stride) (t : State) :
    loopAct i t = .done (t.modStream i (fun st => { st with loop := some ⟨st.pc + 1, b, n, 0, stride⟩ })) := by
  rw [loopAct, h]

/-- What a stream waits with goes on where it stood. -/
theorem retry_waits {p : Nat} {id : StreamId} {row : Bool} (hw : ((s.press p).stream id).waiting = some i)
    (hs : ((s.press p).stream id).state = .queueWait) (hr : ((s.press p).stream id).rowWait = row) (ht : s.tt.inStep = true)
    (hp : (s.press p).power = .stand) :
    retry p id row s = settle i (wordAct i.word i (s.modStream i (fun st => { st with state := .running }))) := by
  unfold retry
  dsimp only
  rw [hw]
  dsimp only
  rw [hs, hr, ht, hp]
  refine if_pos ?_
  cases row <;> rfl

theorem retry_none {p : Nat} {id : StreamId} {row : Bool} (hw : ((s.press p).stream id).waiting = none) : retry p id row s = s := by
  rw [retry, hw]

theorem retryAll_alone {p : Nat} {id : StreamId} {row : Bool} (h : (s.press p).m.side = none) : retryAll p id row s = retry p id row s := by
  have hside : retrySide p row s = s := by rw [retrySide, h]
  rw [retryAll, hside, ite_self]

/-- Settles O24: the control words are issues of their own effect, and an end of a wait is `retry`. -/
theorem streamControlCompletes : Obligations.StreamControlCompletes := by
  unfold Obligations.StreamControlCompletes
  refine ⟨fun i s hm hi hd hf => ?_, fun p id i s hside => ⟨fun hw hs hr ht hp => ?_, fun hw hs hr ht hp => ?_, fun hw => ?_, fun hw => ?_⟩⟩
  · have hissue : ∀ ok run, ok = true → issue ok run i s = settle i (run i (takeWord i s)) :=
      fun ok run hok => issue_ready ok run i s hm hok hi hd hf
    refine ⟨fun h => next_congr (hissue _ _ ?_), fun v due hitem h hb => next_congr ?_, fun v due hitem h hb => next_congr ?_,
      fun b n stride hitem h => next_congr ?_, fun h => next_congr (hissue _ _ ?_)⟩
    · rw [h]; rfl
    · rw [hissue _ _ (by rw [h, hb]; rfl), markAct_eq hitem]
    · rw [hissue _ _ (by rw [h, hb]; rfl), markAct_eq hitem]
    · rw [hissue _ _ (by rw [h]; rfl), loopAct_eq hitem]
    · rw [h]; rfl
  · exact next_congr ((retryAll_alone hside).trans (retry_waits hw hs hr ht hp))
  · exact next_congr ((retryAll_alone hside).trans (retry_waits (id := .m) hw hs hr ht hp))
  · exact next_congr ((retryAll_alone hside).trans (retry_none hw))
  · exact next_congr ((retryAll_alone hside).trans (retry_none (id := .m) hw))

end Sys2Proof.Machine
end

section
/-!
# Loads, passes and wide adds (O28)
-/

namespace Sys2Proof.Machine

variable {s : State} {i : Issue}

/-! ## One round of each loop -/

theorem wloadLoop_takes {n : Nat} (hlen : (s.prog i).held.length < elemEntries (wFormat i.word) (wPaired i.word) (wCount i.word) +
      scaleEntries (wFormat i.word) (wPaired i.word) (wCount i.word)) (hr : canRead s i.press.val 50 0 = true) :
    wloadLoop (n + 1) i s =
      wloadLoop n i (setProg i { s.prog i with held := (s.prog i).held ++ [(readPool i (s.prog i).held.length 50 0 s).1] }
        (popHead i.press.val 50 (readPool i (s.prog i).held.length 50 0 s).2)) :=
  (if_pos hlen).trans (if_pos hr)

theorem wloadLoop_ends {n : Nat} (hlen : ¬(s.prog i).held.length < elemEntries (wFormat i.word) (wPaired i.word) (wCount i.word) +
      scaleEntries (wFormat i.word) (wPaired i.word) (wCount i.word)) :
    wloadLoop (n + 1) i s = .done (s.modPress i.press.val (fun p =>
      let pl : Plane := ⟨wFormat i.word, wPaired i.word, wCount i.word,
        (s.prog i).held.take (elemEntries (wFormat i.word) (wPaired i.word) (wCount i.word)),
        (s.prog i).held.drop (elemEntries (wFormat i.word) (wPaired i.word) (wCount i.word))⟩
      if wFld i.word 0 1 = 0 then { p with plane0 := some pl } else { p with plane1 := some pl })) := if_neg hlen

/-- A bank's row is not RELEASED. -/
def RowFree (s : State) (p q row : Nat) : Prop := ∀ r, kget ((s.press p).bank q).rows row = some r → r.tag ≠ .released

theorem passLoop_takes {n : Nat} (hround : (s.prog i).round < wCount i.word)
    (hrow : RowFree s i.press.val (wDst i.word) (wFld i.word 0 8 + (s.prog i).round)) (hr : canRead s i.press.val 51 0 = true) :
    passLoop (n + 1) i s = passLoop n i (setProg i { s.prog i with round := (s.prog i).round + 1 }
      (passWave i (s.prog i).round (readPool i (256 + (s.prog i).round) 51 0 s).1
        (waveParity i (s.prog i).round (popHead i.press.val 51 (readPool i (256 + (s.prog i).round) 51 0 s).2)))) := by
  refine (if_neg (not_le.2 hround)).trans ?_
  dsimp only
  split
  next h => exact absurd rfl (hrow _ h)
  next => exact if_pos hr

theorem passLoop_ends {n : Nat} (hround : wCount i.word ≤ (s.prog i).round) : passLoop (n + 1) i s = .done s := if_pos hround

/-- What one wide entry, the `k`-th, does to its row (R87, R139). -/
def wideRound (i : Issue) (k : Nat) (s : State) : State :=
  let w := i.word
  let p := i.press.val
  let q := wDst w
  let row := wFld w 0 8
  let src := wSrcA w
  let read := readPool i k src 0 s
  let base := (kget ((s.press p).bank q).rows row).getD (freshRow (wideWindow read.1))
  let total := wideAdd read.1 base
  let mism := base.window != wideWindow read.1
  let t := (popHead p src read.2).modPress p (fun x =>
    putRow q row total.1 (wFld w 8 1 = 1 && k == 2) (noteRow total.2.1 total.2.2 mism { x with periods := x.periods + 1 }))
  setProg i ⟨k + 1, [], [], 0⟩ (if mism then rowHazard i 3 q row 0 t else t)

theorem vmod_same {α : Type} {n : Nat} {v : Vector α n} {k : Nat} {f : α → α} (h : ∀ x, f x = x) : vmod v k f = v := by
  unfold vmod
  split
  · rw [h]; simp
  · rfl

/-- A row whose cells' codes find nothing is read as it stands (R92). -/
theorem readCells_clean (h : i.read = .clean) (n : Nat) (r : AccRow) (s : State) : readCells i n r s = (r, s) := by
  have hfixed : sramFixed i.press.val 0 s = s :=
    congrArg (fun v => ({ s with presses := v } : State)) (vmod_same fun x => by simp)
  rw [readCells, h]
  exact congrArg (Prod.mk r) hfixed

theorem waddLoop_takes {n k : Nat} (hclean : i.read = .clean) (hk : k < 3) (hcount : wCount i.word = 1) (hprog : s.prog i = ⟨k, [], [], 0⟩)
    (hrow : RowFree s i.press.val (wDst i.word) (wFld i.word 0 8)) (hr : canRead s i.press.val (wSrcA i.word) 0 = true) :
    waddLoop (n + 1) i s = waddLoop n i (wideRound i k s) := by
  have hdiv : wFld i.word 0 8 + k / 3 = wFld i.word 0 8 := by omega
  have hmod : k % 3 = k := by omega
  rw [waddLoop]
  dsimp only
  rw [hprog, hcount]
  dsimp only
  rw [if_neg (by omega), hdiv, hmod]
  split
  next h => exact absurd rfl (hrow _ h)
  next =>
    rw [if_pos hr]
    simp only [readCells_clean hclean, ite_self]
    rfl

theorem waddLoop_ends {n : Nat} (hround : 3 * wCount i.word ≤ (s.prog i).round) : waddLoop (n + 1) i s = .done s := if_pos hround

theorem prog_modPress_same {f : Press → Press} (h : ∀ x, (f x).stream i.stream = x.stream i.stream) :
    (s.modPress i.press.val f).prog i = s.prog i := by
  rw [State.prog, State.prog, State.streamOf, State.streamOf, State.press_modPress_same _ _ _ i.press.isLt, h]

/-- Settles O28: one round of each loop, or three of a wide add, and the loop's end. -/
theorem matrixInstructionsComplete : Obligations.MatrixInstructionsComplete := by
  unfold Obligations.MatrixInstructionsComplete
  intro i s hstream hm hi hd hf w p begun
  have hissue : ∀ ok run, ok = true → issue ok run i s = settle i (run i (takeWord i s)) :=
    fun ok run hok => issue_ready ok run i s hm hok hi hd hf
  have hprog : begun.prog i = ⟨0, [], [], 0⟩ := prog_takeWord i s
  refine ⟨fun hop helem hscale hr => ?_, fun hop hcount hrow hr => ?_, fun hop hcount hclean hready => ?_⟩
  · refine next_congr ((hissue _ _ (by rw [hop, hstream]; rfl)).trans (congrArg (settle i) ?_))
    have htotal : elemEntries (wFormat i.word) (wPaired i.word) (wCount i.word) + scaleEntries (wFormat i.word) (wPaired i.word) (wCount i.word) = 1 := by
      rw [helem, hscale]
    refine (wloadLoop_takes (n := 511) (by rw [hprog, htotal]; decide) hr).trans ?_
    rw [hprog]
    refine (wloadLoop_ends (n := 510) (by rw [prog_setProg, htotal]; exact Nat.lt_irrefl 1)).trans ?_
    rw [prog_setProg, helem]
    rfl
  · have hprog' : (begun.modPress p (fun x => { x with activePlane := BitVec.ofNat 2 (wFld w 8 1) })).prog i = ⟨0, [], [], 0⟩ :=
      (prog_modPress_same fun x => by cases i.stream <;> rfl).trans hprog
    refine next_congr ((hissue _ _ (by rw [hop, hstream]; rfl)).trans (congrArg (settle i) ?_))
    refine (passLoop_takes (n := 256) (by rw [hprog', hcount]; decide) (by rw [hprog']; exact hrow) hr).trans ?_
    rw [hprog']
    exact passLoop_ends (n := 255) (by rw [prog_setProg, hcount])
  · refine next_congr ((hissue _ _ (by rw [hop, hstream]; rfl)).trans (congrArg (settle i) ?_))
    simp only [List.forall_mem_cons] at hready
    obtain ⟨⟨hr0, hrow0⟩, ⟨hr1, hrow1⟩, ⟨hr2, hrow2⟩, -⟩ := hready
    refine (waddLoop_takes (n := 768) hclean (by decide) hcount hprog hrow0 hr0).trans ?_
    refine (waddLoop_takes (n := 767) hclean (by decide) hcount (prog_setProg ..) hrow1 hr1).trans ?_
    refine (waddLoop_takes (n := 766) hclean (by decide) hcount (prog_setProg ..) hrow2 hr2).trans ?_
    exact waddLoop_ends (n := 765) (by rw [wideRound, prog_setProg, hcount])

end Sys2Proof.Machine
end

section
/-!
# What a push and a pop leave of the streams, and the mover's instructions (O29, O30)
-/

namespace Sys2Proof.Machine

variable {s base : State}

/-! ## Streams that stay as they are -/

/-- A press's three streams. -/
def Press.streams (p : Press) : Stream × Stream × Stream := (p.m, p.v, p.x)

/-- Every press's streams are those of `base`. -/
def State.SameStreams (base s : State) : Prop := ∀ p, (s.press p).streams = (base.press p).streams

theorem Press.stream_eq {p q : Press} (h : p.streams = q.streams) (id : StreamId) : p.stream id = q.stream id := by
  simp only [Press.streams, Prod.mk.injEq] at h
  obtain ⟨hm, hv, hx⟩ := h
  cases id
  · exact hm
  · exact hv
  · exact hx

theorem State.SameStreams.refl (s : State) : s.SameStreams s := fun _ => rfl

theorem State.SameStreams.of_presses {t : State} (hs : base.SameStreams s) (h : t.presses = s.presses) : base.SameStreams t := by
  intro p
  rw [← hs p, State.press, State.press, h]

theorem State.SameStreams.prog {i : Issue} (hs : base.SameStreams s) : s.prog i = base.prog i := by
  rw [State.prog, State.prog, State.streamOf, State.streamOf, Press.stream_eq (hs i.press.val)]

/-- A change of a press outside its streams. -/
theorem modPress_sameStreams {p : Nat} {f : Press → Press} (hs : base.SameStreams s) (h : ∀ x, (f x).streams = x.streams) :
    base.SameStreams (s.modPress p f) := by
  intro q
  rw [← hs q]
  by_cases hq : p = q
  · subst hq
    by_cases hp : p < 96
    · rw [State.press_modPress_same _ _ _ hp, h]
    · have : vmod s.presses p f = s.presses := dif_neg hp
      rw [State.press, State.modPress, this, State.press]
  · rw [State.press_modPress_other _ _ _ _ hq]

theorem ite_sameStreams {c : Prop} [Decidable c] {t u : State} (ht : base.SameStreams t) (hu : base.SameStreams u) :
    base.SameStreams (if c then t else u) := by
  split
  · exact ht
  · exact hu

theorem stepFault_sameStreams {code unit : Nat} (hs : base.SameStreams s) : base.SameStreams (stepFault code unit s) :=
  hs.of_presses (stepFault_presses code unit s)

theorem hazard_sameStreams {p kind stream other loc : Nat} {tag : BitVec 16} {icount : BitVec 32} (hs : base.SameStreams s) :
    base.SameStreams (hazard p kind stream tag icount other loc s) :=
  ite_sameStreams (modPress_sameStreams hs fun _ => rfl) hs

/-! ## The landing buffer -/

theorem touchLanding_sameStreams {p a g : Nat} {write : Bool} (hs : base.SameStreams s) : base.SameStreams (touchLanding p a g write s) := by
  have ht := modPress_sameStreams (p := p) (f := fun x => { x with touchLand := (a, write) :: x.touchLand }) hs fun _ => rfl
  exact ite_sameStreams (ite_sameStreams (hazard_sameStreams ht) ht) hs

theorem landRead_sameStreams {p : Nat} (hs : base.SameStreams s) : base.SameStreams (landRead p s) := by
  unfold landRead
  extract_lets pr a bad r t
  have ht : base.SameStreams t := modPress_sameStreams (touchLanding_sameStreams hs) fun _ => rfl
  exact ite_sameStreams hs (ite_sameStreams (stepFault_sameStreams ht) ht)

theorem landPump_sameStreams {p : Nat} : ∀ {n : Nat} {s : State}, base.SameStreams s → base.SameStreams (landPump n p s)
  | 0, _, hs => hs
  | n + 1, s, hs => by
    have hl := landRead_sameStreams (p := p) hs
    rw [landPump]
    split
    · exact hl
    · split
      · split
        · exact hl
        · exact landPump_sameStreams (modPress_sameStreams (modPress_sameStreams hl fun _ => rfl) fun _ => rfl)
      · exact hl

/-! ## Pops -/

theorem popHead_sameStreams {p q : Nat} (hs : base.SameStreams s) : base.SameStreams (popHead p q s) := by
  unfold popHead
  refine ite_sameStreams hs ?_
  split
  · extract_lets t
    have ht : base.SameStreams t := modPress_sameStreams hs fun _ => rfl
    exact ite_sameStreams (landPump_sameStreams ht) ht
  · refine ite_sameStreams ?_ hs
    have hl := landRead_sameStreams (p := p) hs
    extract_lets t
    split
    · exact hl
    · exact landPump_sameStreams (modPress_sameStreams hl fun _ => rfl)

theorem Press.modBank_streams (x : Press) (q : Nat) (f : Bank → Bank) : (x.modBank q f).streams = x.streams := by
  unfold Press.modBank
  split <;> rfl

theorem popSrc_sameStreams {p q : Nat} (hs : base.SameStreams s) : base.SameStreams (popSrc p q s) := by
  refine ite_sameStreams (modPress_sameStreams hs fun x => ?_) (popHead_sameStreams hs)
  split
  · rfl
  · exact Press.modBank_streams _ _ _

/-! ## Pushes -/

theorem poolRead_sameStreams {p : Nat} {x : EntryEcc} {e : Entry} (hs : base.SameStreams s) : base.SameStreams (poolRead p x e s).2 := by
  have ht : base.SameStreams (sramFixed p x.corrected s) := modPress_sameStreams hs fun _ => rfl
  unfold poolRead
  extract_lets t
  split
  · exact stepFault_sameStreams (modPress_sameStreams ht fun _ => rfl)
  · exact ht

theorem outbound_sameStreams {p : Nat} {e : Entry} (hs : base.SameStreams s) : base.SameStreams (outbound p e s) := by
  unfold outbound
  extract_lets
  split
  · exact hs
  · extract_lets _ _ _ _ _ _ t _ _ _ _ _ u
    have ht : base.SameStreams t := modPress_sameStreams hs fun _ => rfl
    have hu : base.SameStreams u := (modPress_sameStreams (p := p) (f := fun q => { q with outHold := [] }) ht fun _ => rfl).of_presses rfl
    refine ite_sameStreams ?_ (ite_sameStreams (hu.of_presses rfl) (modPress_sameStreams ht fun _ => rfl))
    split
    · exact ht
    · split
      · exact ht.of_presses rfl
      · exact ht

theorem foutPump_sameStreams {p : Nat} : ∀ {n : Nat} {s : State}, base.SameStreams s → base.SameStreams (foutPump n p s)
  | 0, _, hs => hs
  | n + 1, s, hs => by
    rw [foutPump]
    split
    · exact hs
    · refine ite_sameStreams (foutPump_sameStreams (outbound_sameStreams (poolRead_sameStreams (modPress_sameStreams hs fun _ => rfl)))) ?_
      exact ite_sameStreams hs (modPress_sameStreams (modPress_sameStreams hs fun _ => rfl) fun _ => rfl)

theorem push_sameStreams {p q : Nat} {e : Entry} {found : EntryEcc} (hs : base.SameStreams s) : base.SameStreams (push p q e found s) := by
  unfold push
  refine ite_sameStreams hs ?_
  extract_lets t
  have ht : base.SameStreams t := modPress_sameStreams hs fun _ => rfl
  refine ite_sameStreams (foutPump_sameStreams (modPress_sameStreams ht fun _ => rfl)) ?_
  exact ite_sameStreams (modPress_sameStreams ht fun _ => rfl) ht

/-- A push by an instruction counts in its progress, and changes no more of it. -/
theorem prog_pushBy (i : Issue) (e : Entry) (s : State) : (pushBy i e s).prog i = { s.prog i with pushed := (s.prog i).pushed + 1 } := by
  unfold pushBy
  rw [(push_sameStreams (State.SameStreams.refl _)).prog, prog_setProg]

theorem prog_popSrc (i : Issue) (p q : Nat) (s : State) : (popSrc p q s).prog i = s.prog i :=
  (popSrc_sameStreams (State.SameStreams.refl s)).prog

/-! ## One round of each loop of the mover -/

variable {i : Issue} {n : Nat}

theorem fetchLoop_takes {addr : Nat → State → Nat} (hround : (s.prog i).round < wCount i.word) (hp : canPush s i.press.val (wDst i.word) = true) :
    let a := addr (s.prog i).round s
    let read := readStore i (s.prog i).round a (touchX i a false s)
    fetchLoop addr (n + 1) i s = fetchLoop addr n i (pushBy i read.1 (setProg i { s.prog i with round := (s.prog i).round + 1 } read.2)) :=
  (if_neg (not_le.2 hround)).trans (if_pos hp)

theorem fetchLoop_ends {addr : Nat → State → Nat} (hround : wCount i.word ≤ (s.prog i).round) : fetchLoop addr (n + 1) i s = .done s := if_pos hround

theorem storeLoop_takes {addr : Nat → State → Nat} (hround : (s.prog i).round < wCount i.word) (hr : canRead s i.press.val (wSrcA i.word) 0 = true) :
    let a := addr (s.prog i).round s
    let read := readPool i (s.prog i).round (wSrcA i.word) 0 s
    let t := (touchX i a true (popHead i.press.val (wSrcA i.word) read.2)).modPress i.press.val (fun y => { y with store := memPutEntry y.store a read.1 })
    storeLoop addr (n + 1) i s = storeLoop addr n i (setProg i { s.prog i with round := (s.prog i).round + 1 } t) :=
  (if_neg (not_le.2 hround)).trans (if_pos hr)

theorem storeLoop_ends {addr : Nat → State → Nat} (hround : wCount i.word ≤ (s.prog i).round) : storeLoop addr (n + 1) i s = .done s := if_pos hround

theorem moveLoop_takes {k : Nat} (hprog : s.prog i = ⟨k, [], [], 0⟩) (hround : k < wCount i.word)
    (hr : canRead s i.press.val (wSrcA i.word) (if wFld i.word 1 1 = 1 then k else 0) = true) :
    let read := readPool i k (wSrcA i.word) (if wFld i.word 1 1 = 1 then k else 0) s
    moveLoop (n + 1) i s = moveLoop n i (setProg i ⟨k + 1, [], [read.1], 0⟩
      (if wFld i.word 1 1 = 1 then read.2 else popHead i.press.val (wSrcA i.word) read.2)) := by
  rw [moveLoop]
  dsimp only
  rw [hprog]
  exact (if_neg (not_le.2 hround)).trans (if_pos hr)

theorem moveLoop_passes {k : Nat} {e : Entry} (hprog : s.prog i = ⟨k, [], [e], 0⟩) (hp : canPush s i.press.val (wDst i.word) = true) :
    moveLoop (n + 1) i s = moveLoop n i (pushBy i e (setProg i ⟨k, [], [], 0⟩ s)) := by
  rw [moveLoop]
  dsimp only
  rw [hprog]
  exact if_pos hp

theorem moveLoop_ends (hout : (s.prog i).out = []) (hround : wCount i.word ≤ (s.prog i).round) : moveLoop (n + 1) i s = .done s := by
  rw [moveLoop]
  dsimp only
  rw [hout]
  exact if_pos hround

/-- A row whose cells' codes find nothing is read from its bank as it stands. -/
theorem readBank_clean (h : i.read = .clean) (k q row : Nat) (r : AccRow) (s : State) : readBank i k q row r s = (r, s) := by
  rw [readBank, readCells_clean h, h]
  rfl

/-- What one wide entry, the `part`-th of its row, does (R87, R144). -/
def widePart (i : Issue) (k : Nat) (row : AccRow) (part : Nat) (s : State) : State :=
  let t := pushBy i (wideEntry k part row) s
  setProg i ⟨part + 1, [], [], part + 1⟩ (if part = 2 then popSrc i.press.val (wSrcA i.word) t else t)

theorem wideLoop_takes {k part : Nat} {row : AccRow} (hclean : i.read = .clean) (hpart : part < 3) (hcount : wCount i.word = 1)
    (hprog : s.prog i = ⟨part, [], [], part⟩) (hrow : ((s.press i.press.val).bank (wSrcA i.word)).oldest = some (k, row))
    (hp : canPush s i.press.val (wDst i.word) = true) : wideLoop (n + 1) i s = wideLoop n i (widePart i k row part s) := by
  have hmod : part % 3 = part := Nat.mod_eq_of_lt hpart
  have hafter : ∀ t : State, t.prog i = ⟨part, [], [], part + 1⟩ → { t.prog i with round := part + 1 } = (⟨part + 1, [], [], part + 1⟩ : Progress) := by
    intro t ht
    rw [ht]
  have hpush : (pushBy i (wideEntry k part row) s).prog i = ⟨part, [], [], part + 1⟩ := by rw [prog_pushBy, hprog]
  have hlast : (if part = 2 then popSrc i.press.val (wSrcA i.word) (pushBy i (wideEntry k part row) s)
      else pushBy i (wideEntry k part row) s).prog i = ⟨part, [], [], part + 1⟩ := by
    split
    · rw [prog_popSrc, hpush]
    · exact hpush
  rw [wideLoop]
  dsimp only
  rw [hprog, hcount, hrow]
  dsimp only
  rw [if_neg (by omega), if_pos hp, hmod]
  simp only [readBank_clean hclean, ite_self]
  rw [hafter _ hlast]
  rfl

theorem wideLoop_ends (hround : 3 * wCount i.word ≤ (s.prog i).round) : wideLoop (n + 1) i s = .done s := if_pos hround

/-- Settles O29: one round of each loop, or three of a wide move, and the loop's end. -/
theorem movesComplete : Obligations.MovesComplete := by
  unfold Obligations.MovesComplete
  intro i s hstream hcount hm hi hd hf w p begun
  have hissue : ∀ ok run, ok = true → issue ok run i s = settle i (run i (takeWord i s)) :=
    fun ok run hok => issue_ready ok run i s hm hok hi hd hf
  have hprog : begun.prog i = ⟨0, [], [], 0⟩ := prog_takeWord i s
  have hfetch : ∀ addr, canPush begun p (wDst w) = true →
      let read := readStore i 0 (addr 0 begun) (touchX i (addr 0 begun) false begun)
      fetchLoop addr 4097 i begun = .done (pushBy i read.1 (setProg i ⟨1, [], [], 0⟩ read.2)) := by
    intro addr hp read
    refine (fetchLoop_takes (n := 4096) (by rw [hprog, hcount]; decide) hp).trans ?_
    rw [hprog]
    exact fetchLoop_ends (n := 4095) (by rw [prog_pushBy, prog_setProg, hcount])
  have hstore : ∀ addr, canRead begun p (wSrcA w) 0 = true →
      let a := addr 0 begun
      let read := readPool i 0 (wSrcA w) 0 begun
      let t := (touchX i a true (popHead p (wSrcA w) read.2)).modPress p (fun y => { y with store := memPutEntry y.store a read.1 })
      storeLoop addr 4097 i begun = .done (setProg i ⟨1, [], [], 0⟩ t) := by
    intro addr hr a read t
    refine (storeLoop_takes (n := 4096) (by rw [hprog, hcount]; decide) hr).trans ?_
    rw [hprog]
    exact storeLoop_ends (n := 4095) (by rw [prog_setProg, hcount])
  simp only [List.forall_mem_cons, List.not_mem_nil, false_implies, implies_true, and_true]
  refine ⟨⟨fun hop hp => ?_, fun hop hp => ?_⟩, ⟨fun hop hr => ?_, fun hop hr => ?_⟩, fun hop hwide hr hp => ?_, fun k row hop hwide hclean hready => ?_⟩
  · exact next_congr ((hissue _ _ (by rw [hop, hstream]; rfl)).trans (congrArg (settle i) (hfetch _ hp)))
  · exact next_congr ((hissue _ _ (by rw [hop, hstream]; rfl)).trans (congrArg (settle i) (hfetch _ hp)))
  · exact next_congr ((hissue _ _ (by rw [hop, hstream]; rfl)).trans (congrArg (settle i) (hstore _ hr)))
  · exact next_congr ((hissue _ _ (by rw [hop, hstream]; rfl)).trans (congrArg (settle i) (hstore _ hr)))
  · refine next_congr ((hissue _ _ (by rw [hop, hstream, hwide]; rfl)).trans (congrArg (settle i) ?_))
    have hfirst : (if wFld i.word 1 1 = 1 then 0 else 0) = 0 := ite_self 0
    refine (moveLoop_takes (n := 8199) hprog (by rw [hcount]; decide) (by rw [hfirst]; exact hr)).trans ?_
    rw [hfirst]
    refine (moveLoop_passes (n := 8198) (prog_setProg ..) hp).trans ?_
    exact moveLoop_ends (n := 8197) (by rw [prog_pushBy, prog_setProg]) (by rw [prog_pushBy, prog_setProg, hcount])
  · refine next_congr ((hissue _ _ (by rw [hop, hstream, hwide]; rfl)).trans (congrArg (settle i) ?_))
    obtain ⟨⟨hrow0, hp0⟩, ⟨hrow1, hp1⟩, hrow2, hp2⟩ := hready
    refine (wideLoop_takes (n := 768) hclean (by decide) hcount hprog hrow0 hp0).trans ?_
    refine (wideLoop_takes (n := 767) hclean (by decide) hcount (prog_setProg ..) hrow1 hp1).trans ?_
    refine (wideLoop_takes (n := 766) hclean (by decide) hcount (prog_setProg ..) hrow2 hp2).trans ?_
    exact wideLoop_ends (n := 765) (by rw [widePart, prog_setProg, hcount])

/-! ## Requests -/

theorem wrapAdd_zero {w : Nat} (x : BitVec w) : wrapAdd x 0 = x := by simp [wrapAdd]

/-- The items of a direct request: COUNT entries from its first address, none voided and none refused. -/
theorem requestLoop_direct {write far : Bool} (hdirect : reqIndirect i.word = false)
    (hlen : ¬(s.prog i).held.length < if write then wCount i.word else 0) :
    requestLoop write far (n + 1) i s = .done (sendRequest i.press write far ((List.range (wCount i.word)).map (fun (j : Nat) =>
      ((s.region far).1 + (reqBase i s + j).toNat, (s.prog i).held.getD j 0, true))) s) := by
  have hlists : reqLists i.word = 0 := by rw [reqLists, hdirect]; rfl
  have hflags : ∀ lists addrs, writeFlags i far lists addrs s = addrs.map (fun x => (true, false, x.2)) := by
    intro lists addrs
    simp [writeFlags, hdirect]
  rw [requestLoop]
  dsimp only
  rw [hlists, Nat.zero_add, if_neg hlen, hflags, ite_self]
  have haddrs : ∀ lists, reqAddrs i lists far s = (List.range (wCount i.word)).map (fun (j : Nat) => ((reqBase i s + j).toNat, 0)) := by
    intro lists
    simp [reqAddrs, hdirect]
  have hitems : ∀ (addrs : List (Nat × Nat)) (held : List Entry) (base : Nat),
      (addrs.zip (addrs.map (fun x => (true, false, x.2)))).mapIdx (fun k x => (base + x.1.1, held.getD (0 + k) 0, x.2.1)) =
        addrs.mapIdx (fun k x => (base + x.1, held.getD k 0, true)) := by
    intro addrs held base
    refine List.ext_getElem (by simp) fun k _ _ => by simp
  rw [haddrs, hitems]
  simp only [List.filter_map, Function.comp_def, Bool.not_true, Bool.false_and, List.filter_false, List.map_nil, List.dedup_nil, List.length_nil,
    wrapAdd_zero]
  congr 2
  exact List.ext_getElem (by simp) fun k _ _ => by simp

/-- A direct write of one entry takes its data first. -/
theorem requestLoop_takes {far : Bool} (hdirect : reqIndirect i.word = false) (hprog : s.prog i = ⟨0, [], [], 0⟩) (hcount : wCount i.word = 1)
    (hr : canRead s i.press.val (wSrcA i.word) 0 = true) :
    let read := readPool i 0 (wSrcA i.word) 0 s
    requestLoop true far (n + 1) i s = requestLoop true far n i (setProg i ⟨0, [read.1], [], 0⟩ (popHead i.press.val (wSrcA i.word) read.2)) := by
  have hlists : reqLists i.word = 0 := by rw [reqLists, hdirect]; rfl
  rw [requestLoop]
  dsimp only
  rw [hlists, hprog, hcount]
  exact if_pos hr

/-- Settles O30: what a direct request takes, and the items that it sends. -/
theorem requestsComplete : Obligations.RequestsComplete := by
  unfold Obligations.RequestsComplete
  intro i s hstream hdirect hm hi hd hf w p begun
  have hissue : ∀ ok run, ok = true → issue ok run i s = settle i (run i (takeWord i s)) :=
    fun ok run hok => issue_ready ok run i s hm hok hi hd hf
  have hprog : begun.prog i = ⟨0, [], [], 0⟩ := prog_takeWord i s
  have hread : ∀ far, requestLoop false far 5000 i begun = .done (sendRequest i.press false far ((List.range (wCount w)).map (fun (j : Nat) =>
      ((s.region far).1 + (reqBase i begun + j).toNat, 0, true))) begun) := by
    intro far
    refine (requestLoop_direct (n := 4999) hdirect (by rw [hprog]; exact Nat.lt_irrefl 0)).trans ?_
    rw [hprog]
    rfl
  have hwrite : ∀ far, wCount w = 1 → canRead begun p (wSrcA w) 0 = true →
      let read := readPool i 0 (wSrcA w) 0 begun
      let t := setProg i ⟨0, [read.1], [], 0⟩ (popHead p (wSrcA w) read.2)
      requestLoop true far 5000 i begun = .done (sendRequest i.press true far [((t.region far).1 + (reqBase i t).toNat, read.1, true)] t) := by
    intro far hcount hr read t
    refine (requestLoop_takes (n := 4999) hdirect hprog hcount hr).trans ?_
    refine (requestLoop_direct (n := 4998) hdirect (by rw [prog_setProg, hcount]; exact Nat.lt_irrefl 1)).trans ?_
    rw [prog_setProg, hcount]
    show Act.done (sendRequest i.press true far [((t.region far).1 + (reqBase i t + (0 : Nat)).toNat, read.1, true)] t) = _
    rw [Int.natCast_zero, Int.add_zero]
  simp only [List.forall_mem_cons, List.not_mem_nil, false_implies, implies_true, and_true]
  refine ⟨⟨fun hop => ?_, fun hop => ?_⟩, fun hop hcount hr => ?_, fun hop hcount hr => ?_⟩
  · exact next_congr ((hissue _ _ (by rw [hop, hstream]; rfl)).trans (congrArg (settle i) (hread _)))
  · exact next_congr ((hissue _ _ (by rw [hop, hstream]; rfl)).trans (congrArg (settle i) (hread _)))
  · exact next_congr ((hissue _ _ (by rw [hop, hstream]; rfl)).trans (congrArg (settle i) (hwrite _ hcount hr)))
  · exact next_congr ((hissue _ _ (by rw [hop, hstream]; rfl)).trans (congrArg (settle i) (hwrite _ hcount hr)))

end Sys2Proof.Machine
end

section
/-!
# The units with a list of their own: sequencers, far ports, despatchers, sampler (O31, O32, O33)
-/

namespace Sys2Proof.Machine

/-! ## Near channels and far ports -/

/-- Settles O31: each arm's guards decided by what stands at the front of the unit's list. -/
theorem memoryUnitsComplete : Obligations.MemoryUnitsComplete := by
  unfold Obligations.MemoryUnitsComplete
  dsimp only
  refine ⟨fun c res s r => ⟨fun q rest hrec hkind hfree htake => ?_, fun hrec hkind hfree htake => ?_, fun slot q rest htake => ?_,
    fun hin hrec hkind hfree => ?_, fun hin hrec hkind hfree => ?_, fun hin hgap => ⟨?_, ?_⟩, fun hrec => ?_, fun hrec => ?_, fun hrec => ?_⟩,
    fun f res s r => ⟨fun q rest hready hin hrec hkind htake => ?_, fun hready hin hrec hkind htake => ?_, fun hready hin hrec hkind => ?_,
    fun hready hin hgap => ?_, fun hready => ?_, fun hrec => ?_, fun hrec => ?_, fun hrec => ?_, rfl, rfl, rfl,
    fun width speed capacity hbox hclk hready => ?_⟩⟩
  · show execSeqSlotPress c res s = _
    simp [execSeqSlotPress, hrec, hkind, hfree, htake]
  · show execSeqSlotPress c res s = _
    simp [execSeqSlotPress, hrec, hkind, hfree, htake]
  · show execPortionArrival c slot s = _
    simp [execPortionArrival, htake]
  · show execSeqSlotHost c res s = _
    simp [execSeqSlotHost, hin, hrec, hkind, hfree]
  · show execSeqSlotFirmware c res s = _
    simp [execSeqSlotFirmware, hin, hrec, hkind, hfree]
  · show execSeqSlotHost c res s = _
    simp [execSeqSlotHost, hin, hgap]
  · show execSeqSlotFirmware c res s = _
    simp [execSeqSlotFirmware, hin, hgap]
  · show execSeqMark c s = _
    simp [execSeqMark, hrec]
  · show execSeqLoop c s = _
    simp [execSeqLoop, hrec]
  · show execSeqEnd c s = _
    simp [execSeqEnd, hrec]
  · show execFarStreamSlot f res s = _
    simp [execFarStreamSlot, hready, hin, hrec, hkind, htake]
  · show execFarStreamSlot f res s = _
    simp [execFarStreamSlot, hready, hin, hrec, hkind, htake]
  · show execFarStreamSlot f res s = _
    simp [execFarStreamSlot, hready, hin, hrec, hkind]
  · show execFarStreamSlot f res s = _
    simp [execFarStreamSlot, hready, hin, hgap]
  · show execFarStreamSlot f res s = _
    simp [execFarStreamSlot, hready]
  · show execFarStreamMark f s = _
    simp [execFarStreamMark, hrec]
  · show execFarStreamLoop f s = _
    simp [execFarStreamLoop, hrec]
  · show execFarStreamEnd f s = _
    simp [execFarStreamEnd, hrec]
  · show execFarPortReady f width speed capacity s = _
    rw [execFarPortReady, hbox, hclk, hready]
    rfl

/-! ## Despatchers and landings -/

theorem landCovers_eq_false {pr : Press} {src : Nat}
    (h : sumOf ((pr.landRecords.filter (fun x => x.1 == src)).map (·.2)) ≤ (pr.landBuf.filter (fun x => x.1 == src)).length) :
    landCovers pr src = false := decide_eq_false (Nat.not_lt.2 h)

theorem landCovers_eq_true {pr : Press} {src : Nat}
    (h : (pr.landBuf.filter (fun x => x.1 == src)).length < sumOf ((pr.landRecords.filter (fun x => x.1 == src)).map (·.2))) :
    landCovers pr src = true := decide_eq_true h

/-- Settles O32: each arm's guards decided by the despatcher's list and queue, and by what the press still expects. -/
theorem despatcherCommandsComplete : Obligations.DespatcherCommandsComplete := by
  unfold Obligations.DespatcherCommandsComplete
  dsimp only
  refine ⟨fun p s r => ⟨fun hrec hbusy => ?_, fun o rest hfree hbusy htake => ⟨fun hready => ?_, fun hready hroom => ?_, fun hready hroom => ?_⟩,
    fun hfree hbusy htake => ?_, fun hrec => ?_, fun hrec => ?_, fun hrec => ?_⟩,
    fun p source s a hfind => ⟨fun hkind => ?_, fun hkind x rest htake => ?_,
      fun hkind htake => ⟨fun hcovered => ?_, fun hcovered t hfin => ?_, fun hcovered hfin => ?_⟩⟩⟩
  · show execPointsSlot p s = _
    simp [execPointsSlot, hrec, hbusy]
  · show execPacketRelease p s = _
    simp [execPacketRelease, hfree, hbusy, htake, hready]
  · show execPacketRelease p s = _
    simp [execPacketRelease, hfree, hbusy, htake, hready, hroom]
  · show execPacketRelease p s = _
    simp [execPacketRelease, hfree, hbusy, htake, hready, hroom]
  · show execPacketRelease p s = _
    simp [execPacketRelease, hfree, hbusy, htake]
  · show execPointsMark p s = _
    simp [execPointsMark, hrec]
  · show execPointsLoop p s = _
    simp [execPointsLoop, hrec]
  · show execPointsEnd p s = _
    simp [execPointsEnd, hrec]
  · show execLandingArrival p source s = _
    simp [execLandingArrival, hfind, hkind]
  · show execLandingArrival p source s = _
    simp [execLandingArrival, hfind, hkind, htake]
  · show execLandingArrival p source s = _
    simp [execLandingArrival, hfind, hkind, htake, landCovers_eq_false hcovered]
  · show execLandingArrival p source s = _
    simp [execLandingArrival, hfind, hkind, htake, landCovers_eq_true hcovered, hfin]
  · show execLandingArrival p source s = _
    simp [execLandingArrival, hfind, hkind, htake, landCovers_eq_true hcovered, hfin]

/-! ## The sampler -/

/-- Settles O33: each arm's guards decided by what stands at the front of the mark list. -/
theorem samplerCommandsComplete : Obligations.SamplerCommandsComplete := by
  unfold Obligations.SamplerCommandsComplete
  dsimp only
  refine fun s r plan => ⟨fun hrec hplan hstop => ?_, fun hrec hdue => ⟨fun hmark => ?_, fun m hmark => ?_⟩, fun hrec hdue => ?_,
    fun hrec => ?_, fun hrec => ?_⟩
  · show execSamplerRows s = _
    simp [execSamplerRows, hrec, hplan, hstop]
  · show execSamplerDueMark s = _
    simp [execSamplerDueMark, hrec, hdue, hmark]
  · show execSamplerDueMark s = _
    simp [execSamplerDueMark, hrec, hdue, hmark]
  · show execSamplerDepartMark s = _
    simp [execSamplerDepartMark, hrec, hdue]
  · show execSamplerLoop s = _
    simp [execSamplerLoop, hrec]
  · show execSamplerEnd s = _
    simp [execSamplerEnd, hrec]

end Sys2Proof.Machine
end

section
/-!
# A launch records the count at which it was due (O34)

The statement's clause for a launch lists the fields that the launch sets and leaves out `tt.launchCount`, which the model sets to the
count that was announced. With a launch announced for count 1 and the count of the launch before it 0, the two differ.
-/

namespace Sys2Proof.Machine

/-- A forme of one chip with nothing to do. -/
def idleForme : Forme where
  tt := ⟨0, 1, 1, [0], [], 0, 0, 0, 0, 0, [0xFFFFFFFF]⟩
  serving := ⟨0, [0], 1, 1, 1, 0, [1], 256, 1, 1, 1, 1, 0, 0, 1, 0, [], []⟩
  sampler := none
  tensors := []
  flows := []
  dests := []
  keyCount := 1
  treeRoutes := []
  chip := ⟨[], 0, 0, [], [], [], ⟨[], [], none⟩, [], []⟩

/-- That forme started, its programs copied, and its launch announced for count 1, which has come. -/
def dueLaunch : State :=
  { State.reset with
    forme := { State.reset.forme with state := .started, forme := some idleForme }
    tt.copied := true, tt.nextLaunch := some 1, fw.boot := .running, power.chipState := 0, time.ns := 2 ^ 40 }

/-- The count of the latest launch in the state that an outcome leaves. -/
def launchedAt : Out → Option Nat
  | .next t => some t.tt.launchCount
  | _ => none

/-- The launch of `dueLaunch` is recorded at count 1. -/
theorem dueLaunch_launchedAt : launchedAt (exec .launch dueLaunch) = some 1 := by decide +kernel

/-- Refutes O34: the launch sets `launchCount`, which the statement's clause keeps as it was. -/
theorem not_launchCompletes : ¬ Obligations.LaunchCompletes := by
  unfold Obligations.LaunchCompletes
  rintro ⟨hlaunch, -⟩
  obtain ⟨-, -, hmade⟩ := hlaunch dueLaunch
  have hnext := hmade 1 idleForme rfl (by decide +kernel) rfl
  have hcount := dueLaunch_launchedAt
  rw [hnext] at hcount
  exact absurd hcount (by decide +kernel)

end Sys2Proof.Machine
end

section
/-!
# Holds, the barrier and the announcements (O35, O36, O37)
-/

namespace Sys2Proof.Machine

/-- Settles O35: each arm's guards decided by the clause's hypotheses. -/
theorem holdCommandsComplete : Obligations.HoldCommandsComplete := by
  unfold Obligations.HoldCommandsComplete
  dsimp only
  refine ⟨fun u c b s => ⟨fun hin hdrain hmarks htest hwork hopen => ?_, rfl, rfl, fun hopen => ?_⟩,
    fun s => ⟨fun hin hdrain hend hholds hunits => ?_, fun hin hdrain hover => ?_, fun hnot => ?_, fun f hforme hin hdrain hlimit => ?_⟩⟩
  · show execReadinessTest u s = _
    rcases hwork with hwork | hwork
    · simp [execReadinessTest, hin, hdrain, hmarks, Nat.not_lt.2 htest, hwork, hopen] <;> rfl
    · simp only [Bool.and_eq_true, Bool.not_eq_true'] at hwork
      obtain ⟨hdue, habsent⟩ := hwork
      simp [execReadinessTest, hin, hdrain, hmarks, Nat.not_lt.2 htest, hdue, habsent, hopen] <;> rfl
  · show execFirmwareServiceIntrusion b s = _
    rw [execFirmwareServiceIntrusion, hopen]
    rfl
  · show execEndCountReached s = _
    simp [execEndCountReached, hin, hdrain, hend, hholds, hunits]
  · show execDrainComplete s = _
    simp [execDrainComplete, hin, hdrain, hover]
  · show execDrainComplete s = _
    rcases hnot with h | h
    · simp [execDrainComplete, h]
    · simp [execDrainComplete, h]
  · show execDrainLimitExpiry s = _
    simp [execDrainLimitExpiry, hforme, hin, hdrain, Nat.not_lt.2 hlimit]

/-! ## The barrier -/

theorem rootCause_tt (s : State) : (rootCause s).2.2.tt = s.tt := by
  unfold rootCause
  split <;> rfl

/-- Settles O36: each arm's guards decided by the clause's hypotheses. -/
theorem barrierCommandsComplete : Obligations.BarrierCommandsComplete := by
  unfold Obligations.BarrierCommandsComplete
  dsimp only
  refine ⟨fun u s h hfind hin hdrain => ⟨fun hrun hkind hpast => ?_, fun hrun hpast => ?_, fun hpast hrun => ?_⟩,
    fun child body s => ⟨fun hloaded hchild => ⟨fun hready hstep hatt hsent => ?_, fun hstatus hready hfits => ?_, fun hstatus => ?_⟩,
      fun t hcount hcmd hready hpast hfetches => ?_⟩,
    fun s => ⟨fun hroot hstarted hdecided hlaunch => ⟨fun t hcmd hsent hcount hpast => ?_, fun hcmd hdrained hin hstopped => ?_⟩,
      fun hreported hroot => ?_, fun hnot => ?_⟩⟩
  · show execPlanWatchdogExpiry u s = _
    have hcase : (h.kind == .due || isDespatcher u) = true := by
      rcases hkind with hkind | hkind
      · rw [hkind]; rfl
      · rw [hkind, Bool.or_true]
    simp [execPlanWatchdogExpiry, hfind, hin, hdrain, hrun, hcase, hpast, fcWatchdog]
  · show execPlanWatchdogExpiry u s = _
    simp [execPlanWatchdogExpiry, hfind, hin, hdrain, hrun, hpast]
  · show execPlanWatchdogExpiry u s = _
    simp [execPlanWatchdogExpiry, hfind, hin, hdrain, hrun, hpast]
  · show execBarrierReport child body s = _
    simp [execBarrierReport, hloaded, List.contains_iff_mem.1 hchild, hready, hstep, hatt, hsent, rsStop, rsReady]
  · show execBarrierReport child body s = _
    simp [execBarrierReport, hloaded, List.contains_iff_mem.1 hchild, hready, hfits, Nat.not_lt.2 hstatus]
  · show execBarrierReport child body s = _
    simp [execBarrierReport, hstatus]
  · show execStartCountReached s = _
    simp [execStartCountReached, hcount, Option.isSome_iff_ne_none.1 hcmd, hready, Nat.not_lt.2 hpast, hfetches]
  · show execBarrierTimeout s = _
    simp [execBarrierTimeout, hroot, hstarted, hdecided, hlaunch, hcmd, hsent, hcount, Nat.not_lt.2 hpast]
  · show execBarrierTimeout s = _
    by_cases hfault : s.tt.fault = 0#8
    · simp [execBarrierTimeout, hroot, hstarted, hdecided, hlaunch, hcmd, hdrained, hin, hstopped, hfault]
    · simp [execBarrierTimeout, hroot, hstarted, hdecided, hlaunch, hcmd, hdrained, hin, hstopped, hfault]
  · show execAnnounceTimeout s = _
    simp [execAnnounceTimeout, hreported, hroot, rootCause_tt]
  · show execAnnounceTimeout s = _
    rcases hnot with h | h
    · simp [execAnnounceTimeout, h]
    · simp [execAnnounceTimeout, h]

/-! ## Announcements -/

/-- Settles O37: each arm's guards decided by the clause's hypotheses. -/
theorem announcementsComplete : Obligations.AnnouncementsComplete := by
  unfold Obligations.AnnouncementsComplete
  dsimp only
  refine fun body s => ⟨fun hfits => ?_, fun hfits => ?_, fun hfits => ?_, fun hdec hstate hroot hlaunch hstep hatt hcmd =>
    ⟨fun hreported => ?_, fun hreported hin => ?_⟩, fun hdec hstate hroot hdecided => ?_, fun hdec hstate hroot hcmd hstep hatt hlaunch => ?_,
    fun hdec hstate hroot hloaded hstep hatt => ?_, fun hdec hcmd hstep hatt hmine => ?_⟩
  · show execAnnounceCommit body s = _
    rw [execAnnounceCommit, if_pos hfits]
  · show execAnnounceCommitStop body s = _
    rw [execAnnounceCommitStop, if_pos hfits]
  · show execAnnounceAbort body s = _
    rw [execAnnounceAbort, if_pos hfits]
  · show execAnnounceStop body s = _
    simp [execAnnounceStop, hdec, hstate, hroot, hcmd, hstep, hatt, hlaunch, hreported]
  · show execAnnounceStop body s = _
    simp [execAnnounceStop, hdec, hstate, hroot, hcmd, hstep, hatt, hlaunch, hreported, hin]
  · show execAnnounceStop body s = _
    simp [execAnnounceStop, hdec, hstate, hroot, hdecided]
  · show execAnnounceStop body s = _
    simp [execAnnounceStop, hdec, hstate, hroot, hcmd, hstep, hatt, hlaunch]
  · show execAnnounceStop body s = _
    simp [execAnnounceStop, hdec, hstate, hroot, hloaded, hstep, hatt]
  · show execAnnounceStart body s = _
    simp only [execAnnounceStart, hdec, hcmd, hstep, hatt, hmine, decide_true, Bool.and_self, if_true] <;> rfl

end Sys2Proof.Machine
end

section
/-!
# The waybill engine's copies, voids and cancellations (O38)
-/

namespace Sys2Proof.Machine

variable {s t : State}

/-! ## The far area, as reads and writes of it see it -/

/-- Two states whose far area has one layout, ports READY alike and one content. -/
structure SameFarArea (s t : State) : Prop where
  interleave : s.far.interleave = t.far.interleave
  capacity : ∀ f, (s.farPort f).capacity = (t.farPort f).capacity
  ready : ∀ f, (s.farPort f).ready = (t.farPort f).ready
  mem : s.far.mem = t.far.mem

theorem SameFarArea.farSize (h : SameFarArea s t) (f : Nat) : s.farSize f = t.farSize f := by
  rw [State.farSize, State.farSize, h.capacity]

theorem SameFarArea.farOf (h : SameFarArea s t) (a : Nat) : farOf s a = farOf t a := by
  rw [Machine.farOf, Machine.farOf, h.interleave, h.farSize]

theorem SameFarArea.farKey (h : SameFarArea s t) (a : Nat) : farKey s a = farKey t a := by
  rw [Machine.farKey, Machine.farKey, State.farEntries, State.farEntries, h.farOf, h.interleave, h.farSize, h.farSize]

theorem SameFarArea.farRead (h : SameFarArea s t) (a n : Nat) : farRead s a n = farRead t a n := by
  simp only [Machine.farRead, h.farKey, h.farOf, h.ready, h.mem]

theorem SameFarArea.farBad (h : SameFarArea s t) (a : Nat) (acc : FarAccess) : FarAccess.bad s a acc = FarAccess.bad t a acc := by
  rw [FarAccess.bad, FarAccess.bad, h.farKey]

/-- Bytes put into one entry of the far area. -/
theorem SameFarArea.put (h : SameFarArea s t) (k : Nat) (bs : List Byte) :
    SameFarArea { s with far.mem := memWrite blank k bs s.far.mem } { t with far.mem := memWrite blank k bs t.far.mem } :=
  ⟨h.interleave, h.capacity, h.ready, congrArg (memWrite blank k bs) h.mem⟩

theorem foldl_related {α β : Type} {R : β → β → Prop} {f : β → α → β} (hf : ∀ x y a, R x y → R (f x a) (f y a)) :
    ∀ (l : List α) {x y : β}, R x y → R (l.foldl f x) (l.foldl f y)
  | [], _, _, h => h
  | a :: l, _, _, h => foldl_related hf l (hf _ _ a h)

theorem SameFarArea.farWrite (h : SameFarArea s t) (a : Nat) (bs : List Byte) : SameFarArea (farWrite a bs s) (farWrite a bs t) := by
  refine foldl_related (fun u v x huv => ?_) _ h
  rw [huv.farKey, huv.farOf, huv.ready]
  split
  · split
    · exact huv.put _ _
    · exact huv
  · exact huv

theorem farWrite_mirror (a : Nat) (bs : List Byte) (s : State) : (farWrite a bs s).mirror = s.mirror := by
  refine List.foldlRecOn (motive := fun u : State => u.mirror = s.mirror) _ _ rfl fun u hu x _ => ?_
  dsimp only
  split
  · split
    · exact hu
    · exact hu
  · exact hu

/-- A change of a port's counters leaves the far area as it was. -/
theorem modFar_sameFarArea (f : Nat) {g : FarPort → FarPort} (hcap : ∀ x, (g x).capacity = x.capacity) (hready : ∀ x, (g x).ready = x.ready) :
    SameFarArea (s.modFar f g) s := by
  have hport : ∀ k, (s.modFar f g).farPort k = s.farPort k ∨ (s.modFar f g).farPort k = g (s.farPort k) := by
    intro k
    by_cases hk : f = k
    · subst hk
      by_cases hf : f < 2
      · exact .inr (State.farPort_modFar_same _ _ _ hf)
      · exact .inl (congrArg (fun v => vget v f FarPort.reset) (dif_neg hf))
    · exact .inl (State.farPort_modFar_other _ _ _ _ hk)
  refine ⟨rfl, fun k => ?_, fun k => ?_, rfl⟩
  · rcases hport k with h | h
    · rw [h]
    · rw [h, hcap]
  · rcases hport k with h | h
    · rw [h]
    · rw [h, hready]

/-! ## The accesses of a copy -/

theorem moveNear_reads {c : Nat} {m : Move} (hout : m.out = true) :
    moveNear c m cleanAccess s = { s.modChan c (countAccess false cleanAccess) with
      mirror.moves := mapIf (· == m) (fun m => { m with data := some (memRead blank s.near.mem m.near m.len) }) s.mirror.moves } := by
  rw [moveNear, hout]
  rfl

theorem moveNear_writes {c : Nat} {m : Move} {bs : List Byte} (hout : m.out = false) (hdata : m.data = some bs) :
    (moveNear c m cleanAccess s).near.mem = memWrite blank m.near (bs ++ zeros m.pad) s.near.mem ∧
      (moveNear c m cleanAccess s).mirror.moves = s.mirror.moves.erase m := by
  rw [moveNear, hout, hdata]
  exact ⟨rfl, rfl⟩

/-- What an access to a root port counts, where the device answers at once and returns no poison. -/
def farCounted (f : Nat) (m : Move) (s : State) : State :=
  s.modFar f (fun x => { x with writes := if m.out then x.writes + 1 else x.writes, retries := wrapAdd x.retries 0 })

theorem farCounted_sameFarArea (f : Nat) (m : Move) : SameFarArea (farCounted f m s) s := modFar_sameFarArea f (fun _ => rfl) fun _ => rfl

theorem moveFar_clean {f : Nat} {m : Move} (hbad : FarAccess.bad s (m.far / 1024) ⟨0, false⟩ = false) :
    moveFar f m ⟨0, false⟩ s =
      if m.out then farWrite m.far (m.data.getD []) { farCounted f m s with mirror.moves := s.mirror.moves.erase m }
      else { farCounted f m s with
        mirror.moves := mapIf (· == m) (fun x => { x with data := some (farRead (farCounted f m s) x.far x.len) }) s.mirror.moves } := by
  unfold moveFar
  dsimp only
  rw [hbad]
  rfl

theorem moveFar_writes {f : Nat} {m : Move} {bs : List Byte} (hout : m.out = true) (hdata : m.data = some bs)
    (hbad : FarAccess.bad s (m.far / 1024) ⟨0, false⟩ = false) :
    (moveFar f m ⟨0, false⟩ s).far.mem = (farWrite m.far bs s).far.mem ∧
      (moveFar f m ⟨0, false⟩ s).mirror.moves = s.mirror.moves.erase m := by
  obtain ⟨hil, hcap, hready, hmem⟩ := farCounted_sameFarArea (s := s) f m
  have hsame : SameFarArea { farCounted f m s with mirror.moves := s.mirror.moves.erase m } s := ⟨hil, hcap, hready, hmem⟩
  rw [moveFar_clean hbad, if_pos hout, hdata]
  exact ⟨(hsame.farWrite m.far bs).mem, congrArg (·.moves) (farWrite_mirror _ _ _)⟩

theorem moveFar_reads {f : Nat} {m : Move} (hout : m.out = false) (hbad : FarAccess.bad s (m.far / 1024) ⟨0, false⟩ = false) :
    (moveFar f m ⟨0, false⟩ s).far.mem = s.far.mem ∧
      (moveFar f m ⟨0, false⟩ s).mirror.moves = mapIf (· == m) (fun m => { m with data := some (farRead s m.far m.len) }) s.mirror.moves := by
  have hsame : ∀ a n, farRead (farCounted f m s) a n = farRead s a n := (farCounted_sameFarArea f m).farRead
  rw [moveFar_clean hbad, if_neg (ne_true_of_eq_false hout)]
  refine ⟨rfl, ?_⟩
  simp only [mapIf]
  refine List.map_congr_left fun x _ => ?_
  simp only [beq_iff_eq]
  split
  · next hx => rw [hx, hsame]
  · rfl

/-- Settles O38: what an access of a copy moves, and each end of a copy with its guards decided by the clause's hypotheses. -/
theorem engineCommandsComplete : Obligations.EngineCommandsComplete := by
  unfold Obligations.EngineCommandsComplete
  dsimp only
  refine ⟨fun w s => ⟨fun hrank => ?_, fun hrank => ?_, fun c f m bs => ⟨moveNear_reads, moveFar_writes, moveFar_reads, moveNear_writes⟩,
    fun k hparked hdone hpages hruns => ?_, fun k hparked hrestores hdone hruns hmoved => ?_, fun slot x k hslot hstaged hcopying hruns hmoved => ?_,
    fun hdue hruns hmoved => ?_, fun hmoved => ?_⟩,
    fun p body w wr s => ⟨⟨fun hserving => ?_, fun v hserving => ?_⟩, fun hup hoptions haligned => ?_⟩⟩
  · show execRankingComplete w s = _
    rw [execRankingComplete, if_pos hrank]
  · show execRankingComplete w s = _
    rw [execRankingComplete, hrank]
    rfl
  · show execStablingCopyComplete w s = _
    simp [execStablingCopyComplete, stabled, State.jobRuns, hparked, hdone, hpages, hruns]
  · show execRestoreCopyComplete w s = _
    simp [execRestoreCopyComplete, State.jobRuns, hparked, List.contains_iff_mem.1 hrestores, hdone, hruns, hmoved] <;> rfl
  · show execStagingCopyComplete slot s = _
    simp [execStagingCopyComplete, State.jobRuns, hslot, hstaged, hcopying, hruns, hmoved]
  · show execLogCopyComplete s = _
    simp [execLogCopyComplete, State.jobRuns, hdue, hruns, hmoved]
  · show execLogCopyComplete s = _
    simp [execLogCopyComplete, hmoved]
  · show execVoid p body s = _
    simp [execVoid, hserving]
  · show execVoid p body s = _
    simp [execVoid, hserving]
  · show execCancelWrite w wr s = _
    simp [execCancelWrite, behindWrites, hup, hoptions, haligned]

end Sys2Proof.Machine
end

section
/-!
# Upkeep of the near tier and of the press store, and the frames of a link (O39, O40, O41)
-/

namespace Sys2Proof.Machine

variable {s : State}

/-! ## Refresh, temperature and retraining -/

/-- Settles O39: each arm's guards decided by the clause's hypotheses. -/
theorem nearUpkeepCompletes : Obligations.NearUpkeepCompletes := by
  unfold Obligations.NearUpkeepCompletes
  dsimp only
  refine ⟨fun c temp s => ⟨fun hphase hself hopen => ?_, fun hnot => ?_, fun hopen => ?_, rfl⟩,
    fun c ok s => ⟨fun hin hdue hcommit hlate hself hbrake hopen => ?_, fun hin hdrain hready hretraining hneed => ?_, fun hopen hrefresh => ?_,
      fun hready hbox hclk => ?_⟩⟩
  · show execRefreshDue s = _
    simp [execRefreshDue, hphase, hself, hopen]
  · show execRefreshDue s = _
    rcases hnot with h | h
    · simp [execRefreshDue, h]
    · simp [execRefreshDue, h]
  · show execRefreshWindowEnd s = _
    rw [execRefreshWindowEnd, if_pos hopen]
  · show execNearTerminusRetrain s = _
    have htime : s.retrainTime = true := by
      rw [State.retrainTime, hin, hdue, hcommit, hlate, hself, hbrake, hopen]
      rfl
    simp only [execNearTerminusRetrain, htime, Bool.not_true, Bool.false_eq_true, if_false, Bool.not_eq_true', State.retrainFits]
    rfl
  · show execNearInStepRetrain c s = _
    have hcase : (decide (16 ≤ (s.chan c.val).deferrals.toNat) || decide (16 < (s.chan c.val).stepEdc)) = true := by
      rcases hneed with h | h
      · rw [decide_eq_true h, Bool.true_or]
      · rw [decide_eq_true h, Bool.or_true]
    simp [execNearInStepRetrain, hin, hdrain, hready, hretraining, hcase]
  · show execNearRetrainEnd c s = _
    simp [execNearRetrainEnd, hopen, hrefresh]
  · show execNearTrainingComplete c ok s = _
    rw [execNearTrainingComplete, hready, hbox, hclk]
    rfl

/-! ## The scrubber -/

/-- Settles O40: the gap lets the scrubber run, and the entry's error decides between a count and an event. -/
theorem scrubCompletes : Obligations.ScrubCompletes := by
  unfold Obligations.ScrubCompletes
  intro p ecc s l a t hin hcopied hbrake hlaunch hfits htest hfirst
  have hgap : execScrub p ecc s = .next (match ecc with
      | .uncorrectable _ => postEvent evScrub p.val a 0 (t.modPress p.val (fun x => { x with scrubUncorr := satInc x.scrubUncorr }))
      | _ => t) := by
    simp only [execScrub, hin, hcopied, hbrake, hlaunch, decide_eq_true hfits, htest, hfirst, Bool.not_false, Bool.not_true, Bool.and_true,
      Bool.or_false, Bool.false_eq_true, if_false]
    rfl
  refine ⟨fun hecc => hgap.trans ?_, fun k hecc => hgap.trans ?_⟩
  · cases ecc with
    | clean => rfl
    | corrected => rfl
    | uncorrectable k => exact absurd rfl (hecc k)
  · rw [hecc]

/-! ## Frames -/

theorem timeNext_nil {q : Port} (h : q.txTime = []) : timeNext q = none := by
  rw [timeNext, h]
  rfl

variable {p : LinkId} {f : Frame}

theorem frameStart_kcl (hstate : (s.port p.val).state = .active) (hsaw : (s.port p.val).sawActive = true) (hresend : (s.port p.val).resend = 0)
    (hk : p.val = 32) :
    execFrameStart p s = .next (match takeFirst (fun m => canStart 32 (kclClass m) (kclBytes m) (s.port p.val)) s.kcl.tx with
      | some (m, rest) => { s.modPort 32 (startFrame s.sendsDrained 32 (kclClass m) (kclBytes m)) with kcl.tx := rest }
      | none => s) := by
  refine congrArg Host.Outcome.next ((if_neg ?_).trans ((if_neg ?_).trans (if_pos hk)))
  · rw [hstate, hsaw]
    exact Bool.false_ne_true
  · rw [hresend]
    exact Nat.lt_irrefl 0

/-- A port in service, its partner not beginning again, parses what comes. -/
theorem parses_of_state (hreinit : (s.port p.val).reinit = false) (hstate : (s.port p.val).state = .active ∨ (s.port p.val).state = .pausing) :
    ¬((s.port p.val).state != .active && (s.port p.val).state != .pausing || (s.port p.val).reinit) = true := by
  rcases hstate with h | h
  · rw [h, hreinit]
    exact Bool.false_ne_true
  · rw [h, hreinit]
    exact Bool.false_ne_true

/-- Settles O41: each arm's guards decided by the clause's hypotheses. -/
theorem framesComplete : Obligations.FramesComplete := by
  unfold Obligations.FramesComplete
  dsimp only
  refine fun p f s => ⟨fun hnot => ?_, fun hstate hsaw => ⟨fun hresend => ?_, fun hresend hk => ⟨fun cl o q' hnext => ?_, fun hnext => ?_⟩,
      fun hresend hk => ⟨fun m rest htake => ?_, fun htake => ?_⟩⟩,
    fun htime => ⟨fun o rest hctrl hstart => ?_, fun o rest hctrl hdata hrel hstart => ?_⟩,
    fun hnot => ?_, fun hreinit hstate => ⟨fun hskip => ?_, fun hskip hgood => ?_, fun hskip hgood => ⟨fun hd hroom => ?_, fun hd hroom => ?_,
      fun hd => ?_, fun hd hd' => ?_, fun hd hd' => ?_⟩⟩, fun hknown => ?_, fun hnot => ?_, fun hstate hreplay => ⟨fun hrow => ?_, fun hrow => ?_⟩⟩
  · show execFrameStart p s = _
    rcases hnot with h | h
    · simp [execFrameStart, h]
    · simp [execFrameStart, h]
  · show execFrameStart p s = _
    simp [execFrameStart, hstate, hsaw, hresend]
  · show execFrameStart p s = _
    simp [execFrameStart, hstate, hsaw, hresend, ne_of_lt hk, hnext]
  · show execFrameStart p s = _
    simp [execFrameStart, hstate, hsaw, hresend, ne_of_lt hk, hnext]
  · exact (frameStart_kcl hstate hsaw hresend hk).trans (by rw [htake])
  · exact (frameStart_kcl hstate hsaw hresend hk).trans (by rw [htake])
  · simp [nextFrame, timeNext_nil htime, hctrl, hstart]
  · cases hlist : (s.port p.val).txCtrl with
    | nil => simp [nextFrame, timeNext_nil htime, hlist, hdata, hrel, hstart]
    | cons x xs => simp [nextFrame, timeNext_nil htime, hlist, hctrl x (by rw [hlist]; rfl), hdata, hrel, hstart]
  · show execFrameReceived p f s = _
    have hstop : ((s.port p.val).state != .active && (s.port p.val).state != .pausing || (s.port p.val).reinit) = true := by
      rcases hnot with h | ⟨h, h'⟩
      · rw [h, Bool.or_true]
      · rw [bne_iff_ne.2 h, bne_iff_ne.2 h']
        rfl
    exact next_congr (if_pos hstop)
  · exact next_congr ((if_neg (parses_of_state hreinit hstate)).trans (if_pos hskip))
  · exact next_congr ((if_neg (parses_of_state hreinit hstate)).trans ((if_neg (ne_true_of_eq_false hskip)).trans (if_pos (by rw [hgood]; rfl : (!frameGood p.val f) = true))))
  · exact next_congr ((if_neg (parses_of_state hreinit hstate)).trans ((if_neg (ne_true_of_eq_false hskip)).trans ((if_neg (not_of_eq_true hgood)).trans ((if_pos hd).trans (if_pos hroom)))))
  · exact next_congr ((if_neg (parses_of_state hreinit hstate)).trans ((if_neg (ne_true_of_eq_false hskip)).trans ((if_neg (not_of_eq_true hgood)).trans ((if_pos hd).trans (if_neg (ne_true_of_eq_false hroom))))))
  · exact next_congr ((if_neg (parses_of_state hreinit hstate)).trans ((if_neg (ne_true_of_eq_false hskip)).trans ((if_neg (not_of_eq_true hgood)).trans ((if_neg (by omega)).trans (if_pos hd)))))
  · exact next_congr ((if_neg (parses_of_state hreinit hstate)).trans ((if_neg (ne_true_of_eq_false hskip)).trans ((if_neg (not_of_eq_true hgood)).trans ((if_neg (by omega)).trans ((if_neg (by omega)).trans (if_pos hd'))))))
  · exact next_congr ((if_neg (parses_of_state hreinit hstate)).trans ((if_neg (ne_true_of_eq_false hskip)).trans ((if_neg (not_of_eq_true hgood)).trans
      ((if_neg (by omega)).trans ((if_neg (by omega)).trans (if_neg (by omega)))))))
  · rcases hknown with ⟨hk, hctrl⟩ | ⟨hk, hknown⟩
    · refine (if_neg (ne_of_lt hk)).trans (if_neg ?_)
      rcases hctrl with h | h
      · rw [h, Bool.false_and]
        exact Bool.false_ne_true
      · rw [decide_eq_false (Nat.not_lt.2 h), Bool.and_false]
        exact Bool.false_ne_true
    · exact (if_pos hk).trans (if_pos hknown)
  · show execAckTimerExpiry p s = _
    rcases hnot with h | h
    · simp [execAckTimerExpiry, h]
    · simp [execAckTimerExpiry, h]
  · show execAckTimerExpiry p s = _
    simp [execAckTimerExpiry, hstate, hreplay, State.port_modPort_same _ _ _ p.isLt, Nat.not_le.2 hrow]
  · show execAckTimerExpiry p s = _
    simp [execAckTimerExpiry, hstate, hreplay, State.port_modPort_same _ _ _ p.isLt, hrow]
    rfl

end Sys2Proof.Machine
end

section
/-!
# LINK blocks, training and retraining of a link (O42, O43)
-/

namespace Sys2Proof.Machine

variable {s : State}

/-! ## LINK blocks -/

theorem listens_of_state {q : LinkState} (hdown : q ≠ .down) (htraining : q ≠ .training) : ¬(q == .down || q == .training) = true := by
  rw [beq_false_of_ne hdown, beq_false_of_ne htraining]
  exact Bool.false_ne_true

/-- A port that listens counts a bad block and passes over it (R208). -/
theorem receiveBlock_bad {k want : Nat} {blk : BitVec 512} {act : State → State} (hdown : (s.port k).state ≠ .down)
    (htraining : (s.port k).state ≠ .training) (hbad : blockGood blk.toNat = false) :
    receiveBlock k want blk act s =
      (s.modPort k (fun q => { q with rxBlock := q.rxBlock + 25 })).modPort k (fun q => { q with ignored := q.ignored + 1 }) :=
  (if_neg (listens_of_state hdown htraining)).trans (if_pos (by rw [hbad]; rfl))

/-- A good block of the kind that is wanted is taken, and acts. -/
theorem receiveBlock_good {k want : Nat} {blk : BitVec 512} {act : State → State} (hdown : (s.port k).state ≠ .down)
    (htraining : (s.port k).state ≠ .training) (hgood : blockGood blk.toNat = true) (hkind : blockState blk.toNat = want) :
    receiveBlock k want blk act s = act ((s.modPort k (fun q => { q with rxBlock := q.rxBlock + 25 })).modPort k (takeBlock blk.toNat)) :=
  (if_neg (listens_of_state hdown htraining)).trans ((if_neg (not_of_eq_true hgood)).trans (if_pos hkind))

/-- Settles O42: a block by its kind and the port's state, and the end of a training by the lanes that are good. -/
theorem linkBlocksComplete : Obligations.LinkBlocksComplete := by
  unfold Obligations.LinkBlocksComplete
  dsimp only
  refine fun p blk r s => ⟨fun hdown htraining hbad => ⟨?_, ?_⟩, fun hdown htraining hgood hkind => ?_, fun hinit hgood hkind => ?_,
    fun hdown htraining hinit hgood hkind => ?_, fun hstate => ?_, fun n hstate hk hwidth hreach => ?_, fun hstate hk hnot => ?_,
    fun hstate hk hall => ?_, fun henable hdown hclk => ?_⟩
  · exact next_congr (receiveBlock_bad hdown htraining hbad)
  · refine next_congr ?_
    split
    · exact receiveBlock_bad hdown htraining hbad
    · exact receiveBlock_bad hdown htraining hbad
  · exact next_congr (receiveBlock_good hdown htraining hgood hkind)
  · refine next_congr ((if_pos (by rw [hinit]; rfl)).trans (receiveBlock_good ?_ ?_ hgood hkind))
    · rw [hinit]
      exact LinkState.noConfusion
    · rw [hinit]
      exact LinkState.noConfusion
  · refine next_congr ((if_neg ?_).trans (receiveBlock_good hdown htraining hgood hkind))
    rw [beq_false_of_ne hinit]
    exact Bool.false_ne_true
  · exact next_congr (if_pos (bne_iff_ne.2 hstate))
  · refine next_congr ((if_neg (not_bne_of_eq hstate)).trans ((if_neg (ne_of_lt hk)).trans ?_))
    rw [hwidth]
    exact if_neg (not_bne_of_eq hreach)
  · refine next_congr ((if_neg (not_bne_of_eq hstate)).trans ((if_neg (ne_of_lt hk)).trans ?_))
    rcases hnot with h | h
    · rw [h]
    · split
      · rfl
      · exact if_pos (bne_iff_ne.2 h)
  · exact next_congr ((if_neg (not_bne_of_eq hstate)).trans ((if_pos hk).trans (if_pos hall)))
  · have hmay : ¬(!(s.port p.val).enable || (s.port p.val).state != .down || !(p.val == 32 || s.clk.enLink.getLsbD p.val)) = true := by
      rw [henable, hdown]
      rcases hclk with h | h
      · rw [h]
        exact Bool.false_ne_true
      · rw [h, Bool.or_true]
        exact Bool.false_ne_true
    refine next_congr ((if_neg hmay).trans ?_)
    by_cases hin : s.tt.inStep
    · simp only [if_pos hin]
    · simp only [if_neg hin]

/-! ## Retraining -/

theorem takeAck_state (w : Nat) (q : Port) : (takeAck w q).state = q.state := by
  unfold takeAck
  extract_lets n
  split
  · rfl
  · rfl

/-- A block's acknowledgement and credits leave the link's state. -/
theorem takeBlock_state (w : Nat) (q : Port) : (takeBlock w q).state = q.state := by
  unfold takeBlock
  split
  · exact takeAck_state _ _
  · exact takeAck_state _ _

theorem blockTaken_state (p : LinkId) (w : Nat) :
    (((s.modPort p.val (fun q => { q with rxBlock := q.rxBlock + 25 })).modPort p.val (takeBlock w)).port p.val).state = (s.port p.val).state := by
  rw [State.port_modPort_same _ _ _ p.isLt, takeBlock_state, State.port_modPort_same _ _ _ p.isLt]

/-- A block for a port that retrains, or is to: what `receiveBlock_good` asks of the state holds. -/
theorem receiveBlock_retrain {p : LinkId} {want : Nat} {blk : BitVec 512} {act : State → State} {st : LinkState} (hstate : (s.port p.val).state = st)
    (hdown : st ≠ .down) (htraining : st ≠ .training) (hgood : blockGood blk.toNat = true) (hkind : blockState blk.toNat = want) :
    receiveBlock p.val want blk act s =
      act ((s.modPort p.val (fun q => { q with rxBlock := q.rxBlock + 25 })).modPort p.val (takeBlock blk.toNat)) :=
  receiveBlock_good (hstate ▸ hdown) (hstate ▸ htraining) hgood hkind

theorem modPort_congr_at {k : Nat} {f g : Port → Port} (hk : k < 33) (h : f (s.port k) = g (s.port k)) : s.modPort k f = s.modPort k g := by
  have hv : vmod s.ports k f = vmod s.ports k g := by
    have hport : s.port k = s.ports[k] := dif_pos hk
    rw [vmod, vmod, dif_pos hk, dif_pos hk, ← hport, h]
  rw [State.modPort, State.modPort, hv]

/-! What a port lays on its lanes leaves what it has trained. -/

/-- A port's state, its lanes and its rate. -/
def Port.trained (q : Port) : LinkState × BitVec 16 × BitVec 16 × BitVec 2 := (q.state, q.lanesGood, q.lanesActive, q.rate)

theorem layWord_trained (drained : Bool) (p : Nat) (q : Port) (w : BitVec 64) : (layWord drained p q w).trained = q.trained := by
  unfold layWord
  split
  · rfl
  · extract_lets b t
    split
    · rfl
    · rfl

theorem layWords_trained (drained : Bool) (p : Nat) (ws : List (BitVec 64)) (q : Port) : (layWords drained p ws q).trained = q.trained :=
  List.foldlRecOn (motive := fun t : Port => t.trained = q.trained) _ _ rfl fun _ ht _ _ => (layWord_trained ..).trans ht

theorem sendState_trained (drained : Bool) (p : Nat) (q : Port) : (sendState drained p q).trained = q.trained :=
  (layWords_trained ..).trans (layWords_trained ..)

/-- A port that has retrained tells its state, and keeps its new lanes and rate; it resumes, or begins again in INIT (R223, R229). -/
theorem retrained_trained (p : LinkId) (s : State) :
    ((retrained p.val s).port p.val).trained =
      (if (s.port p.val).reinit then .init else .resuming, (s.port p.val).lanesGood, (s.port p.val).lanesActive, (s.port p.val).rate) := by
  unfold retrained
  split
  · rw [beginInit, tellState, State.port_modPort_same _ _ _ p.isLt, sendState_trained, State.port_modPort_same _ _ _ p.isLt]
    rfl
  · rw [tellState, State.port_modPort_same _ _ _ p.isLt, sendState_trained, State.port_modPort_same _ _ _ p.isLt]
    rfl

/-- What a retrain's end puts into a fabric port: its lanes, the slower rate, and the margins that were drawn for lanes that were not active. -/
def newLanes (r : TrainResult) (act : Nat) (v : BitVec 64) (q : Port) : Port :=
  { q with
    lanesGood := r.good, lanesActive := BitVec.ofNat 16 act, rate := BitVec.ofNat 2 (max q.target.rate.toNat r.rate.toNat)
    margin := q.margin.mapIdx (fun i x =>
      if !bitAt act i then 0 else if bitAt q.lanesActive.toNat i then x else BitVec.ofNat 8 (fld v.toNat (8 * i) 8)) }

/-- Settles O43: a block by its kind and the port's state, and the retrain's start and end by the clause's hypotheses. -/
theorem retrainsComplete : Obligations.RetrainsComplete := by
  unfold Obligations.RetrainsComplete
  dsimp only
  refine fun p blk lane code count r s => ⟨fun hst hgood hkind => ?_, fun hst hgood hkind => ?_, fun hst hgood hkind => ?_, fun hst hgood hkind => ?_,
    fun hst hgood hkind => ?_, fun hst hgood hkind => ?_, fun hlane => ?_, rfl, ⟨fun hcount => ?_, fun hcount => ?_⟩, fun x hreq hst => ?_,
    fun hnot => ?_, fun n hst hk hwidth => ?_, fun hst hk hwidth => ?_, fun hst hk hall => ?_, fun hst => ?_, fun hp hr hrs => ?_⟩
  · refine next_congr ((receiveBlock_retrain hst LinkState.noConfusion LinkState.noConfusion hgood hkind).trans ?_)
    rw [blockTaken_state, hst]
  · refine next_congr ((receiveBlock_retrain hst LinkState.noConfusion LinkState.noConfusion hgood hkind).trans ?_)
    rw [blockTaken_state, hst]
  · refine next_congr ((receiveBlock_retrain hst LinkState.noConfusion LinkState.noConfusion hgood hkind).trans ?_)
    rw [blockTaken_state, hst]
  · refine next_congr ((receiveBlock_retrain hst LinkState.noConfusion LinkState.noConfusion hgood hkind).trans ?_)
    rw [blockTaken_state, hst]
  · exact next_congr (receiveBlock_retrain hst LinkState.noConfusion LinkState.noConfusion hgood hkind)
  · refine next_congr ((receiveBlock_retrain hst LinkState.noConfusion LinkState.noConfusion hgood hkind).trans (if_pos ?_))
    rw [blockTaken_state, hst]
    rfl
  · show execMarginBelowFloor p lane code s = _
    refine next_congr (modPort_congr_at p.isLt ?_)
    exact if_neg (by rw [hlane]; exact Bool.false_ne_true)
  · exact next_congr (if_neg (Nat.not_lt.2 hcount))
  · refine next_congr ((if_pos hcount).trans ?_)
    rw [State.port_modPort_same _ _ _ p.isLt]
    rfl
  · show execLinkTerminusRetrain p s = _
    by_cases hin : s.tt.inStep
    · simp [execLinkTerminusRetrain, hreq, hst, hin]
    · by_cases hdef : 15 ≤ (s.port p.val).deferrals.toNat
      · simp [execLinkTerminusRetrain, hreq, hst, hin, hdef]
      · simp [execLinkTerminusRetrain, hreq, hst, hin, hdef] <;> rfl
  · show execLinkTerminusRetrain p s = _
    rcases hnot with h | h
    · simp [execLinkTerminusRetrain, h]
    · cases hreq : (s.port p.val).request with
      | none => simp [execLinkTerminusRetrain, hreq]
      | some x => simp [execLinkTerminusRetrain, hreq, h]
  · have hrun : exec (.retrainComplete p r) s = .next (retrained p.val (s.draw.2.modPort p.val
        (newLanes r (activeLanes (max (max n (s.port p.val).target.width.toNat) r.partnerWidth.toNat) r.good.toNat) s.draw.1))) := by
      refine next_congr ((if_neg (not_bne_of_eq hst)).trans ((if_neg (ne_of_lt hk)).trans ?_))
      rw [hwidth]
      rfl
    have htrained := retrained_trained p (s.draw.2.modPort p.val
      (newLanes r (activeLanes (max (max n (s.port p.val).target.width.toNat) r.partnerWidth.toNat) r.good.toNat) s.draw.1))
    rw [State.port_modPort_same _ _ _ p.isLt] at htrained
    simp only [Port.trained, Prod.mk.injEq] at htrained
    obtain ⟨hstate, hgood, hactive, hrate⟩ := htrained
    exact ⟨_, hrun, hgood, hrate, hactive, hstate⟩
  · refine next_congr ((if_neg (not_bne_of_eq hst)).trans ((if_neg (ne_of_lt hk)).trans ?_))
    rw [hwidth]
  · exact next_congr ((if_neg (not_bne_of_eq hst)).trans ((if_pos hk).trans (if_pos hall)))
  · refine next_congr (if_pos ?_)
    rcases hst with h | h | h <;> rw [h] <;> rfl
  · refine next_congr (if_neg ?_)
    rw [beq_false_of_ne hp, beq_false_of_ne hr, beq_false_of_ne hrs]
    exact Bool.false_ne_true

end Sys2Proof.Machine
end

section
/-!
# Packets, notices and keys at a fabric port (O44)
-/

namespace Sys2Proof.Machine

variable {s : State} {p : PortId} {pkt : List Byte}

theorem route_refused {hops out k : Nat} (h : 14 < hops ∨ hops ≠ 0 ∧ out = k) : (decide (14 < hops) || out == k) = true := by
  rcases h with h | ⟨-, h⟩
  · rw [decide_eq_true h, Bool.true_or]
  · rw [h, beq_self_eq_true, Bool.or_true]

theorem route_goesOn {hops out k : Nat} (hhops : hops ≤ 14) (hout : out ≠ k) : ¬(decide (14 < hops) || out == k) = true := by
  rw [decide_eq_false (Nat.not_lt.2 hhops), beq_false_of_ne hout]
  exact Bool.false_ne_true

theorem hops_ne_zero {hops out k : Nat} (h : 14 < hops ∨ hops ≠ 0 ∧ out = k) : hops ≠ 0 := by
  rcases h with h | ⟨h, -⟩
  · omega
  · exact h

theorem not_eq_true_of_false {b : Bool} (h : b = false) : (!b) = true := by rw [h]; rfl

/-- A packet for a port that is not READY is lost, where no tee copy of it is kept here. -/
theorem unready_choice {α : Type} {ready tee keeps : Bool} {kept lost sent : α} (h : ready = false) :
    (if (!ready && tee && keeps) = true then kept else if (!ready) = true then lost else sent) = if (tee && keeps) = true then kept else lost := by
  rw [h, Bool.not_false, Bool.true_and, if_pos rfl]

/-- A whole packet passes the checks that come before its key: a control packet by its hops, a SERVICE data packet by its CRC. -/
theorem whole_passes (h : (isControl pkt = true ∧ pkHops pkt ≤ 6) ∨ (isControl pkt = false ∧ crc32c (pkPayload pkt) = pkCrc pkt)) :
    ¬(isControl pkt && decide (6 < pkHops pkt)) = true ∧ ¬(!isControl pkt && crc32c (pkPayload pkt) != pkCrc pkt) = true := by
  rcases h with ⟨hctrl, hhops⟩ | ⟨hctrl, hcrc⟩
  · rw [hctrl, decide_eq_false (Nat.not_lt.2 hhops)]
    exact ⟨Bool.false_ne_true, Bool.false_ne_true⟩
  · rw [hctrl]
    refine ⟨Bool.false_ne_true, ?_⟩
    rw [Bool.not_false, Bool.true_and]
    exact not_bne_of_eq hcrc

/-- Settles O44: the checks in their order, each of which the clause's hypotheses decide. -/
theorem fabricPacketsComplete : Obligations.FabricPacketsComplete := by
  unfold Obligations.FabricPacketsComplete
  dsimp only
  refine fun p pkt body s => ⟨⟨fun hcrc => ?_, fun hcrc hkey => ?_, fun hcrc hkey => ⟨fun hhops => ?_, fun hroute => ?_, fun hone hhops hout =>
      ⟨fun hkey' => ?_, fun hkey' => ⟨fun htransit => ?_, fun htransit => ?_⟩⟩⟩⟩,
    ⟨fun hctrl hhops => ?_, fun hctrl hcrc => ?_, fun hwhole hkey => ?_, fun hwhole hkey => ⟨fun hhops hheld => ?_, fun hhops hheld hctrl hdest => ?_,
      fun hhops hheld hhere => ?_, fun hroute => ?_, fun hone hhops hout hkey' => ?_, fun h hone hhops hout hkey' => ⟨fun hready => ?_, fun hready => ?_⟩⟩⟩,
    ⟨fun hlow hhigh => ?_, fun hnot => ?_⟩, fun keys hdrained hfree hpend => ?_, fun hnot => ?_⟩
  · exact next_congr (if_pos (bne_iff_ne.2 hcrc))
  · exact next_congr ((if_neg (not_bne_of_eq hcrc)).trans (if_pos (not_eq_true_of_false hkey)))
  · exact next_congr ((if_neg (not_bne_of_eq hcrc)).trans ((if_neg (not_of_eq_true hkey)).trans (if_pos hhops)))
  · exact next_congr ((if_neg (not_bne_of_eq hcrc)).trans ((if_neg (not_of_eq_true hkey)).trans ((if_neg (hops_ne_zero hroute)).trans
      (if_pos (route_refused hroute)))))
  · exact next_congr ((if_neg (not_bne_of_eq hcrc)).trans ((if_neg (not_of_eq_true hkey)).trans ((if_neg (Nat.ne_of_gt hone)).trans
      ((if_neg (route_goesOn hhops hout)).trans (if_pos (not_eq_true_of_false hkey'))))))
  · exact next_congr ((if_neg (not_bne_of_eq hcrc)).trans ((if_neg (not_of_eq_true hkey)).trans ((if_neg (Nat.ne_of_gt hone)).trans
      ((if_neg (route_goesOn hhops hout)).trans ((if_neg (not_of_eq_true hkey')).trans (if_pos (not_eq_true_of_false htransit)))))))
  · exact next_congr ((if_neg (not_bne_of_eq hcrc)).trans ((if_neg (not_of_eq_true hkey)).trans ((if_neg (Nat.ne_of_gt hone)).trans
      ((if_neg (route_goesOn hhops hout)).trans ((if_neg (not_of_eq_true hkey')).trans (if_neg (not_of_eq_true htransit)))))))
  · exact next_congr (if_pos (by rw [hctrl, decide_eq_true hhops]; rfl))
  · refine next_congr ((if_neg (by rw [hctrl]; exact Bool.false_ne_true)).trans (if_pos ?_))
    rw [hctrl, bne_iff_ne.2 hcrc]
    rfl
  · obtain ⟨hctrl, hcrc⟩ := whole_passes hwhole
    exact next_congr ((if_neg hctrl).trans ((if_neg hcrc).trans (if_pos (not_eq_true_of_false hkey))))
  · obtain ⟨hctrl, hcrc⟩ := whole_passes hwhole
    exact next_congr ((if_neg hctrl).trans ((if_neg hcrc).trans ((if_neg (not_of_eq_true hkey)).trans ((if_pos hhops).trans (if_pos (bne_iff_ne.2 hheld))))))
  · obtain ⟨hctrl', hcrc⟩ := whole_passes hwhole
    refine next_congr ((if_neg hctrl').trans ((if_neg hcrc).trans ((if_neg (not_of_eq_true hkey)).trans ((if_pos hhops).trans
      ((if_neg (not_bne_of_eq hheld)).trans (if_pos ?_))))))
    rw [hctrl, bne_iff_ne.2 hdest]
    rfl
  · obtain ⟨hctrl, hcrc⟩ := whole_passes hwhole
    refine next_congr ((if_neg hctrl).trans ((if_neg hcrc).trans ((if_neg (not_of_eq_true hkey)).trans ((if_pos hhops).trans
      ((if_neg (not_bne_of_eq hheld)).trans (if_neg ?_))))))
    rcases hhere with hhere | hhere
    · rw [hhere]
      exact Bool.false_ne_true
    · rw [Bool.and_eq_true, not_and]
      exact fun _ => not_bne_of_eq hhere
  · obtain ⟨hctrl, hcrc⟩ := whole_passes hwhole
    exact next_congr ((if_neg hctrl).trans ((if_neg hcrc).trans ((if_neg (not_of_eq_true hkey)).trans ((if_neg (hops_ne_zero hroute)).trans
      (if_pos (route_refused hroute))))))
  · obtain ⟨hctrl, hcrc⟩ := whole_passes hwhole
    exact next_congr ((if_neg hctrl).trans ((if_neg hcrc).trans ((if_neg (not_of_eq_true hkey)).trans ((if_neg (Nat.ne_of_gt hone)).trans
      ((if_neg (route_goesOn hhops hout)).trans (if_pos (not_eq_true_of_false hkey')))))))
  · obtain ⟨hctrl, hcrc⟩ := whole_passes hwhole
    refine next_congr ((if_neg hctrl).trans ((if_neg hcrc).trans ((if_neg (not_of_eq_true hkey)).trans ((if_neg (Nat.ne_of_gt hone)).trans
      ((if_neg (route_goesOn hhops hout)).trans ((if_neg (not_of_eq_true hkey')).trans ?_))))))
    refine (unready_choice hready).trans ?_
    split
    · rfl
    · rfl
  · obtain ⟨hctrl, hcrc⟩ := whole_passes hwhole
    refine next_congr ((if_neg hctrl).trans ((if_neg hcrc).trans ((if_neg (not_of_eq_true hkey)).trans ((if_neg (Nat.ne_of_gt hone)).trans
      ((if_neg (route_goesOn hhops hout)).trans ((if_neg (not_of_eq_true hkey')).trans ?_))))))
    refine (if_neg ?_).trans ((if_neg (not_of_eq_true hready)).trans (dif_pos ⟨p.isLt, h⟩))
    rw [hready]
    exact Bool.false_ne_true
  · refine next_congr (if_neg ?_)
    rw [decide_eq_false (Nat.ne_of_gt hlow), decide_eq_false (Nat.not_lt.2 hhigh)]
    exact Bool.false_ne_true
  · refine next_congr (if_pos ?_)
    rcases hnot with h | h
    · rw [decide_eq_true h, Bool.true_or]
    · rw [decide_eq_true h, Bool.or_true]
  · refine next_congr ((if_pos (by rw [hdrained, hfree]; rfl)).trans ?_)
    rw [installKeys, hpend]
  · show execKeyInstall p s = _
    rcases hnot with h | h | h
    · simp [execKeyInstall, h]
    · simp [execKeyInstall, h]
    · simp [execKeyInstall, installKeys, h]

end Sys2Proof.Machine
end

section
/-!
# Station time: exchanges, notices, pulses and the reference (O45)
-/

namespace Sys2Proof.Machine

variable {s : State}

/-- The guard `a != k || !b` of a time service is down where the chip has the role and SB5 runs. -/
theorem serves_of {α : Type} [BEq α] [LawfulBEq α] {a k : α} {b : Bool} (ha : a = k) (hb : b = true) : ¬(a != k || !b) = true := by
  rw [ha, hb]
  simp

theorem serves_not {α : Type} [BEq α] [LawfulBEq α] {a k : α} {b : Bool} (h : a ≠ k ∨ b = false) : (a != k || !b) = true := by
  rcases h with h | h
  · rw [bne_iff_ne.2 h, Bool.true_or]
  · rw [h, Bool.not_false, Bool.or_true]

theorem serves_of_three {α : Type} [BEq α] [LawfulBEq α] {a k : α} {b c : Bool} (ha : a = k) (hb : b = true) (hc : c = true) :
    ¬(a != k || !b || !c) = true := by
  rw [ha, hb, hc]
  simp

theorem serves_not_three {α : Type} [BEq α] [LawfulBEq α] {a k : α} {b c : Bool} (h : a ≠ k ∨ b = false ∨ c = false) :
    (a != k || !b || !c) = true := by
  rcases h with h | h | h
  · rw [bne_iff_ne.2 h, Bool.true_or, Bool.true_or]
  · rw [h, Bool.not_false, Bool.or_true, Bool.true_or]
  · rw [h, Bool.not_false, Bool.or_true]

/-- Settles O45: each arm's guards decided by the clause's hypotheses. -/
theorem timeCommandsComplete : Obligations.TimeCommandsComplete := by
  unfold Obligations.TimeCommandsComplete
  dsimp only
  refine ⟨fun p body stamp s => ⟨⟨rfl, fun hup => ?_, fun hup => ?_⟩, ⟨rfl, fun htake => ?_, fun n q t1 rest htake => ⟨fun hnot => ?_, fun hrole hup => ?_⟩⟩,
      fun x rest hprobes => ?_, fun hprobes => ?_, fun hrole => ?_, fun hrole => ?_, ⟨fun hnot => ?_, fun hrole hport hup => ?_⟩, rfl,
      ⟨fun hnot => ?_, fun hrole hup hready => ?_⟩, fun halt hready => ?_, fun hnot => ?_⟩,
    fun stamp gap s => ⟨⟨fun halive => ?_, fun halive hnot => ?_, fun halive hrole hdisc hup hlocked hfar => ?_, fun halive hrole hdisc hup hnear => ?_⟩,
      fun hrole hdisc => ?_, fun hnot => ?_, fun hdue hclk htaken => ?_, fun hnot => ?_, rfl, fun halive => ?_, fun halive hgap => ?_, fun halive hgap => ?_, rfl⟩⟩
  · exact next_congr ((if_neg Bool.false_ne_true).trans (if_neg (not_of_eq_true hup)))
  · exact next_congr ((if_neg Bool.false_ne_true).trans (if_pos (not_eq_true_of_false hup)))
  · refine next_congr ((if_neg Bool.false_ne_true).trans ?_)
    rw [htake]
  · refine next_congr ((if_neg Bool.false_ne_true).trans ?_)
    rw [htake]
    exact if_pos (serves_not hnot)
  · refine next_congr ((if_neg Bool.false_ne_true).trans ?_)
    rw [htake]
    exact if_neg (serves_of hrole hup)
  · show execProbeLost s = _
    rw [execProbeLost, hprobes]
    rfl
  · show execProbeLost s = _
    rw [execProbeLost, hprobes]
    rfl
  · exact next_congr (if_pos hrole)
  · exact next_congr (if_neg hrole)
  · refine next_congr (if_pos ?_)
    rw [Bool.or_assoc, Bool.or_eq_true]
    rcases hnot with h | h
    · exact .inl (bne_iff_ne.2 h)
    · exact .inr (serves_not h)
  · refine next_congr (if_neg ?_)
    rw [Bool.or_assoc, Bool.or_eq_true, not_or]
    exact ⟨not_bne_of_eq hrole, serves_of hport hup⟩
  · exact congrArg (fun t => Host.Outcome.next (noticeChange s t)) (if_pos (serves_not_three hnot))
  · exact congrArg (fun t => Host.Outcome.next (noticeChange s t)) (if_neg (serves_of_three hrole hup hready))
  · exact next_congr (if_pos (by rw [halt, hready]; rfl))
  · refine next_congr (if_neg ?_)
    rcases hnot with h | h
    · rw [h]
      exact Bool.false_ne_true
    · rw [h, Bool.and_false]
      exact Bool.false_ne_true
  · exact if_pos (not_eq_true_of_false halive)
  · exact (if_neg (not_of_eq_true halive)).trans (next_congr (if_pos (serves_not_three hnot)))
  · refine (if_neg (not_of_eq_true halive)).trans (next_congr ((if_neg (serves_of_three hrole hdisc hup)).trans (if_pos ?_)))
    rw [Bool.and_eq_true]
    exact ⟨hlocked, decide_eq_true hfar⟩
  · refine (if_neg (not_of_eq_true halive)).trans (next_congr ((if_neg (serves_of_three hrole hdisc hup)).trans (if_neg ?_)))
    rw [Bool.and_eq_true, not_and]
    rcases hnear with h | h
    · exact fun hlocked => absurd (h.symm.trans hlocked) Bool.false_ne_true
    · exact fun _ => ne_true_of_eq_false (decide_eq_false (Nat.not_lt.2 h))
  · exact next_congr (if_pos (by rw [decide_eq_true hrole, hdisc]; rfl))
  · refine next_congr (if_neg ?_)
    rcases hnot with h | h
    · rw [decide_eq_false h]
      exact Bool.false_ne_true
    · rw [h, Bool.and_false]
      exact Bool.false_ne_true
  · refine next_congr (if_pos ?_)
    rw [hclk, htaken, Bool.and_true, Bool.and_true, Bool.or_eq_true, decide_eq_true_iff]
    exact hdue
  · refine next_congr (if_neg ?_)
    rcases hnot with ⟨hdue, hsecond⟩ | h | h
    · rw [hdue, decide_eq_false hsecond]
      exact Bool.false_ne_true
    · rw [h, Bool.and_false]
      exact Bool.false_ne_true
    · rw [h, Bool.and_false]
      exact Bool.false_ne_true
  · exact next_congr (if_pos (not_eq_true_of_false halive))
  · exact next_congr ((if_neg (not_of_eq_true halive)).trans (if_neg (Nat.not_le.2 hgap)))
  · exact next_congr ((if_neg (not_of_eq_true halive)).trans (if_pos hgap))

end Sys2Proof.Machine
end

section
/-!
# Firmware messages, weights over the fabric, mirror and recovery (O46, O47)
-/

namespace Sys2Proof.Machine

variable {s : State}

/-! ## Firmware messages and the FABRIC load -/

/-- What data of a tensor does once its packet has been taken, by the fields of the payload (R375). -/
def weightDataOf (t : State) (id off : Nat) (data : List Byte) : Out := match t.tensor id with
  | none => .next (strayCopy t)
  | some x =>
    if !awaitsCopy t id then .next (strayCopy t)
    else
      let keep (l : FabricLoad) : FabricLoad :=
        { l with received := kset id ((off, data) :: (kget l.received id).getD []) l.received, bytes := l.bytes + data.length }
      .next (putImageAt x off data (countBytes data.length { t with forme.fabricLoad := t.forme.fabricLoad.map keep }))

theorem execWeightData_eq (payload : List Byte) (s : State) :
    execWeightData payload s = weightDataOf (serviceTake payload s) (leAt payload 4 4) (leAt payload 8 8)
      (sliceBytes payload 64 (min (leAt payload 16 4) (payload.length - 64))) := by
  unfold execWeightData
  generalize serviceTake payload s = t
  generalize leAt payload 4 4 = id
  generalize leAt payload 8 8 = off
  generalize sliceBytes payload 64 (min (leAt payload 16 4) (payload.length - 64)) = data
  rfl

/-- Whether an image is that of which the tensor's end tells. -/
def imageGood (image : Option (List Byte)) (len : Nat) (x : Tensor) (digest : List Byte) : Bool := match image with
  | some bs => len == imageLength x && sha256 bs == digest
  | none => false

/-- What the end of a tensor makes of the open load and of the tensors present: `good` is whether the image is whole. -/
def endOfTensor (t : State) (id : Nat) (l : FabricLoad) (good : Bool) (image : Option (List Byte)) (header : Nat) : State :=
  let u : State := { t with forme.fabricLoad := some { l with
    open' := l.open'.erase id, received := kdel id l.received, present := l.present + bit good, failed := l.failed || !good } }
  match good, image with
  | true, some bs => { u with forme.present := kset id ⟨digestOf bs, BitVec.ofNat 256 header, bs.length⟩ u.forme.present }
  | _, _ => u

/-- What a tensor's end does once its packet has been taken, by the fields of the payload (R375). -/
def weightEndOf (t : State) (id len header : Nat) (digest : List Byte) : Out := match t.tensor id, t.forme.fabricLoad with
  | some x, some l =>
    if !l.open'.contains id then .next (strayCopy t)
    else
      let image := assembled (imageLength x) ((kget l.received id).getD [])
      .next (fabricDone (endOfTensor t id l (imageGood image len x digest) image header))
  | _, _ => .next (strayCopy t)

theorem execWeightEnd_eq (payload : List Byte) (s : State) :
    execWeightEnd payload s = weightEndOf (serviceTake payload s) (leAt payload 4 4) (leAt payload 8 8) (leAt payload 64 32)
      (sliceBytes payload 32 32) := by
  unfold execWeightEnd
  generalize serviceTake payload s = t
  generalize leAt payload 4 4 = id
  generalize leAt payload 8 8 = len
  generalize leAt payload 64 32 = header
  generalize sliceBytes payload 32 32 = digest
  rfl

variable {t : State} {id off len header : Nat} {data digest : List Byte} {x : Tensor} {l : FabricLoad}

theorem awaitsCopy_eq (hl : t.forme.fabricLoad = some l) : awaitsCopy t id = l.open'.contains id := by rw [awaitsCopy, hl]

theorem weightDataOf_stray (h : t.tensor id = none ∨ awaitsCopy t id = false) : weightDataOf t id off data = .next (strayCopy t) := by
  rcases h with h | h
  · rw [weightDataOf, h]
  · cases ht : t.tensor id with
    | none => rw [weightDataOf, ht]
    | some x => simp [weightDataOf, ht, h]

theorem weightDataOf_placed (ht : t.tensor id = some x) (hl : t.forme.fabricLoad = some l) (hopen : l.open'.contains id = true) :
    weightDataOf t id off data = .next (putImageAt x off data (countBytes data.length { t with
      forme.fabricLoad := some { l with
        received := kset id ((off, data) :: (kget l.received id).getD []) l.received
        bytes := l.bytes + data.length } })) := by
  simp only [weightDataOf, ht, awaitsCopy_eq hl, hopen, hl, Bool.not_true, Bool.false_eq_true, if_false, Option.map_some]

theorem weightEndOf_stray (h : t.tensor id = none ∨ awaitsCopy t id = false) : weightEndOf t id len header digest = .next (strayCopy t) := by
  rcases h with h | h
  · rw [weightEndOf, h]
  · cases ht : t.tensor id with
    | none => rw [weightEndOf, ht]
    | some x =>
      cases hl : t.forme.fabricLoad with
      | none => rw [weightEndOf, ht, hl]
      | some l => simp only [weightEndOf, ht, hl, (awaitsCopy_eq hl).symm.trans h, Bool.not_false, if_true]

theorem weightEndOf_open (ht : t.tensor id = some x) (hl : t.forme.fabricLoad = some l) (hopen : l.open'.contains id = true) :
    let image := assembled (imageLength x) ((kget l.received id).getD [])
    weightEndOf t id len header digest = .next (fabricDone (endOfTensor t id l (imageGood image len x digest) image header)) := by
  simp only [weightEndOf, ht, hl, hopen, Bool.not_true, Bool.false_eq_true, if_false]

theorem weightEndOf_whole {bs : List Byte} (ht : t.tensor id = some x) (hl : t.forme.fabricLoad = some l) (hopen : l.open'.contains id = true)
    (himage : assembled (imageLength x) ((kget l.received id).getD []) = some bs) (hlen : len = imageLength x) (hdigest : sha256 bs = digest) :
    weightEndOf t id len header digest = .next (fabricDone { t with
      forme.fabricLoad := some { l with open' := l.open'.erase id, received := kdel id l.received, present := l.present + 1 }
      forme.present := kset id ⟨digestOf bs, BitVec.ofNat 256 header, bs.length⟩ t.forme.present }) := by
  have hgood : imageGood (some bs) len x digest = true := by simp [imageGood, hlen, hdigest]
  refine (weightEndOf_open ht hl hopen).trans ?_
  rw [himage, hgood]
  simp only [endOfTensor, Bool.not_true, Bool.or_false]
  rfl

theorem weightEndOf_broken (ht : t.tensor id = some x) (hl : t.forme.fabricLoad = some l) (hopen : l.open'.contains id = true)
    (hbad : assembled (imageLength x) ((kget l.received id).getD []) = none ∨ len ≠ imageLength x ∨
      ∀ bs, assembled (imageLength x) ((kget l.received id).getD []) = some bs → sha256 bs ≠ digest) :
    weightEndOf t id len header digest = .next (fabricDone { t with
      forme.fabricLoad := some { l with open' := l.open'.erase id, received := kdel id l.received, failed := true } }) := by
  have hgood : imageGood (assembled (imageLength x) ((kget l.received id).getD [])) len x digest = false := by
    cases himage : assembled (imageLength x) ((kget l.received id).getD []) with
    | none => rfl
    | some bs =>
      rcases hbad with h | h | h
      · exact absurd (himage.symm.trans h) (Option.some_ne_none _)
      · simp [imageGood, h]
      · simp [imageGood, h bs himage]
  refine (weightEndOf_open ht hl hopen).trans ?_
  rw [hgood]
  simp only [endOfTensor, Bool.not_false, Bool.or_true]
  rfl

/-- Settles O46: each arm's guards decided by the clause's hypotheses. -/
theorem serviceMessagesComplete : Obligations.ServiceMessagesComplete := by
  unfold Obligations.ServiceMessagesComplete
  dsimp only
  refine fun p body serial payload s => ⟨⟨fun hseen => ?_, fun hseen => ?_, rfl⟩, fun hfind => ?_, fun m hfind => ⟨fun hlow => ?_, fun hhigh => ?_⟩,
    ⟨fun h => ?_, fun x l ht hl hopen => ?_, fun h => ?_, fun x l ht hl hopen => ⟨fun bs himage hlen hdigest => ?_, fun hbad => ?_⟩⟩,
    fun l hl => ?_, fun hl => ?_⟩
  · exact next_congr (if_pos hseen)
  · exact next_congr (if_neg (ne_true_of_eq_false hseen))
  · show execFwMessageResend serial s = _
    simp [execFwMessageResend, hfind]
  · show execFwMessageResend serial s = _
    simp [execFwMessageResend, hfind, hlow]
  · show execFwMessageResend serial s = _
    simp [execFwMessageResend, hfind, Nat.not_lt.2 hhigh]
  · exact (execWeightData_eq payload s).trans (weightDataOf_stray h)
  · exact (execWeightData_eq payload s).trans (weightDataOf_placed ht hl hopen)
  · exact (execWeightEnd_eq payload s).trans (weightEndOf_stray h)
  · exact (execWeightEnd_eq payload s).trans (weightEndOf_whole ht hl hopen himage hlen hdigest)
  · exact (execWeightEnd_eq payload s).trans (weightEndOf_broken ht hl hopen hbad)
  · show execBroadcastTimeout s = _
    rw [execBroadcastTimeout, hl]
  · show execBroadcastTimeout s = _
    rw [execBroadcastTimeout, hl]

/-! ## Mirror and recovery -/

/-- Settles O47: each arm's guards decided by the clause's hypotheses, and the data of a fetch by its kind. -/
theorem mirrorAndRecoveryComplete : Obligations.MirrorAndRecoveryComplete := by
  unfold Obligations.MirrorAndRecoveryComplete
  dsimp only
  refine fun payload w s => ⟨⟨fun hsource => ?_, fun hsource hslot => ?_, fun c slot hsource hslot => ⟨fun hkind => ?_, fun hkind =>
    ⟨fun hkept => ?_, fun k hkept => ?_⟩⟩⟩, fun hbacklog => ?_, fun hbacklog => ?_, rfl, rfl, fun hkind => ?_, fun hkind hfetch => ?_,
    fun hkind hfetch => ?_, rfl, fun hfetch => ?_, fun hfetch => ?_⟩
  · show execMirrorItem payload s = _
    simp [execMirrorItem, hsource]
  · show execMirrorItem payload s = _
    simp [execMirrorItem, hsource, hslot]
  · show execMirrorItem payload s = _
    simp [execMirrorItem, hsource, hslot, hkind]
  · show execMirrorItem payload s = _
    simp [execMirrorItem, hsource, hslot, hkind, hkept]
  · show execMirrorItem payload s = _
    simp [execMirrorItem, hsource, hslot, hkind, hkept]
  · exact next_congr (if_pos (not_eq_true_of_false hbacklog))
  · refine next_congr ((if_neg (not_of_eq_true hbacklog)).trans ?_)
    simp only [Bool.or_eq_true, decide_eq_true_iff]
  · exact next_congr (if_pos hkind)
  · exact next_congr ((if_neg hkind).trans (if_pos (not_eq_true_of_false hfetch)))
  · refine next_congr ((if_neg hkind).trans ((if_neg (not_of_eq_true hfetch)).trans ?_))
    generalize (headItem payload).kind = kind
    by_cases htotal : headTotal payload = 0
    · simp only [htotal, if_true, Bool.or_eq_true, decide_eq_true_iff]
    · match kind with
      | 0 | 1 | 2 | 3 | 4 | k + 5 =>
        simp only [htotal, if_false]
        rfl
  · exact next_congr (if_pos (not_eq_true_of_false hfetch))
  · exact next_congr (if_neg (not_of_eq_true hfetch))

end Sys2Proof.Machine
end

section
/-!
# Clocks, the operating point, press states and power (O48, O49)
-/

namespace Sys2Proof.Machine

variable {s : State}

/-! ## Clocks and the operating point -/

theorem fourBits (a b c d : Bool) : ∀ i : Fin 4,
    (BitVec.ofNat 4 ((if a then 1 else 0) + (if b then 2 else 0) + (if c then 4 else 0) + (if d then 8 else 0))).getLsbD i.val =
      ![a, b, c, d] i := by
  revert a b c d
  decide

/-- Bit `i` of the regions that have reached a count says whether region `i` has (R287). -/
theorem regionsAt_bit (s : State) (count i : Nat) (hi : i < 4) :
    (regionsAt s count).getLsbD i = decide (count * 256 ≤ vget s.time.repCode i 0) := by
  let reached (k : Nat) : Bool := decide (count * 256 ≤ vget s.time.repCode k 0)
  have hsum : regionsAt s count = BitVec.ofNat 4 ((if reached 0 then 1 else 0) + (if reached 1 then 2 else 0) +
      (if reached 2 then 4 else 0) + (if reached 3 then 8 else 0)) := by
    simp [regionsAt, sumOf, List.range_succ, reached]
  have hcases : i = 0 ∨ i = 1 ∨ i = 2 ∨ i = 3 := by omega
  rw [hsum]
  rcases hcases with rfl | rfl | rfl | rfl
  · exact fourBits _ _ _ _ 0
  · exact fourBits _ _ _ _ 1
  · exact fourBits _ _ _ _ 2
  · exact fourBits _ _ _ _ 3

theorem rampStep_source {x : Domain} (hramp : x.ramping = true) (hsource : x.sourceNow = x.source) :
    (rampStep x).divNow = if x.divNow.toNat < x.div.toNat then x.divNow + 1
      else if x.div.toNat < x.divNow.toNat then x.divNow - 1 else x.divNow := by
  simp [rampStep, hramp, hsource]

theorem rampStep_away {x : Domain} (hramp : x.ramping = true) (hsource : x.sourceNow ≠ x.source) (hlow : x.divNow.toNat < 15) :
    (rampStep x).sourceNow = x.sourceNow ∧ (rampStep x).divNow = x.divNow + 1 := by
  have hdiv : x.divNow.toNat < 16 := by omega
  simp [rampStep, hramp, hsource, hdiv, Nat.not_le.2 hlow]

theorem rampStep_changes {x : Domain} (hramp : x.ramping = true) (hsource : x.sourceNow ≠ x.source) (hhigh : 15 ≤ x.divNow.toNat) :
    (rampStep x).sourceNow = x.source := by
  by_cases hdiv : x.divNow.toNat < 16
  · simp [rampStep, hramp, hsource, hdiv, hhigh]
  · simp [rampStep, hramp, hdiv]

theorem endChange_of {p : BitVec 2} {step : BitVec 64} (h : s.power.applying = some (p, step)) :
    endChange s = { s with power.point := p, power.changing := false, power.copyAfter := false, power.regions := 0 } := by
  rw [endChange]
  dsimp only
  rw [h]

/-- A change that begins and ends at once puts its target in force. -/
theorem endChange_begun {p : BitVec 2} {step : BitVec 64} (h : s.power.pendingPoint = some (p, step)) :
    endChange (beginChange s) = { s with
      power.point := p, power.changing := false, power.copyAfter := false, power.regions := 0, power.applying := some (p, step)
      power.applyCmd := s.power.pointCmd, power.pendingPoint := none, power.pointCmd := none, power.switchAt := none
      power.pointQuiet := false } := by
  rw [endChange_of (s := beginChange s) h, beginChange, h]

/-- Settles O48: the ramp and the switch by the clause's hypotheses, and the regions by their bits. -/
theorem clockAndPointComplete : Obligations.ClockAndPointComplete := by
  unfold Obligations.ClockAndPointComplete
  dsimp only
  refine fun d j s => ⟨rfl, ⟨fun hramp => ?_, fun hramp hsource hlow => ?_, fun hramp hsource hhigh => ?_, fun hramp hsource hlow => ?_,
    fun hramp hsource hhigh => ?_⟩, rfl, regionsAt_bit s, fun t hswitch hin => ⟨fun hsame => ?_, fun hnew hchanging => ?_, fun hnew hchanging => ?_⟩,
    fun hnot => ?_, fun hnot => ?_, fun p step hchanging hregions happlying => ⟨fun hloaded => ?_, fun hloaded => ?_⟩⟩
  · rw [rampStep, hramp]
    rfl
  · rw [rampStep_source hramp hsource, if_pos hlow]
  · rw [rampStep_source hramp hsource, if_neg (by omega), if_pos hhigh]
  · exact rampStep_away hramp hsource hlow
  · exact rampStep_changes hramp hsource hhigh
  · show execOperatingPointSwitch s = _
    simp only [execOperatingPointSwitch, hswitch, hsame, hin, beq_self_eq_true, Bool.or_true, if_true]
  · show execOperatingPointSwitch s = _
    rw [if_pos hchanging] at hnew
    simp [execOperatingPointSwitch, hswitch, hchanging, beq_false_of_ne hnew, hin]
  · show execOperatingPointSwitch s = _
    have hregions : regionsAt s t.toNat ≠ 0#4 := by
      rw [if_neg (ne_true_of_eq_false hchanging)] at hnew
      exact fun h => hnew (by rw [h]; rfl)
    simp [execOperatingPointSwitch, hswitch, hchanging, hregions, hin, beginChange]
  · show execOperatingPointSwitch s = _
    rcases hnot with h | h
    · rw [execOperatingPointSwitch, h]
    · cases hswitch : s.power.switchAt with
      | none => rw [execOperatingPointSwitch, hswitch]
      | some t => simp [execOperatingPointSwitch, hswitch, h]
  · refine next_congr (if_pos ?_)
    rcases hnot with h | h
    · rw [h]
      rfl
    · rw [h, Bool.not_false, Bool.or_true]
  · refine next_congr ((if_neg ?_).trans ?_)
    · rw [hchanging, hregions]
      exact Bool.false_ne_true
    · rw [endChange_of happlying]
      exact if_pos hloaded
  · refine next_congr ((if_neg ?_).trans ?_)
    · rw [hchanging, hregions]
      exact Bool.false_ne_true
    · rw [endChange_of happlying]
      exact if_neg (ne_true_of_eq_false hloaded)

/-! ## Power samples -/

/-- A peak is counted, where it begins to brake. -/
def countPeak (c : Bool) (s : State) : State :=
  if c then { s with power.brakePeak := true, power.brakesPeak := s.power.brakesPeak + 1 } else s

/-- A mean above the limit is counted, where it begins to brake. -/
def countMean (c : Bool) (s : State) : State :=
  if c then { s with power.brakeMean := true, power.brakesMean := s.power.brakesMean + 1 } else s

theorem countPeak_eq (c : Bool) (s : State) : countPeak c s =
    { s with power.brakePeak := s.power.brakePeak || c, power.brakesPeak := if c then s.power.brakesPeak + 1 else s.power.brakesPeak } := by
  cases c with
  | true => simp [countPeak]
  | false => simp [countPeak]

theorem countMean_eq (c : Bool) (s : State) : countMean c s =
    { s with power.brakeMean := s.power.brakeMean || c, power.brakesMean := if c then s.power.brakesMean + 1 else s.power.brakesMean } := by
  cases c with
  | true => simp [countMean]
  | false => simp [countMean]

/-- The samples of the last millisecond, with a new one. -/
def lastSamples (watts : BitVec 12) (s : State) : List Nat := (watts.toNat :: s.power.samples).take 1000

/-- What a sample leaves of the power's fields before the brake is decided (R479). -/
def sampled (watts : BitVec 12) (junction : BitVec 8) (s : State) : State :=
  let sum := sumOf (lastSamples watts s)
  let peak := decide (2150 < watts.toNat) && !s.power.brakePeak
  let high := decide (s.power.limit.toNat * 1000 < sum) && !s.power.brakeMean
  { s with
    power.samples := lastSamples watts s, power.sampleW := watts, power.meanW := BitVec.ofNat 12 (sum / 1000), power.junction := junction
    power.brakePeak := s.power.brakePeak || peak, power.brakesPeak := if peak then s.power.brakesPeak + 1 else s.power.brakesPeak
    power.brakeMean := s.power.brakeMean || high, power.brakesMean := if high then s.power.brakesMean + 1 else s.power.brakesMean }

/-- Whether a sample is quiet for each cause that brakes. -/
def sampleQuiet (watts : BitVec 12) (sum limit : Nat) (t : State) : Bool :=
  (!t.power.brakePeak || decide (watts.toNat < 2000)) && (!t.power.brakeMean || decide (sum * 100 < limit * 98000))

/-- The brake by a sample that has been counted. -/
def brakeBy (t : State) (quiet : Bool) : State :=
  if !t.power.braking then
    if t.power.brakePeak || t.power.brakeMean then intrude .power .brake { t with power.braking := true, power.calm := 0 } else t
  else if !quiet then { t with power.calm := 0 }
  else if t.power.calm + 1 < 2 then { t with power.calm := t.power.calm + 1 }
  else
    releaseHolds (fun h => h.unit == .power && h.cause == .brake)
      { t with power.braking := false, power.brakePeak := false, power.brakeMean := false, power.calm := 0 }

/-- A sample's own fields, before it is counted. -/
def sampleTaken (watts : BitVec 12) (junction : BitVec 8) (s : State) : State :=
  { s with
    power.samples := lastSamples watts s, power.sampleW := watts, power.meanW := BitVec.ofNat 12 (sumOf (lastSamples watts s) / 1000)
    power.junction := junction }

theorem powerSample_counts (watts : BitVec 12) (junction : BitVec 8) (s : State) :
    powerSample watts junction s =
      (let t := countPeak (decide (2150 < watts.toNat) && !s.power.brakePeak) (sampleTaken watts junction s)
       let u := countMean (decide (s.power.limit.toNat * 1000 < sumOf (lastSamples watts s)) && !t.power.brakeMean) t
       brakeBy u (sampleQuiet watts (sumOf (lastSamples watts s)) s.power.limit.toNat u)) := rfl

theorem powerSample_eq (watts : BitVec 12) (junction : BitVec 8) (s : State) :
    powerSample watts junction s = brakeBy (sampled watts junction s)
      (sampleQuiet watts (sumOf (lastSamples watts s)) s.power.limit.toNat (sampled watts junction s)) := by
  have hcount : countMean (decide (s.power.limit.toNat * 1000 < sumOf (lastSamples watts s)) &&
        !(countPeak (decide (2150 < watts.toNat) && !s.power.brakePeak) (sampleTaken watts junction s)).power.brakeMean)
      (countPeak (decide (2150 < watts.toNat) && !s.power.brakePeak) (sampleTaken watts junction s)) = sampled watts junction s := by
    rw [countPeak_eq, countMean_eq]
    rfl
  exact (powerSample_counts watts junction s).trans
    (congrArg (fun t => brakeBy t (sampleQuiet watts (sumOf (lastSamples watts s)) s.power.limit.toNat t)) hcount)

theorem execPowerSample_eq (watts : BitVec 12) (junction : BitVec 8) (halive : s.alive = true) :
    execPowerSample watts junction s = .next (seeJunction junction (brakeBy (sampled watts junction s)
      (sampleQuiet watts (sumOf (lastSamples watts s)) s.power.limit.toNat (sampled watts junction s)))) := by
  rw [execPowerSample, if_pos halive, powerSample_eq]

/-! ## Press states -/

/-- A group of the stagger that is not its turn's, or before its own count of a first launch, does nothing. -/
theorem departureGroup_waits {g : Fin 12} {occ next : Nat} (hstagger : s.power.stagger = some (occ, next))
    (h : next ≠ g.val ∨ occ = occLaunch ∧ ∀ l, s.tt.nextLaunch = some l → s.now + 24064 + 1000 * (11 - g.val) < l.toNat) :
    execDepartureGroup g s = .next s := by
  rcases h with h | ⟨hocc, hearly⟩
  · simp [execDepartureGroup, hstagger, h]
  · cases hl : s.tt.nextLaunch with
    | none => simp [execDepartureGroup, hstagger, hocc, hl]
    | some l => simp [execDepartureGroup, hstagger, hocc, hl, hearly l hl]

theorem departureGroup_acts {g : Fin 12} {occ : Nat} (hstagger : s.power.stagger = some (occ, g.val))
    (h : ¬(occ = occLaunch ∧ ∀ l, s.tt.nextLaunch = some l → s.now + 24064 + 1000 * (11 - g.val) < l.toNat)) :
    execDepartureGroup g s = .next { (List.range 8).foldl (fun s r =>
        s.modPress (12 * r + groupColumn g.val) (departPress s occ (12 * r + groupColumn g.val))) s with
      power.stagger := if g.val = 11 then none else some (occ, g.val + 1) } := by
  by_cases hocc : occ = occLaunch
  · cases hl : s.tt.nextLaunch with
    | none => exact absurd ⟨hocc, fun l h => absurd (hl.symm.trans h) (by simp)⟩ h
    | some l =>
      have hnow : ¬s.now + 24064 + 1000 * (11 - g.val) < l.toNat := fun hlt =>
        h ⟨hocc, fun l' h' => by rw [Option.some.inj (h'.symm.trans hl)]; exact hlt⟩
      simp only [execDepartureGroup, hstagger, hl, decide_eq_false hnow, bne_self_eq_false, Bool.and_false, Bool.or_false, Bool.false_eq_true, if_false]
  · simp only [execDepartureGroup, hstagger, beq_false_of_ne hocc, bne_self_eq_false, Bool.false_and, Bool.or_false, Bool.false_eq_true, if_false]

/-- A wake's departures are on their way. -/
def State.departing (s : State) : Bool := s.power.waking && match s.power.stagger with
  | some (occ, _) => occ == occWake
  | none => false

theorem departing_iff : s.departing = true ↔ s.power.waking = true ∧ ∃ g, s.power.stagger = some (occWake, g) := by
  rw [State.departing, Bool.and_eq_true]
  refine and_congr_right fun _ => ?_
  cases hs : s.power.stagger with
  | none => simp
  | some x => simp [Prod.ext_iff]

theorem startWake_begins (hstate : s.power.chipState ≠ 0) (h : ¬(s.power.waking = true ∧ ∃ g, s.power.stagger = some (occWake, g))) :
    startWake s = startStagger occWake { s with power.waking := true } := by
  refine if_neg (?_ : ¬(decide (s.power.chipState = 0) || s.departing) = true)
  rw [decide_eq_false hstate, Bool.false_or, departing_iff]
  exact h

theorem startWake_stays (h : s.power.chipState = 0 ∨ s.power.waking = true ∧ ∃ g, s.power.stagger = some (occWake, g)) : startWake s = s := by
  refine if_pos (?_ : (decide (s.power.chipState = 0) || s.departing) = true)
  rcases h with h | h
  · rw [decide_eq_true h, Bool.true_or]
  · rw [departing_iff.2 h, Bool.or_true]

theorem deepGuard : (s.power.chipState != 2 && s.power.deepAllow && quietGap s && s.forme.state != .started &&
      decide (10000000 ≤ s.power.windowIdle)) = true ↔
    s.power.chipState ≠ 2 ∧ s.power.deepAllow = true ∧ quietGap s = true ∧ s.forme.state ≠ .started ∧ 10000000 ≤ s.power.windowIdle := by
  simp only [Bool.and_eq_true, bne_iff_ne, decide_eq_true_iff, and_assoc]

theorem sb3Idle_of_quietGap (h : quietGap s = true) : sb3Busy s = false := by
  simp only [quietGap, Bool.and_eq_true, Bool.not_eq_true'] at h
  obtain ⟨⟨⟨-, hbusy⟩, -⟩, -⟩ := h
  exact hbusy

theorem wakes_of (hwaking : s.power.waking = true) (hstate : s.power.chipState ≠ 0) : ¬(!s.power.waking || s.power.chipState = 0) = true := by
  rw [hwaking, decide_eq_false hstate]
  exact Bool.false_ne_true

/-- Settles O49: each arm's guards decided by the clause's hypotheses. -/
theorem powerCommandsComplete : Obligations.PowerCommandsComplete := by
  unfold Obligations.PowerCommandsComplete
  dsimp only
  refine ⟨fun p g s => ⟨fun hout => ?_, fun hout hstand => ?_, fun hout hstand hdue => ?_, fun m now hout hstand hdue => ?_, fun hnot => ?_,
      fun m now hout hstand hdue => ?_, fun hstagger => ?_, fun occ next hstagger => ⟨fun hnot => ?_, fun hnext hearly => ?_⟩⟩,
    fun watts junction s => ⟨fun halive => ?_, fun halive => ⟨fun hbraking => ?_, fun hbraking hquiet => ?_, fun hbraking hquiet => ?_⟩,
      fun hstate hallow hgap => ?_, fun hnot => ?_, ⟨fun hdeep => ?_, fun hdeep => ?_⟩, ⟨fun hask hstate hdep => ?_, fun hnot => ?_⟩, fun hnot => ?_,
      fun hwaking hstate => ⟨fun hpoint => ?_, fun q step hquiet hpend => ?_⟩⟩⟩
  · refine next_congr ((if_pos hout).trans ?_)
    simp only [Bool.or_eq_true, beq_iff_eq]
    rfl
  · exact next_congr ((if_neg (ne_true_of_eq_false hout)).trans (if_pos (bne_iff_ne.2 hstand)))
  · refine next_congr ((if_neg (ne_true_of_eq_false hout)).trans ((if_neg (not_bne_of_eq hstand)).trans ?_))
    rw [hdue]
  · refine next_congr ((if_neg (ne_true_of_eq_false hout)).trans ((if_neg (not_bne_of_eq hstand)).trans ?_))
    rw [hdue]
    simp only [Bool.and_eq_true, decide_eq_true_iff, Nat.add_assoc]
  · refine next_congr ?_
    by_cases hguard : ((s.press p.val).power == .stand || (s.loaded && (s.pressSlot p.val).isNone)) = true
    · exact if_pos hguard
    · refine (if_neg hguard).trans ?_
      rcases hnot with h | h | h
      · rw [h] at hguard
        exact absurd rfl hguard
      · rw [h, Bool.or_true] at hguard
        exact absurd rfl hguard
      · rw [h]
  · refine next_congr ((if_neg ?_).trans ?_)
    · rw [beq_false_of_ne hstand, hout]
      exact Bool.false_ne_true
    · rw [hdue]
      simp only [beq_iff_eq]
  · show execDepartureGroup g s = _
    rw [execDepartureGroup, hstagger]
  · exact departureGroup_waits hstagger hnot
  · subst hnext
    exact departureGroup_acts hstagger hearly
  · exact next_congr (if_neg (ne_true_of_eq_false halive))
  · refine (execPowerSample_eq watts junction halive).trans (next_congr (congrArg (seeJunction junction) ?_))
    exact if_pos (not_eq_true_of_false hbraking)
  · refine (execPowerSample_eq watts junction halive).trans (next_congr (congrArg (seeJunction junction) ?_))
    exact (if_neg (not_of_eq_true hbraking)).trans (if_pos (not_eq_true_of_false hquiet))
  · refine (execPowerSample_eq watts junction halive).trans (next_congr (congrArg (seeJunction junction) ?_))
    exact (if_neg (not_of_eq_true hbraking)).trans (if_neg (not_of_eq_true hquiet))
  · refine next_congr (if_pos ?_)
    rw [decide_eq_true hstate, hallow, hgap]
    rfl
  · refine next_congr (if_neg ?_)
    rw [Bool.and_eq_true, Bool.and_eq_true, decide_eq_true_iff]
    rintro ⟨⟨hstate, hallow⟩, hgap⟩
    rcases hnot with h | h | h
    · exact h hstate
    · exact Bool.false_ne_true (h.symm.trans hallow)
    · exact Bool.false_ne_true (h.symm.trans hgap)
  · obtain ⟨hstate, hallow, hgap, hforme, -, hidle⟩ := hdeep
    exact next_congr (if_pos (deepGuard.2 ⟨hstate, hallow, hgap, hforme, hidle⟩))
  · refine next_congr (if_neg fun hguard => ?_)
    obtain ⟨hstate, hallow, hgap, hforme, hidle⟩ := deepGuard.1 hguard
    exact hdeep ⟨hstate, hallow, hgap, hforme, sb3Idle_of_quietGap hgap, hidle⟩
  · refine next_congr ((if_pos ?_).trans (startWake_begins hstate hdep))
    rw [Bool.or_eq_true]
    exact hask
  · refine next_congr ?_
    rcases hnot with h | h | ⟨hwaking, hnear⟩
    · exact (congrArg (fun t => if (s.power.waking || launchNear s) = true then t else s) (startWake_stays (.inl h))).trans (ite_self s)
    · exact (congrArg (fun t => if (s.power.waking || launchNear s) = true then t else s) (startWake_stays (.inr h))).trans (ite_self s)
    · refine if_neg ?_
      rw [hwaking, hnear]
      exact Bool.false_ne_true
  · refine next_congr (if_pos ?_)
    rcases hnot with h | h
    · rw [h]
      rfl
    · rw [decide_eq_true h, Bool.or_true]
  · refine next_congr ((if_neg (wakes_of hwaking hstate)).trans (congrArg kclPump ?_))
    refine if_pos (?_ : (!s.power.pointQuiet || s.power.pendingPoint.isNone) = true)
    rcases hpoint with h | h
    · rw [h]
      rfl
    · rw [h, Option.isNone_none, Bool.or_true]
  · refine next_congr ((if_neg (wakes_of hwaking hstate)).trans (congrArg kclPump ?_))
    refine (if_neg (?_ : ¬(!s.power.pointQuiet || s.power.pendingPoint.isNone) = true)).trans ?_
    · rw [hquiet, hpend]
      exact Bool.false_ne_true
    · refine (congrArg (fun v : State => if v.loaded then v else writeEdition (pointDone v)) (endChange_begun (p := q) (step := step) ?_)).trans ?_
      · exact hpend
      · rfl

end Sys2Proof.Machine
end

section
/-!
# Self-tests and health scores (O50)
-/

namespace Sys2Proof.Machine

variable {s : State}

/-- A score fits its ten bits. -/
theorem scoreOf_le (p : Nat) : scoreOf p ≤ 1000 := by
  unfold scoreOf
  omega

theorem healthAlert_scores (i old new points : Nat) (s : State) :
    (healthAlert i old new points s).health.score = s.health.score ∧ (healthAlert i old new points s).health.window = s.health.window := by
  unfold healthAlert
  extract_lets floor
  split
  · rw [postEvent_health]
    exact ⟨rfl, rfl⟩
  · exact ⟨rfl, rfl⟩

theorem setPin_health (k : Nat) (l : PinLevel) (s : State) : (s.setPin k l).health = s.health := by
  unfold State.setPin
  split
  · rfl
  · rfl

theorem alertPin_health (s : State) : (alertPin s).health = s.health := by
  unfold alertPin
  split
  · exact setPin_health _ _ _
  · rfl

/-- The alerts of a second's scores leave the scores and the window. -/
theorem alerts_scores (old new points : Nat → Nat) (l : List Nat) (s : State) :
    (alertPin (l.foldl (fun s i => healthAlert i (old i) (new i) (points i) s) s)).health.score = s.health.score ∧
      (alertPin (l.foldl (fun s i => healthAlert i (old i) (new i) (points i) s) s)).health.window = s.health.window := by
  rw [alertPin_health]
  refine List.foldlRecOn (motive := fun t : State => t.health.score = s.health.score ∧ t.health.window = s.health.window) _ _ ⟨rfl, rfl⟩ ?_
  rintro t ⟨hscore, hwindow⟩ i -
  obtain ⟨hscore', hwindow'⟩ := healthAlert_scores i (old i) (new i) (points i) t
  exact ⟨hscore'.trans hscore, hwindow'.trans hwindow⟩

/-- A score in its ten bits is what was put there. -/
theorem vget_scores {f : Nat → Nat} (hf : ∀ k, f k ≤ 1000) {k : Nat} (hk : k < 164) :
    (vget (Vector.ofFn (fun (i : Fin 164) => BitVec.ofNat 10 (f i.val))) k 0).toNat = f k := by
  have hlt : f k < 2 ^ 10 := by
    have := hf k
    omega
  rw [vget, dif_pos hk, Vector.getElem_ofFn, BitVec.toNat_ofNat, Nat.mod_eq_of_lt hlt]

/-! What a second's computation puts into the scores (R392 to R394). -/

/-- The counters of each part, as they stand. -/
def secondCounts (s : State) : List (List HealthCount) := (List.range 164).map (healthCounts s)

/-- The points that each part has gathered since the second before. -/
def secondBucket (s : State) : List Nat :=
  ((secondCounts s).mapIdx (fun i c => (i, c))).map (fun (x : Nat × List HealthCount) => healthGrowth x.2 (s.health.counted.getD x.1 []))

/-- The buckets of the last 60 s. -/
def secondWindow (s : State) : List (List Nat) := (secondBucket s :: s.health.window).take 60

/-- A part's points of the last 60 s. -/
def secondPoints (s : State) (i : Nat) : Nat := sumOf ((secondWindow s).map (fun b => b.getD i 0))

def secondScore (s : State) (i : Nat) : Nat := if s.heldAtZero i then 0 else scoreOf (secondPoints s i)

/-- The points in the unit of their register. -/
def shownPoints (s : State) (i : Nat) : Nat := satNat 32 (secondPoints s i / 100000000)

def scored (s : State) : State :=
  { s with
    health.window := secondWindow s, health.counted := (secondCounts s).map (fun c => c.map (·.value))
    health.score := .ofFn (fun (i : Fin 164) => BitVec.ofNat 10 (secondScore s i.val))
    health.points := .ofFn (fun (i : Fin 164) => BitVec.ofNat 32 (shownPoints s i.val)) }

theorem healthCompute_running (h : s.fw.boot = .running) :
    execHealthCompute s = .next (alertPin ((List.range 164).foldl
      (fun t i => healthAlert i (vget s.health.score i 0).toNat (secondScore s i) (shownPoints s i) t) (scored s))) :=
  next_congr (if_neg (not_bne_of_eq h))

theorem secondScore_le (i : Nat) : secondScore s i ≤ 1000 := by
  unfold secondScore
  split
  · exact Nat.zero_le _
  · exact scoreOf_le _

/-- Settles O50: each arm's guards decided by the clause's hypotheses, and the scores as they were put. -/
theorem healthCommandsComplete : Obligations.HealthCommandsComplete := by
  unfold Obligations.HealthCommandsComplete
  dsimp only
  refine fun part fail block s => ⟨fun hstate hfits => ?_, fun hnot => ?_, fun hnot => ?_, fun htest hbrake => ?_, fun hboot => ?_, fun hboot => ?_⟩
  · refine next_congr (if_pos ?_)
    rw [decide_eq_true hstate, hfits]
    rfl
  · refine next_congr (if_neg ?_)
    rcases hnot with h | h
    · rw [decide_eq_false h]
      exact Bool.false_ne_true
    · rw [h, Bool.and_false]
      exact Bool.false_ne_true
  · refine next_congr (if_pos ?_)
    rcases hnot with h | h
    · rw [h]
      rfl
    · rw [h, Bool.or_true]
  · refine next_congr ((if_neg ?_).trans ?_)
    · rw [htest, hbrake]
      exact Bool.false_ne_true
    · simp only [Bool.and_eq_true, Bool.not_eq_true', decide_eq_true_iff, and_assoc]
      rfl
  · exact next_congr (if_pos (bne_iff_ne.2 hboot))
  · obtain ⟨hscore, hwindow⟩ := alerts_scores (fun i => (vget s.health.score i 0).toNat) (secondScore s) (shownPoints s) (List.range 164) (scored s)
    refine ⟨_, healthCompute_running hboot, ?_, fun k hk => ?_⟩
    · rw [hwindow]
      exact List.length_take_le _ _
    · rw [hscore, hwindow]
      exact vget_scores secondScore_le hk

end Sys2Proof.Machine
end

section
/-!
# Watchdogs, handover, nonvolatile writes, the rebuild, and the reset sources (O51, O52)
-/

namespace Sys2Proof.Machine

variable {s : State}

/-! ## The end of a nonvolatile write -/

theorem nvmWriteEnd_none (hbusy : nvmBusy s = true) (hlate : s.nv.deferred = []) : execNvmWriteEnd s = .next (nvmAdvance s) := by
  have hsame : { s with nv.deferred := [] } = s := by rw [← hlate]
  refine next_congr ((if_neg (not_of_eq_true hbusy)).trans ((if_pos ?_).trans (congrArg nvmAdvance hsame)))
  rw [hlate]
  rfl

/-- What the end of a nonvolatile write leaves to the resets that waited for it. -/
def nvmLeft (s : State) : State := { nvmAdvance { s with nv.deferred := [] } with nv.job := none, nv.cmd := none }

theorem nvmWriteEnd_warm {c : Nat} {rest : List Deferred} (hbusy : nvmBusy s = true) (hlate : s.nv.deferred = .warm c :: rest)
    (hfull : deferredFull s.nv.deferred = []) : execNvmWriteEnd s = .next (warmReset c (nvmLeft s)) := by
  refine next_congr ((if_neg (not_of_eq_true hbusy)).trans ((if_neg ?_).trans ?_))
  · rw [hlate]
    exact Bool.false_ne_true
  · rw [hfull, hlate]
    rfl

theorem nvmWriteEnd_full {x : FullSource} (hbusy : nvmBusy s = true) (hfull : (deferredFull s.nv.deferred).head? = some x) :
    let u := fullReset x (holdersNow { nvmLeft s with power.holders := [] }) (nvmLeft s)
    execNvmWriteEnd s = .next (if (deferredFull s.nv.deferred).contains .thermalTrip then takeTrip u else u) := by
  have hlate : s.nv.deferred ≠ [] := by
    intro h
    rw [h] at hfull
    exact absurd hfull (Option.some_ne_none x).symm
  refine next_congr ((if_neg (not_of_eq_true hbusy)).trans ((if_neg ?_).trans ?_))
  · rw [List.isEmpty_iff]
    exact hlate
  · obtain ⟨rest, hcons⟩ := List.head?_eq_some_iff.1 hfull
    rw [hcons]
    rfl

/-! ## Watchdogs, handover and the rebuild -/

theorem handover_ends {img : List Byte} {adopted : BitVec 6} (hboot : s.fw.boot = .handover) (hstaged : s.fw.staged = some img) :
    let t := postHeld { s with fw.handoverCmd := none, fw.boot := .running }
    let u : State := if adopted = 0x3F then
      { t with
        fw.runningSlot := t.fw.stagedSlot, fw.source := 3, fw.running := BitVec.ofNat 32 (imgRelease img), fw.image := img, fw.runningIsStaged := true
        fw.boxes := t.fw.boxes.mapIdx (startBox img) }
      else { t with fw.staged := none, fw.boxes := t.fw.boxes.mapIdx (startBox t.fw.image) }
    execHandoverComplete adopted s = .next (match s.fw.handoverCmd with
      | some d => if adopted = 0x3F then finish d stDone (resAt 16 u.fw.running.toNat) u else finish d stVerifyFail (resAt 16 u.fw.running.toNat) u
      | none => u) := by
  unfold execHandoverComplete
  rw [hboot, hstaged] <;> rfl

/-- Settles O51: each arm's guards decided by the clause's hypotheses. -/
theorem firmwareEventsComplete : Obligations.FirmwareEventsComplete := by
  unfold Obligations.FirmwareEventsComplete
  dsimp only
  refine ⟨fun b adopted s => ⟨fun hnot hstill => ?_, fun hb hboot => ?_, fun hrun hb => ?_, fun hboot => ?_, fun hboot => ?_, fun hnot => ?_,
      fun img hboot hstaged => ⟨fun hcmd => ?_, fun d hcmd => ?_⟩, fun x rest hjob => ?_, fun hjob => ?_, fun herase hoption => ?_,
      fun hjob => ⟨?_, ?_⟩, fun hjob => ⟨?_, ?_⟩, fun hjob => ⟨?_, ?_⟩, fun hbusy => ?_, fun hbusy hlate => nvmWriteEnd_none hbusy hlate,
      fun hbusy => ⟨fun c rest hlate hfull => nvmWriteEnd_warm hbusy hlate hfull, fun x hfull => nvmWriteEnd_full hbusy hfull⟩⟩,
    fun s => ⟨fun hnot => ?_, fun hphase hboot hbox0 hbox4 => ?_⟩⟩
  · refine next_congr ((if_neg ?_).trans (if_pos (not_eq_true_of_false hstill)))
    rcases hnot with h | h
    · rw [decide_eq_false h]
      exact Bool.false_ne_true
    · rw [beq_false_of_ne h, Bool.and_false]
      exact Bool.false_ne_true
  · refine next_congr (if_pos ?_)
    rw [decide_eq_true hb, hboot]
    rfl
  · refine next_congr ((if_neg ?_).trans (if_neg (not_of_eq_true hrun)))
    rw [decide_eq_false hb]
    exact Bool.false_ne_true
  · exact next_congr (if_neg (not_bne_of_eq hboot))
  · exact next_congr (if_pos (bne_iff_ne.2 hboot))
  · show execHandoverComplete adopted s = _
    unfold execHandoverComplete
    split
    · next img hboot hstaged =>
      rcases hnot with h | h
      · exact absurd hboot h
      · exact absurd (hstaged.symm.trans h) (Option.some_ne_none img)
    · rfl
  · refine (handover_ends hboot hstaged).trans ?_
    rw [hcmd]
  · refine (handover_ends hboot hstaged).trans ?_
    rw [hcmd]
    by_cases hadopt : adopted = 0x3F
    · simp only [if_pos hadopt]
    · simp only [if_neg hadopt]
  · show execFlashSectorEraseEnd s = _
    rw [execFlashSectorEraseEnd, hjob]
  · show execFlashSectorEraseEnd s = _
    rw [execFlashSectorEraseEnd, hjob]
  · show execFlashSectorEraseEnd s = _
    unfold execFlashSectorEraseEnd
    split
    · next x rest h => exact absurd h (herase x rest)
    · next h => exact absurd h hoption
    · rfl
  · rw [nvmBusy, hjob]
  · rw [nvmAdvance, hjob]
  · exact next_congr (if_pos (bne_iff_ne.2 hjob))
  · exact next_congr (if_pos (bne_iff_ne.2 hjob))
  · exact next_congr (if_neg (not_bne_of_eq hjob))
  · exact next_congr (if_neg (not_bne_of_eq hjob))
  · exact next_congr (if_pos (not_eq_true_of_false hbusy))
  · refine next_congr (if_pos ?_)
    rcases hnot with h | h | h | h
    · rw [bne_iff_ne.2 h]
      rfl
    · rw [bne_iff_ne.2 h, Bool.or_true]
      rfl
    · rw [h, Bool.not_false, Bool.or_true]
      rfl
    · rw [h, Bool.not_false, Bool.or_true]
  · refine ⟨_, ?_, ?_, ?_, next_congr (if_neg ?_)⟩
    · rfl
    · rfl
    · rfl
    · rw [hphase, hboot, hbox0, hbox4]
      exact Bool.false_ne_true

/-! ## The reset sources -/

theorem left_empty (h : s.power.holders.contains .modReset = false) : s.power.holders.filter (fun x => x == .modReset) = [] := by
  rw [List.filter_eq_nil_iff]
  intro x hx heq
  rw [beq_iff_eq.1 heq] at hx
  exact Bool.false_ne_true (h.symm.trans (List.contains_iff_mem.2 hx))

theorem left_contains (h : s.power.holders.contains .modReset = true) :
    (s.power.holders.filter (fun x => x == .modReset)).contains .modReset = true := by
  rw [List.contains_iff_mem, List.mem_filter]
  exact ⟨List.contains_iff_mem.1 h, rfl⟩

/-- An abandoned job changes the nonvolatile memory, and draws a value where it was a pulse. -/
theorem abandonJob_changes (s : State) : ∃ nv free, abandonJob s = { s with nv := nv, free := free } := by
  unfold abandonJob
  split
  next hdraw =>
    obtain ⟨free, rfl⟩ : ∃ free, _ = { s with free := free } := by
      split at hdraw
      · exact ⟨_, (congrArg Prod.snd hdraw).symm⟩
      · exact ⟨s.free, (congrArg Prod.snd hdraw).symm⟩
    dsimp only
    split
    · exact ⟨_, _, rfl⟩
    · exact ⟨_, _, rfl⟩
    · exact ⟨_, _, rfl⟩
    · exact ⟨_, _, rfl⟩

/-- An abandoned job leaves the far tier and the queue. -/
theorem abandonJob_keeps (s : State) : (abandonJob s).far = s.far ∧ (abandonJob s).pending = s.pending := by
  obtain ⟨nv, free, h⟩ := abandonJob_changes s
  rw [h]
  exact ⟨rfl, rfl⟩

/-- Power's fields where the auxiliary supply is gone, but for the pins. -/
def unpowered (s : State) : Power :=
  { Power.reset with phase := .held, auxUp := false, inputUp := s.power.inputUp, modResetLow := s.power.modResetLow }

theorem resetPins_unpowered {p : Power} (h : p.auxUp = false) : resetPins p = .replicate 7 .highZ := by
  rw [resetPins, h]
  rfl

theorem trips_of {junction : BitVec 8} (hhot : 115 ≤ junction.toNat) (haux : s.power.auxUp = true) :
    ¬(decide (junction.toNat < 115) || !s.power.auxUp) = true := by
  rw [decide_eq_false (Nat.not_lt.2 hhot), haux]
  exact Bool.false_ne_true

/-- Settles O52: each arm's guards decided by the clause's hypotheses. -/
theorem resetsComplete : Obligations.ResetsComplete := by
  unfold Obligations.ResetsComplete
  dsimp only
  refine fun junction s => ⟨⟨fun hlow hholds => ?_, fun hlow hholds => ?_, fun hholds => ?_⟩, fun haux => ?_, fun haux => ?_, fun huv => ?_, fun huv => ?_,
    ⟨_, rfl, rfl, rfl, rfl, ?_, rfl, rfl, ?_, rfl, ?_⟩, ⟨fun haux => ?_, fun haux hbusy => ?_, fun haux hbusy => ?_⟩, fun hlow => ?_, fun hlow hholds => ?_,
    fun hlow hholds => ?_, fun hnot => ?_, fun hhot haux hbusy => ?_, fun hhot haux hbusy => ?_⟩
  · show execPowerOn s = _
    simp only [execPowerOn, left_empty hholds, hlow, Bool.false_and, Bool.false_eq_true, if_false]
  · show execPowerOn s = _
    simp only [execPowerOn, left_empty hholds, hlow, Bool.true_and, List.contains_nil, Bool.not_false, if_true, List.nil_append]
  · show execPowerOn s = _
    simp only [execPowerOn, left_contains hholds, Bool.not_true, Bool.and_false, Bool.false_eq_true, if_false]
  · exact next_congr (if_neg (not_of_eq_true haux))
  · exact next_congr (if_pos (not_eq_true_of_false haux))
  · exact next_congr (if_neg (not_of_eq_true huv))
  · exact next_congr (if_pos (not_eq_true_of_false huv))
  · exact resetPins_unpowered (p := unpowered (abandonJob s)) rfl
  · exact congrArg (·.mem) (abandonJob_keeps s).1
  · exact (abandonJob_keeps s).2
  · exact next_congr (if_pos (not_eq_true_of_false haux))
  · exact next_congr ((if_neg (not_of_eq_true haux)).trans (if_neg (ne_true_of_eq_false hbusy)))
  · exact next_congr ((if_neg (not_of_eq_true haux)).trans (if_pos hbusy))
  · exact next_congr (if_pos (not_eq_true_of_false hlow))
  · exact next_congr ((if_neg (not_of_eq_true hlow)).trans (if_pos hholds))
  · exact next_congr ((if_neg (not_of_eq_true hlow)).trans (if_neg (ne_true_of_eq_false hholds)))
  · refine next_congr (if_pos ?_)
    rcases hnot with h | h
    · rw [decide_eq_true h, Bool.true_or]
    · rw [h, Bool.not_false, Bool.or_true]
  · exact next_congr ((if_neg (trips_of hhot haux)).trans (if_pos hbusy))
  · exact next_congr ((if_neg (trips_of hhot haux)).trans (if_neg (ne_true_of_eq_false hbusy)))

end Sys2Proof.Machine
end


section

/-! # The companion's requests on KCL (R402 to R407) -/

namespace Sys2Proof.Machine

/-! ## With no earlier request nothing of the list of requests appears -/

theorem reqs_kclSend (m : KclMsg) (s : State) : (kclSend m s).kcl.reqs = s.kcl.reqs := by
  unfold kclSend
  split <;> rfl

theorem reqs_respond (msg : BitVec 8) (error : Bool) (tag : BitVec 16) (data : List Byte) (s : State) :
    (respond msg error tag data s).kcl.reqs = s.kcl.reqs := reqs_kclSend _ _

theorem reqs_kclSnoop (a : Nat) (inv : Bool) (s : State) : (kclSnoop a inv s).kcl.reqs = s.kcl.reqs := by
  unfold kclSnoop
  split
  · rfl
  · exact reqs_kclSend _ _

theorem reqs_csAnswer (tag : BitVec 16) (off : Nat) (s : State) : (csAnswer tag off s).kcl.reqs = s.kcl.reqs := by
  unfold csAnswer
  split
  · exact reqs_respond _ _ _ _ _
  · split <;> exact reqs_respond _ _ _ _ _

theorem pullForward_empty {s : State} (a : Nat) (h : s.kcl.reqs = []) : pullForward a s = s := by
  unfold pullForward
  rw [h]
  rfl

theorem reqs_kclDrain_empty (n : Nat) : ∀ s : State, s.kcl.reqs = [] → (kclDrain n s).kcl.reqs = [] := by
  induction n with
  | zero => exact fun s h => h
  | succ n ih =>
    intro s h
    unfold kclDrain
    split
    case h_1 => exact h
    case h_2 v rest _ =>
      refine ih _ ?_
      split
      · exact (reqs_kclSend _ _).trans h
      · exact h
    case h_3 v rest _ => exact ih _ h
    case h_4 a bs rest _ =>
      split
      · exact (congrArg (fun t : State => t.kcl.reqs) (pullForward_empty a h)).trans h
      · split
        · exact (reqs_kclSnoop _ _ _).trans h
        · split
          · exact ih _ h
          · exact h

theorem reqs_evictLine_empty (tag : BitVec 16) (a : Nat) {s : State} (h : s.kcl.reqs = []) : (evictLine tag a s).kcl.reqs = [] := by
  unfold evictLine
  split
  · exact reqs_kclDrain_empty _ _ ((reqs_respond _ _ _ _ _).trans h)
  · exact (reqs_respond _ _ _ _ _).trans h

theorem recallFirst_empty {s : State} (h : s.kcl.reqs = []) : recallFirst s = s := by
  unfold recallFirst
  rw [h]

/-! ## A request received alone (R407) -/

theorem receiveReq_alone {s : State} (r : Held) (h : s.kcl.reqs = []) :
    receiveReq r s = reqGo 1 { s with kcl.reqs := [r] } := by
  unfold receiveReq
  rw [h]
  rfl

theorem receiveReq_alone_waits {s : State} {r : Held} (h : s.kcl.reqs = []) (hr : r.ready { s with kcl.reqs := [r] } true false = false) :
    receiveReq r s = recallFirst { s with kcl.reqs := [r] } := by
  rw [receiveReq_alone r h]
  unfold reqGo
  simp [nextReady, hr]

theorem receiveReq_alone_goes {s : State} {r : Held} (h : s.kcl.reqs = []) (hr : r.ready { s with kcl.reqs := [r] } true false = true)
    (hq : (performReq r s).kcl.reqs = []) : receiveReq r s = performReq r s := by
  have same : ({ s with kcl.reqs := [] } : State) = s := by rw [← h]
  rw [receiveReq_alone r h]
  unfold reqGo
  simp only [nextReady, hr, if_true]
  exact (congrArg (fun t => reqGo 0 (performReq r t)) same).trans (recallFirst_empty hq)

theorem receiveReq_read_alone {s : State} (tag : BitVec 16) (off : Nat) (h : s.kcl.reqs = []) :
    receiveReq (.read tag off) s = if s.givenWaits then { s with kcl.reqs := [.read tag off] } else csAnswer tag off s := by
  split
  case isTrue hw =>
    have waits : (!s.givenWaits) = false := by rw [hw, Bool.not_true]
    exact receiveReq_alone_waits h waits
  case isFalse hw =>
    have goes : (!s.givenWaits) = true := not_eq_true_of_false (Bool.eq_false_of_not_eq_true hw)
    exact receiveReq_alone_goes h goes ((reqs_csAnswer _ _ _).trans h)

theorem receiveReq_evict_alone {s : State} (tag : BitVec 16) (a : Nat) (h : s.kcl.reqs = []) :
    receiveReq (.window (.evict tag a)) s = evictLine tag a s :=
  receiveReq_alone_goes h rfl (reqs_evictLine_empty tag a h)

theorem receiveReq_writeback_alone {s : State} (tag : BitVec 16) (a : Nat) (line : BitVec 512) (h : s.kcl.reqs = []) :
    receiveReq (.window (.writeback tag a line)) s =
      if lineState s.kcl a = some true then { s with kcl.reqs := [.window (.writeback tag a line)] } else respond 0x21 false tag [] s := by
  have atLine : lineState ({ s with kcl.reqs := [.window (.writeback tag a line)] } : State).kcl a = lineState s.kcl a := rfl
  split
  case isTrue hl => exact receiveReq_alone_waits h (by simp [Held.ready, atLine, hl])
  case isFalse hl => exact receiveReq_alone_goes h (by simp [Held.ready, atLine, hl]) ((reqs_respond _ _ _ _ _).trans h)

/-! ## A request received behind others (R407) -/

theorem ready_other_reqs (s : State) (l : List Held) (first writes : Bool) (r : Held) :
    r.ready { s with kcl.reqs := l } first writes = r.ready s first writes := by
  cases r with
  | window access => cases access <;> rfl
  | _ => rfl

/-- Whether a request waits for every earlier one: all but a CS_WR, which waits for writes alone. -/
def Held.waitsTurn : Held → Bool
  | .write _ _ => false
  | _ => true

theorem Held.ready_of_waitsTurn {r : Held} (h : r.waitsTurn = true) (s : State) (writes : Bool) : r.ready s false writes = false := by
  cases r with
  | read _ _ => rfl
  | write _ _ => exact absurd h Bool.false_ne_true
  | window access => cases access <;> rfl

theorem nextReady_append {s : State} {r : Held} (q : List Held) (hr : r.waitsTurn = true) (l : List Held) :
    ∀ first writes : Bool, (l = [] → first = false) → nextReady s first writes l = none →
      nextReady { s with kcl.reqs := q } first writes (l ++ [r]) = none := by
  induction l with
  | nil =>
    intro first writes hf _
    rw [hf rfl]
    simp [nextReady, Held.ready_of_waitsTurn hr]
  | cons x l ih =>
    intro first writes _ h
    rw [nextReady] at h
    rw [List.cons_append, nextReady, ready_other_reqs]
    split at h
    · exact absurd h (Option.some_ne_none _)
    · rename_i hx
      rw [if_neg hx, ih false _ (fun _ => rfl) (Option.map_eq_none_iff.1 h)]
      rfl

theorem receiveReq_behind {s : State} {r : Held} (hr : r.waitsTurn = true) (hq : s.kcl.reqs ≠ [])
    (h : nextReady s true false s.kcl.reqs = none) :
    receiveReq r s = recallFirst { s with kcl.reqs := s.kcl.reqs ++ [r] } := by
  unfold receiveReq reqGo
  simp only [nextReady_append _ hr s.kcl.reqs true false (fun e => absurd e hq) h]

/-! ## A window access received (R405, R471) -/

theorem windowRequest_up {s : State} (hup : s.kclUp = true) (msg answer : Nat) (tag : BitVec 16) (data : Nat) (ok : Bool) (h : HostAccess) :
    windowRequest msg answer tag data ok h s =
      (if !ok || !(touchWindow (kclTake msg tag s)).nearReady then
        respond (BitVec.ofNat 8 answer) true tag (zeros data) (touchWindow (kclTake msg tag s))
      else receiveReq (.window h) (touchWindow (kclTake msg tag s))) :=
  if_neg (not_of_eq_true hup)

theorem windowRequest_refused {s : State} {msg : Nat} {tag : BitVec 16} {ok : Bool} (hup : s.kclUp = true) (answer data : Nat)
    (h : HostAccess) (hbad : ok = false ∨ (touchWindow (kclTake msg tag s)).nearReady = false) :
    windowRequest msg answer tag data ok h s = respond (BitVec.ofNat 8 answer) true tag (zeros data) (touchWindow (kclTake msg tag s)) := by
  refine (windowRequest_up hup _ _ _ _ _ _).trans (if_pos ?_)
  rcases hbad with h | h
  · rw [h]
    rfl
  · rw [h, Bool.not_false, Bool.or_true]

theorem windowRequest_taken {s : State} {msg : Nat} {tag : BitVec 16} {ok : Bool} (hup : s.kclUp = true) (answer data : Nat)
    (h : HostAccess) (hok : ok = true) (hr : (touchWindow (kclTake msg tag s)).nearReady = true) :
    windowRequest msg answer tag data ok h s = receiveReq (.window h) (touchWindow (kclTake msg tag s)) := by
  refine (windowRequest_up hup _ _ _ _ _ _).trans (if_neg ?_)
  rw [hok, hr]
  exact Bool.false_ne_true

/-- Where the length or line is right, the access is taken where every channel is READY. -/
theorem windowRequest_ok {s : State} {ok : Bool} (hup : s.kclUp = true) (msg answer : Nat) (tag : BitVec 16) (data : Nat)
    (h : HostAccess) (hok : ok = true) :
    windowRequest msg answer tag data ok h s =
      (if (touchWindow (kclTake msg tag s)).nearReady then receiveReq (.window h) (touchWindow (kclTake msg tag s))
      else respond (BitVec.ofNat 8 answer) true tag (zeros data) (touchWindow (kclTake msg tag s))) := by
  split
  case isTrue hr => exact windowRequest_taken hup answer data h hok hr
  case isFalse hr => exact windowRequest_refused hup answer data h (.inr (Bool.eq_false_of_not_eq_true hr))

/-! ## Data, acknowledgements and snoops -/

theorem kclUp_down {s : State} (h : s.kclUp = false ∨ s.pastOptions = false) : (!s.kclUp || !s.pastOptions) = true := by
  rcases h with h | h
  · rw [h]
    rfl
  · rw [h, Bool.not_false, Bool.or_true]

theorem goodLength_iff (n : Nat) : (decide (64 ≤ n) && decide (n ≤ 1024) && n % 64 == 0) = false ↔ n < 64 ∨ 1024 < n ∨ n % 64 ≠ 0 := by
  rw [Bool.and_eq_false_iff, Bool.and_eq_false_iff, decide_eq_false_iff_not, decide_eq_false_iff_not, beq_eq_false_iff_ne, Nat.not_le,
    Nat.not_le, or_assoc]

theorem goodLength_of {n : Nat} (h : ¬(n < 64 ∨ 1024 < n ∨ n % 64 ≠ 0)) : (decide (64 ≤ n) && decide (n ≤ 1024) && n % 64 == 0) = true :=
  Bool.eq_true_of_not_eq_false (fun e => h ((goodLength_iff n).1 e))

theorem execBulkRd_bad {s : State} (hup : s.kclUp = true) (tag : BitVec 16) (addr : BitVec 62) {n : BitVec 16}
    (h : (decide (64 ≤ n.toNat) && decide (n.toNat ≤ 1024) && n.toNat % 64 == 0) = false) :
    execBulkRd tag addr n s = .next (respond 0x24 true tag (zeros 64) (touchWindow (kclTake 0x07 tag s))) := by
  unfold execBulkRd
  simp only [h, Bool.false_and, Bool.false_eq_true, if_false]
  exact next_congr (windowRequest_refused hup 0x24 64 _ (.inl rfl))

theorem execBulkRd_within {s : State} (hup : s.kclUp = true) (tag : BitVec 16) {addr : BitVec 62} {n : BitVec 16}
    (h : (decide (64 ≤ n.toNat) && decide (n.toNat ≤ 1024) && n.toNat % 64 == 0) = true) (hin : addr.toNat + n.toNat ≤ nearBytes) :
    execBulkRd tag addr n s = .next (if (touchWindow (kclTake 0x07 tag s)).nearReady then
      receiveReq (.window (.bulkRead tag addr.toNat n.toNat)) (touchWindow (kclTake 0x07 tag s))
      else respond 0x24 true tag (zeros 64) (touchWindow (kclTake 0x07 tag s))) := by
  unfold execBulkRd
  simp only [h, Bool.true_and, decide_eq_false (Nat.not_lt.2 hin), Bool.false_eq_true, if_false]
  exact next_congr (windowRequest_ok hup 0x07 0x24 tag 64 _ rfl)

theorem execBulkWr_bad {s : State} (hup : s.kclUp = true) (tag : BitVec 16) (addr : BitVec 62) (mask : BitVec 64) {data : List Byte}
    (h : (decide (64 ≤ data.length) && decide (data.length ≤ 1024) && data.length % 64 == 0) = false) :
    execBulkWr tag addr mask data s = .next (respond 0x21 true tag [] (touchWindow (kclTake 0x08 tag s))) := by
  unfold execBulkWr
  simp only [h, Bool.false_and, Bool.false_eq_true, if_false]
  exact next_congr (windowRequest_refused hup 0x21 0 _ (.inl rfl))

theorem execBulkWr_within {s : State} (hup : s.kclUp = true) (tag : BitVec 16) {addr : BitVec 62} (mask : BitVec 64) {data : List Byte}
    (h : (decide (64 ≤ data.length) && decide (data.length ≤ 1024) && data.length % 64 == 0) = true)
    (hin : addr.toNat + data.length ≤ nearBytes) :
    execBulkWr tag addr mask data s = .next (if (touchWindow (kclTake 0x08 tag s)).nearReady then
      receiveReq (.window (.bulkWrite tag addr.toNat mask data)) (touchWindow (kclTake 0x08 tag s))
      else respond 0x21 true tag [] (touchWindow (kclTake 0x08 tag s))) := by
  unfold execBulkWr
  simp only [h, Bool.true_and, decide_eq_false (Nat.not_lt.2 hin), Bool.false_eq_true, if_false]
  exact next_congr (windowRequest_ok hup 0x08 0x21 tag 0 _ rfl)

/-- Settles O59: a request received alone or behind others, the window's refusals, and the answers of reads and snoops, each from
the lemma that says what receiving it does. -/
theorem kclRequestsComplete : Obligations.KclRequestsComplete := by
  unfold Obligations.KclRequestsComplete
  intro tag off addr n mask data line s
  refine ⟨fun u hq => ⟨receiveReq_read_alone tag off.toNat hq, receiveReq_evict_alone tag _ hq, fun hl => if_neg ?_,
      receiveReq_writeback_alone tag _ line hq, ?_, ?_⟩, fun u hq hn => ?_, fun hdown => next_congr (if_pos (kclUp_down hdown)), fun hup =>
    ⟨fun hpast => next_congr (if_neg ?_), ⟨fun hbad => next_congr (windowRequest_refused hup 0x22 64 _ hbad),
      fun hin hr => next_congr (windowRequest_taken hup 0x22 64 _ hin hr)⟩,
    ⟨fun hbad => next_congr (windowRequest_refused hup 0x23 64 _ hbad), fun hin hr => next_congr (windowRequest_taken hup 0x23 64 _ hin hr)⟩,
    ?_, next_congr (windowRequest_ok hup 0x06 0x21 tag 0 _ rfl), ⟨fun hbad => execBulkRd_bad hup tag addr ((goodLength_iff _).2 hbad),
      fun hgood hin => execBulkRd_within hup tag (goodLength_of hgood) hin, fun hgood hout => if_pos ?_⟩,
    ⟨fun hbad => execBulkWr_bad hup tag addr mask ((goodLength_iff _).2 hbad),
      fun hgood hin => execBulkWr_within hup tag mask (goodLength_of hgood) hin, fun hgood hout => if_pos ?_⟩,
    ⟨fun hnone => ?_, fun r hr => ⟨fun d at_ hd ho => ?_, fun h => ?_, fun d hd => ?_, fun hd => ?_⟩⟩,
    next_congr (if_neg (not_of_eq_true hup)), next_congr (if_pos hup), ⟨fun x inv hx => ?_, fun hx => ?_⟩,
    fun ha => next_congr (if_pos ha), fun ha => next_congr (if_neg (ne_true_of_eq_false ha))⟩⟩
  · rw [hl]
    exact Bool.false_ne_true
  · intro access ha
    rcases List.mem_pair.1 ha with rfl | rfl <;> exact receiveReq_alone_waits hq rfl
  · intro access ha
    rcases List.mem_pair.1 ha with rfl | rfl <;> exact receiveReq_alone_waits hq rfl
  · have turn : ∀ r ∈ [Held.read tag off.toNat, .window (.readShared tag (lineBase addr.toNat)), .window (.readOwn tag (lineBase addr.toNat)),
        .window (.writeback tag (lineBase addr.toNat) line), .window (.evict tag (lineBase addr.toNat)),
        .window (.bulkRead tag addr.toNat n.toNat), .window (.bulkWrite tag addr.toNat mask data)], r.waitsTurn = true := by
      simp [Held.waitsTurn]
    exact fun r hr => receiveReq_behind (turn r hr) hq hn
  · rw [hup, hpast]
    exact Bool.false_ne_true
  · have request := windowRequest_ok hup 0x05 0x21 tag 0 (.writeback tag (lineBase addr.toNat) line) rfl
    show execWriteback tag addr line s = _
    unfold execWriteback
    simp only [request]
    rfl
  · rw [goodLength_of hgood, decide_eq_true hout]
    rfl
  · rw [goodLength_of hgood, decide_eq_true hout]
    rfl
  · constructor <;>
    · show execKclData tag _ data s = _
      simp [execKclData, hup, hnone]
  · show execKclData tag false data s = _
    simp [execKclData, hup, hr, hd, ho]
  · show execKclData tag false data s = _
    rcases h with h | h <;> simp [execKclData, hup, hr, h]
  · show execKclData tag true data s = _
    simp [execKclData, hup, hr, hd]
  · show execKclData tag true data s = _
    simp [execKclData, hup, hr, hd]
  · show execSnpData addr line s = _
    simp only [execSnpData, hup, hx, Bool.not_true, Bool.false_eq_true, if_false, Bool.and_eq_true, beq_iff_eq, Bool.not_eq_true']
  · show execSnpData addr line s = _
    simp only [execSnpData, hup, hx, Bool.not_true, Bool.false_eq_true, if_false]

end Sys2Proof.Machine
end


section

/-! # The management endpoint (R449 to R452, R491) -/

namespace Sys2Proof.Machine

/-! ## When SPDM is served (R430, R449) -/

theorem spdmServe_deaf {s : State} (h : endpointUp s = false) (run : State → State) : spdmServe run s = s :=
  if_pos (not_eq_true_of_false h)

theorem spdmServe_busy {s : State} (hup : endpointUp s = true)
    (h : mainUp s = false ∨ s.fw.boot ≠ .running ∨ s.power.readyBox.getLsbD 0 = false) (run : State → State) :
    spdmServe run s = spdmError spdmBusy s := by
  refine (if_neg (not_of_eq_true hup)).trans (if_pos ?_)
  rw [Bool.or_eq_true, Bool.or_eq_true, Bool.not_eq_true', bne_iff_ne, Bool.not_eq_true']
  exact or_assoc.2 h

theorem spdmServe_ready {s : State} (hup : endpointUp s = true) (hmain : mainUp s = true) (hboot : s.fw.boot = .running)
    (hready : s.power.readyBox.getLsbD 0 = true) (run : State → State) : spdmServe run s = run s := by
  refine (if_neg (not_of_eq_true hup)).trans (if_neg ?_)
  rw [hmain, hboot, hready]
  exact Bool.false_ne_true

theorem spdmAfter_unexpected {s : State} (hup : endpointUp s = true) (hmain : mainUp s = true) (hboot : s.fw.boot = .running)
    (hready : s.power.readyBox.getLsbD 0 = true) (hneg : s.mgmt.negotiated = false) (run : State → State) :
    spdmAfter run s = spdmError spdmUnexpected s :=
  (spdmServe_ready hup hmain hboot hready _).trans (if_neg (ne_true_of_eq_false hneg))

theorem spdmAfter_negotiated {s : State} (hup : endpointUp s = true) (hmain : mainUp s = true) (hboot : s.fw.boot = .running)
    (hready : s.power.readyBox.getLsbD 0 = true) (hneg : s.mgmt.negotiated = true) (run : State → State) :
    spdmAfter run s = run s :=
  (spdmServe_ready hup hmain hboot hready _).trans (if_pos hneg)

/-- The SPDM requests, for any bytes of the message. -/
noncomputable def spdmRequests (msg : List Byte) : List Instr :=
  [.getVersion msg, .getCapabilities msg, .negotiateAlgorithms msg, .getDigests msg, .getCertificate msg, .challenge msg,
    .getMeasurements msg, .pqSignature msg, .pqCertificate msg]

/-- Those of them that need the algorithms to have been negotiated. -/
noncomputable def spdmNegotiated (msg : List Byte) : List Instr :=
  [.getDigests msg, .getCertificate msg, .challenge msg, .getMeasurements msg, .pqSignature msg, .pqCertificate msg]

theorem exec_spdmNegotiated {msg : List Byte} {c : Instr} (h : c ∈ spdmNegotiated msg) :
    ∃ run : State → State, ∀ s, exec c s = .next (spdmAfter run s) := by
  simp only [spdmNegotiated, List.mem_cons, List.not_mem_nil, or_false] at h
  rcases h with rfl | rfl | rfl | rfl | rfl | rfl <;> exact ⟨_, fun _ => rfl⟩

theorem exec_spdmRequests {msg : List Byte} {c : Instr} (h : c ∈ spdmRequests msg) :
    ∃ run : State → State, ∀ s, exec c s = .next (spdmServe run s) := by
  rcases List.mem_append.1 (show c ∈ [.getVersion msg, .getCapabilities msg, .negotiateAlgorithms msg] ++ spdmNegotiated msg from h)
    with h | h
  · simp only [List.mem_cons, List.not_mem_nil, or_false] at h
    rcases h with rfl | rfl | rfl <;> exact ⟨_, fun _ => rfl⟩
  · obtain ⟨run, hrun⟩ := exec_spdmNegotiated h
    exact ⟨_, hrun⟩

/-! ## What the endpoint hears (R449, R491) -/

theorem exec_endpoint_deaf {s : State} (h : endpointUp s = false) (write : Bool) (msg : List Byte) (off : BitVec 27) (v : Reg) :
    ∀ c ∈ [Instr.mctpControl msg, .pldm msg, .mgmtControlAccess write off v, .getVersion msg, .getCapabilities msg,
      .negotiateAlgorithms msg, .getDigests msg, .getCertificate msg, .challenge msg, .getMeasurements msg, .pqSignature msg,
      .pqCertificate msg], exec c s = .next s := by
  intro c hc
  rcases List.mem_append.1 (show c ∈ [.mctpControl msg, .pldm msg, .mgmtControlAccess write off v] ++ spdmRequests msg from hc) with hc | hc
  · simp only [List.mem_cons, List.not_mem_nil, or_false] at hc
    rcases hc with rfl | rfl | rfl <;> exact next_congr (if_pos (not_eq_true_of_false h))
  · obtain ⟨run, hrun⟩ := exec_spdmRequests hc
    exact (hrun s).trans (next_congr (spdmServe_deaf h run))

/-- The provisional identifier ends in the serial's low 32 bits. -/
theorem provisionalId_low : provisionalId.setWidth 32 = Config.serial.setWidth 32 := by
  unfold provisionalId
  exact BitVec.setWidth_append_eq_right

theorem mctp_assigns (cmd eid : Nat) : (cmd = 1 && eid != 0 && eid != 255) = true ↔ cmd = 1 ∧ eid ≠ 0 ∧ eid ≠ 255 := by
  rw [Bool.and_eq_true, Bool.and_eq_true, decide_eq_true_iff, bne_iff_ne, bne_iff_ne, and_assoc]

/-- The measurement asked for is none of the ten, nor the number of them (0) or all (255). -/
theorem noMeasurement_iff (op : Nat) : (op != 0 && op != 255 && decide (10 < op)) = true ↔ op ≠ 255 ∧ 10 < op := by
  rw [Bool.and_eq_true, Bool.and_eq_true, decide_eq_true_iff, bne_iff_ne, bne_iff_ne]
  exact ⟨fun h => ⟨h.1.2, h.2⟩, fun h => ⟨⟨by omega, h.1⟩, h.2⟩⟩

/-! ## The answers -/

theorem mctpControl_assigns {s : State} {msg : List Byte} (hup : endpointUp s = true)
    (h : leAt msg 2 1 = 1 ∧ leAt msg 4 1 ≠ 0 ∧ leAt msg 4 1 ≠ 255) :
    execMctpControl msg s = .next (mgmtSend (leBytes 1 0 ++ leBytes 1 (leAt msg 1 1 % 32) ++ leBytes 1 (leAt msg 2 1) ++ leBytes 1 0
      ++ leBytes 1 0 ++ leBytes 1 (leAt msg 4 1) ++ leBytes 1 0) { s with mgmt.eid := BitVec.ofNat 8 (leAt msg 4 1) }) :=
  next_congr ((if_neg (not_of_eq_true hup)).trans (if_pos ((mctp_assigns _ _).2 h)))

theorem mctpControl_reads {s : State} {msg : List Byte} (hup : endpointUp s = true) (h : leAt msg 2 1 = 2) :
    execMctpControl msg s = .next (mgmtSend (leBytes 1 0 ++ leBytes 1 (leAt msg 1 1 % 32) ++ leBytes 1 (leAt msg 2 1) ++ leBytes 1 0
      ++ leBytes 1 s.mgmt.eid.toNat ++ (freeBytes 2 msg s).1) (freeBytes 2 msg s).2) := by
  refine next_congr ((if_neg (not_of_eq_true hup)).trans ((if_neg (mt (mctp_assigns _ _).1 ?_)).trans (if_pos h)))
  rw [h]
  exact fun hassigns => absurd hassigns.1 (by decide)

theorem mctpControl_other {s : State} {msg : List Byte} (hup : endpointUp s = true)
    (h : ¬(leAt msg 2 1 = 1 ∧ leAt msg 4 1 ≠ 0 ∧ leAt msg 4 1 ≠ 255)) (hread : leAt msg 2 1 ≠ 2) :
    execMctpControl msg s = .next (mgmtSend (leBytes 1 0 ++ leBytes 1 (leAt msg 1 1 % 32) ++ leBytes 1 (leAt msg 2 1) ++ leBytes 1 0
      ++ (freeBytes 8 msg s).1) (freeBytes 8 msg s).2) :=
  next_congr ((if_neg (not_of_eq_true hup)).trans ((if_neg (mt (mctp_assigns _ _).1 h)).trans (if_neg hread)))

theorem exec_getCertificate {s : State} (run : ∀ f : State → State, spdmAfter f s = f s) (msg : List Byte) :
    execGetCertificate msg s = .next (if leAt msg 2 1 % 16 ≠ 0 ∨ (Config.chain false).length ≤ leAt msg 4 2 then spdmError spdmInvalid s
      else mgmtSend (spdm 0x02 0 0 (chainPortion false (leAt msg 4 2) (leAt msg 6 2))) s) := by
  unfold execGetCertificate
  simp only [run]
  generalize leAt msg 2 1 % 16 = slot
  by_cases hslot : slot = 0
  · simp [hslot]
  · simp [hslot]

theorem exec_challenge {s : State} (run : ∀ f : State → State, spdmAfter f s = f s) (msg : List Byte) :
    execChallenge msg s = .next (if leAt msg 2 1 ≠ 0 then spdmError spdmInvalid s
      else spdmSigned 0x03 msg (spdm 0x03 0 1 (sha256 (Config.chain false) ++ (freeBytes 32 msg s).1 ++
        (if leAt msg 3 1 = 0 then [] else
          sha256 ((List.range 10).flatMap (fun i => measurementBlock (freeBytes 32 msg s).2 (i + 1)))) ++ zeros 2))
        (freeBytes 32 msg s).2) := by
  unfold execChallenge
  simp only [run, bne_iff_ne]

theorem exec_getMeasurements {s : State} (run : ∀ f : State → State, spdmAfter f s = f s) (msg : List Byte) :
    let op := leAt msg 3 1
    let list := if op = 0 then [] else if op = 255 then (List.range 10).map (· + 1) else [op]
    let record := list.flatMap (measurementBlock s)
    let n := freeBytes 32 msg s
    let resp := spdm 0x60 (if op = 0 then 10 else 0) 0
      (leBytes 1 list.length ++ leBytes 3 record.length ++ record ++ n.1 ++ zeros 2)
    execGetMeasurements msg s = .next (if op ≠ 255 ∧ 10 < op then spdmError spdmInvalid s
      else if bitAt (leAt msg 2 1) 0 then spdmSigned 0x60 msg resp n.2 else mgmtSend resp { n.2 with mgmt.signed := none }) := by
  unfold execGetMeasurements
  simp only [run, noMeasurement_iff]

theorem exec_pqSignature {s : State} (run : ∀ f : State → State, spdmAfter f s = f s) (msg : List Byte) :
    (∀ m, s.mgmt.signed = some m → execPqSignature msg s = .next (vendorResponse msg (mldsaSignature m) s)) ∧
    (s.mgmt.signed = none → execPqSignature msg s = .next (spdmError spdmInvalid s)) := by
  unfold execPqSignature
  simp only [run]
  exact ⟨fun m hm => by rw [hm], fun hm => by rw [hm]⟩

/-- Settles O60: whether the endpoint hears and whether SPDM is served, then each message's own answer. -/
theorem managementCommandsComplete : Obligations.ManagementCommandsComplete := by
  unfold Obligations.ManagementCommandsComplete
  intro addr write msg off v s
  refine ⟨fun haux => next_congr (if_pos haux), provisionalId_low, fun haux => next_congr (if_neg (ne_true_of_eq_false haux)),
    fun hdeaf => exec_endpoint_deaf hdeaf write msg off v, fun hup => ⟨⟨mctpControl_assigns hup, mctpControl_reads hup, mctpControl_other hup⟩,
    fun hmain => next_congr ((if_neg (not_of_eq_true hup)).trans (if_pos (not_eq_true_of_false hmain))), fun r hmain hr => ?_,
    fun hmain hr => ?_, fun hbad => next_congr ((if_neg (not_of_eq_true hup)).trans (if_pos ?_)), fun hmain hoff => ⟨?_, fun r hr => ?_, fun hr => ?_⟩,
    fun hbusy c hc => ?_, fun hmain hboot hready => ?_⟩⟩
  · show execPldm msg s = _
    simp [execPldm, hup, hmain, hr]
  · show execPldm msg s = _
    simp [execPldm, hup, hmain, hr]
  · rw [Bool.or_eq_true, Bool.not_eq_true', bne_iff_ne]
    exact hbad
  · show execMgmtControlAccess true off v s = _
    simp [execMgmtControlAccess, hup, hmain, hoff]
  · show execMgmtControlAccess false off v s = _
    simp [execMgmtControlAccess, hup, hmain, hoff, hr]
  · show execMgmtControlAccess false off v s = _
    simp [execMgmtControlAccess, hup, hmain, hoff, hr]
  · obtain ⟨run, hrun⟩ := exec_spdmRequests hc
    exact (hrun s).trans (next_congr (spdmServe_busy hup hbusy run))
  · have serve := spdmServe_ready hup hmain hboot hready
    refine ⟨next_congr (serve _), next_congr (serve _), next_congr (serve _), fun hneg c hc => ?_, fun hneg => ?_⟩
    · obtain ⟨run, hrun⟩ := exec_spdmNegotiated hc
      exact (hrun s).trans (next_congr (spdmAfter_unexpected hup hmain hboot hready hneg run))
    · have run := spdmAfter_negotiated hup hmain hboot hready hneg
      obtain ⟨signed, unsigned⟩ := exec_pqSignature run msg
      exact ⟨next_congr (run _), exec_getCertificate run msg, exec_challenge run msg, exec_getMeasurements run msg, signed, unsigned,
        next_congr (run _)⟩

end Sys2Proof.Machine
end
